-- ==== Sys2Proof/Word.lean ====
section
/-!
DEFINITION. Word.lean: the smallest units of the machine. The device stores bytes; a table or a field of a register
is held as the natural number its bits spell (little-endian, R12, R13), and the field helpers stand in Machine/Bits.lean.
-/
namespace Sys2Proof

/-- One byte of device memory (R328). -/
abbrev Byte := BitVec 8

end Sys2Proof
end

