-- ==== Sys2Proof/Syntax.lean ====
section
/-!
DEFINITION. Syntax.lean: the commands and events of spec/opcode_table.json, one constructor of Instr per row, and the operands they
carry. An operand is what the command's sender or the world outside the block supplies: a Lerad message, an address, data
read or received, a measurement, a package's contents.
-/
namespace Sys2Proof

/-- The compute stages, in order (R61). -/
inductive Stage where
  | encode | translate | speak
deriving DecidableEq, Repr

/-- Flag-fall policies (Table 2-3). -/
inductive Policy where
  | skip | hold | stop
deriving DecidableEq, Repr

/-- The channel that carries a Lerad command (chapter 12): the admin mailbox or ring pair `n`. -/
inductive Channel where
  | mailbox
  | pair (n : Nat)
deriving DecidableEq, Repr

/-- Number formats of the array (Table 4-1). -/
inductive NumFormat where
  | int4 | int8 | n8f
deriving DecidableEq, Repr

/-- How a package classifies a layer (chapter 5, Running a chunk). -/
inductive LayerKind where
  | parallel | elementwise | matrix
deriving DecidableEq, Repr

/-- A layer of a model package: its kind, output channels and bytes of one group of 64 of them (R102), its activation format with its static zero point (R163), the
precision of its carried state per group of 32 channels, S16 where true (R162), and whether it is bidirectional (R167). -/
structure Layer where
  outChannels : Nat
  groupBytes : Nat
  kind : LayerKind := .parallel
  format : NumFormat := .int8
  zero : Int := 0
  precision : List Bool := []
  bidirectional : Bool := false
deriving DecidableEq, Repr

/-- The S16 groups of a layer's carried state. -/
def Layer.s16 (l : Layer) : Nat := l.precision.countP (fun p => p)

/-- The 8-bit channels of a layer's carried state. -/
def Layer.eight (l : Layer) : Nat := 32 * l.precision.countP (fun p => !p)

/-- The parameters of one tracked tensor (Table 4-4). -/
structure GaugeParam where
  gamma0 : Int
  gmin : Int
  gmax : Int
  tSat : Nat
  quietK : Nat
deriving DecidableEq, Repr

/-- What a package gives of a tracked tensor's parameters. -/
structure GaugeDecl where
  gamma0 : Option Int := none
  gmin : Option Int := none
  gmax : Option Int := none
  tSat : Option Nat := none
  quietK : Option Nat := none
deriving DecidableEq, Repr

/-- R156: the parameters, with Table 4-4's defaults where the package gives none. -/
def GaugeDecl.param (d : GaugeDecl) : GaugeParam :=
  { gamma0 := d.gamma0.getD 0, gmin := d.gmin.getD (-8), gmax := d.gmax.getD 7, tSat := d.tSat.getD 1, quietK := d.quietK.getD 8 }

/-- The requantisation parameters of one output channel (Table 4-3) and the output's format. -/
structure RequantParam where
  mult : Nat
  shift : Nat
  corr : Int := 0
  bias : Int := 0
  zero : Int
  format : NumFormat
deriving DecidableEq, Repr

/-- The attention mode of a layer (R209). -/
inductive AttnMode where
  | full | window | retrieval
deriving DecidableEq, Repr

/-- The attention parameters of one layer (Table 6-7). `group` 0 stands for a layer without G. -/
structure AttnParam where
  mode : AttnMode
  window : Nat
  retrieved : Nat
  horizon : Nat
  group : Nat
  keyZero : Int
deriving DecidableEq, Repr

/-- What a package gives of an attention layer's parameters. -/
structure AttnDecl where
  mode : Option AttnMode := none
  window : Option Nat := none
  retrieved : Option Nat := none
  horizon : Option Nat := none
  group : Option Nat := none
  keyZero : Int := 0
deriving DecidableEq, Repr

/-- R237: the parameters, with Table 6-7's defaults where the package gives none. -/
def AttnDecl.param (d : AttnDecl) : AttnParam :=
  { mode := d.mode.getD .full, window := d.window.getD 64, retrieved := d.retrieved.getD 64, horizon := d.horizon.getD 0, group := d.group.getD 0,
    keyZero := d.keyZero }

/-- One S16 group of carried state: exponent and 32 mantissas (R129, R162). -/
structure S16Group where
  exponent : Int
  mantissas : List Int
deriving DecidableEq, Repr

/-- R129: 32 signed 16-bit mantissas and a 6-bit exponent. -/
def S16Group.shaped (g : S16Group) : Bool :=
  decide (-32 ≤ g.exponent ∧ g.exponent ≤ 31) && g.mantissas.length == 32 && g.mantissas.all (fun m => decide (-32768 ≤ m ∧ m ≤ 32767))

/-- What a model package declares (R9, Table 13-9 and the parameter tables the package fills). -/
structure Package where
  kind : Nat
  format : Nat
  periods : Nat
  laMin : Nat
  rowLimit : Nat
  rowsPerItem : List Nat
  seqs : Nat
  actKib : Nat
  weightBytes : Nat
  programBytes : Nat := 0
  entryBytes : Nat
  inputBytes : Nat
  digest : Nat
  layers : List Layer
  gauges : List GaugeDecl
  requants : List RequantParam
  renormPeriod : Option Nat
  preEmphasis : Int
  initGroups : List S16Group
  initChannels : List Int
  attention : List AttnDecl
  bucketMode : Bool
  languages : List Nat
  voices : List Nat
  vocabulary : Nat
deriving DecidableEq, Repr

/-- The state footprint F of an object, in bytes; none where a package carries neither state nor gauges (R169, Table 13-9). -/
def Package.footprint (k : Package) : Nat :=
  let bytes := (k.layers.map (fun l => 66 * l.s16 + l.eight)).foldl (· + ·) 0 + 4 * k.gauges.length
  if bytes = 0 then 0 else (64 + bytes + 63) / 64 * 64

/-- R_p, 4 where the package gives none (Table 5-1). -/
def Package.renorm (k : Package) : Nat := k.renormPeriod.getD 4

/-- A package as read from the host: what the checks of Table 13-8 find. `badOffset` is the byte offset of the first failing item. -/
structure PackageImage where
  formatOk : Bool
  targetOk : Bool
  declaredBytes : Nat
  checksumOk : Bool
  kindOk : Bool
  gaugeStoredOk : Bool
  stateOk : Bool
  info : Package
  badOffset : Nat
deriving DecidableEq, Repr

/-- One partition's entry of a site configuration image (Table 16-11). -/
structure SitePart where
  streams : Nat
  branches : Nat
  pipelines : Nat
  models : Nat
  memBytes : Nat
  windowMib : Nat
  nPool : Nat
  shareQ : Nat
  shareC : Nat
  shareK : Nat
  tdmPorts : Nat
  hostLoss : Nat
  trim : Nat
deriving DecidableEq, Repr

/-- A site configuration (Tables 16-9 to 16-11): the values a valid image carries. -/
structure SiteConfig where
  planPort : Nat
  dedup : Bool
  scrubHours : Nat
  digests : List Nat
  cacheQ : Nat
  cacheC : Nat
  cacheK : Nat
  cap : Nat
  sharedMib : Nat
  parts : List SitePart
deriving DecidableEq, Repr

/-- What the device reads from host memory on behalf of a command, beyond the message itself. -/
inductive HostData where
  | nothing
  | failed
  | tokens (ids : List Nat)
  | image (signatureOk targetOk : Bool) (version lengthBytes : Nat)
  | site (image : Nat)
deriving DecidableEq, Repr

/-- A Lerad command as its channel carries it: the header of Table 12-1, the inline payload bytes and, with EXT set, the bytes
read through the pointer (none: that read failed). -/
structure Call where
  port : Nat
  chan : Channel
  opcode : Nat
  ext : Bool
  fence : Bool
  resFlags : Nat
  version : Nat
  tag : Nat
  length : Nat
  handle : Nat
  body : Nat
  extBytes : Option Nat
  data : HostData
deriving DecidableEq, Repr

/-- One submission entry as read from host memory: 64 bytes, and what its EXT pointer and its command read. -/
structure SqEntry where
  bytes : Nat
  extBytes : Option Nat
  data : HostData
deriving DecidableEq, Repr

/-- The status a PCI Express completion carries (R425). -/
inductive CplStatus where
  | ok | unsupportedRequest | completerAbort
deriving DecidableEq, Repr

/-- The data a completion carries, by what the request asked for. -/
inductive CplData where
  | none
  | entries (es : List SqEntry)
  | raw (value : Nat)
deriving DecidableEq, Repr

/-- The weight format of a block product, and whether it begins a reduction: its accumulators start from 0 (R133). -/
structure BlockHead where
  fmt : NumFormat
  begins : Bool
deriving DecidableEq, Repr

/-- A stitch: the header of Table 8-2 and its payload bytes (R288). -/
structure Stitch where
  dest : Nat
  source : Nat
  seq : Nat
  cls : Nat
  kind : Nat
  fence : Bool
  multicast : Bool
  last : Bool
  length : Nat
  tag : Nat
  payload : Nat
deriving DecidableEq, Repr

/-- What the receiver of a link finds in one sideband word and stitch (Table 8-6, R293): the hop sequence, the stitch, the byte errors
in it, the detours it has taken, the acknowledgement of the other direction and both parities. -/
structure HopWord where
  hopSeq : Nat
  stitch : Option Stitch
  byteErrors : Nat
  detours : Nat
  fwdParity : Bool
  ackSeq : Nat
  nak : Bool
  credits : Nat
  revParity : Bool
deriving DecidableEq, Repr

/-- A management medium (chapter 18 Model): SMBus, or a host port's vendor-defined messages. -/
inductive Medium where
  | smbus
  | host (n : Nat)
deriving DecidableEq, Repr

/-- An MCTP packet as it arrives (R646, R647): destination EID, source EID, start and end marks, sequence, tag, payload bytes and,
on SMBus, whether the PEC checks and the 7-bit slave address it is sent to (R640). -/
structure MctpPacket where
  dstEid : Nat
  srcEid : Nat
  som : Bool
  eom : Bool
  pktSeq : Nat
  msgTag : Nat
  payload : List Nat
  pecOk : Bool
  slave : Nat
deriving DecidableEq, Repr

/-- The addressing of a management request: its medium, the EID it is addressed to, the requester's EID, its instance and tag. -/
structure MgmtReq where
  medium : Medium
  dstEid : Nat
  srcEid : Nat
  inst : Nat
deriving DecidableEq, Repr

/-- Rows an encode task appends to one encoder sequence of a stream (R200): the stream, the sequence, and each position's 256 codes (key then value). -/
structure KvAppend where
  slot : Nat
  idx : Nat
  rows : List (List Nat)
deriving DecidableEq, Repr

/-- Per-channel requantisation operands: M, s, K, B, z (Table 4-3). -/
structure RequantRow where
  mult : Nat
  shift : Nat
  corr : Int
  bias : Int
  zero : Int
deriving DecidableEq, Repr

/-- Where a layer's input takes its gauge exponent from (R131, R146): an untracked tensor has none, a tracked tensor of the stage its own entry's, an input from a
handoff ring the one recorded with the chunk it belongs to. -/
inductive GammaSource where
  | none | own (obj tensor : Nat) | handoff (obj row tensor : Nat)
deriving DecidableEq, Repr

/-- The special functions of Table 4-6. -/
inductive Special where
  | sigmoid | tanh | exp2 | log2 | reciprocal | rsqrt
deriving DecidableEq, Repr

/-- The kind of word an uncorrectable tile SRAM error hit (R99). -/
inductive BadWord where
  | weight | activation | state (stage : Stage) (obj : Nat)
deriving DecidableEq, Repr

/-- What the vector unit does to one S16 group at one position of a scan (R138, R139, R159): every lane multiplied by a coefficient and shifted back, a group
added after alignment, or, in a matrix layer, the group its round has computed put in its place (R160). -/
inductive LaneStep where
  | mul (coefs : List Int) (shift : Int)
  | add (g : S16Group)
  | put (g : S16Group)
deriving DecidableEq, Repr

/-- One thing a tile does within a dispatched task, as its program and the data it reads make it (R99, R105, R132 to R143, R146, R158 to R167, R201).
`segment`: rows of the tile have used a weight segment. `scan` runs a group of a layer's state over positions and, on a scratch copy, over those of the right
context; `backward` is the backward direction of a bidirectional layer. `attend` names a sequence for one row or decode step and gives the query zero point and the
query of each head of the group; `page` is the work on the next page it selected, with each head's queries and weights (R208 to R211). `token` commits a token with the
position it appends to each decoder sequence, `frame` commits a 10 ms frame (R85). `arm` with `output` arms the barrier of the task's handoff writes (R264). `store` writes the
tile's activation codes to its activation region, and `load` reads codes from there (R126). -/
inductive TileOp where
  | segment (slice seg rows : Nat)
  | reduce (fmt : NumFormat) (pairs : List (Nat × Nat))
  | requant (acc param : Nat) (input : GammaSource) (track : Option (Nat × Nat))
  | store (fmt : NumFormat) (offset : Nat)
  | load (fmt : NumFormat) (offset count : Nat)
  | enter (fmt : NumFormat) (code : Nat) (zero : Int)
  | vmul (a b shift : Int)
  | vadd (a b : Int)
  | vshift (x amount : Int)
  | combine (a b : S16Group)
  | special (f : Special) (frac : Nat) (x : Int)
  | scan (obj layer group : Nat) (steps context : List (List LaneStep))
  | backward (obj layer : Nat) (steps : List (List LaneStep))
  | channel (obj layer index acc param : Nat) (input : GammaSource)
  | append (a : KvAppend)
  | attend (decoder : Bool) (slot idx row : Nat) (queryZero : Int) (queries : List (List Nat))
  | page (fmt : NumFormat) (queries weights : List (List Nat))
  | token (branch id : Nat) (rows : List (List Nat))
  | frame (branch : Nat)
  | needle (pair base size : Nat) (outbound : Bool)
  | arm (index expect : Nat) (output : Bool) (owingTasks : List Nat) (owingRings : List (Nat × Nat))
  | barrierWait (index : Nat)
  | send (endpoint cls kind stitches : Nat)
  | sendMember (group member cls kind stitches : Nat)
  | corrected (n : Nat)
  | bad (address : Nat) (w : BadWord)
deriving DecidableEq, Repr

/-- What one item of a finished task leaves beyond what its TASK steps wrote: whether nothing is pending (R179), and speech samples. -/
structure ItemResult where
  obj : Nat
  row : Nat
  idle : Bool
  samples : List Int
deriving DecidableEq, Repr

/-- What a finished task leaves, item by item. -/
structure TaskResult where
  items : List ItemResult
deriving DecidableEq, Repr

/-- One governor window's measurements (R565, R566, R575). -/
structure Measurement where
  millivolts : Nat
  milliamps : Nat
  otherMilliwatts : Nat
  regulatorTemp : Nat
  sensors : List Int
deriving DecidableEq, Repr

/-- A descriptor ring the firmware lays out at CONFIG (R242). -/
structure RingSetup where
  feeder : Nat
  ring : Nat
  base : Nat
  log : Nat
deriving DecidableEq, Repr

/-- What a host clears or sets to unmask MSI-X vectors (R400). -/
inductive Unmask where
  | enable | functionMask | vector (n : Nat)
deriving DecidableEq, Repr

/-- The commands and events: one constructor per row of the table, in the table's order. -/
inductive Instr where
  | ringPairCreate (c : Call)
  | ringPairDelete (c : Call)
  | eventRingSet (c : Call)
  | coalesceSet (c : Call)
  | nop (c : Call)
  | partitionQuery (c : Call)
  | partitionQuotaSet (c : Call)
  | partitionHostLossSet (c : Call)
  | partitionTrimSet (c : Call)
  | siteQuery (c : Call)
  | apertureRegister (c : Call)
  | apertureDeregister (c : Call)
  | modelLoad (c : Call)
  | modelPlacement (port load : Nat) (image : PackageImage)
  | modelQuery (c : Call)
  | modelUnload (c : Call)
  | modelList (c : Call)
  | pipelineCreate (c : Call)
  | bindingReady (pipe : Nat)
  | relayout (flank : Nat)
  | pipelineQuery (c : Call)
  | pipelinePrefixSet (c : Call)
  | pipelineDelete (c : Call)
  | pipelineList (c : Call)
  | streamCastOn (c : Call)
  | castOnAllocationDone (stream : Nat)
  | streamFeed (c : Call)
  | streamPause (c : Call)
  | streamResume (c : Call)
  | streamRewind (c : Call)
  | streamBindOff (c : Call)
  | streamInputSet (c : Call)
  | streamInputSetEffect (stream : Nat)
  | streamQuery (c : Call)
  | streamList (c : Call)
  | branchAttach (c : Call)
  | attachAllocationDone (branch : Nat)
  | branchDetach (c : Call)
  | branchResume (c : Call)
  | branchOutputSet (c : Call)
  | branchOutputSetEffect (branch : Nat)
  | branchQuery (c : Call)
  | portConfigure (c : Call)
  | portEnable (c : Call)
  | portEnableEffect (tdm : Nat)
  | portQuery (c : Call)
  | telemetryRead (c : Call)
  | diagJournalRead (c : Call)
  | diagInject (c : Call)
  | diagTdmLoopback (c : Call)
  | loopbackEffect (tdm : Nat)
  | deviceQuery (c : Call)
  | powerCapSet (c : Call)
  | firmwareStage (c : Call)
  | flashWriteDone (ok : Bool)
  | firmwareActivate (c : Call)
  | deviceReset (c : Call)
  | resetDtReached
  | siteConfigStage (c : Call)
  | commandTimeLimit (port id : Nat)
  | go (port : Nat) (extBytes : Option Nat) (data : HostData)
  | doneClear (port : Nat) (irqEn : Bool)
  | inboundWrite (port offset size value : Nat)
  | submissionTailDoorbell (port pair value : Nat)
  | completionHeadDoorbell (port pair value : Nat)
  | eventRingHeadDoorbell (port value : Nat)
  | dtLoRead (port : Nat)
  | reservedOffsetAccess (port : Nat) (write : Bool) (offset size : Nat)
  | mmioSize (port : Nat) (write : Bool) (offset size : Nat)
  | mmioPoisoned (port offset size : Nat)
  | registerWrite (port offset size value : Nat)
  | vectorUnmask (port : Nat) (what : Unmask)
  | perstAsserted (port : Nat)
  | perstReleased (port : Nat)
  | hotReset (port : Nat)
  | flr (port : Nat)
  | configSpaceReady (port : Nat)
  | hostLossApply (port : Nat)
  | dlUp (port : Nat)
  | dlDown (port : Nat)
  | d3hot (port : Nat)
  | d0Return (port : Nat)
  | busMasterEnable (port : Nat) (on : Bool)
  | entryFetch (port : Nat)
  | entryFetchRetry (port pair : Nat)
  | aggTimeExpiry (port vector : Nat)
  | hostCompletion (port tag : Nat) (status : CplStatus) (poisoned : Bool) (data : CplData)
  | completionTimeout (port tag : Nat)
  | quarantineEnd (port tag : Nat)
  | feederRingDoorbell (feeder ring tail deadline : Nat) (descs : List Nat)
  | skein (feeder ring : Nat)
  | descriptorStart (feeder : Nat)
  | requestIssue (feeder : Nat)
  | done (feeder tag : Nat)
  | data (feeder tag : Nat)
  | swap (tile pair : Nat)
  | arrive (flank index op : Nat)
  | stalemateCheck (flank index : Nat)
  | memTimeout (feeder tag : Nat)
  | read (feeder tag : Nat) (upset : List (Nat × Nat))
  | write (feeder tag : Nat)
  | put16 (feeder tag : Nat) (upset : List (Nat × Nat))
  | zero (feeder tag : Nat)
  | refreshForced (channel : Nat)
  | scrubRead (channel : Nat) (upset : List (Nat × Nat))
  | stackTemperatureReadout (stack temp : Nat)
  | controllerReset (channel : Nat)
  | controllerResetDone (channel : Nat)
  | hopReceive (tile port : Nat) (word : HopWord)
  | nak (tile port ackSeq : Nat)
  | hopAckTimeout (tile port : Nat)
  | linkGiveUp (tile port : Nat)
  | invalidSidebandLimit (tile port : Nat)
  | e2eStitchArrival (endpoint : Nat) (st : Stitch)
  | credit (src dst value : Nat) (multicast : Bool)
  | creditTimer (src dst : Nat)
  | openCtx (src dst : Nat)
  | closeCtx (src dst : Nat)
  | closeAck (src dst : Nat)
  | probe (src dst : Nat)
  | probeTimer (src dst : Nat)
  | probeGiveUp (src dst : Nat)
  | unreachable (src dst sequence : Nat)
  | multicastStitch (tile : Nat) (st : Stitch)
  | notice (endpoint : Nat) (st : Stitch)
  | lookup (tile ppn : Nat)
  | holder (tile ppn holder : Nat)
  | noneAnswer (tile ppn : Nat)
  | peerRead (holder ppn requester : Nat)
  | evict (tile ppn : Nat)
  | invalidate (tile ppn : Nat)
  | dropped (tile ppn : Nat)
  | notHeld (tile ppn : Nat)
  | sweepStart (ppn : Nat)
  | sweepComplete (ppn : Nat)
  | copyOnWriteDone (ppn : Nat)
  | itemEligible (stage : Stage) (obj row rows attended : Nat)
  | dispatchTimer (flank : Nat)
  | task (tile : Nat) (work : List TileOp)
  | blockProduct (tile : Nat) (head : BlockHead) (x w first rerun : List (List Int))
  | drainComplete (flank : Nat)
  | spareLoaded (flank : Nat)
  | resliceLoaded (flank : Nat)
  | taskEnd (flank : Nat) (result : TaskResult)
  | taskWatchdog (flank : Nat)
  | flagFall (branch : Nat) (stage : Stage) (row : Nat)
  | flagFallIntervalEnd (branch : Nat)
  | chunkClose (stream : Nat)
  | frameClose (stream : Nat)
  | ingressConditioningDone (stream : Nat)
  | castlingInStart (flank : Nat)
  | castlingInDone (stream : Nat)
  | commitComplete (stage : Stage) (obj : Nat)
  | frogRestoreDone (stream : Nat)
  | zeroisationStart (ofBranch : Bool) (slot : Nat)
  | zeroisationDone (stream : Nat)
  | branchZeroised (branch : Nat)
  | outputChunkStart (branch : Nat)
  | tdmFrame (tdm : Nat) (words : List Nat)
  | hostFrameFetch (stream : Nat)
  | outputRingFrameWrite (branch consumed : Nat)
  | governorWindow (m : Measurement)
  | trimUpdate (trim : Int)
  | avsTargetReached
  | voltageWaitTimeout
  | avsTransactionFail
  | regulatorFault
  | prochotAsserted
  | prochotDeasserted
  | sensorRecalibration (sensor : Nat)
  | thermalTrip
  | lossOfLock
  | lockRegained
  | coldReset (straps : Nat)
  | sysReset (nanoseconds : Nat)
  | resetEnd
  | rom (flashReadable : Bool)
  | imageCheck (passed : Bool)
  | training (failing : Option Nat)
  | clear
  | selfTest (failing : List Nat)
  | config (rings : List RingSetup)
  | fwWatchdog
  | bootTimeout
  | watchdogRefreshStop
  | snapshotRefresh
  | mctpPacket (medium : Medium) (packet : MctpPacket)
  | setEndpointId (r : MgmtReq) (operation eid : Nat)
  | getEndpointId (r : MgmtReq)
  | getEndpointUuid (r : MgmtReq)
  | getMctpVersionSupport (r : MgmtReq) (type : Nat)
  | getMessageTypeSupport (r : MgmtReq)
  | getVendorDefinedMessageSupport (r : MgmtReq)
  | prepareForEndpointDiscovery (r : MgmtReq)
  | endpointDiscovery (r : MgmtReq)
  | getNetworkId (r : MgmtReq)
  | setTid (r : MgmtReq) (tid : Nat)
  | getTid (r : MgmtReq)
  | getPldmVersion (r : MgmtReq) (type : Nat)
  | getPldmTypes (r : MgmtReq)
  | getPldmCommands (r : MgmtReq) (type : Nat)
  | setEventReceiver (r : MgmtReq) (enable eid : Nat)
  | getEventReceiver (r : MgmtReq)
  | getSensorReading (r : MgmtReq) (sensor : Nat)
  | getSensorThresholds (r : MgmtReq) (sensor : Nat)
  | getStateSensorReadings (r : MgmtReq) (sensor : Nat)
  | getPdrRepositoryInfo (r : MgmtReq)
  | getPdr (r : MgmtReq) (record : Nat)
  | platformEventAck (medium : Medium) (sensor : Nat)
  | platformEventRetry (sensor : Nat)
  | eventRateIntervalEnd (sensor : Nat)
  | smbusRetry (lost : Bool)
  | instructionUpdate (code cells : Nat)
  | testLogicReset
  | powerRemoval (aon : Bool)
  | vddIoReturn
  | hotResetExit (port : Nat)
  | drainTimeout (flank : Nat)
  | perBankRefresh (channel : Nat)
  | relayoutDone (flank : Nat)
  | smbusBusTimeout
deriving DecidableEq, Repr

end Sys2Proof
end

