-- ==== Sys2Proof/Config.lean ====
section
/-!
DEFINITION. Config.lean: the free values. Each is a constant without a body: the manual leaves the value open, nothing here chooses it,
and a claim holds whatever it is. The assumption log names each.
-/
namespace Sys2Proof.Config

/-- A fresh value each time the machine needs one the manual leaves open: applied to the counter State.free. R299's pseudo-random
tie-break is the use of it. -/
opaque freeValue : Nat → Nat

/-- The firmware's estimate of a task's duration in ticks: from the (rows, ticks, TCLK divisor) of the tasks of the last 16 chunks,
the rows of the batch and the divisor now (R79, R111, R572). The manual gives no formula. -/
opaque estimate : List (Nat × Nat × Nat) → Nat → Nat → Nat

/-- The error a Reed-Solomon syndrome locates when two or more bytes of a burst are wrong: none, or the single byte the controller will
wrongly correct and the difference it applies (R331). First argument: burst number; second: (offset, difference) of the wrong bytes. -/
opaque eccLocates : Nat → List (Nat × Nat) → Option (Nat × Nat)

/-- Whether a SYS_RESET_N pulse of at least 1 µs and under 10 µs starts a device reset (R583, R584); the argument is its nanoseconds. -/
opaque shortPulseResets : Nat → Bool

/-- Which of the results within the error bound of Table 4-6 the special-function unit gives (R142, R143): the function, the declared fraction bits and the input. -/
opaque specialFunction : Special → Nat → Int → Nat

/-- The difference an injection inverts a byte with never varies (it inverts all eight bits), but which byte of the burst it takes is the
device's choice (R541): the burst, and how many bytes are inverted already. -/
opaque injectPosition : Nat → Nat → Nat

/-- Whether the firmware keeps a hold buffer or the barrier spill area at a burst of the FW window (Table 9-2, R629): the manual gives no places. -/
opaque fwSpill : Nat → Bool

/-- The payload of a message's stitch number `j` (R292): its bit layout is internal to the device; the first argument numbers what the message carries. -/
opaque payload : Nat → Nat → BitVec 256

/-- PAYLOAD_LENGTH of stitch number `j` of a message of a class and kind (Table 8-2): the layout of its contents is internal (R292). -/
opaque payloadLength : Nat → Nat → Nat → Nat

/-- The PDR repository's size and its largest record's size in bytes (R658): the same in every unit, and not stated. -/
opaque pdrSizes : Nat × Nat

end Sys2Proof.Config
end

