-- ==== Sys2Proof/Machine/Bits.lean ====
section
/-!
DEFINITION. Machine/Bits.lean: bit fields, byte order, signed readings and wrapping counters. A message, register or record
is a natural number whose bit 0 is the least significant bit of byte 0 (R12, R13).
-/
namespace Sys2Proof.Machine

/-- Bits [lo + w - 1 : lo] of `x` (R12). -/
def field (x lo w : Nat) : Nat := x / 2 ^ lo % 2 ^ w

/-- One bit of `x` as a truth value. -/
def flag (x lo : Nat) : Bool := field x lo 1 == 1

/-- A record's fields, least significant first, each as (width in bits, value), packed into one number (R12). -/
def pack : List (Nat × Nat) → Nat
  | [] => 0
  | (w, v) :: rest => v % 2 ^ w + 2 ^ w * pack rest

/-- The number of bits a list of fields takes. -/
def packWidth : List (Nat × Nat) → Nat
  | [] => 0
  | (w, _) :: rest => w + packWidth rest

/-- The value 1 or 0 of a truth value, for a one-bit field. -/
def bit (b : Bool) : Nat := if b then 1 else 0

/-- Records of one width (bits) laid one after another from the lowest address. -/
def concatRecords (w : Nat) : List Nat → Nat
  | [] => 0
  | v :: rest => v % 2 ^ w + 2 ^ w * concatRecords w rest

/-- The two's complement reading of the low `w` bits. -/
def signed (w x : Nat) : Int :=
  let v := x % 2 ^ w
  if v < 2 ^ (w - 1) then (v : Int) else (v : Int) - 2 ^ w

/-- The low `w` bits of an integer as a two's complement code. -/
def unsigned (w : Nat) (x : Int) : Nat := (x % (2 ^ w : Int)).toNat

/-- A value that is a whole multiple of `m` and not below `x`. -/
def roundUp (x m : Nat) : Nat := if m = 0 then x else (x + m - 1) / m * m

/-- The quotient rounded up. -/
def ceilDiv (x m : Nat) : Nat := if m = 0 then 0 else (x + m - 1) / m

/-- A counter of `w` bits after `n` more counts (wrapping, as every counter of stated width). -/
def bump (w x n : Nat) : Nat := (x + n) % 2 ^ w

/-- The low 32 bits of a DT value: a 32-bit deadline (R21). -/
def low32 (t : Nat) : Nat := t % 2 ^ 32

/-- R22: `a` is later than `b` when (a - b) mod 2^32 is at least 1 and at most 2^31 - 1. -/
def later32 (a b : Nat) : Bool :=
  let d := (a + 2 ^ 32 - b % 2 ^ 32) % 2 ^ 32
  decide (1 ≤ d ∧ d ≤ 2 ^ 31 - 1)

/-- R22: `a` is earlier than `b` when (a - b) mod 2^32 is at least 2^31. -/
def earlier32 (a b : Nat) : Bool :=
  let d := (a + 2 ^ 32 - b % 2 ^ 32) % 2 ^ 32
  decide (2 ^ 31 ≤ d)

/-- The difference of two 32-bit counters, modulo 2^32 (R56, R57). -/
def sub32 (a b : Nat) : Nat := (a + 2 ^ 32 - b % 2 ^ 32) % 2 ^ 32

/-- Division of integers rounding toward zero (R136). -/
def divZero (a b : Int) : Int := Int.tdiv a b

/-- A value clamped to a closed range. -/
def clampInt (lo hi x : Int) : Int := if x < lo then lo else if hi < x then hi else x

end Sys2Proof.Machine
end

