-- ==== Sys2Proof/Machine/Table.lean ====
section
/-!
DEFINITION. Machine/Table.lean: a sparse table in one canonical form. Keys rise strictly and no entry equals what an unlisted key
reads as, so that equal tables are equal data. Every register file, object table and memory of the device is held so.
-/
namespace Sys2Proof.Machine

/-- A table of values by key. What an unlisted key reads as is the `dflt` each accessor gives. -/
abbrev Table (α : Type) := List (Nat × α)

/-- The value at key `k`. -/
def Table.get {α : Type} (dflt : α) : Table α → Nat → α
  | [], _ => dflt
  | (j, v) :: rest, k => if j = k then v else if k < j then dflt else Table.get dflt rest k

/-- The table without an entry at key `k`. -/
def Table.erase {α : Type} : Table α → Nat → Table α
  | [], _ => []
  | (j, v) :: rest, k => if j = k then rest else if k < j then (j, v) :: rest else (j, v) :: Table.erase rest k

/-- The table with key `k` holding `v`, kept in key order. -/
def Table.insert {α : Type} : Table α → Nat → α → Table α
  | [], k, v => [(k, v)]
  | (j, w) :: rest, k, v =>
    if j = k then (k, v) :: rest else if k < j then (k, v) :: (j, w) :: rest else (j, w) :: Table.insert rest k v

/-- Writing `v` at key `k`: writing what an unlisted key reads as removes the entry. -/
def Table.set {α : Type} [DecidableEq α] (dflt : α) (t : Table α) (k : Nat) (v : α) : Table α :=
  if v = dflt then t.erase k else t.insert k v

/-- Changing the value at key `k`. -/
def Table.upd {α : Type} [DecidableEq α] (dflt : α) (t : Table α) (k : Nat) (f : α → α) : Table α :=
  t.set dflt k (f (t.get dflt k))

/-- Keys rise strictly and none is below `lo`. -/
def Table.sortedFrom {α : Type} : Nat → Table α → Bool
  | _, [] => true
  | lo, (j, _) :: rest => decide (lo ≤ j) && Table.sortedFrom (j + 1) rest

/-- The canonical form: keys rise strictly and no entry equals the default. -/
def Table.wf {α : Type} [DecidableEq α] (dflt : α) (t : Table α) : Bool :=
  Table.sortedFrom 0 t && t.all (fun e => decide (e.2 ≠ dflt))

/-- The table with every key that `p` selects back at the default. -/
def Table.clear {α : Type} (p : Nat → Bool) (t : Table α) : Table α := t.filter (fun e => !p e.1)

/-- Every listed value changed, the form kept. -/
def Table.mapVals {α : Type} [DecidableEq α] (dflt : α) (f : Nat → α → α) (t : Table α) : Table α :=
  (t.map (fun e => (e.1, f e.1 e.2))).filter (fun e => decide (e.2 ≠ dflt))

/-- The least key in `lo, lo + 1, …, lo + n - 1` whose value satisfies `p`. -/
def Table.firstWhere {α : Type} (dflt : α) (t : Table α) (p : α → Bool) (lo n : Nat) : Option Nat :=
  (List.range' lo n).find? (fun k => p (t.get dflt k))

end Sys2Proof.Machine
end

