-- ==== Sys2Proof/Machine/StateRun.lean ====
section
/-!
DEFINITION. Machine/StateRun.lean: partitions, models, pipelines, streams, branches, carried state and handoff rings
(chapters 2, 4, 5, 13 and 14).
-/
namespace Sys2Proof.Machine

/-- Stream states (Table 2-6). -/
inductive StreamState where
  | closed | castOn | resident | castled | paused | frogging | bindingOff
deriving DecidableEq, Repr

/-- Branch states (Table 2-7). -/
inductive BranchState where
  | absent | attaching | active | stopped | detaching
deriving DecidableEq, Repr

/-- A partition: quota record (Table 13-3), window (Table 9-2), attributes and counters (Tables 6-9, 14-9). -/
structure Partition where
  streams : Nat := 0
  branches : Nat := 0
  pipelines : Nat := 0
  models : Nat := 0
  memBytes : Nat := 0
  shareQ : Nat := 1
  shareC : Nat := 1
  shareK : Nat := 1
  tdmPorts : Nat := 0
  windowBase : Nat := 0
  windowMib : Nat := 0
  nPool : Nat := 0
  hlTdm : Nat := 0
  hlHost : Nat := 1
  trimNone : Bool := false
  zeroise : Nat := 0
  castOns : Nat := 0
  bindOffs : Nat := 0
  detaches : Nat := 0
  cowCopies : Nat := 0
  pagesTrimmed : Nat := 0
  lookups : Nat := 0
  cachePeer : Nat := 0
  cacheMemory : Nat := 0
  invalidates : Nat := 0
  crossings : Nat := 0
  sweepSlotsWon : Nat := 0
  exhausted : Nat := 0
  episodePages : Bool := false
  episodeTable : Bool := false
  allocated : Nat := 0
  unswept : Nat := 0
  reservedPages : Nat := 0
  tableEntries : Nat := 0
deriving DecidableEq, Repr

/-- Site values every partition may know, and the site's cap (Table 13-5, Table 16-11). -/
structure Site where
  planPort : Nat := 0
  dedup : Bool := false
  scrubHours : Nat := 24
  digests : List Nat := []
  cacheQ : Nat := 0
  cacheC : Nat := 0
  cacheK : Nat := 0
  cap : Nat := 28
  sharedMib : Nat := 0
deriving DecidableEq, Repr

/-- Model content: what was placed, where, and who names it (R493, R496). Private content has one naming slot. -/
structure Content where
  live : Bool := false
  pkg : Option Package := none
  shared : Bool := false
  owner : Nat := 0
  pages : Nat := 0
deriving DecidableEq, Repr

/-- A model slot (R440). -/
structure ModelSlot where
  live : Bool := false
  part : Nat := 0
  gen : Nat := 0
  content : Nat := 0
deriving DecidableEq, Repr

/-- A model load whose package is being read (R491): its command, the source, the reserved pages, the operation its reads belong to. -/
structure ModelLoad where
  id : Nat
  port : Nat
  cmd : Nat
  aperture : Nat
  offset : Nat
  pages : Nat
  op : Nat
  failed : Bool := false
  erasing : Bool := false
deriving DecidableEq, Repr

/-- One stage of a pipeline (Table 13-11); `content` is the content its model names. -/
structure StageCfg where
  present : Bool := false
  flank : Nat := 0
  lookahead : Nat := 0
  model : Nat := 0
  content : Nat := 0
  budget : Nat := 0
deriving DecidableEq, Repr

/-- A pipeline slot (Table 13-10). `ready` holds once its create command has completed; `deleting` while a delete waits. -/
structure Pipeline where
  live : Bool := false
  part : Nat := 0
  gen : Nat := 0
  period : Nat := 0
  commit : Nat := 1
  gambit : Nat := 0
  fanout : Nat := 0
  encode : StageCfg := {}
  translate : StageCfg := {}
  speak : StageCfg := {}
  ready : Bool := false
  deleting : Bool := false
  prefixTokens : Nat := 0
  prefixPages : List Nat := []
deriving DecidableEq, Repr

/-- One gauge entry (Table 4-5). -/
structure Gauge where
  gamma : Int := 0
  quiet : Nat := 0
  atBound : Bool := false
  satLast : Nat := 0
deriving DecidableEq, Repr

/-- The contents of a state store slot beyond its header: tokens, gauges, S16 groups, 8-bit channels (R171). -/
structure Carried where
  tokens : Nat := 0
  gauges : List Gauge := []
  groups : List S16Group := []
  channels : List Int := []
deriving DecidableEq, Repr

/-- Why a section is being committed. -/
inductive CommitWhy where
  | interval | castOut | pause
deriving DecidableEq, Repr

/-- A commit in flight (R174): the row and the contents it writes to the half that is not current, and its chunk's stage deadline. -/
structure Commit where
  row : Nat
  data : Carried
  idle : Bool
  why : CommitWhy
  deadline : Nat := 0
deriving DecidableEq, Repr

/-- A section of a lifeline: directory entry (Table 5-3), halves, and the state store slot that works on it (Table 5-2). `next` is the next chunk to complete at
the stage, `delivered` the next chunk whose output has not been delivered (R190), `again` the re-run chunks not yet dispatched or fallen (R73), `lost` whether a frog must restore it, `home` the logical tile ID a retired
tile's slot is restored to (R117). `kept` is the working copy at its last commit within a chunk (R85), `nextCommit` a commit that fell due while another is in flight (R175),
`past` what each chunk after ROW left, so that a shadow chunk leaves the same (R153, R191), `views` the lengths of the encoder sequences each such chunk reads, as they
stood at its first dispatch (R211). -/
structure Sect where
  valid : Bool := false
  row : Nat := 0
  seq : Nat := 0
  size : Nat := 0
  dirIdle : Bool := false
  half0 : Carried := {}
  half1 : Carried := {}
  tile : Option Nat := none
  slotRow : Nat := 0
  idle : Bool := false
  dirty : Bool := false
  work : Carried := {}
  kept : Carried := {}
  sinceCommit : Nat := 0
  commit : Option Commit := none
  nextCommit : Option Commit := none
  next : Nat := 0
  delivered : Nat := 0
  again : List Nat := []
  past : List (Nat × Carried) := []
  views : List (Nat × Nat × Nat) := []
  lost : Bool := false
  home : Option Nat := none
deriving DecidableEq, Repr

/-- A handoff ring entry (R176, R366, Table 10-3): chunk, gap frames, voice activity, DT of the first sample, recorded exponents; on the ring into encode
the frames' voice activity, the samples saturated and the samples. -/
structure Entry where
  row : Nat
  gaps : Nat
  va : Bool
  firstDt : Nat
  gammas : List Int
  ready : Bool
  passed : Bool
  vaFrames : Nat := 0
  saturations : Nat := 0
  samples : List Int := []
deriving DecidableEq, Repr

/-- A host audio ring attached to a stream or branch (R382 to R386). `rate` is in kHz, 0 for TOKENS. -/
structure HostRing where
  aperture : Nat
  offset : Nat
  log : Nat
  rate : Nat
  vector : Nat
  notify : Nat
  produced : Nat := 0
  consumed : Nat := 0
  sinceNotify : Nat := 0
deriving DecidableEq, Repr

/-- The source of a stream's input (Table 14-2); `none` after a port reset removed a host ring (R410). -/
inductive Source where
  | none
  | tdm (port slot : Nat)
  | ring (r : HostRing)
deriving DecidableEq, Repr

/-- A pause that waits for the next chunk close (R69), or for FROGGING to end (R67). -/
inductive PauseWhy where
  | command | hostLoss
deriving DecidableEq, Repr

/-- A frog in progress (R189): its cause code (Table 14-13) and the chunks it re-runs. -/
structure Frog where
  cause : Nat
  rewind : Bool
  restored : Bool
  count : Nat
deriving DecidableEq, Repr

/-- Zeroisation in progress (R89): when it was asked for, whether its writes were issued, the pages it frees; `drain`: a branch's closed chunks still run and
play (R87). -/
structure Zeroise where
  acceptDt : Nat
  drain : Bool := false
  started : Bool
  done : Bool
  pages : List Nat := []
  commanded : Bool := true
deriving DecidableEq, Repr

/-- Stream counters (Table 14-9, group 0x0E). -/
structure StreamCounters where
  chunksClosed : Nat := 0
  chunksPassed : Nat := 0
  castleOuts : Nat := 0
  castleIns : Nat := 0
  frogs : Nat := 0
  shadowChunks : Nat := 0
  commits : Nat := 0
deriving DecidableEq, Repr

/-- One closed 10 ms ingress frame (R363 to R366): gap mark, voice activity, samples after pre-emphasis, samples saturated. -/
structure FrameInfo where
  gap : Bool
  va : Bool
  samples : List Int
  saturated : Nat
deriving DecidableEq, Repr

/-- The ingress chain of one stream (R360 to R365, R730): filter histories, the samples collected since the last 10 ms boundary (oldest
last), whether the frame in progress is a gap frame, voice activity, frames closed for the chunk being formed. `fresh` marks a source's first frame, whose
earliest outputs belong to the source before it (`oldHist`, R730). -/
structure Ingress where
  hist : List Int := []
  oldHist : List Int := []
  fresh : Bool := true
  dcX : Int := 0
  dcY : Int := 0
  preX : Int := 0
  raw : List Int := []
  frameGap : Bool := false
  realFrom : Nat := 0
  floor : Option Nat := none
  run : Nat := 0
  hang : Nat := 0
  frames : List FrameInfo := []
deriving DecidableEq, Repr

/-- One stream slot. `before` is the anchor and base row of the chunks closed before a resume (R70, R71), `encFallen` the encode chunks whose flag fall is declared (R78). -/
structure Stream where
  state : StreamState := .closed
  gen : Nat := 0
  part : Nat := 0
  pipe : Nat := 0
  acceptDt : Nat := 0
  cmd : Nat := 0
  anchor : Nat := 0
  n0 : Nat := 0
  before : Option (Nat × Nat) := none
  row : Nat := 0
  source : Source := .none
  nextSource : Option Source := none
  nextGain : Int := 2048
  nextTheta : Nat := 24
  nextLmin : Nat := 160
  nextHang : Nat := 8
  switchDt : Nat := 0
  gain : Int := 2048
  theta : Nat := 24
  lmin : Nat := 160
  hangLen : Nat := 8
  enc : Sect := {}
  encRing : List Entry := []
  trRing : List Entry := []
  encFallen : List Nat := []
  silence : Nat := 0
  lastPassed : Bool := false
  pause : Option PauseWhy := none
  deferBind : Option Bool := none
  lossAfter : Option Nat := none
  pausedRow : Option Nat := none
  pauseDt : Nat := 0
  clockStopped : Bool := false
  drain : Bool := false
  frog : Option Frog := none
  zero : Option Zeroise := none
  castIn : Option Nat := none
  loading : Bool := false
  castingOut : Option Nat := none
  lastDrain : Nat := 0
  frames : Nat := 0
  handed : Nat := 0
  ingress : Ingress := {}
  saturations : Nat := 0
  lateFrames : Nat := 0
  mismatched : Nat := 0
  fetched : List (Nat × List Int) := []
  arriving : List (Nat × Nat × Nat × Nat) := []
  fetchNext : Nat := 0
  cnt : StreamCounters := {}
deriving DecidableEq, Repr

/-- Branch counters (Table 14-9, group 0x0F). -/
structure BranchCounters where
  flagFalls : Nat := 0
  ffEncode : Nat := 0
  ffTranslate : Nat := 0
  ffSpeak : Nat := 0
  holdAsSkip : Nat := 0
  silentDropped : Nat := 0
deriving DecidableEq, Repr

/-- Flag falls waiting for their merged event (R86). -/
structure FlagReport where
  start : Nat
  stage : Stage
  first : Nat
  count : Nat
  policy : Policy
deriving DecidableEq, Repr

/-- Flag falls whose branch left before their merged event (R86): the branch's generation and partition, and the report. -/
structure Orphan where
  gen : Nat
  part : Nat
  report : FlagReport
deriving DecidableEq, Repr

/-- One converter of the egress chain (R361, R369): the zero-stuffed 48 kHz sequence and the interpolator's outputs (newest first), and whether each of the last
51 saturated (R151). -/
structure Conv where
  hist : List Int := []
  mid : List Int := []
  flags : List Bool := []
deriving DecidableEq, Repr

/-- A cross-fade in progress (R372): its next sample, and the converter and samples of the audio that would have followed. -/
structure Fade where
  pos : Nat
  conv : Conv
  rest : List Int
deriving DecidableEq, Repr

/-- One 24 kHz sample that falls due on an output: its value, whether it is a zero sample of R371, and, where it does not follow the sample before it in the
branch's schedule, the audio that would have followed (R372). -/
structure Due where
  x : Int
  fill : Bool
  join : Option (List Int)
deriving DecidableEq, Repr

/-- A chunk of speech in a branch's schedule (R368): the instant of its first sample, and how it joins what came before (R372). -/
structure Seg where
  start : Nat
  row : Nat
  silent : Bool
  samples : List Int
  join : Option (List Int)
deriving DecidableEq, Repr

/-- An egress entry (R368): a chunk of speech ready to play. -/
structure EgressEntry where
  row : Nat
  silent : Bool
  samples : List Int
deriving DecidableEq, Repr

/-- One branch slot. `stopRow` is the chunk a STOP fell on: the chunks before it still run (R94). -/
structure Branch where
  state : BranchState := .absent
  gen : Nat := 0
  part : Nat := 0
  stream : Nat := 0
  acceptDt : Nat := 0
  cmd : Nat := 0
  language : Nat := 0
  voice : Nat := 0
  policy : Policy := .skip
  gain : Int := 2048
  outBlock : Nat := 0
  outs : List (Nat × Nat) := []
  ring : Option HostRing := none
  nextOut : Option (Nat × List (Nat × Nat) × Option HostRing) := none
  nextGain : Int := 2048
  switchDt : Nat := 0
  order : Nat := 0
  firstRow : Nat := 0
  hold : Nat := 0
  translate : Sect := {}
  speak : Sect := {}
  spRing : List Entry := []
  egRing : List EgressEntry := []
  skipped : List Nat := []
  skipStage : List (Nat × Stage) := []
  chunkTokens : List (Nat × List Nat) := []
  sched : List Seg := []
  lastPlayed : Option Nat := none
  dropped : List Int := []
  ringConv : Conv := {}
  ringFade : Option Fade := none
  ringPos : Nat := 0
  ringNext : Nat := 0
  tokRow : Nat := 0
  playEnd : Nat := 0
  report : Option FlagReport := none
  orphans : List Orphan := []
  stopRow : Option Nat := none
  zero : Option Zeroise := none
  outOverruns : Nat := 0
  cnt : BranchCounters := {}
deriving DecidableEq, Repr

end Sys2Proof.Machine
end

