-- ==== Sys2Proof/Machine/StateAudio.lean ====
section
/-!
DEFINITION. Machine/StateAudio.lean: TDM ports and output slots (chapter 10).
-/
namespace Sys2Proof.Machine

/-- TDM port states (Table 10-5). -/
inductive TdmState where
  | disabled | acquiring | running | down
deriving DecidableEq, Repr

/-- The format parameters of a port (Tables 10-2 and 14-7). -/
structure TdmConfig where
  rate48 : Bool := true
  slots : Nat := 1
  width : Nat := 2
  fsWidth : Nat := 0
  fsDelay : Nat := 1
  bclkPol : Nat := 0
  doutIdle : Nat := 0
  sentInEn : Bool := false
  sentIn : Nat := 0
  sentOutEn : Bool := false
  sentOut : Nat := 0
deriving DecidableEq, Repr

/-- One TDM port (R350 to R358, R374 to R381, Table 10-8). `dout` holds the last frame's word of each slot (none: high impedance), empty while BCLK, FS and DOUT are
driven low; `dropped` counts the samples dropped in the outage (R381). -/
structure TdmPort where
  state : TdmState := .disabled
  cfg : TdmConfig := {}
  enableAt : Option (Nat × Bool) := none
  loopback : Bool := false
  loopAt : Option (Nat × Bool) := none
  prevWord : Nat := 0
  prevValid : Bool := false
  validRun : Nat := 0
  invalidRun : Nat := 0
  dout : List (Option Nat) := []
  dropped : Nat := 0
  frames : Nat := 0
  sentinelInvalid : Nat := 0
  downEpisodes : Nat := 0
  gapFrames : Nat := 0
  heldDropped : Nat := 0
  lagTrimmed : Nat := 0
deriving DecidableEq, Repr

/-- One output slot, by 32 × port + slot (R369, R373, R378 to R380): the branch mapped to it; the samples due and not yet played, oldest first, which the hold buffer of
R373 keeps while the port is DOWN or lags; whether the next 48 kHz instant lies between two 24 kHz samples; converter, cross-fade and lag; whether the sample
played is one of R371; and the DT from which samples due on a DISABLED port are not yet counted. -/
structure OutSlot where
  branch : Option Nat := none
  held : List Due := []
  half : Bool := false
  conv : Conv := {}
  fade : Option Fade := none
  lag : Nat := 0
  fillNow : Bool := true
  idleFrom : Nat := 0
  saturations : Nat := 0
  limited : Nat := 0
  filled : Nat := 0
deriving DecidableEq, Repr

/-- One input slot, by 32 × port + slot: the stream it feeds, and its saturation counter (Table 10-9). -/
structure InSlot where
  stream : Option Nat := none
  saturations : Nat := 0
deriving DecidableEq, Repr

/-- The audio block: ports, slots. -/
structure Audio where
  ports : Table TdmPort := []
  inputs : Table InSlot := []
  outputs : Table OutSlot := []
deriving DecidableEq, Repr

end Sys2Proof.Machine
end

