-- ==== Sys2Proof/Machine/StateBoot.lean ====
section
/-!
DEFINITION. Machine/StateBoot.lean: supplies, resets, boot stages, always-on logic, boot flash (chapter 16), device faults (chapter 17)
and the firmware operations of chapter 14 that outlive a command.
-/
namespace Sys2Proof.Machine

/-- Reset causes (Table 16-5). -/
inductive DevCause where
  | powerOn | sysReset | command | clockLoss | thermalTrip | fwWatchdog | bootTimeout
deriving DecidableEq, Repr

/-- Image slot states (Table 16-13). -/
inductive SlotState where
  | empty | staged | activated | good | bad
deriving DecidableEq, Repr

/-- What a boot directory copy says of an image slot. -/
structure ImageSlot where
  state : SlotState := .empty
  timeouts : Nat := 0
  length : Nat := 0
  version : Nat := 0
deriving DecidableEq, Repr

/-- A boot directory copy (Table 16-13); `valid` is MAGIC and CRC-32 correct (R602). -/
structure Directory where
  valid : Bool := false
  seq : Nat := 0
  preferred : Nat := 0
  slot0 : ImageSlot := {}
  slot1 : ImageSlot := {}
deriving DecidableEq, Repr

/-- The boot flash (Table 16-6): directory copies, reset records (newest last; true once REPORTED), and the 1,024 bytes of each site configuration slot (none when
erased or half written). -/
structure Flash where
  copy0 : Directory := {}
  copy1 : Directory := {}
  records : List Bool := []
  site0 : Option Nat := none
  site1 : Option Nat := none
deriving DecidableEq, Repr

/-- Boot stages (Table 16-3). -/
inductive BootStage where
  | rom | imageCheck | training | clear | selfTest | config | ready | failed
deriving DecidableEq, Repr

/-- A flash write in progress (R545, R548): what it writes. -/
inductive FlashJob where
  | image (slot version length : Nat)
  | site (slot : Nat) (image : Nat)
deriving DecidableEq, Repr

/-- The flash write a command waits on: its port and command identity, and the job. -/
structure FlashWrite where
  port : Nat
  cmd : Nat
  job : FlashJob
deriving DecidableEq, Repr

/-- Supplies, reset and boot. `aonIn` and `ioIn`: VDD_AON and VDD_IO in range; `timedOut`: the slot the always-on logic noted for a boot timeout (R606);
`watchdogFrom`: the DT of the last refresh once refreshing has stopped; `fatal`: the DT of a FATAL fault's step 1. -/
structure Boot where
  aonIn : Bool := true
  ioIn : Bool := true
  inReset : Bool := false
  stage : BootStage := .rom
  cause : DevCause := .powerOn
  runningSlot : Nat := 0
  preferredAtBoot : Nat := 0
  triedOther : Bool := false
  siteDefault : Bool := false
  siteSlot : Nat := 0
  failReason : Nat := 0
  failStack : Nat := 0
  timedOut : Option Nat := none
  straps : Nat := 0
  watchdogArmed : Bool := false
  refreshing : Bool := true
  watchdogFrom : Nat := 0
  resetDt : Option Nat := none
  flash : Flash := {}
  writing : Option FlashWrite := none
  fatal : Option Nat := none
  degraded : List Nat := []
deriving DecidableEq, Repr

end Sys2Proof.Machine
end

