-- ==== Sys2Proof/Machine/StateFabric.lean ====
section
/-!
DEFINITION. Machine/StateFabric.lean: links, route and group tables, end-to-end windows and reorder contexts (chapter 8), and device
memory: bytes, burst errors, pseudo-channels and stacks (chapter 9).
-/
namespace Sys2Proof.Machine

/-- A stitch kept in a replay buffer or output queue: its hop sequence, detours taken and replays made (R294 to R297, R315). -/
structure QStitch where
  hop : Nat
  detours : Nat
  stitch : Stitch
deriving DecidableEq, Repr

/-- One link direction's sender and the receiver of the other direction (R294 to R298), with the port counters of Table 8-9. `free…` counts the slots its receiver has freed,
`stall` what the head of its queue waits for, the replay window (true) or a slot (false), and since when. -/
structure Link where
  down : Bool := false
  nextSeq : Nat := 0
  replay : List QStitch := []
  queue : List QStitch := []
  replays : Nat := 0
  expected : Nat := 0
  nakSent : Bool := false
  invalid : Nat := 0
  sentReq : Nat := 0
  sentRsp : Nat := 0
  sentCtl : Nat := 0
  credReq : Nat := 0
  credRsp : Nat := 0
  credCtl : Nat := 0
  freeReq : Nat := 0
  freeRsp : Nat := 0
  freeCtl : Nat := 0
  stall : Option (Bool × Nat) := none
  inject : Nat := 0
  forwarded : Nat := 0
  corrections : Nat := 0
  uncorrectable : Nat := 0
  retries : Nat := 0
  hopDuplicates : Nat := 0
  depthMax : Nat := 0
  creditStalls : Nat := 0
  windowStalls : Nat := 0
  detourCount : Nat := 0
deriving DecidableEq, Repr

/-- A route table entry (Table 8-4). -/
structure Route where
  coord : Nat := 0
  port : Nat := 0
  count : Nat := 0
  valid : Bool := false
deriving DecidableEq, Repr

/-- A group member entry (Table 8-5). -/
structure Member where
  endpoint : Nat := 0
  valid : Bool := false
deriving DecidableEq, Repr

/-- A source's window toward one destination (R302 to R308): `unacked` pairs a sequence with its operation (0: none), `probeFrom` is the DT of the first
PROBE of a credit recovery, `since` the DT from which the next PROBE's 2,048 FCLK run, `openFrom` and `stallFrom` since when its source waits for a context or for room. -/
structure Window where
  seq : Nat := 0
  acked : Nat := 0
  isOpen : Bool := false
  opening : Bool := false
  closing : Bool := false
  probeFrom : Option Nat := none
  unacked : List (Nat × Nat) := []
  since : Nat := 0
  openFrom : Option Nat := none
  stallFrom : Option Nat := none
deriving DecidableEq, Repr

/-- A reorder context (R303 to R307): `done` holds the sequences delivered beyond E and whether each was its message's last; `last` is the DT of the last
arrival. -/
structure Context where
  holder : Nat
  expected : Nat
  held : List Stitch
  done : List (Nat × Bool)
  credited : Nat
  closing : Bool
  last : Nat
deriving DecidableEq, Repr

/-- One endpoint's network interface: contexts, OPENs waiting, and the counters of Table 8-10. -/
structure NetIf where
  contexts : List Context := []
  waiting : List (Nat × Nat) := []
  mcastSeq : Nat := 0
  mcastUnacked : List Nat := []
  delivered : List Stitch := []
  windowStalls : Nat := 0
  openWaits : Nat := 0
  duplicates : Nat := 0
  protocolErrors : Nat := 0
  probes : Nat := 0
  unreachable : Nat := 0
  reclaims : Nat := 0
  refused : Nat := 0
deriving DecidableEq, Repr

/-- A control stitch an endpoint has sent (R303, R307, R308, R315): kind of Table 8-3, sender, receiver, value. -/
structure Ctl where
  kind : Nat
  src : Nat
  dst : Nat
  value : Nat
deriving DecidableEq, Repr

/-- The fabric. Links are keyed by 5 × tile + port code for a router's own direction, 1,024 more for what enters from the edge. -/
structure Fabric where
  links : Table Link := []
  routes : Table Route := []
  groups : Table Member := []
  windows : Table Window := []
  netifs : Table NetIf := []
  ctl : List Ctl := []
  unicast : List Nat := []
deriving DecidableEq, Repr

/-- The bytes of one stored 32-byte burst that differ from what was written: (offset, difference) and the injections among them. -/
structure BurstErr where
  bytes : List (Nat × Nat) := []
  injected : Nat := 0
  single : Bool := false
  reported : Bool := false
deriving DecidableEq, Repr

/-- One pseudo-channel (Table 9-4, R344). `lastSource` is the feeder served last (R258). -/
structure PseudoChannel where
  reads : Nat := 0
  writes : Nat := 0
  corrected : Nat := 0
  uncorrectable : Nat := 0
  scrubCorrected : Nat := 0
  scrubUncorrectable : Nat := 0
  scrubPosition : Nat := 0
  refreshSlots : Nat := 0
  refreshForced : Nat := 0
  scrubSlots : Nat := 0
  scrubForced : Nat := 0
  sweepSlots : Nat := 0
  guardRefusals : Nat := 0
  controllerResets : Nat := 0
  inReset : Bool := false
  resetFrom : Nat := 0
  writeBack : Option Nat := none
  lastSource : Nat := 3
deriving DecidableEq, Repr

/-- One stack's temperature readings (Table 9-5). -/
structure Stack where
  tempNow : Nat := 0
  tempMax : Nat := 0
  fast : Bool := false
deriving DecidableEq, Repr

/-- Device memory and its controllers. An unlisted address reads 0, as CLEAR left it. -/
structure Memory where
  bytes : List Host.Cell := []
  errs : Table BurstErr := []
  channels : Table PseudoChannel := []
  stackRegs : Table Stack := []
  scrubReported : List Nat := []
  scrubStart : Nat := 0
deriving DecidableEq, Repr

end Sys2Proof.Machine
end

