-- ==== Sys2Proof/Machine/StateFeed.lean ====
section
/-!
DEFINITION. Machine/StateFeed.lean: feeders, rings, descriptors, requests and tags, operations, barriers (chapter 7).
-/
namespace Sys2Proof.Machine

/-- A descriptor as its 32 bytes decode (Tables 7-1 and 7-2). For PUT16 `src` holds ADDR and `dst` holds DATA. -/
structure Desc where
  kind : Nat
  ordered : Bool
  wait : Bool
  arrive : Bool
  gambit : Bool
  notify : Bool
  needle : Bool
  pair : Nat
  part : Nat
  barrier : Nat
  deadline : Nat
  task : Nat
  span : Nat
  length : Nat
  src : Nat
  dst : Nat
  reservedOk : Bool
deriving DecidableEq, Repr

/-- A descriptor ring (R242 to R244): base, size 2^log, head, tail, doorbell deadline, fetched skein (first index, descriptors). -/
structure FRing where
  live : Bool := false
  base : Nat := 0
  log : Nat := 3
  head : Nat := 0
  tail : Nat := 0
  deadline : Nat := 0
  skein : Option (Nat × List Nat) := none
deriving DecidableEq, Repr

/-- A descriptor in progress: requests are cut at 256-byte boundaries in address order; `issued` bytes have been asked for;
`half` is the needle half a NEEDLE descriptor fills or drains, `copies` the logical tiles an MCAST sends a unicast copy (R251). -/
structure Progress where
  id : Nat
  ring : Nat
  index : Nat
  desc : Desc
  issued : Nat := 0
  dropped : Bool := false
  tags : Nat := 0
  half : Option Bool := none
  copies : List Nat := []
  unicast : Bool := false
deriving DecidableEq, Repr

/-- A request that holds a tag (R240): the descriptor it belongs to, its kind (Table 7-4), the device address and the other end's address word, what it moves and
when it was issued. `fetched`: the far end has done its part (data read, write landed); `half` is the needle half it fills. -/
structure Request where
  tag : Nat
  prog : Nat
  op : Nat
  part : Nat
  deadline : Nat
  kind : Nat
  read : Bool
  gambit : Bool
  addr : Nat
  other : Nat
  bytes : Nat
  issued : Nat
  data : Nat
  failed : Bool := false
  quarantined : Option Nat := none
  buffered : Bool := false
  fetched : Bool := false
deriving DecidableEq, Repr

/-- Feeder counters (Table 7-10). QUARANTINED_TAGS is read off the requests. -/
structure FeederCounters where
  descriptors : Nat := 0
  bytesRead : Nat := 0
  bytesWritten : Nat := 0
  tagsHigh : Nat := 0
  tagPoolWaits : Nat := 0
  sacrificed : Nat := 0
  gambitFaults : Nat := 0
  late : Nat := 0
  watchdog : Nat := 0
  aborted : Nat := 0
  stalemates : Nat := 0
deriving DecidableEq, Repr

/-- One feeder. -/
structure Feeder where
  rings : Table FRing := []
  progress : List Progress := []
  requests : List Request := []
  nextProg : Nat := 1
  lastRing : Nat := 0
  lastProg : Nat := 0
  returnUsed : Nat := 0
  waitFrom : Option Nat := none
  cnt : FeederCounters := {}
deriving DecidableEq, Repr

/-- What an operation is for (chapter 7 Model); the numbers are slots. -/
inductive OpKind where
  | task (flank : Nat)
  | commit (stage obj : Nat)
  | castIn (stage obj : Nat)
  | copy (ppn : Nat)
  | load (flank : Nat)
  | zeroise (branch : Bool) (slot : Nat)
  | host (port : Nat)
  | package (load : Nat)
  | erase (content : Nat)
  | release (load : Nat)
deriving DecidableEq, Repr

/-- A transfer an operation still needs: descriptors of KIND `kind` (Table 7-4) that move `bytes`; a PUT16 with its DATA. -/
structure Owed where
  kind : Nat
  bytes : Nat
  data : Nat := 0
deriving DecidableEq, Repr

/-- An operation (R266, R267). `works` lists the (stage, object) pairs of the items of its task (R89, R625); `deadline` is the one its requests carry (R63, R89, R174),
`asked` the transfers it was made for and `owed` those it still needs, `notified` the completions its descriptors with NOTIFY have reported to the firmware. -/
structure Operation where
  id : Nat
  kind : OpKind
  part : Nat
  aborted : Bool := false
  injected : Bool := false
  works : List (Nat × Nat) := []
  deadline : Option Nat := none
  owed : List Owed := []
  asked : List Owed := []
  notified : Nat := 0
deriving DecidableEq, Repr

/-- Barrier states (Table 7-9). -/
inductive BarrierState where
  | free | armed | complete
deriving DecidableEq, Repr

/-- A party that owes arrivals or waits at a barrier (R265): a task, a feeder ring or a dispatch wait. -/
inductive Party where
  | task (op : Nat) | ring (feeder ring : Nat)
deriving DecidableEq, Repr

/-- A barrier (Table 7-9) and the parties the barrier unit records for it (R265). -/
structure Barrier where
  expect : Nat := 0
  arrived : Nat := 0
  state : BarrierState := .free
  owing : List Party := []
  waiters : List Party := []
  lastArrival : Nat := 0
deriving DecidableEq, Repr

end Sys2Proof.Machine
end

