-- ==== Sys2Proof/Machine/StateFlank.lean ====
section
/-!
DEFINITION. Machine/StateFlank.lean: tiles, flanks, bindings, dispatch and repair (chapter 3), KV pages, page tables, the page-cache
directory and the tiles' frames (chapter 6), the fault journal (chapter 17).
-/
namespace Sys2Proof.Machine

/-- Tile states (Table 3-5). -/
inductive TileState where
  | spare | loading | enabled | retired
deriving DecidableEq, Repr

/-- What a tile waits for: the page service's answer, a holder of its flank, or the page's bytes from device memory (R218). -/
inductive PageWait where
  | lookup (ppn : Nat) | peer (ppn holder : Nat) | memory (ppn : Nat)
deriving DecidableEq, Repr

/-- The causes of Table 7-8 a tile's program can wait for, in table order; castling transfers and gauge updates are cycles of their own (log 60). -/
inductive Stall where
  | page | dataLate | ringWait | fabric | barrier
deriving DecidableEq, Repr

/-- One half of a needle pair (Table 7-5). -/
inductive HalfState where
  | empty | filling | full | working | draining
deriving DecidableEq, Repr

/-- A needle pair (R253): base, half size, direction, the two halves' states, which half the program works on, and whether it has used what that half was filled with (R107). -/
structure Needle where
  declared : Bool := false
  base : Nat := 0
  size : Nat := 0
  outbound : Bool := false
  half0 : HalfState := .empty
  half1 : HalfState := .empty
  current : Bool := false
  waiting : Bool := false
  used : Bool := false
deriving DecidableEq, Repr

/-- The residue of one block product in progress: whether its first mismatch has been seen (R115). -/
inductive Armed where
  | none | once | twice
deriving DecidableEq, Repr

/-- One tile, by physical coordinate 12 × file + rank − 1. `frames` holds the cached pages, least recently used first (R216, R219); `invalidating` those whose
INVALIDATE waits for a read in progress (R220); `attended` the pages, with their positions, that its program has selected and not read yet (R211), `reads` the sequences and rows it has selected for (R208), `fetched` pages at hand without a frame. `task` is the operation whose rows and accumulators it holds,
`stalled` what its program waits for, and since which TCLK cycle (R260). Counters: Table 7-8 stalls in order, then Table 14-9 TILE. -/
structure Tile where
  state : TileState := .retired
  logical : Nat := 255
  bypass : Bool := true
  ringWait : Nat := 0
  dataLate : Nat := 0
  fabricStall : Nat := 0
  barrierStall : Nat := 0
  pageStall : Nat := 0
  castlingStall : Nat := 0
  dispatchIdle : Nat := 0
  idleMark : Nat := 0
  gaugeStall : Nat := 0
  eccCorrected : Nat := 0
  eccUncorrectable : Nat := 0
  residueReruns : Nat := 0
  accSaturations : Nat := 0
  requantSaturations : Nat := 0
  vectorSaturations : Nat := 0
  acc : List (Int × Bool) := []
  act : List Int := []
  vec : List Int := []
  task : Nat := 0
  stalled : Option (Stall × Nat) := none
  attended : List (Nat × Nat) := []
  reads : List (Bool × Nat × Nat × Nat) := []
  fetched : List Nat := []
  needles : Table Needle := []
  frames : List Nat := []
  waits : List PageWait := []
  invalidating : List Nat := []
  residue : Armed := .none
deriving DecidableEq, Repr

/-- Flank states (Table 3-7). -/
inductive FlankState where
  | operational | repairing | outOfService
deriving DecidableEq, Repr

/-- What a composition asks for (Table 13-11's MODE). -/
inductive BindMode where
  | auto | resident | streamed
deriving DecidableEq, Repr

/-- A finished task's measurement (R79, R572): its rows, its ticks, the TCLK divisor and when it ended. -/
structure Measured where
  rows : Nat
  ticks : Nat
  divisor : Nat
  stop : Nat
deriving DecidableEq, Repr

/-- A binding of model content to a flank (R499 to R503). `mode` is what its composition asked for, `users` are pipeline slots, `measured` its finished tasks. -/
structure Binding where
  content : Nat
  stage : Stage
  mode : BindMode := .auto
  resident : Bool
  sliceBytes : Nat
  act : Nat
  loaded : Bool
  users : List Nat
  measured : List Measured
  lastServed : Nat
deriving DecidableEq, Repr

/-- A work item (R109 to R111): a chunk of a stream (encode) or of a branch; `obj` is the slot. -/
structure Item where
  stage : Stage
  obj : Nat
  content : Nat
  part : Nat
  row : Nat
  rows : Nat
  bucket : Nat
  attended : Nat := 0
deriving DecidableEq, Repr

/-- How far one layer's round has come (R104, R105): a slice's segment and how many rows of a tile have used it. -/
structure Used where
  tile : Nat
  slice : Nat
  seg : Nat
  rows : Nat
deriving DecidableEq, Repr

/-- A running task (R104, R110, R621). `layer` is the layer whose round runs, `position` the position of a matrix layer's round (R160), `used` what its rows have used, `placed` the rows
on each tile (R109), `resident` the mode it was dispatched in, `outputs` the barriers of its handoff writes (R264). `stats` holds the gauge tracker's counts: object, tensor, elements, saturated, all quiet (R147). `paused` is time its watchdog does not count and
`waitFrom` when a wait for a page in an exhaustion episode began (R622). `views` holds the positions of each branch's encoder views at dispatch: branch, sequence,
positions (R210). -/
structure RunTask where
  id : Nat
  content : Nat
  stage : Stage
  items : List Item
  start : Nat
  period : Nat
  paused : Nat
  injected : Bool
  startTclk : Nat := 0
  resident : Bool := true
  placed : List (Nat × Nat) := []
  layer : Nat := 0
  position : Nat := 0
  used : List Used := []
  outputs : List Nat := []
  waitFrom : Option Nat := none
  stats : List (Nat × Nat × Nat × Nat × Bool) := []
  views : List (Nat × Nat × Nat) := []
deriving DecidableEq, Repr

/-- A finished stretch of busy time: start, end, and rows by partition (R112). -/
structure Busy where
  start : Nat
  stop : Nat
  rows : List Nat
deriving DecidableEq, Repr

/-- The rows of a task by partition (R112). -/
def RunTask.rowsByPart (r : RunTask) : List Nat :=
  (List.range 4).map (fun n => ((r.items.filter (fun it => it.part == n)).map (·.rows)).foldl (· + ·) 0)

/-- What one retirement must still report (R121, R634). `after` holds the flank's enabled tiles and its state code as its own repair left them. -/
structure Retire where
  tile : Nat
  logical : Nat
  spare : Nat
  moved : Nat
  aborted : List Nat
  rerun : List Nat
  left : List (Stage × Nat × Nat)
  selfTest : Bool
  after : Option (Nat × Nat) := none
deriving DecidableEq, Repr

/-- The step a flank's repair has reached (R117). -/
inductive Repair where
  | none | draining | loadingSpare (spare : Nat) | reslicing | resetting | restoring
deriving DecidableEq, Repr

/-- One flank. -/
structure Flank where
  state : FlankState := .operational
  repair : Repair := .none
  queue : List Nat := []
  reports : List Retire := []
  run : Option RunTask := none
  items : List Item := []
  timer : Option Nat := none
  bindings : List Binding := []
  act : Nat := 0
  cache : Nat := 0
  busy : List Busy := []
  paceEnd : Nat := 0
  relayout : Option Nat := none
  relayoutWait : Bool := false
  drainStart : Option Nat := none
  expiries : Nat := 0
  resetDone : Bool := false
  cut : Bool := false
  tasksDispatched : Nat := 0
  tasksAborted : Nat := 0
  busyTclk : Nat := 0
  idleTclk : Nat := 0
  idleFrom : Nat := 0
  retirements : Nat := 0
  relayouts : Nat := 0
deriving DecidableEq, Repr

/-- Page states (Table 6-3), FREE_SWEPT being what every record reads at READY. -/
inductive PageState where
  | freeUnswept | freeSwept | allocated | trimPending
deriving DecidableEq, Repr

/-- A page record (Table 6-3), with the page service's own progress: invalidating before a free, sweeping, foreground (R227). -/
structure PageRec where
  refs : Nat := 0
  state : PageState := .freeSwept
  pinned : Bool := false
  cached : Bool := false
  time : Nat := 0
  freeing : Bool := false
  sweeping : Bool := false
  foreground : Bool := false
  reserved : Bool := false
deriving DecidableEq, Repr

/-- A page-table entry (Table 6-2); an entry held is VALID. -/
structure PageEntry where
  index : Nat
  ppn : Nat
  fill : Nat
  sealed : Bool
deriving DecidableEq, Repr

/-- Whose sequence a page table lists (chapter 6 Model): a stream's encoder, a branch's decoder, a branch's view of its stream's
encoder pages (R203), a pipeline's fixed context. -/
inductive SeqOwner where
  | encoder (stream : Nat) | decoder (branch : Nat) | view (branch : Nat) | context (pipe : Nat)
deriving DecidableEq, Repr

/-- A sequence: the prefix positions it started from, positions appended since its start and its page table, lowest index first (R198). -/
structure PageSeq where
  owner : SeqOwner
  idx : Nat
  part : Nat
  base : Nat
  positions : Nat
  entries : List PageEntry
deriving DecidableEq, Repr

/-- A page that leaves a table once every lifeline concerned has ROW at or beyond `row` (R207), or TIME passed (R231). -/
structure Removal where
  owner : SeqOwner
  idx : Nat
  ppn : Nat
  row : Nat
deriving DecidableEq, Repr

/-- A copy in progress (R206): the entry to rewrite and the pages; `fresh`, the entry a new holder receives with its private copy (R204). -/
structure Copy where
  owner : SeqOwner
  idx : Nat
  index : Nat
  oldPpn : Nat
  newPpn : Nat
  fresh : Option PageEntry := none
deriving DecidableEq, Repr

/-- A page-table entry a sequence is still owed: the area is full, or its page is at its reference limit and no page is free for a copy (R204, R228, R233). -/
structure Want where
  owner : SeqOwner
  idx : Nat
  part : Nat
  entry : PageEntry
deriving DecidableEq, Repr

/-- The cache messages of Table 6-6. -/
inductive CacheKind where
  | lookup | holder | none | evict | invalidate | dropped | notHeld
deriving DecidableEq, Repr

/-- A cache message on its way: kind, the tile that sends or receives it, the page, the holder's logical ID (HOLDER). -/
structure CacheMsg where
  kind : CacheKind
  tile : Nat
  ppn : Nat
  holder : Nat
deriving DecidableEq, Repr

/-- A directory entry (Table 6-5). INV_PENDING and holders by flank. -/
structure DirEntry where
  writePending : Bool := false
  inv0 : Bool := false
  inv1 : Bool := false
  inv2 : Bool := false
  holderQ : Nat := 255
  holderC : Nat := 255
  holderK : Nat := 255
  held : List Nat := []
  reopen : Bool := false
deriving DecidableEq, Repr

/-- The page service. `staged` holds the sequences as an encode task that has not completed leaves them (R200). -/
structure PageService where
  pages : Table PageRec := []
  seqs : List PageSeq := []
  dir : Table DirEntry := []
  removals : List Removal := []
  copies : List Copy := []
  wants : List Want := []
  staged : List PageSeq := []
  msgs : List CacheMsg := []
deriving DecidableEq, Repr

/-- A fault journal entry (Table 17-4). -/
structure JEntry where
  seq : Nat
  dt : Nat
  kind : Nat
  coord : Nat
  endpoint : Nat
  feeder : Nat
  part : Nat
  task : Nat
  aborted : Bool
  gambit : Bool
  injected : Bool
  recovery : Nat
  detail : Nat
  address : Nat
deriving DecidableEq, Repr

/-- The fault journal: newest first, at most 4,096 entries (R630), and the entries written since the reset. -/
structure Journal where
  entries : List JEntry := []
  next : Nat := 0
  written : Nat := 0
deriving DecidableEq, Repr

end Sys2Proof.Machine
end

