-- ==== Sys2Proof/Machine/StateHost.lean ====
section
/-!
DEFINITION. Machine/StateHost.lean: the state of one host port (chapters 11, 12 and 19): link, configuration registers, MSI-X, mailbox,
rings, apertures, violation log, outstanding requests and counters, and what the port has sent to its host.
-/
namespace Sys2Proof.Machine

/-- Host link states (Table 11-5). -/
inductive LinkState where
  | downReset | training | up | lost
deriving DecidableEq, Repr

/-- The cause of a port reset (Table 14-14, HOST_LINK). -/
inductive ResetCause where
  | perst | hotReset | flr
deriving DecidableEq, Repr

/-- Which PCI Express tags the host has enabled (R419). -/
inductive TagMode where
  | ten | eight | five
deriving DecidableEq, Repr

/-- Host-written and error-reflecting fields of a port's configuration space (R395, Table 11-3), at PCI Express reset values. -/
structure PortConfig where
  busMaster : Bool := false
  memorySpace : Bool := false
  maxPayload : Nat := 128
  maxReadRequest : Nat := 512
  completionTimeout : Nat := 0
  tagMode : TagMode := .five
  bar0 : Nat := 0
  msixEnable : Bool := false
  functionMask : Bool := false
  d3hot : Bool := false
  aerCompletionTimeout : Bool := false
  aerUnexpectedCompletion : Bool := false
  aerPoisonedTlp : Bool := false
deriving DecidableEq, Repr

/-- One MSI-X vector: its table entry (Table 19-6), pending bit (R400) and coalescing (R466). -/
structure Vector64 where
  addr : Nat := 0
  upper : Nat := 0
  msgData : Nat := 0
  mask : Bool := true
  pending : Bool := false
  aggCount : Nat := 0
  aggTime : Nat := 0
  count : Nat := 0
  firstDt : Nat := 0
deriving DecidableEq, Repr

/-- The admin mailbox (R441, Table 12-5); the two 256-byte areas are numbers. -/
structure Mailbox where
  inbound : Nat := 0
  outbound : Nat := 0
  busy : Bool := false
  done : Bool := false
  irqEn : Bool := false
deriving DecidableEq, Repr

/-- A submission/completion ring pair (R445 to R454). `reading` entries from SQ_HEAD on are being read, or are read and not yet accepted: `got` holds reads
that ended before an earlier one (first index, entries), `failed` reads to be made again (first index, entries, attempts, not before). -/
structure RingPair where
  live : Bool := false
  sqLog : Nat := 0
  cqLog : Nat := 0
  vector : Nat := 0
  sqAperture : Nat := 0
  sqOffset : Nat := 0
  cqAperture : Nat := 0
  cqOffset : Nat := 0
  sqHead : Nat := 0
  sqTail : Nat := 0
  doorbellDt : Nat := 0
  cqTail : Nat := 0
  cqHead : Nat := 0
  phase : Bool := true
  faulted : Bool := false
  deleting : Bool := false
  reading : Nat := 0
  got : List (Nat × List SqEntry) := []
  failed : List (Nat × Nat × Nat × Nat) := []
  capAtLoss : Nat := 0
deriving DecidableEq, Repr

/-- The event ring (R460 to R463). -/
structure EventRing where
  live : Bool := false
  log : Nat := 0
  aperture : Nat := 0
  offset : Nat := 0
  head : Nat := 0
  tail : Nat := 0
  phase : Bool := true
  dropped : Nat := 0
  firstDrop : Nat := 0
  lastDrop : Nat := 0
  capAtLoss : Nat := 0
deriving DecidableEq, Repr

/-- An event before it is written: SEQ and DT are those of the moment it arose (R462). -/
structure Event where
  code : Nat
  seq : Nat
  handle : Nat
  dt : Nat
  data : Nat
deriving DecidableEq, Repr

/-- A completion before it is written (R451). -/
structure Completion where
  pair : Nat
  tag : Nat
  status : Nat
  handle : Nat
  result : Nat
  detail : Nat
deriving DecidableEq, Repr

/-- A completion or event held while the port is LOST (R406). -/
inductive Held where
  | completion (c : Completion)
  | event (e : Event)
  | write (aperture offset bytes value : Nat)
deriving DecidableEq, Repr

/-- A registered aperture (R416). -/
structure Aperture where
  base : Nat
  bytes : Nat
  read : Bool
  write : Bool
  closing : Bool := false
deriving DecidableEq, Repr

/-- A violation log entry (Table 19-4). -/
structure Violation where
  address : Nat := 0
  dt : Nat := 0
  kind : Nat := 0
  source : Nat := 0
  write : Bool := false
  opcode : Nat := 0
  data : Nat := 0
  seq : Nat := 0
deriving DecidableEq, Repr

/-- The violation log and its VIOLATION event limit (R429, R430, R683). -/
structure VLog where
  entries : Table Violation := []
  seq : Nat := 0
  wrapped : Bool := false
  lastEvent : Option Nat := none
  since : Nat := 0
deriving DecidableEq, Repr

/-- An accepted, uncompleted command (R449). `key` names the object the command waits on; `discarded` marks one whose channel a port
reset removed (R411). -/
structure Accepted where
  id : Nat
  call : Call
  dt : Nat
  maxTicks : Nat
  started : Bool
  discarded : Bool
  key : Nat
deriving DecidableEq, Repr

/-- What an outstanding request to host memory is for: submission entries, a piece of a host-fed frame's slot (its first byte and its bytes), nothing any more (its ring is gone), or a request of FX. -/
inductive HostPurpose where
  | entries (pair first count attempts : Nat)
  | feedFrame (stream frame first bytes : Nat)
  | discard
  | other
deriving DecidableEq, Repr

/-- An outstanding request of FX to host memory: PCI Express tag, FX tag (65,535: none), operation, deadline (R384, R419 to R423, R448). -/
structure HostRequest where
  pcieTag : Nat
  fxTag : Nat
  aperture : Nat
  op : Nat
  purpose : HostPurpose
  issued : Nat
  deadline : Nat := 0
deriving DecidableEq, Repr

/-- A quarantined PCI Express tag and the FX tag that waits with it (R423). -/
structure QuarantinedTag where
  pcieTag : Nat
  fxTag : Nat
  ends : Nat
deriving DecidableEq, Repr

/-- What a port has sent to its host: memory writes through an aperture, and MSI-X messages (R394). -/
inductive Sent where
  | write (aperture offset bytes value : Nat)
  | msix (vector addr data : Nat)
deriving DecidableEq, Repr

/-- Host port counters (Table 11-8) and transport counters (Table 12-10). QUARANTINED_TAGS is the length of the quarantine list. -/
structure PortCounters where
  linkLosses : Nat := 0
  completionTimeouts : Nat := 0
  lateCompletions : Nat := 0
  errorCompletions : Nat := 0
  linkDroppedFrames : Nat := 0
  violations : Nat := 0
  commandsAccepted : Nat := 0
  commandsFailed : Nat := 0
  eventsPosted : Nat := 0
  eventsDropped : Nat := 0
  msixMessages : Nat := 0
  doorbellWrites : Nat := 0
  fetchRetries : Nat := 0
deriving DecidableEq, Repr

/-- A port reset whose HOST_LOSS has not been applied yet (R413, R414). -/
structure PortReset where
  cause : ResetCause
  dt : Nat
deriving DecidableEq, Repr

/-- The telemetry snapshot a port reads (Table 19-7). -/
structure Snapshot where
  seq : Nat := 0
  dt : Nat := 0
  words : Table Nat := []
deriving DecidableEq, Repr

/-- One host port. -/
structure HostPort where
  link : LinkState := .downReset
  perst : Bool := true
  hotReset : Bool := false
  configReady : Bool := false
  readyBound : Option Nat := none
  fwState : Nat := 1
  cfg : PortConfig := {}
  vectors : Table Vector64 := []
  mbx : Mailbox := {}
  pairs : Table RingPair := []
  nextPair : Nat := 0
  events : EventRing := {}
  eventSeq : Nat := 0
  heldEvents : List Event := []
  resetEvent : Option Event := none
  heldOut : List Held := []
  lossDropped : Nat := 0
  lossDt : Nat := 0
  accepted : List Accepted := []
  nextId : Nat := 1
  apertures : Table (Option Aperture) := []
  vlog : VLog := {}
  requests : List HostRequest := []
  quarantine : List QuarantinedTag := []
  cnt : PortCounters := {}
  pendingReset : Option PortReset := none
  dtLatch : Nat := 0
  snap : Snapshot := {}
  sent : List Sent := []
deriving DecidableEq, Repr

end Sys2Proof.Machine
end

