-- ==== Sys2Proof/Machine/StateMgmt.lean ====
section
/-!
DEFINITION. Machine/StateMgmt.lean: the management endpoint (chapter 18) and the JTAG port and low-speed pins (chapter 20).
-/
namespace Sys2Proof.Machine

/-- A message being reassembled (R646). -/
structure Reassembly where
  srcEid : Nat
  msgTag : Nat
  nextSeq : Nat
  bytes : List Nat
deriving DecidableEq, Repr

/-- A complete request that waits for its handling (R651): the requester's EID and the message's bytes. -/
structure Message where
  srcEid : Nat
  bytes : List Nat
deriving DecidableEq, Repr

/-- One medium: its EID (0 none), messages in reassembly, complete messages waiting in order of arrival, whether Discovery Notify was sent since
the EID was last cleared (R650), and failed resends of the packet being sent (R647). -/
structure MediumState where
  eid : Nat := 0
  parts : List Reassembly := []
  messages : List Message := []
  notified : Bool := false
  retries : Nat := 0
deriving DecidableEq, Repr

/-- A management response: medium, receiver, instance, completion code, response fields as (width in bits, value), and the bytes of code and fields (R13). -/
structure MgmtResponse where
  medium : Medium
  dstEid : Nat
  inst : Nat
  code : Nat
  fields : List (Nat × Nat)
  bytes : List Nat := []
deriving DecidableEq, Repr

/-- What the endpoint has sent: a response, a Discovery Notify, a PlatformEventMessage (its receiver, sensor, new state, previous state). -/
inductive MgmtSent where
  | response (r : MgmtResponse)
  | discoveryNotify (port : Nat)
  | platformEvent (medium : Medium) (eid sensor state previous : Nat)
deriving DecidableEq, Repr

/-- A sensor's event state as last evaluated (R661), as last sent, when, and whether a change waits (R665). -/
structure SensorState where
  current : Nat := 0
  sent : Nat := 0
  sentDt : Option Nat := none
  waiting : Bool := false
deriving DecidableEq, Repr

/-- A PlatformEventMessage without acknowledgement (R666). -/
structure PendingEvent where
  sensor : Nat
  state : Nat
  previous : Nat
  tries : Nat
deriving DecidableEq, Repr

/-- The management endpoint. `media` is keyed 0 for SMBus, n + 1 for host port n; `sent` is what it has sent, oldest first. -/
structure Mgmt where
  media : Table MediumState := []
  tid : Nat := 0
  receiver : Option (Medium × Nat) := none
  sensors : Table SensorState := []
  unacked : List PendingEvent := []
  sent : List MgmtSent := []
deriving DecidableEq, Repr

/-- The instructions of the TAP that change pins (R713 to R715). -/
inductive Jtag where
  | bypass | sample | extest | clamp | highz
deriving DecidableEq, Repr

/-- The TAP and the boundary register (156 cells, as bits). -/
structure Pins where
  instr : Jtag := .bypass
  cells : Nat := 0
deriving DecidableEq, Repr

end Sys2Proof.Machine
end

