-- ==== Sys2Proof/Machine/StatePower.lean ====
section
/-!
DEFINITION. Machine/StatePower.lean: clocks, supplies, governor, sensors and the POWER counters (chapter 15).
-/
namespace Sys2Proof.Machine

/-- The VDD_CORE regulator and its AVSBus (R560 to R564): consecutive failed transactions, target, trim, the raise in progress (DT of the write and the divisor it
is for), and the last readbacks. -/
structure Regulator where
  failures : Nat := 0
  faulted : Bool := false
  target : Nat := 750
  trim : Int := 0
  lastTrim : Option Nat := none
  raise : Option (Nat × Nat) := none
  readMv : Nat := 0
  readMa : Nat := 0
  temp : Nat := 0
deriving DecidableEq, Repr

/-- One sensor of Table 15-5: last reading (°C), since when its recalibration is deferred, and its last recalibration (R575, R576). -/
structure Sensor where
  temp : Int := 0
  deferredSince : Option Nat := none
  lastRecal : Option Nat := none
deriving DecidableEq, Repr

/-- Clock, power and heat state. `under` counts windows in which the under condition held since the last step; `history` holds P1 of the last 1,000 windows in mW,
newest first; `energy` is in µJ; `counted` is the DT up to which the tick counters count. -/
structure Power where
  clocksOn : Bool := true
  locked : Bool := true
  divisor : Nat := 6
  pace : Nat := 0
  cap : Nat := 28
  under : Nat := 0
  throttled : Bool := false
  prochot : Bool := false
  history : List Nat := []
  avs : Regulator := {}
  sensors : Table Sensor := []
  tripped : Bool := false
  energy : Nat := 0
  counted : Nat := 0
  ticksDiv4 : Nat := 0
  ticksDiv5 : Nat := 0
  ticksDiv6 : Nat := 0
  paceTicks : Nat := 0
  prochotTicks : Nat := 0
  prochotAssertions : Nat := 0
  throttleEpisodes : Nat := 0
  avsErrors : Nat := 0
deriving DecidableEq, Repr

end Sys2Proof.Machine
end

