-- ==== Sys2Proof/Machine/State.lean ====
section
/-!
DEFINITION. Machine/State.lean: the whole state of the block, its reset, and the reasons a command can end without a next state.
-/
namespace Sys2Proof.Machine

/-- No command of this block ends in a fault: every row of the table has an effect in the manual. The constructor is raised by nothing
and stands for a step the model could not take (safe: it would stop a run, never prove a falsehood). -/
inductive Fault where
  | unreachable
deriving DecidableEq, Repr

/-- The one reason a command is refused: an arm of Dispatch.lean that has no meaning yet. Raised by exec only (safe: the run stops). -/
inductive Refusal where
  | notModelled (mnemonic : String)
deriving DecidableEq, Repr

/-- The whole state. Tables are sparse: an unlisted key reads as the reset record of its kind. -/
structure State where
  pending : List Instr := []
  free : Nat := 0
  dt : Nat := 0
  site : Site := {}
  ports : Table HostPort := []
  parts : Table Partition := []
  contents : Table Content := []
  nextContent : Nat := 1
  models : Table ModelSlot := []
  loads : List ModelLoad := []
  nextLoad : Nat := 1
  pipes : Table Pipeline := []
  streams : Table Stream := []
  branches : Table Branch := []
  attachSeq : Nat := 0
  tiles : Table Tile := []
  flanks : Table Flank := []
  pages : PageService := {}
  journal : Journal := {}
  feeders : Table Feeder := []
  ops : List Operation := []
  nextOp : Nat := 1
  barriers : Table Barrier := []
  store : List Host.Cell := []
  fabric : Fabric := {}
  mem : Memory := {}
  audio : Audio := {}
  power : Power := {}
  boot : Boot := {}
  mgmt : Mgmt := {}
  pins : Pins := {}
deriving DecidableEq, Repr

/-- The boot flash as R603 installs it: copy 0 with SEQ 1, image slot 0 ACTIVATED and PREFERRED with version 1.4.0, site slots erased. -/
def Flash.installed : Flash :=
  { copy0 := { valid := true, seq := 1, preferred := 0,
               slot0 := { state := .activated, timeouts := 0, length := 6291456, version := 0x01040000 } } }

/-- The machine at the end of its first cold reset: DT zero, stage ROM, every host port DOWN_RESET, every table empty. -/
def State.reset : State := { boot := { flash := Flash.installed } }

end Sys2Proof.Machine
end

