-- ==== Sys2Proof/Machine/Ops.lean ====
section
/-!
DEFINITION. Machine/Ops.lean: the accessors of State's tables, device time, the tile loop, and the shared searches.
-/
namespace Sys2Proof.Machine

/-- One ACLK tick: DT is a 64-bit count that stands while the device is in a reset (R19, R20, R583). -/
def tick (s : State) : State := if s.boot.inReset then s else { s with dt := bump 64 s.dt 1 }

/-- A free value drawn (its counter advances). -/
def drawFree (s : State) : Nat × State := (Config.freeValue s.free, { s with free := s.free + 1 })

/-- R356: the first 10 ms boundary strictly later than `t`. -/
def nextBoundary (t : Nat) : Nat := (t / 245760 + 1) * 245760

/-- R356: when a command accepted at `accepted` that starts at `now` takes effect: the first 10 ms boundary strictly later than its acceptance or, where it has
started only after that one, the first at or after its start (log 34). -/
def effectBoundary (accepted now : Nat) : Nat := max (nextBoundary accepted) (roundUp now 245760)

/-- R55: the first frame boundary at or after `t`. -/
def frameBoundary (t : Nat) : Nat := roundUp t 245760

/-! ## The tables -/

/-- Host port `p`. -/
def State.port (s : State) (p : Nat) : HostPort := Table.get {} s.ports p
/-- Host port `p` becomes `v`. -/
def State.setPort (s : State) (p : Nat) (v : HostPort) : State := { s with ports := Table.set {} s.ports p v }
/-- Host port `p` changed. -/
def State.updPort (s : State) (p : Nat) (f : HostPort → HostPort) : State := s.setPort p (f (s.port p))
/-- Partition `p`. -/
def State.part (s : State) (p : Nat) : Partition := Table.get {} s.parts p
/-- Partition `p` changed. -/
def State.updPart (s : State) (p : Nat) (f : Partition → Partition) : State :=
  { s with parts := Table.set {} s.parts p (f (s.part p)) }
/-- Model content `c`. -/
def State.content (s : State) (c : Nat) : Content := Table.get {} s.contents c
/-- Model content `c` becomes `v`. -/
def State.setContent (s : State) (c : Nat) (v : Content) : State := { s with contents := Table.set {} s.contents c v }
/-- Model slot `m`. -/
def State.model (s : State) (m : Nat) : ModelSlot := Table.get {} s.models m
/-- Model slot `m` becomes `v`. -/
def State.setModel (s : State) (m : Nat) (v : ModelSlot) : State := { s with models := Table.set {} s.models m v }
/-- Pipeline slot `p`. -/
def State.pipe (s : State) (p : Nat) : Pipeline := Table.get {} s.pipes p
/-- Pipeline slot `p` becomes `v`. -/
def State.setPipe (s : State) (p : Nat) (v : Pipeline) : State := { s with pipes := Table.set {} s.pipes p v }
/-- Stream slot `i`. -/
def State.stream (s : State) (i : Nat) : Stream := Table.get {} s.streams i
/-- Stream slot `i` becomes `v`. -/
def State.setStream (s : State) (i : Nat) (v : Stream) : State := { s with streams := Table.set {} s.streams i v }
/-- Stream slot `i` changed. -/
def State.updStream (s : State) (i : Nat) (f : Stream → Stream) : State := s.setStream i (f (s.stream i))
/-- Branch slot `i`. -/
def State.branch (s : State) (i : Nat) : Branch := Table.get {} s.branches i
/-- Branch slot `i` becomes `v`. -/
def State.setBranch (s : State) (i : Nat) (v : Branch) : State := { s with branches := Table.set {} s.branches i v }
/-- Branch slot `i` changed. -/
def State.updBranch (s : State) (i : Nat) (f : Branch → Branch) : State := s.setBranch i (f (s.branch i))
/-- Flank `f`. -/
def State.flank (s : State) (f : Nat) : Flank := Table.get {} s.flanks f
/-- Flank `f` changed. -/
def State.updFlank (s : State) (f : Nat) (g : Flank → Flank) : State :=
  { s with flanks := Table.set {} s.flanks f (g (s.flank f)) }
/-- Feeder `f`: 0 FQ, 1 FC, 2 FK, 3 FX. -/
def State.feeder (s : State) (f : Nat) : Feeder := Table.get {} s.feeders f
/-- Feeder `f` changed. -/
def State.updFeeder (s : State) (f : Nat) (g : Feeder → Feeder) : State :=
  { s with feeders := Table.set {} s.feeders f (g (s.feeder f)) }
/-- Barrier `i` of flank `f` (256 per flank, R262). -/
def State.barrier (s : State) (f i : Nat) : Barrier := Table.get {} s.barriers (256 * f + i)
/-- Barrier `i` of flank `f` changed. -/
def State.updBarrier (s : State) (f i : Nat) (g : Barrier → Barrier) : State :=
  { s with barriers := Table.set {} s.barriers (256 * f + i) (g (s.barrier f i)) }
/-- Page record `ppn`. -/
def State.page (s : State) (ppn : Nat) : PageRec := Table.get {} s.pages.pages ppn
/-- Page record `ppn` changed. -/
def State.updPage (s : State) (ppn : Nat) (g : PageRec → PageRec) : State :=
  { s with pages := { s.pages with pages := Table.set {} s.pages.pages ppn (g (s.page ppn)) } }
/-- Directory entry of page `ppn`. -/
def State.dirEntry (s : State) (ppn : Nat) : DirEntry := Table.get {} s.pages.dir ppn
/-- Directory entry of page `ppn` becomes `v`. -/
def State.setDir (s : State) (ppn : Nat) (v : DirEntry) : State :=
  { s with pages := { s.pages with dir := Table.set {} s.pages.dir ppn v } }
/-- Link state at `key` (5 × tile + port). -/
def State.link (s : State) (key : Nat) : Link := Table.get {} s.fabric.links key
/-- FCLK cycles in a span of DT ticks: 200 FCLK are 3 ticks (R19). -/
def fclk (ticks : Nat) : Nat := ticks * 200 / 3
/-- What the head of a link's queue waits for: room in the replay buffer (true), a slot downstream (false) (R294, R298). -/
def Link.blocked (l : Link) : Option Bool :=
  if l.queue.isEmpty || l.down then none else some (decide (16 ≤ l.replay.length))
/-- A wait that has ended is counted, in FCLK, and one that begins is noted (R294, R298). -/
def Link.mark (l : Link) (dt : Nat) : Link :=
  if l.stall.map (·.1) = l.blocked then l
  else
    let m := match l.stall with
      | some (true, d) => { l with windowStalls := bump 64 l.windowStalls (fclk (dt - d)) }
      | some (false, d) => { l with creditStalls := bump 64 l.creditStalls (fclk (dt - d)) }
      | none => l
    { m with stall := l.blocked.map (fun b => (b, dt)) }
/-- Link state at `key` changed. -/
def State.updLink (s : State) (key : Nat) (g : Link → Link) : State :=
  { s with fabric := { s.fabric with links := Table.set {} s.fabric.links key ((g (s.link key)).mark s.dt) } }
/-- Network interface of endpoint `e`. -/
def State.netif (s : State) (e : Nat) : NetIf := Table.get {} s.fabric.netifs e
/-- Network interface of endpoint `e` changed. -/
def State.updNetif (s : State) (e : Nat) (g : NetIf → NetIf) : State :=
  { s with fabric := { s.fabric with netifs := Table.set {} s.fabric.netifs e (g (s.netif e)) } }
/-- The window of source `a` toward destination `b`. -/
def State.window (s : State) (a b : Nat) : Window := Table.get {} s.fabric.windows (1024 * a + b)
/-- The window of source `a` toward destination `b` changed. -/
def State.updWindow (s : State) (a b : Nat) (g : Window → Window) : State :=
  { s with fabric := { s.fabric with windows := Table.set {} s.fabric.windows (1024 * a + b) (g (s.window a b)) } }
/-- Pseudo-channel `c`. -/
def State.channel (s : State) (c : Nat) : PseudoChannel := Table.get {} s.mem.channels c
/-- Pseudo-channel `c` changed. -/
def State.updChannel (s : State) (c : Nat) (g : PseudoChannel → PseudoChannel) : State :=
  { s with mem := { s.mem with channels := Table.set {} s.mem.channels c (g (s.channel c)) } }
/-- TDM port `t`. -/
def State.tdm (s : State) (t : Nat) : TdmPort := Table.get {} s.audio.ports t
/-- TDM port `t` changed. -/
def State.updTdm (s : State) (t : Nat) (g : TdmPort → TdmPort) : State :=
  { s with audio := { s.audio with ports := Table.set {} s.audio.ports t (g (s.tdm t)) } }
/-- Input slot `k` (32 × port + slot). -/
def State.inSlot (s : State) (k : Nat) : InSlot := Table.get {} s.audio.inputs k
/-- Input slot `k` changed. -/
def State.updIn (s : State) (k : Nat) (g : InSlot → InSlot) : State :=
  { s with audio := { s.audio with inputs := Table.set {} s.audio.inputs k (g (s.inSlot k)) } }
/-- Output slot `k` (32 × port + slot). -/
def State.outSlot (s : State) (k : Nat) : OutSlot := Table.get {} s.audio.outputs k
/-- Output slot `k` changed. -/
def State.updOut (s : State) (k : Nat) (g : OutSlot → OutSlot) : State :=
  { s with audio := { s.audio with outputs := Table.set {} s.audio.outputs k (g (s.outSlot k)) } }

/-! ## The tile loop (Table 3-1). A tile is named by 12 × file index + rank − 1; its flank is that number ÷ 48. -/

/-- The tile at loop position `pos` of flank `f`. -/
def loopTile (f pos : Nat) : Nat :=
  48 * f +
    (if pos ≤ 11 then pos
     else if pos = 12 then 12 + 11
     else if pos ≤ 22 then 12 + (23 - pos)
     else if pos ≤ 32 then 24 + (pos - 22)
     else if pos = 33 then 24 + 11
     else if pos = 34 then 36 + 11
     else if pos ≤ 45 then 36 + (45 - pos)
     else if pos = 46 then 24
     else 12)

/-- The member number at loop position `pos` at shipment (Table 3-1). -/
def loopMember (pos : Nat) : Nat :=
  if pos ≤ 10 then pos
  else if pos = 11 then 44
  else if pos = 12 then 45
  else if pos ≤ 32 then pos - 2
  else if pos = 33 then 46
  else if pos = 34 then 47
  else pos - 4

/-- The loop position of tile `t`. -/
def tilePos (t : Nat) : Nat := ((List.range 48).find? (fun p => loopTile (t / 48) p == t)).getD 0

/-- The member number of tile `t` at shipment. -/
def tileMember (t : Nat) : Nat := loopMember (tilePos t)

/-- The tile that is member `m` of flank `f` at shipment. -/
def memberTile (f m : Nat) : Nat :=
  loopTile f (((List.range 48).find? (fun p => loopMember p == m)).getD 0)

/-- The coordinate byte of a tile (Table 3-6). -/
def coordByte (t : Nat) : Nat := 16 * (t / 12) + t % 12

/-- The tile a coordinate byte names. -/
def coordTile (c : Nat) : Nat := 12 * (c / 16) + c % 16

/-- Tile `t` after a cold or device reset (R96): members 0 to 43 ENABLED under their own logical ID, members 44 to 47 SPARE. -/
def Tile.atReset (t : Nat) : Tile :=
  let m := tileMember t
  if m < 44 then { state := .enabled, logical := 48 * (t / 48) + m, bypass := false }
  else { state := .spare, logical := 255, bypass := true }

/-- Tile `t`. -/
def State.tile (s : State) (t : Nat) : Tile := Table.get (Tile.atReset t) s.tiles t
/-- Tile `t` changed. -/
def State.updTile (s : State) (t : Nat) (g : Tile → Tile) : State :=
  { s with tiles := Table.set (Tile.atReset t) s.tiles t (g (s.tile t)) }

/-- The tiles of flank `f` in loop order. -/
def flankTiles (f : Nat) : List Nat := (List.range 48).map (loopTile f)

/-- The enabled tiles of flank `f` in loop order: the ring (R97). -/
def State.ring (s : State) (f : Nat) : List Nat := (flankTiles f).filter (fun t => (s.tile t).state == .enabled)

/-- How many tiles of flank `f` are enabled. -/
def State.enabledTiles (s : State) (f : Nat) : Nat := (s.ring f).length

/-- The tile that holds logical ID `l`, if any (R250, R282). -/
def State.logicalTile (s : State) (l : Nat) : Option Nat :=
  (List.range 144).find? (fun t => (s.tile t).logical == l && (s.tile t).state != .retired)

/-- The ring position of tile `t`, 0xFF when not in the ring. -/
def State.ringPos (s : State) (t : Nat) : Nat := ((s.ring (t / 48)).findIdx? (fun x => x == t)).getD 255

/-! ## Tick counters (Table 15-8) and TCLK cycles -/

/-- The tick counters counted up to `dt`. -/
def Power.countTo (p : Power) (dt : Nat) : Power :=
  let n := dt - p.counted
  { p with
    counted := dt,
    ticksDiv4 := bump 64 p.ticksDiv4 (if p.divisor = 4 then n else 0),
    ticksDiv5 := bump 64 p.ticksDiv5 (if p.divisor = 5 then n else 0),
    ticksDiv6 := bump 64 p.ticksDiv6 (if p.divisor = 6 then n else 0),
    paceTicks := bump 64 p.paceTicks (if 1 ≤ p.pace then n else 0),
    prochotTicks := bump 64 p.prochotTicks (if p.prochot then n else 0) }

/-- TCLK cycles since the tick counters began: 50, 40 or 33⅓ in a tick of 24.576 MHz by the divisor in force (R41). -/
def State.tclk (s : State) : Nat :=
  let p := s.power.countTo s.dt
  50 * p.ticksDiv4 + 40 * p.ticksDiv5 + 100 * p.ticksDiv6 / 3

/-! ## Dispatch-idle (R261) -/

/-- TCLK cycles in which flank `f` has had no task. -/
def State.flankIdle (s : State) (f : Nat) : Nat :=
  (s.flank f).idleTclk + (if (s.flank f).run.isNone then s.tclk - (s.flank f).idleFrom else 0)

/-- The clock by which a tile's idle cycles count: an ENABLED tile's stands while its flank runs a task, a retired tile's always. -/
def State.idleClock (s : State) (t : Nat) : Nat :=
  match (s.tile t).state with
  | .enabled => s.flankIdle (t / 48)
  | .retired => (s.tile t).idleMark
  | .spare => s.tclk
  | .loading => s.tclk

/-- A tile's DISPATCH_IDLE as it stands now (R260, R261). -/
def State.dispatchIdleOf (s : State) (t : Nat) : Nat := bump 64 (s.tile t).dispatchIdle (s.idleClock t - (s.tile t).idleMark)

/-- A tile moves between the states of Table 3-5. -/
def State.moveTile (s : State) (t : Nat) (x : TileState) : State :=
  let u := s.updTile t (fun y => { y with dispatchIdle := s.dispatchIdleOf t, state := x })
  u.updTile t (fun y => { y with idleMark := u.idleClock t })

/-! ## A tile's other waits (R260) -/

/-- Cycles added to the counter of a cause. -/
def Tile.count (x : Tile) (c : Stall) (n : Nat) : Tile :=
  match c with
  | .page => { x with pageStall := bump 64 x.pageStall n }
  | .dataLate => { x with dataLate := bump 64 x.dataLate n }
  | .ringWait => { x with ringWait := bump 64 x.ringWait n }
  | .fabric => { x with fabricStall := bump 64 x.fabricStall n }
  | .barrier => { x with barrierStall := bump 64 x.barrierStall n }

/-- A tile's program goes on: the cycles it waited count. -/
def State.stallEnds (s : State) (t : Nat) : State :=
  match (s.tile t).stalled with
  | some (c, since) => s.updTile t (fun x => { x.count c (s.tclk - since) with stalled := none })
  | none => s

/-- A tile's program waits for a cause from now on. -/
def State.stalls (s : State) (t : Nat) (c : Stall) : State :=
  if (s.tile t).stalled.map (·.1) = some c then s
  else (s.stallEnds t).updTile t (fun x => { x with stalled := some (c, s.tclk) })

/-! ## Applying a change to every member of a list -/

/-- `f` applied for each element in turn. -/
def forAll {α : Type} (xs : List α) (f : State → α → State) (s : State) : State := xs.foldl f s

/-- R329: the pseudo-channel index of a device address. -/
def channelOf (x : Nat) : Nat :=
  let g := x / 4096
  let s := g % 6
  let q := g / 6
  let p := Nat.xor (Nat.xor (Nat.xor (Nat.xor (field q 0 5) (field q 5 5)) (field q 10 5)) (field q 15 5)) (field q 20 2)
  32 * s + p

/-- The endpoint of the stack that holds a device address (Table 8-1). -/
def stackOf (x : Nat) : Nat := 256 + channelOf x / 32

end Sys2Proof.Machine
end

