-- ==== Sys2Proof/Machine/Media.lean ====
section
/-!
DEFINITION. Machine/Media.lean: the management endpoint's media: when each exists, and what it loses at resets and link losses (R648, R650, R664).
-/
namespace Sys2Proof.Machine

/-- The key of a medium: 0 SMBus, n + 1 host port n. -/
def mediumKey : Medium → Nat
  | .smbus => 0
  | .host n => n + 1

/-- A medium's record. -/
def State.medium (s : State) (m : Medium) : MediumState := Table.get {} s.mgmt.media (mediumKey m)

/-- A medium's record changed. -/
def State.updMedium (s : State) (m : Medium) (g : MediumState → MediumState) : State :=
  { s with mgmt := { s.mgmt with media := Table.set {} s.mgmt.media (mediumKey m) (g (s.medium m)) } }

/-- Whether the endpoint runs: VDD_AON and VDD_IO in range (Model of chapter 18, Table 18-7). -/
def State.endpointRuns (s : State) : Bool := s.boot.aonIn && s.boot.ioIn

/-- Whether a medium exists: SMBus while the endpoint runs, a host port's while its link is UP too (R648). -/
def State.mediumUp (s : State) (m : Medium) : Bool :=
  s.endpointRuns && (match m with
    | .smbus => true
    | .host n => decide (n < 4) && (s.port n).link == .up)

/-- R664, R666: the receiver is cleared, and with it the events held for it. -/
def Mgmt.clearReceiver (g : Mgmt) : Mgmt :=
  { g with receiver := none, unacked := [], sensors := Table.mapVals {} (fun _ (x : SensorState) => { x with waiting := false }) g.sensors }

/-- A message leaves the endpoint. -/
def State.sendMgmt (s : State) (x : MgmtSent) : State := { s with mgmt := { s.mgmt with sent := s.mgmt.sent ++ [x] } }

/-- Host port `n`'s medium ceases to exist or loses its EID: what it carried is discarded and a receiver on it is cleared (R664); at a port reset the EID is cleared
and Discovery Notify is owed again (R650). -/
def State.dropMedium (s : State) (n : Nat) (clearEid : Bool) : State :=
  let t := s.updMedium (.host n) (fun m => if clearEid then {} else { m with parts := [], messages := [] })
  if (t.mgmt.receiver.map (·.1)) = some (.host n) then { t with mgmt := t.mgmt.clearReceiver } else t

/-- Every host port's medium at a device reset (R650, R664). -/
def State.dropHostMedia (s : State) : State := (List.range 4).foldl (fun (t : State) n => t.dropMedium n true) s

/-- R650: the link has reached UP: one Discovery Notify after the EID was cleared. -/
def State.notifyDiscovery (s : State) (n : Nat) : State :=
  if !s.mediumUp (.host n) || (s.medium (.host n)).notified then s
  else (s.updMedium (.host n) (fun m => { m with notified := true })).sendMgmt (.discoveryNotify n)

end Sys2Proof.Machine
end

