-- ==== Sys2Proof/Machine/Host.lean ====
section
/-!
DEFINITION. Machine/Host.lean: one host port's messages to its host (chapters 11 and 12): MSI-X and its coalescing, events, completions,
mailbox responses, violations, and what a port holds while it cannot reach its host.
-/
namespace Sys2Proof.Machine

/-- Whether the port may issue memory requests: link UP, not in D3hot, Bus Master Enable set (R401, R405, R421). -/
def HostPort.canWrite (p : HostPort) : Bool := p.link == .up && !p.cfg.d3hot && p.cfg.busMaster

/-! ## Configuration space (R2, R395 to R397, R399) -/

/-- The configuration header of Table 11-2 as a port presents it, byte 0 first (R13). The fields the table does not list are those of the PCI Express Base Specification: the Command
bits the host writes, Capabilities List in Status, the type bits of a 64-bit BAR (PRESUMED, log 118). -/
def PortConfig.header (c : PortConfig) : Nat :=
  pack [(16, 0x1EC6), (16, 0x1440), (1, 0), (1, bit c.memorySpace), (1, bit c.busMaster), (13, 0), (4, 0), (1, 1), (11, 0), (8, 0xB0), (24, 0x120000),
    (8, 0), (8, 0), (8, 0x00), (8, 0), (64, c.bar0 + 4), (128, 0), (32, 0), (16, 0x1EC6), (16, 0x1440), (32, 0), (8, 0x40), (56, 0), (8, 0), (8, 0x00), (16, 0)]

/-- The capability structures of Table 11-3. There is no Device Serial Number, VPD or vendor-specific one (R396). -/
inductive Capability where
  | powerManagement | pciExpress | msix | errorReporting | secondaryPcie | dataLinkFeature | physical16 | physical32 | laneMargining
deriving DecidableEq, Repr

/-- Table 11-3's offset of a capability structure. -/
def Capability.offset : Capability → Nat
  | .powerManagement => 0x40
  | .pciExpress => 0x50
  | .msix => 0x90
  | .errorReporting => 0x100
  | .secondaryPcie => 0x150
  | .dataLinkFeature => 0x180
  | .physical16 => 0x190
  | .physical32 => 0x1D0
  | .laneMargining => 0x220

/-- The first word of a capability structure: its ID and the offset of the next one in Table 11-3's order; the IDs, version 1 and the two chains' form are those of the PCI
Express Base Specification (PRESUMED, log 118). -/
def Capability.word : Capability → Nat
  | .powerManagement => pack [(8, 0x01), (8, 0x50)]
  | .pciExpress => pack [(8, 0x10), (8, 0x90)]
  | .msix => pack [(8, 0x11), (8, 0)]
  | .errorReporting => pack [(16, 0x0001), (4, 1), (12, 0x150)]
  | .secondaryPcie => pack [(16, 0x0019), (4, 1), (12, 0x180)]
  | .dataLinkFeature => pack [(16, 0x0025), (4, 1), (12, 0x190)]
  | .physical16 => pack [(16, 0x0026), (4, 1), (12, 0x1D0)]
  | .physical32 => pack [(16, 0x002A), (4, 1), (12, 0x220)]
  | .laneMargining => pack [(16, 0x0027), (4, 1), (12, 0)]

/-- Every capability structure a port has. -/
def capabilities : List Capability :=
  [.powerManagement, .pciExpress, .msix, .errorReporting, .secondaryPcie, .dataLinkFeature, .physical16, .physical32, .laneMargining]

/-- R399: the MSI-X structure: 64 vectors, the table at BAR0 offset 0x1_0000, the pending bits at 0x1_1000, both with BIR 0. -/
def PortConfig.msixWords (c : PortConfig) : Nat :=
  Capability.msix.word + 2 ^ 16 * pack [(11, 63), (3, 0), (1, bit c.functionMask), (1, bit c.msixEnable), (32, 0x10000), (32, 0x11000)]

/-- The 4 bytes a configuration read at `offset` returns: the header, the MSI-X structure and the first word of each other capability structure; none where the value is the PCI
Express Base Specification's. -/
def PortConfig.read (c : PortConfig) (offset : Nat) : Option Nat :=
  if offset < 64 then some (field c.header (8 * (offset / 4 * 4)) 32)
  else if 0x90 ≤ offset ∧ offset < 0x9C then some (field c.msixWords (8 * (offset / 4 * 4 - 0x90)) 32)
  else (capabilities.find? (fun k => k.offset == offset / 4 * 4)).map Capability.word

/-! ## MSI-X -/

/-- Vector `v`. -/
def HostPort.vector (p : HostPort) (v : Nat) : Vector64 := Table.get {} p.vectors v

/-- Vector `v` becomes `e`. -/
def HostPort.setVector (p : HostPort) (v : Nat) (e : Vector64) : HostPort :=
  { p with vectors := Table.set {} p.vectors v e }

/-- Whether a message for vector `v` may be sent now (R400, R406). -/
def HostPort.unmasked (p : HostPort) (v : Nat) : Bool :=
  p.canWrite && p.cfg.msixEnable && !p.cfg.functionMask && !(p.vector v).mask

/-- R466, R467, R400: a message of vector `v` falls due: it is sent with the address and data the entry holds now (R686), or its pending
bit is set; either clears the count. -/
def HostPort.message (p : HostPort) (v : Nat) : HostPort :=
  let e := p.vector v
  if p.unmasked v then
    { p.setVector v { e with count := 0, pending := false } with
      sent := p.sent ++ [.msix v (e.addr + 2 ^ 32 * e.upper) e.msgData],
      cnt := { p.cnt with msixMessages := bump 64 p.cnt.msixMessages 1 } }
  else p.setVector v { e with count := 0, pending := true }

/-- One signal on vector `v` (R465, R466). `urgent` is a failing completion or mailbox DONE. -/
def HostPort.signal (dt : Nat) (p : HostPort) (v : Nat) (urgent : Bool) : HostPort :=
  let e := p.vector v
  let e1 := { e with count := e.count + 1, firstDt := if e.count = 0 then dt else e.firstDt }
  if urgent || decide (e.aggTime = 0) || decide (e.aggCount ≤ e1.count) then (p.setVector v e1).message v
  else p.setVector v e1

/-- Every pending vector that may send sends one message (R400, R408). -/
def HostPort.sendPending (p : HostPort) : HostPort :=
  (List.range 64).foldl (fun q v => if (q.vector v).pending && q.unmasked v then q.message v else q) p

/-! ## Events -/

/-- The entries of the event ring. -/
def EventRing.size (r : EventRing) : Nat := 2 ^ r.log

/-- Event entries written and not handed back. -/
def EventRing.used (r : EventRing) : Nat := (r.tail + r.size - r.head) % r.size

/-- R462 and Table 12-4: an event entry's 32 bytes, without PHASE. -/
def Event.entry (e : Event) (phase : Bool) : Nat :=
  pack [(16, e.code), (16, e.seq), (32, e.handle), (64, e.dt), (96, e.data), (31, 0), (1, bit phase)]

/-- The event is written at the ring's tail (R451's phases). -/
def HostPort.storeEvent (p : HostPort) (e : Event) : HostPort :=
  let r := p.events
  let t := (r.tail + 1) % r.size
  { p with
    events := { r with tail := t, phase := if t = 0 then !r.phase else r.phase },
    sent := p.sent ++ [.write r.aperture (r.offset + 32 * r.tail) 32 (e.entry r.phase)],
    cnt := { p.cnt with eventsPosted := bump 64 p.cnt.eventsPosted 1 } }

/-- R461, R463: an event is dropped and counted for EVENTS_LOST. -/
def HostPort.dropEvent (p : HostPort) (e : Event) : HostPort :=
  { p with
    events := { p.events with
      dropped := bump 32 p.events.dropped 1,
      firstDrop := if p.events.dropped = 0 then low32 e.dt else p.events.firstDrop,
      lastDrop := low32 e.dt },
    cnt := { p.cnt with eventsDropped := bump 32 p.cnt.eventsDropped 1 } }

/-- The events a port holds for its ring. -/
def HostPort.eventsHeld (p : HostPort) : Nat :=
  (p.heldOut.filter (fun (h : Held) => match h with | .event _ => true | _ => false)).length

/-- An event goes to the ring, to the hold before the ring exists (R461), to the hold of a port that cannot write (R406), or is dropped. -/
def HostPort.deliver (dt : Nat) (p : HostPort) (e : Event) : HostPort :=
  if !p.events.live then
    if p.heldEvents.length < 256 then { p with heldEvents := p.heldEvents ++ [e] } else p.dropEvent e
  else if !p.canWrite then
    if p.eventsHeld < p.events.capAtLoss then { p with heldOut := p.heldOut ++ [Held.event e] }.signal dt 0 false
    else if p.link == .lost then
      { p with lossDropped := bump 32 p.lossDropped 1,
               cnt := { p.cnt with eventsDropped := bump 32 p.cnt.eventsDropped 1 } }
    else p.dropEvent e
  else if p.events.used = p.events.size - 1 then p.dropEvent e
  else (p.storeEvent e).signal dt 0 false

/-- An event arises: it takes the port's next SEQ and the present DT (R462). -/
def HostPort.post (dt : Nat) (p : HostPort) (code handle data : Nat) : HostPort :=
  { p with eventSeq := bump 16 p.eventSeq 1 }.deliver dt
    { code := code, seq := p.eventSeq, handle := handle, dt := dt, data := data }

/-- R463: with drops counted and room in the ring, one EVENTS_LOST. -/
def HostPort.postLost (dt : Nat) (p : HostPort) : HostPort :=
  if p.events.dropped = 0 then p
  else
    { p with events := { p.events with dropped := 0, firstDrop := 0, lastDrop := 0 } }.post dt 0x8001 0
      (pack [(32, p.events.dropped), (32, p.events.firstDrop), (32, p.events.lastDrop)])

/-- An event posted to port `n` (R464). -/
def State.post (s : State) (n code handle data : Nat) : State := s.updPort n (fun p => p.post s.dt code handle data)

/-- An event posted to every partition. -/
def State.postAll (s : State) (code data : Nat) : State :=
  (List.range 4).foldl (fun t n => t.post n code 0 data) s

/-! ## Violations -/

/-- The sources of a violation (Table 19-4). -/
inductive ViolationSource where
  | mmio | fxDma | command
deriving DecidableEq, Repr

/-- Table 19-4's code of a source. -/
def ViolationSource.code : ViolationSource → Nat
  | .mmio => 1
  | .fxDma => 2
  | .command => 3

/-- R429, R683, R430: the violation is recorded at entry SEQ mod 16, and a VIOLATION event follows unless one was posted within 24,576 ticks. -/
def HostPort.violate (dt : Nat) (p : HostPort) (kind : Nat) (src : ViolationSource) (write : Bool)
    (addr opcode data : Nat) : HostPort :=
  let v := p.vlog
  let e : Violation := { address := addr, dt := dt, kind := kind, source := src.code, write := write, opcode := opcode,
                         data := data, seq := v.seq }
  let v1 := { v with entries := Table.set {} v.entries (v.seq % 16) e, seq := bump 32 v.seq 1,
                     wrapped := v.wrapped || decide (16 ≤ v.seq), since := v.since + 1 }
  let p1 := { p with vlog := v1, cnt := { p.cnt with violations := bump 32 p.cnt.violations 1 } }
  let due := match v.lastEvent with
    | none => true
    | some t => decide (t + 24576 ≤ dt)
  if due then
    { p1 with vlog := { v1 with lastEvent := some dt, since := 0 } }.post dt 0x8004 0
      (pack [(8, kind), (4, v.seq % 16), (32, v1.since)])
  else p1

/-- A violation recorded on port `n`. -/
def State.violate (s : State) (n kind : Nat) (src : ViolationSource) (write : Bool) (addr opcode data : Nat) : State :=
  s.updPort n (fun p => p.violate s.dt kind src write addr opcode data)

/-! ## Writes to host memory and completions -/

/-- R418: a range of host memory cut into pieces of at most `limit` and 256 bytes, none across a 256-byte boundary: the first byte of each and its bytes. An aperture's base is a multiple of
4 KiB (R416), so the boundaries of host addresses are those of the offset. -/
def hostPieces (limit : Nat) : Nat → Nat → Nat → List (Nat × Nat)
  | 0, _, _ => []
  | fuel + 1, off, left =>
    if left = 0 then []
    else
      let n := min left (min (max 4 limit) (256 - off % 256))
      (off, n) :: hostPieces limit fuel (off + n) (left - n)

/-- R418: the memory write TLPs of one write. -/
def HostPort.writeTlps (p : HostPort) (aperture offset bytes value : Nat) : List Sent :=
  (hostPieces p.cfg.maxPayload bytes offset bytes).map (fun x => .write aperture x.1 x.2 (field value (8 * (x.1 - offset)) (8 * x.2)))

/-- The host address a range of an aperture begins at. -/
def HostPort.hostAddress (p : HostPort) (aperture offset : Nat) : Nat :=
  ((Table.get none p.apertures aperture).map (fun (a : Aperture) => a.base)).getD 0 + offset

/-- R418: whether a TLP to a host address has a 64-bit address header; below 4 GiB it has a 32-bit one. -/
def wideHeader (address : Nat) : Bool := decide (2 ^ 32 ≤ address)

/-- A write to host memory goes out, or waits with the held entries (R406, R451). -/
def HostPort.hostWrite (p : HostPort) (aperture offset bytes value : Nat) : HostPort :=
  if p.canWrite then { p with sent := p.sent ++ p.writeTlps aperture offset bytes value }
  else { p with heldOut := p.heldOut ++ [.write aperture offset bytes value] }

/-- Ring pair `n`. -/
def HostPort.pair (p : HostPort) (n : Nat) : RingPair := Table.get {} p.pairs n

/-- Ring pair `n` becomes `r`. -/
def HostPort.setPair (p : HostPort) (n : Nat) (r : RingPair) : HostPort := { p with pairs := Table.set {} p.pairs n r }

/-- U of R448: completions written and not consumed. -/
def RingPair.unconsumed (r : RingPair) : Nat := (r.cqTail + 2 ^ r.cqLog - r.cqHead) % 2 ^ r.cqLog

/-- Pending submission entries. -/
def RingPair.pendingEntries (r : RingPair) : Nat := (r.sqTail + 2 ^ r.sqLog - r.sqHead) % 2 ^ r.sqLog

/-- Completions held for pair `n`. -/
def HostPort.completionsHeld (p : HostPort) (n : Nat) : Nat :=
  (p.heldOut.filter (fun (h : Held) => match h with | .completion c => c.pair == n | _ => false)).length

/-- Table 12-3: a completion entry's 32 bytes at the moment it is written. -/
def Completion.entry (c : Completion) (sqHead dt : Nat) (phase : Bool) : Nat :=
  pack [(16, c.tag), (16, c.status), (32, c.handle), (64, c.result), (16, sqHead), (16, c.detail), (32, low32 dt), (63, 0),
        (1, bit phase)]

/-- R451: the completion entry is written at the completion tail. -/
def HostPort.storeCompletion (dt : Nat) (p : HostPort) (c : Completion) : HostPort :=
  let r := p.pair c.pair
  let t := (r.cqTail + 1) % 2 ^ r.cqLog
  { p.setPair c.pair { r with cqTail := t, phase := if t = 0 then !r.phase else r.phase } with
    sent := p.sent ++ [.write r.cqAperture (r.cqOffset + 32 * r.cqTail) 32 (c.entry r.sqHead dt r.phase)] }

/-- A completion goes to its ring and signals the ring's vector, or is held (R406, R466). -/
def HostPort.giveCompletion (dt : Nat) (p : HostPort) (c : Completion) : HostPort :=
  let v := (p.pair c.pair).vector
  let urgent := decide (c.status ≠ 0)
  if p.canWrite then (p.storeCompletion dt c).signal dt v urgent
  else if p.completionsHeld c.pair < (p.pair c.pair).capAtLoss then
    { p with heldOut := p.heldOut ++ [Held.completion c] }.signal dt v urgent
  else { p with lossDropped := bump 32 p.lossDropped 1 }

/-- What a command's completion carries (Table 12-3, R437): status, the object created (0: the object acted on), RESULT, DETAIL and, for the
mailbox, further outbound bytes. -/
structure Answer where
  status : Nat := 0
  handle : Nat := 0
  result : Nat := 0
  detail : Nat := 0
  extra : Nat := 0
  extraBytes : Nat := 0
deriving DecidableEq, Repr

/-- Table 12-1: the mailbox's response to call `c`. -/
def mailboxResponse (c : Call) (a : Answer) (handle : Nat) : Nat :=
  pack [(16, c.opcode), (8, 0), (8, 1), (16, c.tag), (16, 8 + a.extraBytes), (32, handle), (16, a.status), (16, a.detail),
        (64, a.result), (8 * a.extraBytes, a.extra)]

/-- R441, R451: an accepted command completes: it leaves the accepted list and its one response is written to its channel, unless a port reset
removed the channel (R411). -/
def HostPort.finish (dt : Nat) (p : HostPort) (e : Accepted) (a : Answer) : HostPort :=
  let h := if a.handle = 0 then e.call.handle else a.handle
  let p1 := { p with accepted := p.accepted.filter (fun x => x.id != e.id) }
  if e.discarded then p1
  else
    let p2 := if a.status = 0 then p1
              else { p1 with cnt := { p1.cnt with commandsFailed := bump 32 p1.cnt.commandsFailed 1 } }
    match e.call.chan with
    | .mailbox =>
      let p3 := { p2 with mbx := { p2.mbx with outbound := mailboxResponse e.call a h, busy := false, done := true } }
      if p3.mbx.irqEn then p3.signal dt 0 true else p3
    | .pair n =>
      p2.giveCompletion dt { pair := n, tag := e.call.tag, status := a.status, handle := h, result := a.result, detail := a.detail }

/-- The accepted command `id` of port `n` completes with answer `a`. -/
def State.complete (s : State) (n id : Nat) (a : Answer) : State :=
  match (s.port n).accepted.find? (fun x => x.id == id) with
  | some e => s.updPort n (fun p => p.finish s.dt e a)
  | none => s

/-- A failing answer. -/
def Answer.fail (status : Nat) (detail : Nat := 0) : Answer := { status := status, detail := detail }

/-- The accepted commands of port `n` with an opcode and a key complete with `a`: the commands that wait for an object's change. -/
def State.completeKey (s : State) (n opcode key : Nat) (a : Answer) : State :=
  ((s.port n).accepted.filter (fun x => x.started && x.call.opcode == opcode && x.key == key)).foldl
    (fun t x => t.complete n x.id a) s

/-! ## Holding -/

/-- The free capacity each ring shows now, kept for what is held (R406). -/
def HostPort.noteCapacity (p : HostPort) : HostPort :=
  { p with
    pairs := Table.mapVals {} (fun _ r => { r with capAtLoss := 2 ^ r.cqLog - 1 - r.unconsumed }) p.pairs,
    events := { p.events with capAtLoss := p.events.size - 1 - p.events.used } }

/-- R408: the held entries and writes go out in the order they arose. -/
def HostPort.flushHeld (dt : Nat) (p : HostPort) : HostPort :=
  p.heldOut.foldl
    (fun q h => match h with
      | .completion c => q.storeCompletion dt c
      | .event e => q.storeEvent e
      | .write a o b v => { q with sent := q.sent ++ q.writeTlps a o b v })
    { p with heldOut := [] }

/-- The port can write again: held entries, then pending messages (R401, R408). -/
def HostPort.release (dt : Nat) (p : HostPort) : HostPort := (p.flushHeld dt).sendPending

end Sys2Proof.Machine
end

