-- ==== Sys2Proof/Machine/Faults.lean ====
section
/-!
DEFINITION. Machine/Faults.lean: the fault journal (R630 to R632) and device faults (R626 to R628).
-/
namespace Sys2Proof.Machine

/-- Table 17-4's empty record: no tile, endpoint, feeder, partition or operation concerned. -/
def JEntry.blank (kind : Nat) : JEntry :=
  { seq := 0, dt := 0, kind := kind, coord := 255, endpoint := 1023, feeder := 7, part := 7, task := 0, aborted := false,
    gambit := false, injected := false, recovery := 0, detail := 0, address := 0 }

/-- R630: one entry with the next SEQ and the present DT; the oldest of 4,096 is overwritten. -/
def State.journalWrite (s : State) (e : JEntry) : State :=
  { s with journal := { entries := ({ e with seq := s.journal.next, dt := s.dt } :: s.journal.entries).take 4096,
                        next := bump 32 s.journal.next 1, written := s.journal.written + 1 } }

/-- Table 17-4: an entry's 32 bytes. -/
def JEntry.bytes (e : JEntry) : Nat :=
  pack [(32, e.seq), (64, e.dt), (8, e.kind), (8, e.coord), (10, e.endpoint), (3, e.feeder), (3, e.part), (16, e.task),
        (1, bit e.aborted), (1, bit e.gambit), (1, bit e.injected), (5, e.recovery), (8, 0), (32, e.detail), (64, e.address)]

/-- The recoveries of Table 17-4. -/
inductive Recovery where
  | none | frog | commitAbandoned | sacrificed | hostFailed | reload | reissued | bindOff | passed | flankReset | degraded | fatal
deriving DecidableEq, Repr

/-- Table 17-4's code of a recovery. -/
def Recovery.code : Recovery → Nat
  | .none => 0
  | .frog => 1
  | .commitAbandoned => 2
  | .sacrificed => 3
  | .hostFailed => 4
  | .reload => 5
  | .reissued => 6
  | .bindOff => 7
  | .passed => 8
  | .flankReset => 9
  | .degraded => 10
  | .fatal => 11

/-- R626: a device fault's journal entry and its DEVICE_FAULT event to every partition. -/
def State.faultRecord (s : State) (cause : Nat) (isFatal : Bool) (address : Nat) : State :=
  let word := cause + 256 * bit isFatal
  let seq := s.journal.next
  let r : Recovery := if isFatal then .fatal else .degraded
  (s.journalWrite { JEntry.blank 0x23 with endpoint := if cause = 2 then stackOf address else 288, recovery := r.code, detail := word, address := address }).postAll 0x8015
    (pack [(16, word), (32, seq)])

/-- R627: a DEGRADED device fault; the device keeps running with the limitation its cause names. -/
def State.degradedFault (s : State) (cause : Nat) : State :=
  let t := s.faultRecord cause false 0
  { t with boot := { t.boot with degraded := cause :: t.boot.degraded } }

/-- R628 step 3: every accepted command of port `n` completes with DEVICE_FAULT. -/
def State.failAccepted (s : State) (n : Nat) : State :=
  (s.port n).accepted.foldl (fun t e => t.complete n e.id (Answer.fail 0x0601)) s

/-- R628: a FATAL device fault: the records, then dispatch stops (boot.fatal holds the DT of step 1), accepted commands fail. -/
def State.fatalFault (s : State) (cause address : Nat) : State :=
  let t := s.faultRecord cause true address
  let t1 := { t with boot := { t.boot with fatal := t.boot.fatal.orElse (fun _ => some t.dt) } }
  (List.range 4).foldl State.failAccepted t1

/-- Whether the firmware runs: READY and no FATAL fault (R628). -/
def State.serving (s : State) : Bool := s.boot.stage == .ready && s.boot.fatal.isNone

end Sys2Proof.Machine
end

