-- ==== Sys2Proof/Machine/Power.lean ====
section
/-!
DEFINITION. Machine/Power.lean: the voltage loop, the governor, power caps, PROCHOT_N and the thermal sensors (chapter 15).
-/
namespace Sys2Proof.Machine

/-- The power state changed. -/
def State.updPower (s : State) (g : Power → Power) : State := { s with power := g s.power }

/-! ## Operating points (R562, R563, R567, Tables 15-3 and 15-4) -/

/-- V_nom of a divisor in mV. -/
def vNominal (d : Nat) : Int := if d = 4 then 750 else if d = 5 then 680 else 620

/-- R562: the VDD_CORE target of a divisor. -/
def Power.voltage (p : Power) (d : Nat) : Nat := (clampInt 600 800 (vNominal d + p.avs.trim)).toNat

/-- R562, R564: a target is written only where it changes, and never to a faulted regulator. -/
def Power.writeTarget (p : Power) (d : Nat) : Power :=
  if p.avs.faulted then p else { p with avs := { p.avs with target := p.voltage d } }

/-- The divisor of the operating point: the one a raise in progress leads to, or the one in force. -/
def Power.point (p : Power) : Nat :=
  match p.avs.raise with
  | some (_, d) => d
  | none => p.divisor

/-- R581: the ceiling of a cap. -/
def capCeiling (cap : Nat) : Nat := if 27 ≤ cap then 4 else if 20 ≤ cap then 5 else 6

/-- d_c (R567). -/
def Power.ceiling (p : Power) : Nat := if p.avs.faulted then 6 else capCeiling p.cap

/-- R563: the divider to `d`: a slower one at once, then the lower target; a faster one after the higher target is reached. -/
def Power.setDivisor (p : Power) (dt d : Nat) : Power :=
  if p.divisor ≤ d then ({ p.countTo dt with divisor := d, avs := { p.avs with raise := none } } : Power).writeTarget d
  else
    let q := p.writeTarget d
    { q with avs := { q.avs with raise := some (dt, d) } }

/-- The divider changes for a raise in progress. -/
def Power.finishRaise (p : Power) (dt : Nat) : Power :=
  match p.avs.raise with
  | none => p
  | some (_, d) => { p.countTo dt with divisor := d, avs := { p.avs with raise := none, failures := 0 } }

/-- AVS_TARGET_REACHED (R563). -/
def State.targetReached (s : State) : State := s.updPower (fun p => p.finishRaise s.dt)

/-- VOLTAGE_WAIT_TIMEOUT (R563): 100 µs, 2,458 ticks, after the write. -/
def State.voltageTimeout (s : State) : State :=
  match s.power.avs.raise with
  | some (t, _) => if t + 2458 ≤ s.dt then s.targetReached else s
  | none => s

/-! ## Heat (R574, R575) -/

/-- Sensor `k`. -/
def Power.sensor (p : Power) (k : Nat) : Sensor := Table.get {} p.sensors k

/-- The hottest die sensor: reading and index, the lower index on a tie. -/
def Power.hottest (p : Power) : Int × Nat :=
  (List.range 16).foldl (fun best k => if best.1 < (p.sensor k).temp then ((p.sensor k).temp, k) else best) ((p.sensor 0).temp, 0)

/-- The hottest stack's TEMP_NOW (Table 9-5). -/
def State.hottestStack (s : State) : Nat := (List.range 6).foldl (fun a k => max a (Table.get {} s.mem.stackRegs k).tempNow) 0

/-- R574: a THERMAL event to every partition. -/
def State.postThermal (s : State) (kind : Nat) : State :=
  s.postAll 0x8014 (pack [(8, unsigned 8 s.power.hottest.1), (4, kind), (3, s.power.divisor)])

/-- The readings of one window; a sensor within 50 µs of its recalibration keeps its last reading (R576). -/
def Power.readSensors (p : Power) (dt : Nat) (readings : List Int) : Power :=
  { p with
    sensors := (List.range 16).foldl
      (fun t k =>
        match readings[k]? with
        | none => t
        | some v => Table.upd {} t k (fun (x : Sensor) =>
            if (x.lastRecal.map (fun r => decide (dt < r + 1229))).getD false then x else { x with temp := v })) p.sensors }

/-- SENSOR_RECALIBRATION (R576): deferred while the sensor reads at least 95 °C, for at most 60 s. -/
def State.recalibrate (s : State) (k : Nat) : State :=
  if 16 ≤ k then s
  else
    s.updPower (fun p =>
      let x := p.sensor k
      let from0 := x.deferredSince.getD s.dt
      { p with
        sensors := Table.set {} p.sensors k
          (if 95 ≤ x.temp ∧ s.dt < from0 + 1474560000 then { x with deferredSince := some from0 }
           else { x with deferredSince := none, lastRecal := some s.dt }) })

/-! ## The governor (R565 to R570) -/

/-- The average of a list, rounded down; 0 of none. -/
def average (xs : List Nat) : Nat := if xs = [] then 0 else xs.foldl (· + ·) 0 / xs.length

/-- R566: P1 in mW; once the regulator is faulted the estimate covers VDD_CORE too (R564). -/
def Power.p1 (p : Power) (m : Measurement) : Nat :=
  if p.avs.faulted then m.otherMilliwatts else m.millivolts * m.milliamps / 1000 + m.otherMilliwatts

/-- A window's sensor readings and AVSBus readbacks (R575, R566). -/
def Power.sample (p : Power) (dt : Nat) (m : Measurement) : Power :=
  let q := p.readSensors dt m.sensors
  if p.avs.faulted then q
  else { q with avs := { p.avs with readMv := m.millivolts, readMa := m.milliamps, temp := m.regulatorTemp, failures := 0 } }

/-- A window's readbacks and power recorded. -/
def Power.measure (p : Power) (dt : Nat) (m : Measurement) : Power :=
  let w := p.p1 m
  { p.sample dt m with history := (w :: p.history).take 1000, energy := bump 80 p.energy w }

/-- A temperature term of over (R568). -/
def State.tooHot (s : State) : Bool := decide (100 ≤ s.power.hottest.1) || decide (95 ≤ s.hottestStack)

/-- over (R568). -/
def State.overLimit (s : State) : Bool := decide (25000 * s.power.cap < s.power.history.headD 0) || s.tooHot

/-- under (R568). -/
def State.under (s : State) : Bool :=
  decide (average (s.power.history.take 10) < 25000 * (s.power.cap - 1)) && decide (s.power.hottest.1 < 97) && decide (s.hottestStack < 92) &&
    !s.power.prochot

/-- One step down: the next divisor, or the next pace level. -/
def Power.stepDown (p : Power) (dt : Nat) : Power :=
  if p.point < 6 then p.setDivisor dt (p.point + 1)
  else { p.countTo dt with pace := min 7 (p.pace + 1) }

/-- One step up: the pace level, then the divisor down to the ceiling. -/
def Power.stepUp (p : Power) (dt : Nat) : Power :=
  if 0 < p.pace then { p.countTo dt with pace := p.pace - 1 }
  else if p.ceiling < p.point then p.setDivisor dt (p.point - 1)
  else p

/-- THROTTLE_ON and THROTTLE_OFF (R574). -/
def State.throttleEvents (s : State) (hot down : Bool) : State :=
  if hot && down && !s.power.throttled then
    (s.updPower (fun p => { p with throttled := true, throttleEpisodes := bump 64 p.throttleEpisodes 1 })).postThermal 0
  else if s.power.throttled && s.power.pace == 0 && s.power.point == s.power.ceiling then
    (s.updPower (fun p => { p with throttled := false })).postThermal 1
  else s

/-- GOVERNOR_WINDOW: the end of a window. The sensors are read in every window (R575); the governor runs from READY on (R573). -/
def State.governorWindow (s : State) (m : Measurement) : State :=
  if s.boot.inReset = true ∨ s.dt % 24576 ≠ 0 then s
  else if s.boot.stage ≠ .ready then s.updPower (fun p => p.sample s.dt m)
  else
    let t := s.updPower (fun p => p.measure s.dt m)
    if t.overLimit then
      let moved := decide (t.power.point < 6 ∨ t.power.pace < 7)
      (t.updPower (fun p => { p.stepDown s.dt with under := 0 })).throttleEvents t.tooHot moved
    else if t.under then
      if t.power.under + 1 < 10 then t.updPower (fun p => { p with under := p.under + 1 })
      else (t.updPower (fun p => { p.stepUp s.dt with under := 0 })).throttleEvents false false
    else t.updPower (fun p => { p with under := 0 })

/-! ## Caps (R544, R570) -/

/-- A POWER_CAP event to every partition, with the divisor of the operating point: cause 0 a command, 1 the site configuration. -/
def State.postCap (s : State) (cause : Nat) : State := s.postAll 0x8013 (pack [(5, s.power.cap), (3, 0), (3, s.power.point), (1, 0), (4, cause)])

/-- R570: a cap and its ceiling apply at once. -/
def State.setCap (s : State) (cap cause : Nat) : State :=
  let t := s.updPower (fun p =>
    let q := { p with cap := cap }
    if q.point < q.ceiling then q.setDivisor s.dt q.ceiling else q)
  t.postCap cause

/-- R573: at READY the governor takes the site configuration's cap and starts at (d_c, 0), as the appliance of chapter 21 shows it, or at root/6 while PROCHOT_N is
asserted, with the voltage of R562; POWER_CAP is posted, and PROCHOT_ON where PROCHOT_N was recognised meanwhile (R574). -/
def State.takeCap (s : State) (cap : Nat) : State :=
  let t := (s.updPower (fun p =>
    let q : Power := { p with cap := cap, pace := 0 }
    q.setDivisor s.dt (if q.prochot then 6 else q.ceiling))).postCap 1
  if s.power.prochot then (t.updPower (fun p => { p with prochotAssertions := bump 64 p.prochotAssertions 1 })).postThermal 2 else t

/-! ## Regulator failures (R564), PROCHOT_N (R571), trim (R562) -/

/-- AVS_TRANSACTION_FAIL: the transaction is repeated; three in a row fault the regulator (REGULATOR_FAULT). -/
def State.avsFail (s : State) : State :=
  if s.power.avs.faulted then s
  else s.updPower (fun p => { p with avsErrors := bump 64 p.avsErrors 1, avs := { p.avs with failures := p.avs.failures + 1 } })

/-- REGULATOR_FAULT: root/6, no further target, a DEGRADED device fault. -/
def State.regulatorFault (s : State) : State :=
  if s.power.avs.faulted ∨ s.power.avs.failures < 3 then s
  else
    (s.updPower (fun p => { p.countTo s.dt with divisor := 6, avs := { p.avs with faulted := true, raise := none } })).degradedFault 1

/-- PROCHOT_ASSERTED: root/6 at once. Before READY TCLK is there already and no target is written (R573). -/
def State.prochotOn (s : State) : State :=
  if s.power.prochot then s
  else if s.boot.stage ≠ .ready then s.updPower (fun p => { p.countTo s.dt with prochot := true })
  else
    (s.updPower (fun p => { (p.setDivisor s.dt 6).countTo s.dt with prochot := true, prochotAssertions := bump 64 p.prochotAssertions 1 })).postThermal 2

/-- PROCHOT_DEASSERTED. -/
def State.prochotOff (s : State) : State :=
  if !s.power.prochot then s
  else
    let t := s.updPower (fun p => { p.countTo s.dt with prochot := false })
    if s.boot.stage = .ready then t.postThermal 3 else t

/-- TRIM_UPDATE: at most once per 100 ms, in 5 mV steps from −25 mV to +50 mV. -/
def State.trimUpdate (s : State) (trim : Int) : State :=
  let early := (s.power.avs.lastTrim.map (fun t => decide (s.dt < t + 2457600))).getD false
  if s.boot.stage ≠ .ready ∨ early = true ∨ trim % 5 ≠ 0 ∨ trim < -25 ∨ 50 < trim then s
  else s.updPower (fun p => ({ p with avs := { p.avs with trim := trim, lastTrim := some s.dt } } : Power).writeTarget p.point)

end Sys2Proof.Machine
end

