-- ==== Sys2Proof/Machine/Dsp.lean ====
section
/-!
DEFINITION. Machine/Dsp.lean: the signal block's arithmetic (R151, R152) and filters (R360 to R365, R369, R370, R372, R374, R375): functions of samples
and filter state, without the machine's state.
-/
namespace Sys2Proof.Machine

/-- The decimator coefficients h[i], taps 0 to 24. -/
def firDecim0 : List Int := [0, 0, 0, 0, 0, 1, 0, -2, -3, 0, 5, 6, 0, -10, -12, 0, 18, 21, 0, -30, -35, 0, 48, 55, 0]

/-- The decimator coefficients h[i], taps 25 to 49. -/
def firDecim1 : List Int := [-73, -83, 0, 108, 122, 0, -157, -177, 0, 227, 256, 0, -331, -378, 0, 504, 591, 0, -864, -1097, 0, 2242, 4508, 5461, 4508]

/-- The decimator coefficients h[i], taps 50 to 74. -/
def firDecim2 : List Int := [2242, 0, -1097, -864, 0, 591, 504, 0, -378, -331, 0, 256, 227, 0, -177, -157, 0, 122, 108, 0, -83, -73, 0, 55, 48]

/-- The decimator coefficients h[i], taps 75 to 96. -/
def firDecim3 : List Int := [0, -35, -30, 0, 21, 18, 0, -12, -10, 0, 6, 5, 0, -3, -2, 0, 1, 0, 0, 0, 0, 0]

/-- The decimator coefficients h[i] (R361), 97 taps. -/
def firDecim : List Int := firDecim0 ++ firDecim1 ++ firDecim2 ++ firDecim3

/-- The interpolator coefficients g[i], taps 0 to 24. -/
def firInterp0 : List Int := [0, 0, 0, 0, 0, -2, 0, 5, 0, -9, 0, 15, 0, -23, 0, 35, 0, -50, 0, 70, 0, -96, 0, 128, 0]

/-- The interpolator coefficients g[i], taps 25 to 49. -/
def firInterp1 : List Int := [-169, 0, 220, 0, -283, 0, 363, 0, -463, 0, 593, 0, -764, 0, 1004, 0, -1366, 0, 1996, 0, -3422, 0, 10412, 16383, 10412]

/-- The interpolator coefficients g[i], taps 50 to 74. -/
def firInterp2 : List Int := [0, -3422, 0, 1996, 0, -1366, 0, 1004, 0, -764, 0, 593, 0, -463, 0, 363, 0, -283, 0, 220, 0, -169, 0, 128, 0]

/-- The interpolator coefficients g[i], taps 75 to 96. -/
def firInterp3 : List Int := [-96, 0, 70, 0, -50, 0, 35, 0, -23, 0, 15, 0, -9, 0, 5, 0, -2, 0, 0, 0, 0, 0]

/-- The interpolator coefficients g[i] (R361), 97 taps. -/
def firInterp : List Int := firInterp0 ++ firInterp1 ++ firInterp2 ++ firInterp3

/-- Rounding toward zero by 2^k (R136, R151). -/
def narrow (k : Nat) (x : Int) : Int := divZero x (2 ^ k)

/-- The signal block's saturation to ±32,767 (R151): the value and whether it saturated. -/
def sat16 (x : Int) : Int × Bool :=
  if x < -32767 then (-32767, true) else if 32767 < x then (32767, true) else (x, false)

/-- The exact sum of products of coefficients and samples, newest sample first (R151, R361). -/
def dot : List Int → List Int → Int
  | a :: as, b :: bs => a * b + dot as bs
  | _, _ => 0

/-- One filter output: the 97 newest samples (newest first) against the coefficients, narrowed from Q1.14 and saturated (R151, R361). -/
def fir (coef newestFirst : List Int) : Int × Bool := sat16 (narrow 14 (dot coef newestFirst))

/-- A TDM input word of `w` bits as a Q0.15 sample (R152): the top 16 bits, rounded toward zero. -/
def sampleIn (w word : Nat) : Int := if w ≤ 16 then signed 16 word else divZero (signed w word) (2 ^ (w - 16))

/-- A Q0.15 sample as a TDM output word of `w` bits, left-justified (R152). -/
def sampleOut (w : Nat) (x : Int) : Nat := unsigned 16 x * 2 ^ (w - 16)

/-- Steps 3 and 4 of R360 on one 16 kHz sample: DC block (R362, a = 16,255) and ingress gain (Q4.11, R151). Histories x and y before; the flag tells whether a
narrowing saturated. -/
def dcGain (gain dcX dcY x : Int) (wasSat : Bool) : Int × Int × Bool :=
  let y := sat16 (narrow 14 (16384 * (x - dcX) + 16255 * dcY))
  let v := sat16 (narrow 11 (y.1 * gain))
  (y.1, v.1, wasSat || y.2 || v.2)

/-- One raw input sample into a filter's history, newest first, 97 kept. -/
def pushHist (hist : List Int) (x : Int) : List Int := (x :: hist).take 97

/-- Step 2 of R360: an output at every third sample, from the 97 samples up to it (R361: formed 48 samples after its centre). The history left and the outputs. -/
def decimate : List Int → Nat → List Int → List Int × List (Int × Bool)
  | hist, _, [] => (hist, [])
  | hist, third, x :: rest =>
    let h := pushHist hist x
    let r := decimate h (third + 1) rest
    if third % 3 = 0 then (r.1, fir firDecim h :: r.2) else r

/-- Steps 3 and 4 over a frame: the DC block's history left and the samples. -/
def dcGains (gain : Int) : Int → Int → List (Int × Bool) → (Int × Int) × List (Int × Bool)
  | dcX, dcY, [] => ((dcX, dcY), [])
  | dcX, dcY, (x, hit) :: rest =>
    let d := dcGain gain dcX dcY x hit
    let r := dcGains gain x d.1 rest
    (r.1, d.2 :: r.2)

/-- Step 6 of R360: pre-emphasis with β in Q1.14 (R362), the history carried from sample to sample. -/
def preEmphasis (beta : Int) : Int → List (Int × Bool) → Int × List (Int × Bool)
  | px, [] => (px, [])
  | px, (x, s) :: rest =>
    let y := sat16 (narrow 14 (16384 * x - beta * px))
    let out := preEmphasis beta x rest
    (out.1, (y.1, s || y.2) :: out.2)

/-- The exact energy of a frame (R363). -/
def energy (xs : List Int) : Nat := (xs.foldl (fun a x => a + x * x) 0).toNat

/-- The level ℓ of a frame's energy (R363). -/
def level (e : Nat) : Nat :=
  if e = 0 then 0
  else
    let k := Nat.log2 e
    if 3 ≤ k then 8 * k + field e (k - 3) 3 else 8 * k

/-- The noise floor's update on a frame of level ℓ (R364): floor (none before the first frame) and the run of frames with ℓ ≥ N. -/
def noiseStep (floor : Option Nat) (run l : Nat) : Nat × Nat :=
  match floor with
  | none => (l, 0)
  | some n =>
    if l < n then (l, 0)
    else if (run + 1) % 16 = 0 then (n + 1, run + 1) else (n, run + 1)

/-- R365: whether a frame of level ℓ is raw-voiced at the noise floor after its own update. -/
def rawVoiced (theta lmin floor l : Nat) : Bool := decide (floor + theta ≤ l ∧ lmin ≤ l)

/-- The limiter (R370) on an unsaturated gained value; the flag tells whether the value lies above the knee. -/
def limiter (v : Int) : Int × Bool :=
  if v.natAbs ≤ 24576 then (v, false)
  else
    let m : Int := 24576 + divZero ((v.natAbs : Int) - 24576) 8
    (if v < 0 then -m else m, true)

/-- Steps 3 and 4 of R369: egress gain narrowed without saturation, limiter, saturation. The flags: limited, saturated. -/
def gainLimit (gain x : Int) : Int × Bool × Bool :=
  let l := limiter (narrow 11 (x * gain))
  let s := sat16 l.1
  (s.1, l.2, s.2)

/-- The cross-fade's length at a rate in kHz (R372). -/
def fadeLength (khz : Nat) : Nat := if khz = 48 then 240 else if khz = 24 then 120 else 80

/-- Sample `j` of a cross-fade of `n` samples from `old` to `new` (R372). -/
def crossFade (n j : Nat) (old new : Int) : Int :=
  if n ≤ j then new
  else
    let a : Int := (16384 * (j + 1) / n : Nat)
    divZero (a * new + (16384 - a) * old) 16384

/-- Whether a peak lies below −60 dBFS: 32,768 × 10^-3 is 32.768, so a magnitude of at most 32 (R83, R380). -/
def isSilent (xs : List Int) : Bool := xs.all (fun x => decide (x.natAbs ≤ 32))

/-- R374: whether a sentinel word is valid, given the previous frame's word and whether that frame was valid. -/
def sentinelValid (prevValid : Bool) (prev word : Nat) : Bool :=
  (word == 0xA5C3 || word == 0x5A3C) && (!prevValid || word != prev)

/-- R375: the output sentinel's top 16 bits in the frame that starts at `start`, with the frame period in ticks. -/
def sentinelOut (start period : Nat) : Nat := if start / period % 2 = 0 then 0xA5C3 else 0x5A3C

end Sys2Proof.Machine
end

