-- ==== Sys2Proof/Machine/Operands.lean ====
section
/-!
DEFINITION. Machine/Operands.lean: what a Lerad command carries: its header and payload (R433 to R437), handles (R438 to R440), apertures (R416,
R436, R478) and response buffers (R478, R479).
-/
namespace Sys2Proof.Machine

/-! ## Statuses -/

/-- The first failing check of a list decides the answer (R480, R512). -/
def firstFail : List (Bool × Answer) → Option Answer
  | [] => none
  | (bad, a) :: rest => if bad then some a else firstFail rest

/-- R435: the byte offset, from byte 0 of the header, of the payload field at bit `lo`. -/
def payloadOffset (lo : Nat) : Nat := 16 + lo / 8

/-- A reserved payload field that must be zero (R15). -/
def resZero (pl lo w : Nat) : Bool × Answer := (decide (field pl lo w ≠ 0), Answer.fail 0x0201 (payloadOffset lo))

/-- A reserved value in the payload field at bit `lo` (R15). -/
def resValue (bad : Bool) (lo : Nat) : Bool × Answer := (bad, Answer.fail 0x0201 (payloadOffset lo))

/-- ARG_RANGE for the payload field at bit `lo`. -/
def rangeFail (bad : Bool) (lo : Nat) : Bool × Answer := (bad, Answer.fail 0x0202 (payloadOffset lo))

/-- ARG_ALIGN for the payload field at bit `lo`. -/
def alignFail (bad : Bool) (lo : Nat) : Bool × Answer := (bad, Answer.fail 0x0203 (payloadOffset lo))

/-- Another argument-group status for the payload field at bit `lo` (R435). -/
def argFail (bad : Bool) (status lo : Nat) : Bool × Answer := (bad, Answer.fail status (payloadOffset lo))

/-- A status whose DETAIL is zero. -/
def plainFail (bad : Bool) (status : Nat) : Bool × Answer := (bad, Answer.fail status)

/-! ## The command table (Tables 12-6, 13-1 and 14-1) -/

/-- What the tables state of an opcode: payload length, admin-only, HANDLE column zero, plan authority only, maximum time in ticks (the fixed part). -/
structure CmdSpec where
  length : Nat
  admin : Bool := false
  noHandle : Bool := false
  plan : Bool := false
  maxTicks : Nat := 24576
deriving DecidableEq, Repr

/-- Transport commands (Table 12-6). -/
def transportSpec (op : Nat) : Option CmdSpec :=
  match op with
  | 0x0910 => some { length := 16, admin := true, noHandle := true, maxTicks := 245760 }
  | 0x0911 => some { length := 4, admin := true, noHandle := true, maxTicks := 245760 }
  | 0x0912 => some { length := 8, admin := true, noHandle := true, maxTicks := 245760 }
  | 0x0913 => some { length := 8, admin := true, noHandle := true }
  | 0x0914 => some { length := 0, noHandle := true }
  | _ => none

/-- Set-up commands (Table 13-1). -/
def setupSpec (op : Nat) : Option CmdSpec :=
  match op with
  | 0x0101 => some { length := 12 }
  | 0x0102 => some { length := 24, maxTicks := 245760 }
  | 0x0103 => some { length := 4 }
  | 0x0104 => some { length := 4 }
  | 0x0105 => some { length := 12, noHandle := true }
  | 0x0201 => some { length := 16, noHandle := true }
  | 0x0202 => some { length := 0, maxTicks := 245760 }
  | 0x0301 => some { length := 12, noHandle := true, maxTicks := 4915200 }
  | 0x0302 => some { length := 12 }
  | 0x0303 => some { length := 0, maxTicks := 2457600 }
  | 0x0304 => some { length := 12, noHandle := true }
  | 0x0401 => some { length := 64, noHandle := true, maxTicks := 24576000 }
  | 0x0402 => some { length := 12 }
  | 0x0403 => some { length := 12, maxTicks := 4915200 }
  | 0x0404 => some { length := 0, maxTicks := 2457600 }
  | 0x0405 => some { length := 12, noHandle := true }
  | _ => none

/-- Run-time commands (Table 14-1). -/
def runSpec (op : Nat) : Option CmdSpec :=
  match op with
  | 0x0501 => some { length := 32, noHandle := true, maxTicks := 1228800 }
  | 0x0502 => some { length := 8 }
  | 0x0503 => some { length := 0, maxTicks := 24576000 }
  | 0x0504 => some { length := 0, maxTicks := 491520 }
  | 0x0505 => some { length := 0, maxTicks := 24576000 }
  | 0x0506 => some { length := 4, maxTicks := 24576000 }
  | 0x0507 => some { length := 16, maxTicks := 491520 }
  | 0x0508 => some { length := 12 }
  | 0x0509 => some { length := 12, noHandle := true }
  | 0x0511 => some { length := 28, maxTicks := 1228800 }
  | 0x0512 => some { length := 0, maxTicks := 24576000 }
  | 0x0513 => some { length := 0, maxTicks := 491520 }
  | 0x0514 => some { length := 20, maxTicks := 491520 }
  | 0x0515 => some { length := 12 }
  | 0x0601 => some { length := 8 }
  | 0x0602 => some { length := 4, maxTicks := 491520 }
  | 0x0603 => some { length := 12 }
  | 0x0701 => some { length := 20, noHandle := true, maxTicks := 245760 }
  | 0x0801 => some { length := 20, noHandle := true, maxTicks := 245760 }
  | 0x0802 => some { length := 16, noHandle := true, plan := true, maxTicks := 245760 }
  | 0x0803 => some { length := 4, maxTicks := 491520 }
  | 0x0901 => some { length := 12, noHandle := true }
  | 0x0902 => some { length := 4, noHandle := true, plan := true, maxTicks := 245760 }
  | 0x0903 => some { length := 12, noHandle := true, plan := true, maxTicks := 1474560000 }
  | 0x0904 => some { length := 0, noHandle := true, plan := true, maxTicks := 24576000 }
  | 0x0905 => some { length := 8, noHandle := true, plan := true }
  | 0x0906 => some { length := 12, noHandle := true, plan := true, maxTicks := 245760000 }
  | _ => none

/-- Every opcode firmware 1.4 defines. -/
def cmdSpec (op : Nat) : Option CmdSpec :=
  match transportSpec op with
  | some x => some x
  | none => match setupSpec op with
    | some x => some x
    | none => runSpec op

/-- R434's LENGTH limit of a command's channel. -/
def lengthLimit (c : Call) : Nat :=
  if c.ext then 65535 else match c.chan with
    | .mailbox => 240
    | .pair _ => 48

/-- R434 and R444: the header checks in their order. -/
def headerCheck (c : Call) : Option Answer :=
  if c.version ≠ 1 then some (Answer.fail 0x0101)
  else match cmdSpec c.opcode with
    | none => some (Answer.fail 0x0102)
    | some d =>
      firstFail [plainFail (decide (lengthLimit c < c.length) || decide (c.length ≠ d.length)) 0x0103,
                 (decide (c.resFlags ≠ 0), Answer.fail 0x0201 2),
                 (d.noHandle && decide (c.handle ≠ 0), Answer.fail 0x0201 8),
                 plainFail (d.admin && c.chan != .mailbox) 0x0105]

/-- A Lerad message (Table 12-1) as 16 header bytes and what follows them. -/
def Call.ofBytes (port : Nat) (chan : Channel) (bytes : Nat) (extBytes : Option Nat) (data : HostData) : Call :=
  { port := port, chan := chan, opcode := field bytes 0 16, ext := flag bytes 16, fence := flag bytes 17,
    resFlags := field bytes 18 6, version := field bytes 24 8, tag := field bytes 32 16, length := field bytes 48 16,
    handle := field bytes 64 32, body := bytes / 2 ^ 128, extBytes := extBytes, data := data }

/-! ## Apertures -/

/-- Aperture `i` of the port, unless its deregistration has been accepted or it was never registered. -/
def HostPort.aperture (p : HostPort) (i : Nat) : Option Aperture :=
  match Table.get none p.apertures i with
  | some a => if a.closing then none else some a
  | none => none

/-- What an access to an aperture finds (R417). -/
inductive ApertureCheck where
  | ok | outside | forbidden
deriving DecidableEq, Repr

/-- R417: the aperture is registered, holds the whole range, and grants the access. -/
def HostPort.checkAperture (p : HostPort) (i offset bytes : Nat) (read write : Bool) : ApertureCheck :=
  match p.aperture i with
  | none => .outside
  | some a =>
    if a.bytes < offset + bytes then .outside
    else if (read && !a.read) || (write && !a.write) then .forbidden
    else .ok

/-- Table 7-3's word for a host aperture address. -/
def hostWord (port aperture offset : Nat) : Nat := pack [(32, offset), (24, aperture), (2, port), (2, 0), (4, 3)]

/-- R436, R478, R342: the VIOLATION a command's bad aperture range records, and the answer it gets. -/
def State.apertureViolation (s : State) (c : Call) (i offset : Nat) (write : Bool) (r : ApertureCheck) : State × Answer :=
  (s.violate c.port (if r == .forbidden then 5 else 4) .command write (hostWord c.port i offset) c.opcode c.tag, Answer.fail 0x0501)

/-! ## The payload -/

/-- R436: the checks of an EXT pointer that need no state. -/
def extPointerCheck (c : Call) : Option Answer :=
  firstFail [resZero c.body 12 20, (decide (c.body / 2 ^ 64 ≠ 0), Answer.fail 0x0201 24),
             alignFail (decide (field c.body 32 32 % 4 ≠ 0)) 32]

/-- The payload of a command whose header passed: inline bytes, or those read through the EXT pointer (R436). -/
def State.payload (s : State) (c : Call) : State × (Answer ⊕ Nat) :=
  if c.ext then
    match extPointerCheck c with
    | some a => (s, .inl a)
    | none =>
      let ap := field c.body 0 12
      let off := field c.body 32 32
      match (s.port c.port).checkAperture ap off c.length true false with
      | .ok => match c.extBytes with
        | some b => (s, .inr (b % 2 ^ (8 * c.length)))
        | none => (s, .inl (Answer.fail 0x0104))
      | r => let v := s.apertureViolation c ap off false r
             (v.1, .inl v.2)
  else (s, .inr (c.body % 2 ^ (8 * c.length)))

/-! ## Handles (R438 to R440, Tables 2-4 and 2-5) -/

/-- A stream handle. -/
def streamHandle (slot gen : Nat) : Nat := pack [(10, slot), (14, gen), (8, 5)]
/-- A branch handle. -/
def branchHandle (slot gen : Nat) : Nat := pack [(11, slot), (13, gen), (8, 6)]
/-- A model handle. -/
def modelHandle (slot gen : Nat) : Nat := pack [(8, slot), (16, gen), (8, 3)]
/-- A pipeline handle. -/
def pipeHandle (slot gen : Nat) : Nat := pack [(8, slot), (16, gen), (8, 4)]
/-- A partition handle. -/
def partHandle (n : Nat) : Nat := 0x01000000 + n
/-- An audio port handle. -/
def tdmHandle (n : Nat) : Nat := 0x07000000 + n

/-- The live stream slot a handle names on port `n`. -/
def State.streamOf (s : State) (n h : Nat) : Option Nat :=
  let i := field h 0 10
  let x := s.stream i
  if h / 2 ^ 24 = 5 ∧ x.state ≠ .closed ∧ x.gen = field h 10 14 ∧ x.part = n then some i else none

/-- The live branch slot a handle names on port `n`. -/
def State.branchOf (s : State) (n h : Nat) : Option Nat :=
  let i := field h 0 11
  let x := s.branch i
  if h / 2 ^ 24 = 6 ∧ x.state ≠ .absent ∧ x.gen = field h 11 13 ∧ x.part = n then some i else none

/-- The live model slot a handle names on port `n`. -/
def State.modelOf (s : State) (n h : Nat) : Option Nat :=
  let i := field h 0 8
  let x := s.model i
  if h / 2 ^ 24 = 3 ∧ x.live = true ∧ x.gen = field h 8 16 ∧ x.part = n then some i else none

/-- The live pipeline slot a handle names on port `n`. -/
def State.pipeOf (s : State) (n h : Nat) : Option Nat :=
  let i := field h 0 8
  let x := s.pipe i
  if h / 2 ^ 24 = 4 ∧ x.live = true ∧ x.ready = true ∧ x.deleting = false ∧ x.gen = field h 8 16 ∧ x.part = n then some i else none

/-- Whether port `n` is plan authority (Table 16-9, R481). -/
def State.isPlan (s : State) (n : Nat) : Bool := s.site.planPort == n

/-- The partition a handle names on port `n`: its own, or any for the plan authority where `any` allows (R439, R481). -/
def State.partOf (s : State) (n h : Nat) (any : Bool) : Option Nat :=
  let i := h % 2 ^ 24
  if h / 2 ^ 24 = 1 ∧ i < 4 ∧ (i = n ∨ (any = true ∧ s.isPlan n = true)) then some i else none

/-- Whether partition `n` owns TDM port `t` (Table 13-3). -/
def State.ownsTdm (s : State) (n t : Nat) : Bool := decide (t < 16) && flag (s.part n).tdmPorts t

/-- The partition that owns TDM port `t`. -/
def State.tdmOwner (s : State) (t : Nat) : Option Nat := (List.range 4).find? (fun n => s.ownsTdm n t)

/-- The TDM port a handle names on port `n`. -/
def State.tdmOf (s : State) (n h : Nat) : Option Nat :=
  let i := h % 2 ^ 24
  if h / 2 ^ 24 = 7 ∧ s.ownsTdm n i = true then some i else none

/-! ## Response buffers (Table 13-2) -/

/-- R478: the descriptor's reserved bits, alignment and LENGTH. -/
def bufferChecks (c : Call) (pl : Nat) : List (Bool × Answer) :=
  [resZero pl 12 20, alignFail (decide (field pl 32 32 % 64 ≠ 0)) 32,
   rangeFail (decide (field pl 64 32 % 64 ≠ 0) || decide (65536 < field pl 64 32)
              || (decide (field pl 64 32 = 0) && c.chan != .mailbox)) 64]

/-- What a command's effect answers: its completion, or that it waits for the object `key`. -/
inductive Reply where
  | done (a : Answer)
  | wait (key : Nat)
deriving DecidableEq, Repr

/-- A buffer outside a registered aperture with WRITE granted (R478). -/
def State.bufferRange (s : State) (c : Call) (pl : Nat) : ApertureCheck :=
  if field pl 64 32 = 0 then .ok
  else (s.port c.port).checkAperture (field pl 0 12) (field pl 32 32) (field pl 64 32) false true

/-- R478, R479, R437: `len` bytes of response to the buffer (or inline in the mailbox). `result` overrides RESULT. -/
def State.respond (s : State) (c : Call) (pl len value : Nat) (result : Option Nat) : State × Reply :=
  let room := if field pl 64 32 = 0 then 232 else field pl 64 32
  match s.bufferRange c pl with
  | .ok =>
    if room < len then (s, .done { status := 0x0309, result := len })
    else if field pl 64 32 = 0 then (s, .done { result := result.getD len, extra := value, extraBytes := len })
    else (s.updPort c.port (fun p => p.hostWrite (field pl 0 12) (field pl 32 32) len value), .done { result := result.getD len })
  | r =>
    let v := s.apertureViolation c (field pl 0 12) (field pl 32 32) true r
    (v.1, .done v.2)

end Sys2Proof.Machine
end

