-- ==== Sys2Proof/Machine/Memory.lean ====
section
/-!
DEFINITION. Machine/Memory.lean: the device address map (R328 to R330), windows and region guard (R339 to R341, Tables 9-2 and 9-3), the bytes of device
memory and the controller's burst errors (R331 to R333).
-/
namespace Sys2Proof.Machine

/-! ## The address map -/

/-- The first address beyond device memory, 96 GiB (R328). -/
def memEnd : Nat := 0x1800000000

/-- R329: L, the granule within its pseudo-channel. -/
def localGranule (x : Nat) : Nat := field (x / 4096 / 6) 5 17

/-- The bytes of one MiB. -/
def mib : Nat := 1048576

/-- The end of the FW window (Table 9-2). -/
def fwEnd : Nat := 2048 * mib

/-- The end of the SHARED window (Table 9-2). -/
def State.sharedEnd (s : State) : Nat := fwEnd + s.site.sharedMib * mib

/-- Which window an address lies in. -/
inductive Region where
  | fw | shared | part (n : Nat) | unassigned
deriving DecidableEq, Repr

/-- The window that holds address `x` (Table 9-2). -/
def State.windowAt (s : State) (x : Nat) : Region :=
  if x < fwEnd then .fw
  else if x < s.sharedEnd then .shared
  else
    match (List.range 4).find? (fun n => decide ((s.part n).windowBase ≤ x ∧ x < (s.part n).windowBase + (s.part n).windowMib * mib)) with
    | some n => .part n
    | none => .unassigned

/-- R631: PART of an address fault found outside a transfer: the partition whose window holds the address; 7 for none. -/
def State.holderOf (s : State) (x : Nat) : Nat :=
  match s.windowAt x with
  | .part n => n
  | _ => 7

/-- R340: a request's origin. -/
inductive Origin where
  | firmware | partition
deriving DecidableEq, Repr

/-- Table 9-3: whether a request of `n` bytes at `x` is admitted; it must lie wholly in one window. -/
def State.admits (s : State) (o : Origin) (part : Nat) (write : Bool) (x n : Nat) : Bool :=
  let w := s.windowAt x
  w == s.windowAt (x + n - 1) &&
    match w, o with
    | .unassigned, _ => false
    | _, .firmware => true
    | .fw, .partition => false
    | .shared, .partition => !write
    | .part k, .partition => k == part

/-- R341: a refusal counts at the pseudo-channel of the first byte. -/
def State.countRefusal (s : State) (x : Nat) : State :=
  s.updChannel (channelOf x) (fun c => { c with guardRefusals := bump 32 c.guardRefusals 1 })

/-- Table 7-3's word for a device address. -/
def memWord (x : Nat) : Nat := field x 0 37

/-- The endpoint an address word names (Table 7-3, R282): a memory stack, a tile, a host port, the signal block. -/
def wordEndpoint (w : Nat) : Option Nat :=
  let space := field w 60 4
  if space = 0 then some (256 + channelOf (field w 0 37) / 32)
  else if space = 1 ∨ space = 2 then some (field w 20 8)
  else if space = 3 then some (272 + field w 56 2)
  else if space = 5 then some 280
  else none

/-! ## Bytes -/

/-- The byte at address `x`: an unlisted address reads 0, as the CLEAR stage left it (R226). -/
def Memory.byte (m : Memory) (x : Nat) : BitVec 8 := Table.get 0#8 m.bytes x

/-- The canonical form of device memory: addresses strictly rising, no listed byte zero; burst errors likewise. -/
def Memory.wf (m : Memory) : Bool := Table.wf 0#8 m.bytes && Table.wf {} m.errs

/-- Byte `x` becomes `b`. -/
def Memory.setByte (m : Memory) (x : Nat) (b : BitVec 8) : Memory := { m with bytes := Table.set 0#8 m.bytes x b }

/-- `n` bytes from `x` as a number, byte 0 least significant (R13). -/
def Memory.read (m : Memory) (x : Nat) : Nat → Nat
  | 0 => 0
  | n + 1 => (m.byte x).toNat + 256 * Memory.read m (x + 1) n

/-- The low `n` bytes of `v` stored from `x`. -/
def Memory.store (m : Memory) (x : Nat) : Nat → Nat → Memory
  | 0, _ => m
  | n + 1, v => Memory.store (m.setByte x (BitVec.ofNat 8 v)) (x + 1) n (v / 256)

/-- A range of zero bytes (R252), and with it the errors of its bursts. -/
def Memory.zeroRange (m : Memory) (x n : Nat) : Memory :=
  { m with bytes := Table.clear (fun a => decide (x ≤ a ∧ a < x + n)) m.bytes,
           errs := Table.clear (fun b => decide (x ≤ 32 * b ∧ 32 * b < x + n)) m.errs }

/-- `n` bytes written: the bursts written hold no error any more (R541: injected errors last until a write rewrites the burst). -/
def Memory.write (m : Memory) (x n v : Nat) : Memory :=
  let t := m.store x n v
  { t with errs := Table.clear (fun b => decide (x ≤ 32 * b ∧ 32 * b < x + n)) t.errs }

/-- `n` bytes written at `x`. -/
def State.memWrite (s : State) (x n v : Nat) : State := { s with mem := s.mem.write x n v }

/-- `n` bytes read at `x`, as the array holds them. -/
def State.memRead (s : State) (x n : Nat) : Nat := s.mem.read x n

/-- Zero bytes over a range. -/
def State.memZero (s : State) (x n : Nat) : State := { s with mem := s.mem.zeroRange x n }

/-! ## Controller ECC (R331) -/

/-- What the controller makes of one burst. -/
inductive EccResult where
  | clean
  | corrected
  | wrong (offset diff : Nat)
  | uncorrectable
deriving DecidableEq, Repr

/-- The record of burst `b`. -/
def Memory.err (m : Memory) (b : Nat) : BurstErr := Table.get {} m.errs b

/-- R331: zero wrong bytes pass, one is corrected; with two or more the syndrome decides (its locating is open: Config.eccLocates), except that
two or more injected errors always read as uncorrectable (R541). -/
def eccOf (b : Nat) (e : BurstErr) : EccResult :=
  match e.bytes with
  | [] => .clean
  | [_] => .corrected
  | _ =>
    if 2 ≤ e.injected then .uncorrectable
    else match Config.eccLocates b e.bytes with
      | some (off, d) => .wrong off d
      | none => .uncorrectable

/-- A byte error added to a burst: differences at one offset combine. -/
def BurstErr.add (e : BurstErr) (off diff : Nat) : BurstErr :=
  match e.bytes.find? (fun x => x.1 == off) with
  | some x =>
    let d := Nat.xor x.2 diff
    let rest := e.bytes.filter (fun y => y.1 != off)
    { e with bytes := if d = 0 then rest else (off, d) :: rest }
  | none => if diff = 0 then e else { e with bytes := (off, diff) :: e.bytes }

/-- Differences the array shows on this access, as (byte address, difference). -/
def Memory.upset (m : Memory) (us : List (Nat × Nat)) : Memory :=
  us.foldl (fun t u => { t with errs := Table.upd {} t.errs (u.1 / 32) (fun e => e.add (u.1 % 32) (u.2 % 256)) }) m

/-- The bursts a range touches. -/
def burstsOf (x n : Nat) : List Nat := List.range' (x / 32) (ceilDiv (x % 32 + n) 32)

/-- The data of a read with one byte of burst `b` changed (offsets 32 and above are check bytes). -/
def wrongByte (v x b off diff : Nat) : Nat :=
  let a := 32 * b + off
  if 32 ≤ off ∨ a < x then v
  else
    let k := a - x
    let old := field v (8 * k) 8
    v - old * 2 ^ (8 * k) + Nat.xor old (diff % 256) * 2 ^ (8 * k)

/-- What a foreground read of a range returns: the data, or the address of the first uncorrectable burst; and the counts of the pseudo-channel. A range lies in
one pseudo-channel (R330). -/
def Memory.readEcc (m : Memory) (x n : Nat) : List Nat → Nat → Nat → Option Nat → Nat × Nat × Option Nat
  | [], v, corrected, bad => (v % 2 ^ (8 * n), corrected, bad)
  | b :: bs, v, corrected, bad =>
    match eccOf b (m.err b) with
    | .clean => Memory.readEcc m x n bs v corrected bad
    | .corrected => Memory.readEcc m x n bs v (corrected + 1) bad
    | .wrong off d => Memory.readEcc m x n bs ((m.err b).bytes.foldl (fun w e => wrongByte w x b e.1 e.2) (wrongByte v x b off d)) (corrected + 1) bad
    | .uncorrectable => Memory.readEcc m x n bs v corrected (bad.orElse (fun _ => some (32 * b)))

/-- How many bursts of a list read as uncorrectable. -/
def Memory.uncorrectableIn (m : Memory) (bs : List Nat) : Nat :=
  (bs.filter (fun b => eccOf b (m.err b) == .uncorrectable)).length

/-- Whether an uncorrectable read was produced by injected errors (R632). -/
def Memory.injectedAt (m : Memory) (x : Nat) : Bool := decide (0 < (m.err (x / 32)).injected)

end Sys2Proof.Machine
end

