-- ==== Sys2Proof/Machine/Needles.lean ====
section
/-!
DEFINITION. Machine/Needles.lean: needle pairs and their halves (R253, R254, Table 7-5), and a descriptor in progress that goes without completing (R267, R272).
-/
namespace Sys2Proof.Machine

/-! ## Needle pairs (R253 to R256, Table 7-5) -/

/-- A tile's needle pair; pair 0 is always the ring staging region (R253, Table 3-3). -/
def Tile.needle (t : Tile) (p : Nat) : Needle :=
  let n := Table.get {} t.needles p
  if p = 0 ∧ n.declared = false then { n with declared := true, base := 65536, size := 16384 } else n

/-- The state of a half. -/
def Needle.half (n : Needle) (h : Bool) : HalfState := if h then n.half1 else n.half0

/-- The state of a half set. -/
def Needle.setHalf (n : Needle) (h : Bool) (v : HalfState) : Needle := if h then { n with half1 := v } else { n with half0 := v }

/-- A tile's needle pair changed. -/
def State.updNeedle (s : State) (t p : Nat) (g : Needle → Needle) : State :=
  s.updTile t (fun x => { x with needles := Table.set {} x.needles p (g (x.needle p)) })

/-! ## Descriptors that go -/

/-- The address word of a descriptor that names the near end: the source of TILE_TO_MEM, the destination of the others. -/
def Desc.nearWord (d : Desc) : Nat := if d.kind = 1 then d.src else d.dst

/-- The tile a descriptor's tile word names: the coordinate the route table gives for the logical ID it carries (R250). -/
def State.wordTile (s : State) (w : Nat) : Option Nat :=
  let r := Table.get {} s.fabric.routes (field w 20 8)
  if r.valid then some (coordTile r.coord) else none

/-- A descriptor in progress with no tag left goes without completing: its place is free and its needle half returns to EMPTY (R272, Table 7-5). -/
def State.progressGone (s : State) (f : Nat) (p : Progress) : State :=
  let t := s.updFeeder f (fun x => { x with progress := x.progress.filter (fun q => q.id != p.id) })
  match p.half, s.wordTile p.desc.nearWord with
  | some h, some k => t.updNeedle k p.desc.pair (fun n => n.setHalf h (if n.half h = HalfState.working then HalfState.working else HalfState.empty))
  | _, _ => t

/-- The dropped descriptors of feeder `f` that hold no tag go. -/
def State.sweepDropped (s : State) (f : Nat) : State :=
  ((s.feeder f).progress.filter (fun p => p.dropped && p.tags == 0)).foldl (fun t p => t.progressGone f p) s

/-- Whether a ring of some feeder still holds a descriptor of operation `id` that has not started (R266). -/
def State.queuedDesc (s : State) (id : Nat) : Bool :=
  (List.range 4).any (fun f => (s.feeder f).rings.any (fun e =>
    let r := e.2
    r.live && (List.range ((r.tail + 2 ^ r.log - r.head) % 2 ^ r.log)).any (fun k =>
      field (s.memRead (r.base + 32 * ((r.head + k) % 2 ^ r.log)) 32) 64 16 == id)))

end Sys2Proof.Machine
end

