-- ==== Sys2Proof/Machine/Numbers.lean ====
section
/-!
DEFINITION. Machine/Numbers.lean: number formats, accumulators, requantisation, vector unit, special functions, S16 groups, the residue check and the gauge tracker's
step (chapter 4, R114, R164, R165), as functions of values.
-/
namespace Sys2Proof.Machine

/-! ## Formats (R126 to R129) -/

/-- R127, R128: an N8F code's value × 2^9, an integer. -/
def n8fInt (code : Nat) : Int :=
  let e := field code 3 4
  let m := field code 0 3
  let v : Int := if e = 0 then m else (8 + m) * 2 ^ (e - 1)
  if flag code 7 then -v else v

/-- An operand code as the array multiplies it: an integer, for N8F the value × 2^9 (R130, R132). -/
def operandInt (f : NumFormat) (code : Nat) : Int :=
  match f with
  | .int4 => signed 4 code
  | .int8 => signed 8 code
  | .n8f => n8fInt code

/-- A code of `w` bits. -/
def codeBits (w : Nat) (c : Int) : Nat := (c % 2 ^ w).toNat

/-- R126: element codes as bytes: one a byte, INT4 two, element 2i in bits [3:0] and element 2i + 1 in bits [7:4]. -/
def codeBytes (f : NumFormat) : List Int → List Nat
  | [] => []
  | [a] => [codeBits (if f = .int4 then 4 else 8) a]
  | a :: b :: rest =>
    if f = .int4 then (codeBits 4 a + 16 * codeBits 4 b) :: codeBytes f rest
    else codeBits 8 a :: codeBits 8 b :: codeBytes f rest

/-- R126: element `i` of a tensor whose bytes spell `v`, byte 0 least significant. -/
def elementAt (f : NumFormat) (v i : Nat) : Nat := if f = .int4 then field v (4 * i) 4 else field v (8 * i) 8

/-- The ends of an accumulator: 32-bit two's complement, or ±(2^30 − 2^-18) in units of 2^-18 (R133, R134). -/
def accBounds (f : NumFormat) : Int × Int :=
  match f with
  | .n8f => (-(2 ^ 48 - 1), 2 ^ 48 - 1)
  | _ => (-(2 ^ 31), 2 ^ 31 - 1)

/-- R133, R134: one reduction: each product is added; a sum beyond a bound stays at that bound for the rest. The flag: saturated. -/
def reduceFrom (f : NumFormat) : Int → Bool → List (Nat × Nat) → Int × Bool
  | acc, hit, [] => (acc, hit)
  | acc, hit, (x, w) :: rest =>
    if hit then (acc, true)
    else
      let v := acc + operandInt f x * operandInt f w
      let b := accBounds f
      if v < b.1 then reduceFrom f b.1 true rest
      else if b.2 < v then reduceFrom f b.2 true rest
      else reduceFrom f v false rest

/-! ## Requantisation (R135, R137) -/

/-- T(B, γ) of R135. -/
def biasTerm (b g : Int) : Int := if 0 ≤ g then divZero b (2 ^ g.toNat) else b * 2 ^ (-g).toNat

/-- σ of R135. -/
def sigma (r : RequantRow) (gx gt : Int) : Nat := (16 + (r.shift : Int) - gx + gt).toNat

/-- The N8F magnitude code of w × 2^-9, rounded toward zero on the extended grid, and whether it lies at 512 or above (R135 step 4). -/
def n8fMagnitude (w : Nat) : Nat × Bool :=
  if w < 8 then (w, false)
  else
    let k := Nat.log2 w
    if 18 ≤ k then (0x7F, true) else (8 * (k - 2) + (w / 2 ^ (k - 3) - 8), false)

/-- What one requantised element is: its code, whether it saturated before any accumulator saturation counts, and whether it is quiet (R147). -/
structure Requanted where
  code : Int
  saturated : Bool
  quiet : Bool
deriving DecidableEq, Repr

/-- The range of an integer format. -/
def intRange (f : NumFormat) : Int × Int := if f = .int4 then (-8, 7) else (-128, 127)

/-- R135, R137, R147 on one accumulator value, with γ_x and γ_t. -/
def requantise (f : NumFormat) (acc : Int) (r : RequantRow) (gx gt : Int) : Requanted :=
  let a := acc + r.corr + biasTerm r.bias gx
  let p := a * (r.mult : Int)
  let sg := sigma r gx gt
  match f with
  | .n8f =>
    let w := p.natAbs / 2 ^ (sg + 9)
    let m := n8fMagnitude w
    { code := if m.1 = 0 then 0 else if p < 0 then (128 + m.1 : Nat) else (m.1 : Int),
      saturated := m.2, quiet := decide (p.natAbs ≤ 120 * 2 ^ (sg + 18)) }
  | g =>
    let u := divZero p (2 ^ sg)
    let y := u + r.zero
    let rg := intRange g
    { code := clampInt rg.1 rg.2 y, saturated := decide (y < rg.1 ∨ rg.2 < y),
      quiet := decide (4 * u ≤ rg.2 - r.zero ∧ rg.1 - r.zero ≤ 4 * u) }

/-! ## Vector unit and special functions (R138 to R142) -/

/-- A lane clamped to ±32,767 and whether it saturated (R138). -/
def lane (x : Int) : Int × Bool := (clampInt (-32767) 32767 x, decide (x < -32767 ∨ 32767 < x))

/-- A product shifted back to 16 bits (R138). -/
def vectorMul (a b shift : Int) : Int × Bool := lane (divZero (a * b) (2 ^ shift.toNat))

/-- A lane shifted left by `amount`, or right where it is negative, as a pair form is consumed (R138, R141); 16 places left already saturate any lane. -/
def vectorShift (x amount : Int) : Int × Bool :=
  if 0 ≤ amount then lane (x * 2 ^ (min amount 16).toNat) else lane (divZero x (2 ^ (min (-amount) 16).toNat))

/-- R140: an activation as it enters the vector unit: q − z_t, an N8F code its value × 2^9. -/
def enterLane (f : NumFormat) (code : Nat) (zero : Int) : Int × Bool :=
  match f with
  | .n8f => lane (n8fInt code)
  | g => (operandInt g code - zero, false)

/-- A sum (R138). -/
def vectorAdd (a b : Int) : Int × Bool := lane (a + b)

/-- R139: mantissas after the exponent is raised by `k`. -/
def shiftDown (k : Nat) (ms : List Int) : List Int := ms.map (fun m => divZero m (2 ^ k))

/-- R139: two groups aligned to the larger exponent and summed lane by lane; the count of saturated lanes. -/
def combineGroups (a b : S16Group) : S16Group × Nat :=
  let e := max a.exponent b.exponent
  let x := shiftDown (e - a.exponent).toNat a.mantissas
  let y := shiftDown (e - b.exponent).toNat b.mantissas
  let z := List.zipWith vectorAdd x y
  ({ exponent := e, mantissas := z.map (·.1) }, (z.filter (·.2)).length)

/-- Table 4-6's special inputs: the result, for the inputs that have one. -/
def specialInput (f : Special) (x : Int) : Option (Int × Int) :=
  match f with
  | .log2 => if x ≤ 0 then some (-32767, 0) else none
  | .reciprocal => if x = 0 then some (32767, 32767) else none
  | .rsqrt => if x ≤ 0 then some (32767, 32767) else none
  | _ => none

/-- The largest number of at most `n` bits that satisfies a predicate true of 0 and, once false, false from there on. -/
def largest (p : Nat → Bool) (n : Nat) : Nat := (List.range n).reverse.foldl (fun a k => if p (a + 2 ^ k) then a + 2 ^ k else a) 0

/-- e to the power num ÷ den, times 2^128, from the first 160 terms of its series: exact to well below what the floors of R142 need up to e^48. -/
def expFixed (num den : Nat) : Nat :=
  ((List.range 160).foldl (fun (a : Nat × Nat) n => let t := a.2 * num / (den * (n + 1)); (a.1 + t, t)) (2 ^ 128, 2 ^ 128)).1

/-- Sigmoid of a magnitude in units of 2^−15, rounded down; from 24 on nothing changes any more. -/
def sigmoidFloor (frac mag : Nat) : Nat :=
  let e := expFixed (min mag (24 * 2 ^ frac)) (2 ^ frac)
  32768 * e / (2 ^ 128 + e)

/-- Tanh of a magnitude in units of 2^−15, rounded down. -/
def tanhFloor (frac mag : Nat) : Nat :=
  let e := expFixed (2 * min mag (24 * 2 ^ frac)) (2 ^ frac)
  32768 * (e - 2 ^ 128) / (e + 2 ^ 128)

/-- The integers nearer than 2 to a value that is `v` exactly, or lies strictly between `v` and `v + 1`. -/
def withinTwo (v : Int) (exact : Bool) : Int × Int := if exact then (v - 1, v + 1) else (v - 1, v + 2)

/-- A pair form whose mantissa is `m` exactly, or lies strictly between `m` and `m + 1`: the two candidates (R141). -/
def pairWithin (m : Nat) (k : Int) (exact : Bool) (up : Bool) : Int × Int :=
  if exact || !up then ((m : Int), k)
  else if m = 32767 then (16384, k + 1) else (((m + 1 : Nat) : Int), k)

/-- The exact value of a single-lane function in units of its last place, rounded down, and whether that is the value itself. -/
def scalarFloor (f : Special) (frac : Nat) (x : Int) : Int × Bool :=
  match f with
  | .log2 => let n := Nat.log2 (x.natAbs ^ 1024); ((n : Int) - 1024 * (frac : Int), 2 ^ n == x.natAbs ^ 1024)
  | .sigmoid =>
    if x = 0 then (16384, true)
    else if 0 < x then ((sigmoidFloor frac x.natAbs : Nat), false)
    else (32767 - (sigmoidFloor frac x.natAbs : Nat), false)
  | _ =>
    if x = 0 then (0, true) else if 0 < x then ((tanhFloor frac x.natAbs : Nat), false) else (-1 - (tanhFloor frac x.natAbs : Nat), false)

/-- The exact value of a pair-form function: the mantissa rounded down, the exponent, and whether that is the value itself. -/
def pairFloor (f : Special) (frac : Nat) (x : Int) : Nat × Int × Bool :=
  let one : Nat := 2 ^ frac
  match f with
  | .exp2 =>
    let k := x / (one : Int)
    let a := (x % (one : Int)).toNat
    (16384 + largest (fun d => decide ((16384 + d) ^ one ≤ 2 ^ (14 * one + a))) 14, k, a == 0)
  | .reciprocal =>
    let g := Nat.log2 x.natAbs
    if x.natAbs = 2 ^ g then (16384, (frac : Int) - g, true) else (2 ^ (15 + g) / x.natAbs, (frac : Int) - g - 1, false)
  | _ =>
    -- the largest k with x × 2^(2k) ≤ 2^frac, searched from −8
    let k := (List.range 16).foldl (fun (a : Int) (n : Nat) => if x.natAbs * 2 ^ (2 * n) ≤ 2 ^ (frac + 16) then (n : Int) - 8 else a) (-8)
    let q := 2 ^ ((28 : Int) - 2 * k + (frac : Int)).toNat
    let m := largest (fun d => decide (d * d * x.natAbs ≤ q)) 15
    (m, k, m * m * x.natAbs == q)

/-- R143: where a large input of sigmoid or tanh saturates: the exact value rounded toward zero is an end of the output's range (DEDUCED, log 113). -/
def saturatesAt (f : Special) (v : Int × Bool) : Option Int :=
  match f with
  | .sigmoid => if v.1 = 32767 then some 32767 else if v.1 = 0 then some 0 else none
  | .tanh => if v.1 = 32767 then some 32767 else if v.1 = -32768 then some (-32767) else none
  | _ => none

/-- R141 to R143: a special function's result on an input that is no special one: any value nearer to the exact one than the error bound of Table 4-6, the unit's
choice among them being free; a saturated sigmoid or tanh is exact. -/
def specialValue (f : Special) (frac : Nat) (x : Int) : Int × Int :=
  let pick := Config.specialFunction f frac x
  if f = .exp2 ∨ f = .reciprocal ∨ f = .rsqrt then
    let v := pairFloor f frac x
    let w := pairWithin v.1 v.2.1 v.2.2 (decide (pick % 2 = 1))
    (if x < 0 ∧ f = .reciprocal then -w.1 else w.1, w.2)
  else
    let v := scalarFloor f frac x
    match saturatesAt f v with
    | some y => (y, 0)
    | none =>
    let b := withinTwo v.1 v.2
    let lo := max b.1 (if f = .sigmoid then 0 else -32767)
    let hi := min b.2 32767
    (lo + (pick % (hi - lo + 1).toNat : Nat), 0)

/-- R142: a special function's result and whether it counts as a saturation. -/
def specialResult (f : Special) (frac : Nat) (x : Int) : (Int × Int) × Bool :=
  match specialInput f x with
  | some r => (r, true)
  | none => (specialValue f frac x, false)

/-! ## S16 state (R164, R165) -/

/-- The largest mantissa magnitude. -/
def maxMagnitude (ms : List Int) : Nat := ms.foldl (fun a m => max a m.natAbs) 0

/-- The least k in 0 … n with `mag` shifted right by k at most 16,383. -/
def raiseBy (mag : Nat) (n : Nat) : Nat := ((List.range (n + 1)).find? (fun k => decide (mag / 2 ^ k ≤ 16383))).getD n

/-- R164: a group just written. Exponent 31 is not raised: its mantissas saturate. The count of saturated lanes. -/
def headroom (g : S16Group) : S16Group × Nat :=
  let mag := maxMagnitude g.mantissas
  if mag ≤ 16383 then (g, 0)
  else if g.exponent = 31 then
    let z := g.mantissas.map lane
    ({ g with mantissas := z.map (·.1) }, (z.filter (·.2)).length)
  else
    let k := min (raiseBy mag 16) (31 - g.exponent).toNat
    ({ exponent := g.exponent + k, mantissas := shiftDown k g.mantissas }, 0)

/-- The largest k with `mag` shifted left by k at most 16,383. -/
def lowerBy (mag : Nat) : Nat := ((List.range 15).reverse.find? (fun k => decide (mag * 2 ^ k ≤ 16383))).getD 0

/-- R165: renormalisation of one group. -/
def renormGroup (g : S16Group) : S16Group :=
  let mag := maxMagnitude g.mantissas
  if mag = 0 then g
  else if 16383 < mag then (headroom g).1
  else
    let k := min (lowerBy mag) (g.exponent + 32).toNat
    { exponent := g.exponent - k, mantissas := g.mantissas.map (fun m => m * 2 ^ k) }

/-- R129: the device never writes the mantissa 0x8000, which it reads as −32,768: a group as it is written, its lanes held to ±32,767 (DEDUCED, log 112). -/
def writtenGroup (g : S16Group) : S16Group := { g with mantissas := g.mantissas.map (clampInt (-32767) 32767) }

/-- One step of the vector unit on a group (R138, R139): the group, and the lanes saturated. -/
def laneStep (g : S16Group) : LaneStep → S16Group × Nat
  | .mul coefs shift =>
    let z := List.zipWith (fun a b => vectorMul a b shift) g.mantissas coefs
    ({ g with mantissas := z.map (·.1) }, (z.filter (·.2)).length)
  | .add h => combineGroups g h
  | .put h => (writtenGroup h, 0)

/-- A group over one position (R159, R164): its steps, then the headroom check. -/
def positionStep (g : S16Group) (steps : List LaneStep) : S16Group × Nat :=
  let v := steps.foldl (fun (a : S16Group × Nat) o => let b := laneStep a.1 o; (b.1, a.2 + b.2)) (g, 0)
  let h := headroom v.1
  (h.1, v.2 + h.2)

/-- A group over positions in order (R159): the group after each, and the lanes saturated in all. -/
def scanPositions : S16Group → List (List LaneStep) → List S16Group × Nat
  | _, [] => ([], 0)
  | g, p :: ps =>
    let v := positionStep g p
    let r := scanPositions v.1 ps
    (v.1 :: r.1, v.2 + r.2)

/-- A group of zeros: what a backward direction starts from (R167). -/
def zeroGroup : S16Group := { exponent := 0, mantissas := List.replicate 32 0 }

/-! ## Residue check (R114) -/

/-- One output column of a block product: Y's column sum and the check value Σₖ (Σᵢ Xᵢₖ) × Wₖⱼ. -/
def columnSum (y : List (List Int)) (j : Nat) : Int := y.foldl (fun a row => a + row.getD j 0) 0

/-- The exact product of activation rows and a weight block. -/
def blockProduct (x w : List (List Int)) : List (List Int) :=
  x.map (fun row =>
    (List.range (w.headD []).length).map (fun j =>
      (List.zipWith (fun a wr => a * wr.getD j 0) row w).foldl (fun a b => a + b) 0))

/-- R114: every output column's residues modulo 255 agree. -/
def residueOk (x w y : List (List Int)) : Bool :=
  let xs := (List.range (x.headD []).length).map (fun k => columnSum x k)
  (List.range (w.headD []).length).all (fun j =>
    columnSum y j % 255 == (List.zipWith (fun a wr => a * wr.getD j 0) xs w).foldl (fun a b => a + b) 0 % 255)

/-! ## The gauge tracker (R147, R148) -/

/-- What the tracker counts for one entry over one chunk. -/
structure GaugeStat where
  elements : Nat
  saturated : Nat
  quiet : Bool
deriving DecidableEq, Repr

/-- R144: an entry at cast-on or attach. -/
def initGauge (p : GaugeParam) : Gauge := { gamma := p.gamma0 }

/-- R148: one entry's update after its chunk. -/
def gaugeStep (p : GaugeParam) (g : Gauge) (st : GaugeStat) : Gauge :=
  if st.elements = 0 then g
  else
    let g1 := { g with satLast := min st.saturated 65535 }
    if p.tSat * st.elements < 4096 * st.saturated then
      if g.gamma = p.gmax then { g1 with quiet := 0, atBound := true }
      else { g1 with gamma := g.gamma + 1, quiet := 0, atBound := false }
    else if st.quiet then
      if p.quietK ≤ g.quiet + 1 then
        if g.gamma = p.gmin then { g1 with quiet := 0, atBound := true }
        else { g1 with gamma := g.gamma - 1, quiet := 0, atBound := false }
      else { g1 with quiet := g.quiet + 1 }
    else { g1 with quiet := 0 }

/-- Table 4-5: a gauge entry's 32 bits. -/
def Gauge.bits (g : Gauge) : Nat :=
  pack [(4, unsigned 4 g.gamma), (6, g.quiet), (1, bit g.atBound), (5, 0), (16, g.satLast)]

end Sys2Proof.Machine
end

