-- ==== Sys2Proof/Machine/Pages.lean ====
section
/-!
DEFINITION. Machine/Pages.lean: page pools, sequences and page tables, references, copy-on-write, the directory's invalidation, sweeping, trimming and
exhaustion (chapter 6).
-/
namespace Sys2Proof.Machine

/-! ## Operations (R266) -/

/-- An operation ID not in use, and the operation recorded under it (R266). -/
def State.newOp (s : State) (k : OpKind) (part : Nat) : State × Nat :=
  let wrap := fun n => n % 65535 + 1
  let id := ((List.range (s.ops.length + 1)).map (fun j => wrap (s.nextOp + j - 1))).find? (fun n => !(s.ops.any (fun o => o.id == n)))
  let id := id.getD 1
  ({ s with ops := s.ops ++ [{ id := id, kind := k, part := part }], nextOp := wrap id }, id)

/-- A new operation whose requests carry a deadline (R63), with the transfers it needs. -/
def State.newOpDue (s : State) (k : OpKind) (part deadline : Nat) (owed : List Owed) : State :=
  let r := s.newOp k part
  { r.1 with ops := r.1.ops.map (fun (o : Operation) => if o.id == r.2 then { o with deadline := some (low32 deadline), owed := owed, asked := owed } else o) }

/-- A new operation with the transfers it needs, for which no rule states a deadline. -/
def State.newOpOwing (s : State) (k : OpKind) (part : Nat) (owed : List Owed) : State :=
  let r := s.newOp k part
  { r.1 with ops := r.1.ops.map (fun (o : Operation) => if o.id == r.2 then { o with owed := owed, asked := owed } else o) }

/-- The (stage, object) pairs an operation works for. -/
def State.opWorks (s : State) (id : Nat) (ks : List (Nat × Nat)) : State :=
  { s with ops := s.ops.map (fun (o : Operation) => if o.id == id then { o with works := ks } else o) }

/-- Operations of a kind end. -/
def State.endOps (s : State) (p : Operation → Bool) : State := { s with ops := s.ops.filter (fun o => !p o) }

/-! ## Pools -/

/-- PPN_first of partition `n`: the pool is placed at the start of the partition's window (R195; the manual leaves the place open). -/
def State.poolFirst (s : State) (n : Nat) : Nat := (s.part n).windowBase / 4096

/-- The partition whose pool holds page `ppn`. -/
def State.pageOwner (s : State) (ppn : Nat) : Option Nat :=
  (List.range 4).find? (fun n => decide (s.poolFirst n ≤ ppn ∧ ppn < s.poolFirst n + (s.part n).nPool))

/-- The summary's address (R195). -/
def State.summaryAddr (s : State) (n ppn : Nat) : Nat :=
  4096 * (s.poolFirst n + (s.part n).nPool) + 128 * (ppn - s.poolFirst n)

/-- Pages in FREE_SWEPT: every pool page not allocated and not unswept (Table 6-9). -/
def Partition.freeSwept (p : Partition) : Nat := p.nPool - p.allocated - p.unswept

/-- L_sw (R227). -/
def Partition.lsw (p : Partition) : Nat := max 512 (p.nPool / 64)

/-- The least page number from `lo` that the table lists as FREE_SWEPT or does not list. -/
def lowestSwept : Table PageRec → Nat → Nat
  | [], lo => lo
  | (k, r) :: rest, lo =>
    if k < lo then lowestSwept rest lo
    else if k = lo ∧ (r.state ≠ .freeSwept ∨ r.reserved = true) then lowestSwept rest (lo + 1)
    else lo

/-- R226: a FREE_SWEPT page of partition `n`, if one is free and not reserved; the manual does not say which, and the model takes the lowest
(DESIGN CHOICE, log 16). -/
def State.grabPage (s : State) (n : Nat) : Option (Nat × State) :=
  let p := s.part n
  if p.freeSwept ≤ p.reservedPages then none
  else
    let ppn := lowestSwept s.pages.pages (s.poolFirst n)
    some (ppn, (s.updPage ppn (fun _ => { refs := 1, state := .allocated })).updPart n (fun q => { q with allocated := q.allocated + 1 }))

/-- R233: an episode of either case ends once enough is free. -/
def State.endEpisodes (s : State) (n : Nat) : State :=
  s.updPart n (fun p =>
    let m := min (4 * p.lsw) p.nPool
    { p with
      episodePages := p.episodePages && decide (p.freeSwept + p.unswept < m),
      episodeTable := p.episodeTable && decide (8 * p.nPool - p.tableEntries < 8 * m) })

/-- R233: a case of exhaustion, kind 0 pages, 1 page-table area, starts its episode; POOL_EXHAUSTED is posted unless an episode runs already. -/
def State.exhausted (s : State) (n kind : Nat) : State :=
  let p := s.part n
  let t := s.updPart n (fun q => { q with episodePages := q.episodePages || kind == 0, episodeTable := q.episodeTable || kind == 1 })
  if p.episodePages || p.episodeTable then t
  else (t.updPart n (fun q => { q with exhausted := bump 32 q.exhausted 1 })).post n 0x800B (partHandle n) kind

/-- A page is needed and none may be taken: an episode begins where FREE_SWEPT and FREE_UNSWEPT are both empty (R233). -/
def State.noPage (s : State) (n : Nat) : State :=
  if (s.part n).freeSwept = 0 ∧ (s.part n).unswept = 0 then s.exhausted n 0 else s

/-- Whether the page-table area of partition `n` is full (R196, R233). -/
def State.tableFull (s : State) (n : Nat) : Bool := decide (8 * (s.part n).nPool ≤ (s.part n).tableEntries)

/-! ## Sequences -/

/-- The published sequence of an owner. -/
def State.seq (s : State) (o : SeqOwner) (idx : Nat) : Option PageSeq :=
  s.pages.seqs.find? (fun q => q.owner == o && q.idx == idx)

/-- A sequence put in place of the one of the same owner and index. -/
def putSeq (qs : List PageSeq) (q : PageSeq) : List PageSeq :=
  if qs.any (fun x => x.owner == q.owner && x.idx == q.idx) then
    qs.map (fun x => if x.owner == q.owner && x.idx == q.idx then q else x)
  else qs ++ [q]

/-- The published sequence becomes `q`. -/
def State.setSeq (s : State) (q : PageSeq) : State := { s with pages := { s.pages with seqs := putSeq s.pages.seqs q } }

/-! ## The words of the page tables (Tables 6-2, 6-3 and 6-5) -/

/-- Table 6-2: a page-table entry's 8 bytes. -/
def PageEntry.word (e : PageEntry) : Nat := pack [(25, e.ppn), (5, e.fill), (1, bit e.sealed), (1, 1), (32, 0)]

/-- Table 6-3's STATE. -/
def PageState.code : PageState → Nat
  | .freeUnswept => 0
  | .freeSwept => 1
  | .allocated => 2
  | .trimPending => 3

/-- Table 6-3: a page record's 8 bytes. -/
def PageRec.word (r : PageRec) : Nat := pack [(16, r.refs), (3, r.state.code), (1, bit r.pinned), (1, bit r.cached), (11, 0), (32, r.time)]

/-- Table 6-5: the 8 bytes of page `ppn`'s directory entry. -/
def DirEntry.word (d : DirEntry) (ppn : Nat) : Nat :=
  pack [(25, ppn), (1, bit d.writePending), (1, bit d.inv0), (1, bit d.inv1), (1, bit d.inv2), (3, 0), (8, d.holderQ), (8, d.holderC), (8, d.holderK), (8, 0)]

/-- R196: the entries of partition `n`'s page-table area, sequence by sequence (their places in the area are open; DESIGN CHOICE, log 53). -/
def State.tableArea (s : State) (n : Nat) : List Nat :=
  (s.pages.seqs.filter (fun q => q.part == n)).flatMap (fun q => q.entries.map PageEntry.word)

/-- The package of a pipeline's stage. -/
def State.stagePackage (s : State) (pipe : Nat) (st : Stage) : Option Package :=
  let p := s.pipe pipe
  let c := match st with
    | .encode => p.encode
    | .translate => p.translate
    | .speak => p.speak
  if c.present then (s.content c.content).pkg else none

/-- The pipeline an owner's sequences belong to, and the stage whose package sets their attention (R207, R209). -/
def State.ownerPipe (s : State) : SeqOwner → Nat × Stage
  | .encoder i => ((s.stream i).pipe, .encode)
  | .view b => ((s.stream (s.branch b).stream).pipe, .encode)
  | .decoder b => ((s.stream (s.branch b).stream).pipe, .translate)
  | .context p => (p, .translate)

/-- The attention parameters of sequence `idx`: sequences are taken layer by layer, every layer with the same number of KV heads (R198). -/
def attentionOf (k : Package) (idx : Nat) : AttnParam :=
  let per := if k.attention.length = 0 then 1 else max 1 (k.seqs / k.attention.length)
  (k.attention.getD (idx / per) {}).param

/-- R198: the sequences an owner holds, one per attention layer and KV head its model declares, at most 256. -/
def State.seqCount (s : State) (o : SeqOwner) : Nat :=
  let op := s.ownerPipe o
  min 256 (((s.stagePackage op.1 op.2).map (·.seqs)).getD 0)

/-- The attention parameters of an owner's sequence. -/
def State.attention (s : State) (o : SeqOwner) (idx : Nat) : AttnParam :=
  let op := s.ownerPipe o
  match s.stagePackage op.1 op.2 with
  | some k => attentionOf k idx
  | none => ({} : AttnDecl).param

/-- R198: the effective horizon. -/
def effectiveHorizon (a : AttnParam) : Nat := if a.horizon = 0 ∨ 65472 < a.horizon then 65472 else a.horizon

/-- The tail's index: the entry that covers the last position. -/
def PageSeq.tailIndex (q : PageSeq) : Nat := (q.positions - 1) / 16

/-! ## What attention reads (R208 to R214) -/

/-- A sequence as it stood with `len` positions (R207, R210). -/
def PageSeq.upTo (q : PageSeq) (len : Nat) : PageSeq :=
  { q with positions := min q.positions len,
           entries := (q.entries.filter (fun e => decide (16 * e.index < len))).map (fun e => { e with fill := min e.fill (len - 16 * e.index) }) }

/-- R207: the entries of the pages within the horizon. -/
def PageSeq.within (q : PageSeq) (a : AttnParam) : List PageEntry := q.entries.filter (fun e => decide (q.tailIndex ≤ e.index + effectiveHorizon a))

/-- R209: whether an entry lies in the window, the last W pages with the tail. -/
def PageSeq.inWindow (q : PageSeq) (a : AttnParam) (e : PageEntry) : Bool := decide (q.tailIndex < e.index + a.window)

/-- R210: the score of a page, from the codes of its summary `m` and of the current query of each head of the group, two's complement (R126). -/
def pageScore (m : List Int) (zq zk : Int) (queries : List (List Nat)) : Int :=
  (queries.map (fun q => ((q.zip m).map (fun x => (signed 8 x.1 - zq) * (x.2 - zk))).sum)).sum

/-- A scored page put in its place: the higher score first, equal scores by the higher position. -/
def rankPage (x : Int × PageEntry) : List (Int × PageEntry) → List (Int × PageEntry)
  | [] => [x]
  | y :: ys => if y.1 < x.1 ∨ (y.1 = x.1 ∧ y.2.index < x.2.index) then x :: y :: ys else y :: rankPage x ys

/-- R209, R210: the entries a row's attention reads, in the order of their positions. -/
def PageSeq.selected (q : PageSeq) (a : AttnParam) (score : Nat → Int) : List PageEntry :=
  let near := q.within a
  match a.mode with
  | .full => near
  | .window => near.filter (q.inWindow a)
  | .retrieval =>
    let others := near.filter (fun e => e.sealed && !q.inWindow a e)
    let best := ((others.foldl (fun acc e => rankPage (score e.ppn, e) acc) []).take a.retrieved).map (fun x => x.2.index)
    near.filter (fun e => q.inWindow a e || best.contains e.index)

/-- R212: a row's attended count: the positions below FILL of the pages it reads (R211). -/
def attendedCount (es : List PageEntry) : Nat := (es.map (·.fill)).sum

/-- R214: an attended count rounded up to a power of two of at least 16 and at most 4,096; a larger count stays itself, and its item goes alone. -/
def bucketOf (n : Nat) : Nat := ([16, 32, 64, 128, 256, 512, 1024, 2048, 4096].find? (fun b => decide (n ≤ b))).getD n

/-- A code of a key, a value or a summary: 8 bits, two's complement (R126, R193). -/
def State.codeAt (s : State) (x : Nat) : Int := signed 8 (s.mem.byte x).toNat

/-- The summary of page `ppn` as memory holds it. -/
def State.summaryCodes (s : State) (ppn : Nat) : List Int :=
  let base := s.summaryAddr ((s.pageOwner ppn).getD 0) ppn
  (List.range 128).map (fun d => s.codeAt (base + d))

/-- The key of position `t` of a page of which `fill` positions are filled; rows at or beyond read zero (R193). -/
def State.keyRow (s : State) (ppn fill t : Nat) : List Int :=
  (List.range 128).map (fun d => if t < fill then s.codeAt (4096 * ppn + 128 * t + d) else 0)

/-- The value of position `t`. -/
def State.valueRow (s : State) (ppn fill t : Nat) : List Int :=
  (List.range 128).map (fun d => if t < fill then s.codeAt (4096 * ppn + 2048 + 128 * t + d) else 0)

/-- The attended count of a row that reads sequence `q` (R212); which pages RETRIEVAL scores highest does not change how many positions they hold. -/
def State.attendedOver (s : State) (q : PageSeq) : Nat := attendedCount (q.selected (s.attention q.owner q.idx) (fun _ => 0))

/-- The entries attention over sequence `q` reads for the given queries of the group (R208 to R211). -/
def State.attends (s : State) (q : PageSeq) (zq : Int) (queries : List (List Nat)) : List PageEntry :=
  let a := s.attention q.owner q.idx
  q.selected a (fun ppn => pageScore (s.summaryCodes ppn) zq a.keyZero (queries.take (max 1 a.group)))

/-- The sections whose object names an owner's pages: their lifeline ROW, with the stream for C(n). -/
def State.ownerSections (s : State) : SeqOwner → List (Nat × Sect)
  | .encoder i => [(i, (s.stream i).enc)]
  | .view b => [((s.branch b).stream, (s.branch b).translate), ((s.branch b).stream, (s.branch b).speak)]
  | .decoder b => [((s.branch b).stream, (s.branch b).translate), ((s.branch b).stream, (s.branch b).speak)]
  | .context _ => []

/-- Every lifeline section of the objects that name page `ppn`. -/
def State.pageSections (s : State) (ppn : Nat) : List (Nat × Sect) :=
  ((s.pages.seqs.filter (fun q => q.entries.any (fun e => e.ppn == ppn))).flatMap (fun q => s.ownerSections q.owner)).filter
    (fun x => x.2.valid)

/-! ## References and freeing -/

/-- A page with no reference and no pending invalidation enters FREE_UNSWEPT (Table 6-4). -/
def State.pageFree (s : State) (ppn : Nat) : State :=
  match s.pageOwner ppn with
  | none => s
  | some n =>
    (((s.setDir ppn {}).updPage ppn (fun r => { r with state := .freeUnswept, refs := 0, pinned := false, cached := false, freeing := false })).updPart n
      (fun p => { p with allocated := p.allocated - 1, unswept := p.unswept + 1 })).endEpisodes n

/-- The holder field of a directory entry for a flank. -/
def DirEntry.holder (d : DirEntry) (f : Nat) : Nat := if f = 0 then d.holderQ else if f = 1 then d.holderC else d.holderK

/-- The holder field of a flank becomes `v`. -/
def DirEntry.setHolder (d : DirEntry) (f v : Nat) : DirEntry :=
  if f = 0 then { d with holderQ := v } else if f = 1 then { d with holderC := v } else { d with holderK := v }

/-- The INV_PENDING bit of a flank. -/
def DirEntry.inv (d : DirEntry) (f : Nat) : Bool := if f = 0 then d.inv0 else if f = 1 then d.inv1 else d.inv2

/-- The INV_PENDING bit of a flank becomes `v`. -/
def DirEntry.setInv (d : DirEntry) (f : Nat) (v : Bool) : DirEntry :=
  if f = 0 then { d with inv0 := v } else if f = 1 then { d with inv1 := v } else { d with inv2 := v }

/-- Whether any flank still owes an answer. -/
def DirEntry.owed (d : DirEntry) : Bool := d.inv0 || d.inv1 || d.inv2

/-- Whether any flank holds the page. -/
def DirEntry.anyHolder (d : DirEntry) : Bool := d.holderQ != 255 || d.holderC != 255 || d.holderK != 255

/-- A directory entry written, and the record's CACHED bit with it (Table 6-3). -/
def State.putDir (s : State) (ppn : Nat) (d : DirEntry) : State :=
  (s.setDir ppn d).updPage ppn (fun r => { r with cached := d.anyHolder })

/-- A cache message sent. -/
def State.cacheSend (s : State) (k : CacheKind) (tile ppn holder : Nat) : State :=
  { s with pages := { s.pages with msgs := s.pages.msgs ++ [{ kind := k, tile := tile, ppn := ppn, holder := holder }] } }

/-- R220 steps 1 and 2: WRITE_PENDING, the pending bits, and INVALIDATE to every holder. One whose tile has been retired answers with that tile's drain. -/
def State.invalidate (s : State) (ppn : Nat) (reopen : Bool) : State :=
  let d := s.dirEntry ppn
  let owner := (s.pageOwner ppn).getD 0
  (List.range 3).foldl
    (fun t f =>
      if d.holder f = 255 then t
      else
        let u := t.putDir ppn ((t.dirEntry ppn).setInv f true)
        (match t.logicalTile (d.holder f) with
         | some k => u.cacheSend .invalidate k ppn 0
         | none => u).updPart owner (fun p => { p with invalidates := bump 64 p.invalidates 1 }))
    (s.putDir ppn { d with writePending := true, reopen := reopen })

/-- R202, R220: a page whose count is zero is invalidated where cached, then freed. `fg` marks pages of a bind-off or detach (R227). -/
def State.beginFree (s : State) (ppn : Nat) (fg : Bool) : State :=
  let t := s.updPage ppn (fun r => { r with foreground := fg || r.foreground })
  if (t.dirEntry ppn).anyHolder then (t.updPage ppn (fun r => { r with freeing := true })).invalidate ppn false else t.pageFree ppn

/-- One reference fewer (R202). -/
def State.dropRef (s : State) (ppn : Nat) (fg : Bool) : State :=
  let t := s.updPage ppn (fun r => { r with refs := r.refs - 1 })
  if (t.page ppn).refs = 0 ∧ ((t.page ppn).state = .allocated ∨ (t.page ppn).state = .trimPending) ∧ (t.page ppn).freeing = false
  then t.beginFree ppn fg else t

/-- Page-table entries given back (R233). -/
def State.dropEntries (s : State) (n k : Nat) : State :=
  (s.updPart n (fun p => { p with tableEntries := p.tableEntries - k })).endEpisodes n

/-- A whole sequence given up: its entries and their references. -/
def State.dropSeq (s : State) (q : PageSeq) (fg : Bool) : State :=
  (q.entries.foldl (fun t e => t.dropRef e.ppn fg) s).dropEntries q.part q.entries.length

/-- Every sequence of an owner given up (R88, R91), the pages of copies for it with them. -/
def State.dropOwner (s : State) (o : SeqOwner) (fg : Bool) : State :=
  let mine := s.pages.seqs.filter (fun q => q.owner == o)
  let copied := s.pages.copies.filter (fun c => c.owner == o)
  let s := if fg then copied.foldl (fun (t : State) c => t.updPage c.newPpn (fun r => { r with foreground := true })) s else s
  mine.foldl (fun t q => t.dropSeq q fg)
    { s with pages := { s.pages with seqs := s.pages.seqs.filter (fun q => q.owner != o),
                                     removals := s.pages.removals.filter (fun r => r.owner != o),
                                     wants := s.pages.wants.filter (fun w => w.owner != o) } }

/-- A page's entry taken out of one sequence. -/
def PageSeq.without (q : PageSeq) (ppn : Nat) : PageSeq := { q with entries := q.entries.filter (fun e => e.ppn != ppn) }

/-- One entry removed from a sequence, with its reference, and from what a running encode task has staged of it (R200). -/
def State.removeEntry (s : State) (o : SeqOwner) (idx ppn : Nat) : State :=
  match s.seq o idx with
  | none => s
  | some q =>
    if q.entries.any (fun e => e.ppn == ppn) then
      let t : State := { s with pages := { s.pages with
        staged := s.pages.staged.map (fun x => if x.owner == o && x.idx == idx then x.without ppn else x) } }
      ((t.setSeq (q.without ppn)).dropEntries q.part 1).dropRef ppn false
    else s

/-- R207: the removals whose every section has reached their chunk are made. -/
def State.applyRemovals (s : State) : State :=
  let due := s.pages.removals.filter (fun r => (s.pageSections r.ppn).all (fun x => !earlier32 x.2.row r.row))
  due.foldl (fun t r => t.removeEntry r.owner r.idx r.ppn)
    { s with pages := { s.pages with removals := s.pages.removals.filter (fun r => !(due.contains r)) } }

/-! ## Chunk times for trimming -/

/-- The anchor and base row of chunk `n`'s grid: those before the last resume for a chunk closed before its pause (R55, R71). -/
def Stream.grid (x : Stream) (n : Nat) : Nat × Nat :=
  match x.before with
  | some e => if earlier32 n x.n0 then e else (x.anchor, x.n0)
  | none => (x.anchor, x.n0)

/-- C(k) on the grid of chunk `n` (R57). -/
def State.gridClose (s : State) (i n k : Nat) : Nat :=
  let x := s.stream i
  (x.grid n).1 + (sub32 k (x.grid n).2 + 1) * (s.pipe x.pipe).period

/-- C(n) of a stream (R57). The difference n − n₀ is taken modulo 2³², so 2³² chunks after the anchor the time falls back to A + P: the formula is followed there, and not
the rule's other sentence, that the clock advances by P at each close (DESIGN CHOICE, log 100). -/
def State.closeTime (s : State) (i row : Nat) : Nat := s.gridClose i row row

/-- DT bits [47:16] (Table 6-3). -/
def pageTime (dt : Nat) : Nat := field dt 16 32

/-- R231: TRIM_PENDING pages whose every section has passed their TIME leave every table. -/
def State.applyTrims (s : State) : State :=
  let due := s.pages.pages.filter (fun e =>
    e.2.state == .trimPending &&
      (s.pageSections e.1).all (fun x => decide (e.2.time < pageTime (s.closeTime x.1 x.2.row))))
  due.foldl
    (fun t e => (t.pages.seqs.filter (fun q => q.entries.any (fun y => y.ppn == e.1))).foldl
      (fun u q => u.removeEntry q.owner q.idx e.1) t) s

/-- After a lifeline ROW moves: horizon removals and trims that wait for it (R207, R231). -/
def State.pagesAdvance (s : State) : State := s.applyRemovals.applyTrims

/-! ## Trimming (R230, R232) -/

/-- A list with one more element, ordered by TIME then page number. -/
def insertByTime (x : Nat × PageRec) : List (Nat × PageRec) → List (Nat × PageRec)
  | [] => [x]
  | y :: ys => if x.2.time < y.2.time ∨ (x.2.time = y.2.time ∧ x.1 < y.1) then x :: y :: ys else y :: insertByTime x ys

/-- Whether a page may be trimmed: ALLOCATED, sealed, not PINNED, and outside the window of every sequence that names it. -/
def State.trimmable (s : State) (e : Nat × PageRec) : Bool :=
  let naming := s.pages.seqs.filter (fun q => q.entries.any (fun y => y.ppn == e.1))
  e.2.state == .allocated && !e.2.pinned && !naming.isEmpty &&
    naming.all (fun q => q.entries.all (fun y =>
      y.ppn != e.1 || (y.sealed && decide (y.index + (s.attention q.owner q.idx).window ≤ q.tailIndex))))

/-- R230: a trim pass where the free and TRIM_PENDING pages are below 2 × L_sw and the policy is OLDEST. A pass that finds no page to select posts no event: the spec says
that each pass posts one and does not say what one that selects none reports (DESIGN CHOICE, log 109). -/
def State.trimCheck (s : State) (n : Nat) : State :=
  let p := s.part n
  let mine := s.pages.pages.filter (fun e => decide (s.poolFirst n ≤ e.1 ∧ e.1 < s.poolFirst n + p.nPool))
  let pendingCount := (mine.filter (fun e => e.2.state == .trimPending)).length
  let have0 := p.freeSwept + p.unswept + pendingCount
  if p.trimNone || decide (2 * p.lsw ≤ have0) then s
  else
    let cand := ((mine.filter s.trimmable).foldl (fun acc e => insertByTime e acc) []).take (4 * p.lsw - have0)
    match cand with
    | [] => s
    | first :: _ =>
      let newest := (cand.getLast?.map (fun e => e.2.time)).getD 0
      let t := cand.foldl (fun u e => u.updPage e.1 (fun r => { r with state := .trimPending, time := pageTime u.dt })) s
      ((t.updPart n (fun q => { q with pagesTrimmed := bump 64 q.pagesTrimmed cand.length })).post n 0x800A (partHandle n)
        (pack [(32, cand.length), (32, first.2.time), (32, newest)])).applyTrims

/-- R226, R230: a page taken, and a trim pass where that leaves too few. -/
def State.takePage (s : State) (n : Nat) : Option (Nat × State) := (s.grabPage n).map (fun r => (r.1, r.2.trimCheck n))

/-! ## Appending (R198 to R206) -/

/-- The 128-byte summary of a sealed page: mean key per dimension with key zero point (R194). -/
def State.summaryOf (s : State) (ppn : Nat) (zk : Int) : Nat :=
  concatRecords 8 ((List.range 128).map (fun d =>
    let total : Int := (List.range 16).foldl (fun a t => a + (s.codeAt (4096 * ppn + 128 * t + d) - zk)) 0
    unsigned 8 (zk + divZero total 16)))

/-- One position's key and value written into a page (R193). -/
def State.writeRow (s : State) (ppn t : Nat) (row : List Nat) : State :=
  (s.memWrite (4096 * ppn + 128 * t) 128 (concatRecords 8 (row.take 128))).memWrite (4096 * ppn + 2048 + 128 * t) 128
    (concatRecords 8 ((row.drop 128).take 128))

/-- Rows of a page from `fill` on zeroed, keys and values (R193). -/
def State.clearRows (s : State) (ppn fill : Nat) : State :=
  (s.memZero (4096 * ppn + 128 * fill) (128 * (16 - fill))).memZero (4096 * ppn + 2048 + 128 * fill) (128 * (16 - fill))

/-- An entry put in its place in a page table. -/
def insertEntry (e : PageEntry) : List PageEntry → List PageEntry
  | [] => [e]
  | y :: ys => if e.index < y.index then e :: y :: ys else y :: insertEntry e ys

/-- A sequence that receives an entry; one that did not exist begins empty. -/
def State.giveEntry (s : State) (w : Want) (e : PageEntry) : State :=
  let q := (s.seq w.owner w.idx).getD { owner := w.owner, idx := w.idx, part := w.part, base := 0, positions := 0, entries := [] }
  (s.setSeq { q with positions := max q.positions (16 * e.index + e.fill), entries := insertEntry e q.entries }).updPart w.part
    (fun p => { p with tableEntries := p.tableEntries + 1 })

/-- The copy of page `old` into page `new` begins: the feeder owes the 4,096 bytes, memory to memory, under deadline `due` (R206). -/
def State.startCopy (s : State) (c : Copy) (part due : Nat) : State :=
  ({ s with pages := { s.pages with copies := s.pages.copies ++ [c] } } : State).newOpDue (.copy c.newPpn) part due
    [{ kind := 2, bytes := 4096, data := 4096 * c.oldPpn + 2 ^ 64 * (4096 * c.newPpn) }]

/-- One entry a sequence is owed: given with a reference; a page whose count would pass 65,535 is copied for it, one copy of a page at a time (R204, R206). False: it
still waits, for a place in the page-table area or for a page (R228, R233). A page that has left ALLOCATED meanwhile is not given (R203). -/
def State.serveWant (s : State) (w : Want) : Bool × State :=
  let ppn := w.entry.ppn
  if (s.page ppn).state ≠ .allocated then (true, s)
  else if s.tableFull w.part then (false, s.exhausted w.part 1)
  else if (s.page ppn).refs < 65535 then (true, (s.updPage ppn (fun r => { r with refs := r.refs + 1 })).giveEntry w w.entry)
  else if s.pages.copies.any (fun c => c.oldPpn == ppn) then (false, s)
  else match s.takePage w.part with
    | none => (false, (s.noPage w.part).trimCheck w.part)
    | some (n, u) =>
      (true, u.startCopy { owner := w.owner, idx := w.idx, index := w.entry.index, oldPpn := ppn, newPpn := n, fresh := some w.entry } w.part u.dt)

/-- One owed entry served, or kept waiting behind the others. -/
def State.wantStep (s : State) (w : Want) : State :=
  let r := s.serveWant w
  if r.1 then r.2 else { r.2 with pages := { r.2.pages with wants := r.2.pages.wants ++ [w] } }

/-- Every owed entry served where it may be now, in the order they are owed. -/
def State.serveWants (s : State) : State :=
  s.pages.wants.foldl State.wantStep ({ s with pages := { s.pages with wants := [] } } : State)

/-- Whether an owner is still owed an entry of one of its sequences, or of any. -/
def State.wanting (s : State) (o : SeqOwner) (idx : Option Nat) : Bool :=
  let mine := fun (p : SeqOwner) (k : Nat) => p == o && (idx.map (fun j => j == k)).getD true
  s.pages.wants.any (fun w => mine w.owner w.idx) || s.pages.copies.any (fun c => c.fresh.isSome && mine c.owner c.idx)

/-- R203: a sealed encoder page gives an entry and a reference to every branch of the stream in ATTACHING, ACTIVE or STOPPED. -/
def State.shareSealed (s : State) (stream idx : Nat) (e : PageEntry) : State :=
  let bs := (s.branches.filter (fun b => b.2.stream == stream && (b.2.state == .attaching || b.2.state == .active || b.2.state == .stopped))).map (·.1)
  bs.foldl (fun t b => t.wantStep { owner := .view b, idx := idx, part := (t.branch b).part, entry := e }) s

/-- R199: an entry whose FILL has reached 16 is sealed: TIME, the summary, and for an encoder page the branches' views. -/
def State.sealEntry (s : State) (o : SeqOwner) (idx : Nat) (e : PageEntry) : State :=
  let n := (s.pageOwner e.ppn).getD 0
  let t := (s.updPage e.ppn (fun r => { r with time := pageTime s.dt })).memWrite (s.summaryAddr n e.ppn) 128
    (s.summaryOf e.ppn (s.attention o idx).keyZero)
  match o with
  | .encoder i => t.shareSealed i idx e
  | _ => t

/-- How an append ends. -/
inductive AppendEnd where
  | done | waits
deriving DecidableEq, Repr

/-- R222: held lookups of a page are answered once its write has completed and it is still ALLOCATED: the first of a flank with NONE, those after it from the holder it
has become (R217, R218). -/
def State.answerLookup (s : State) (ppn tile : Nat) : State :=
  let f := tile / 48
  let d := s.dirEntry ppn
  let logical := (s.tile tile).logical
  let cacheable := (s.page ppn).state == .allocated && s.pages.seqs.any (fun q => q.entries.any (fun e => e.ppn == ppn && e.sealed))
  let owner := (s.pageOwner ppn).getD 0
  if d.holder f = 255 ∨ d.holder f = logical then
    ((if cacheable then s.putDir ppn (d.setHolder f logical) else s).cacheSend .none tile ppn 0).updPart owner
      (fun p => { p with cacheMemory := bump 64 p.cacheMemory 1 })
  else (s.cacheSend .holder tile ppn (d.holder f)).updPart owner (fun p => { p with cachePeer := bump 64 p.cachePeer 1 })

/-- The lookups held for a page answered, in the order they came. -/
def State.answerHeld (s : State) (ppn : Nat) : State :=
  let d := s.dirEntry ppn
  d.held.foldl (fun t tile => t.answerLookup ppn tile) (s.putDir ppn { d with held := [] })

/-- R222: the append's write to a reopened page is complete. -/
def State.writeDone (s : State) (ppn : Nat) : State :=
  let d := s.dirEntry ppn
  if d.writePending then (s.putDir ppn { d with writePending := false, reopen := false }).answerHeld ppn else s

/-- One position appended to a sequence `q` (the working copy): a new page is taken where the tail is full, a shared tail is copied first, one copy
of a page at a time (R206) and under the task's deadline `due`, a cached private tail is invalidated first (R220, R223). `sealNow` says whether a full entry is sealed now. -/
def State.appendRow (s : State) (q : PageSeq) (row : List Nat) (sealNow : Bool) (due : Nat) : AppendEnd × State × PageSeq :=
  let t := q.positions % 16
  if t = 0 then
    if 65536 ≤ q.entries.length then (.waits, s, q)
    else if s.tableFull q.part then (.waits, s.exhausted q.part 1, q)
    else match s.takePage q.part with
      | none => (.waits, (s.noPage q.part).trimCheck q.part, q)
      | some (ppn, u) =>
        (.done, (u.writeRow ppn 0 row).updPart q.part (fun x => { x with tableEntries := x.tableEntries + 1 }),
          { q with positions := q.positions + 1,
                   entries := q.entries ++ [{ index := q.positions / 16, ppn := ppn, fill := 1, sealed := false }] })
  else
    match q.entries.getLast? with
    | none => (.done, s, { q with positions := q.positions + 1 })
    | some e =>
      if s.pages.copies.any (fun c => c.oldPpn == e.ppn) then (.waits, s, q)
      else if 2 ≤ (s.page e.ppn).refs then
        match s.takePage q.part with
        | none => (.waits, (s.noPage q.part).trimCheck q.part, q)
        | some (n, u) => (.waits, u.startCopy { owner := q.owner, idx := q.idx, index := e.index, oldPpn := e.ppn, newPpn := n } q.part due, q)
      else if (s.dirEntry e.ppn).anyHolder then
        (.waits, if (s.dirEntry e.ppn).writePending then s else s.invalidate e.ppn true, q)
      else
        let e1 := { e with fill := e.fill + 1, sealed := sealNow && e.fill + 1 == 16 }
        let u := (s.writeRow e.ppn t row).writeDone e.ppn
        let u1 := if e1.sealed then u.sealEntry q.owner q.idx e1 else u
        (.done, u1, { q with positions := q.positions + 1, entries := q.entries.dropLast ++ [e1] })

/-- Rows appended one after another until one has to wait. -/
def State.appendRows (s : State) (q : PageSeq) (sealNow : Bool) (due : Nat) : List (List Nat) → AppendEnd × State × PageSeq
  | [] => (.done, s, q)
  | r :: rs =>
    match s.appendRow q r sealNow due with
    | (.done, u, q1) => State.appendRows u q1 sealNow due rs
    | (.waits, u, q1) => (.waits, u, q1)

/-- R201: a committed token's position in decoder sequence `idx` of branch `b`, beyond the prefix it started from, visible at once. One it has received already
before another sequence had to wait is not given again. -/
def State.appendDecoder (s : State) (b idx tokens : Nat) (row : List Nat) (due : Nat) : AppendEnd × State :=
  let q := (s.seq (.decoder b) idx).getD { owner := .decoder b, idx := idx, part := (s.branch b).part, base := 0, positions := 0, entries := [] }
  if q.base + tokens < q.positions then (.done, s)
  else if s.wanting (.decoder b) (some idx) then (.waits, s)
  else
    let r := s.appendRow q row true due
    (r.1, r.2.1.setSeq r.2.2)

/-- A committed token's positions in the decoder sequences from `idx` on, one after another. -/
def State.appendToken (s : State) (b tokens due : Nat) : Nat → List (List Nat) → AppendEnd × State
  | _, [] => (.done, s)
  | idx, row :: rows =>
    match s.appendDecoder b idx tokens row due with
    | (.done, u) => u.appendToken b tokens due (idx + 1) rows
    | (.waits, u) => (.waits, u)

/-- R200: an encoder's rows go to the working copy, published when the task completes. -/
def State.appendEncoder (s : State) (i idx : Nat) (rows : List (List Nat)) (due : Nat) : AppendEnd × State :=
  let o := SeqOwner.encoder i
  let base := (s.seq o idx).getD { owner := o, idx := idx, part := (s.stream i).part, base := 0, positions := 0, entries := [] }
  let q := (s.pages.staged.find? (fun x => x.owner == o && x.idx == idx)).getD base
  let r := s.appendRows q false due rows
  (r.1, { r.2.1 with pages := { r.2.1.pages with staged := putSeq r.2.1.pages.staged r.2.2 } })

/-- The pages of a sequence that have left its horizon wait for the lifelines (R207). -/
def State.leaveHorizon (s : State) (q : PageSeq) (row : Nat) : State :=
  let h := effectiveHorizon (s.attention q.owner q.idx)
  let gone := q.entries.filter (fun e => decide (e.index + h < q.tailIndex) && !(s.pages.removals.any (fun r => r.owner == q.owner && r.idx == q.idx && r.ppn == e.ppn)))
  { s with pages := { s.pages with
    removals := s.pages.removals ++ gone.map (fun e => { owner := q.owner, idx := q.idx, ppn := e.ppn, row := row }) } }

/-- R200, R199: the encoder sequences a completed task leaves become visible at once; full entries are sealed. -/
def State.publishEncoder (s : State) (i row : Nat) : State :=
  let o := SeqOwner.encoder i
  let mine := s.pages.staged.filter (fun q => q.owner == o)
  let t := { s with pages := { s.pages with staged := s.pages.staged.filter (fun q => q.owner != o) } }
  mine.foldl
    (fun u q =>
      let entries := q.entries.map (fun e => { e with sealed := e.sealed || e.fill == 16 })
      let fresh := q.entries.filter (fun e => !e.sealed && e.fill == 16)
      let u1 := u.setSeq { q with entries := entries }
      let u2 := fresh.foldl (fun v e => v.sealEntry o q.idx { e with sealed := true }) u1
      let u3 := u2.leaveHorizon { q with entries := entries } row
      (u3.pages.seqs.filter (fun x => match x.owner with | .view b => (u3.branch b).stream == i && x.idx == q.idx | _ => false)).foldl
        (fun v x => v.leaveHorizon { x with positions := q.positions } row) u3)
    t

/-- The pages a running encode task's working copies name. -/
def State.stagedPages (s : State) (i : Nat) : List Nat :=
  ((s.pages.staged.filter (fun q => q.owner == .encoder i)).flatMap (fun q => q.entries.map (·.ppn))).eraseDups

/-- The copies in progress for an owner are given up: their transfers, and the pages taken for them (R89, R227). -/
def State.dropCopies (s : State) (p : SeqOwner → Bool) : State × List Nat :=
  let mine := s.pages.copies.filter (fun c => p c.owner)
  let t : State := { s with pages := { s.pages with copies := s.pages.copies.filter (fun c => !p c.owner) } }
  (mine.foldl (fun u c => u.dropRef c.newPpn true) t, mine.map (·.newPpn))

/-- R200: the rows of an aborted encode task are never published; pages it took are freed, and the rows it wrote beyond the published tail read zero again (R193).
`fg` marks those a bind-off frees (R227). -/
def State.dropStaged (s : State) (i : Nat) (fg : Bool) : State :=
  let o := SeqOwner.encoder i
  let mine := s.pages.staged.filter (fun q => q.owner == o)
  let t := { s with pages := { s.pages with staged := s.pages.staged.filter (fun q => q.owner != o) } }
  mine.foldl
    (fun u q =>
      let old := ((u.seq o q.idx).map (fun x => x.entries)).getD []
      let fresh := q.entries.filter (fun e => !(old.any (fun x => x.ppn == e.ppn)))
      let v := match old.getLast? with
        | some e => if e.fill < 16 then u.clearRows e.ppn e.fill else u
        | none => u
      (fresh.foldl (fun v e => v.dropRef e.ppn fg) v).dropEntries q.part fresh.length)
    t

/-- R223: a sequence truncated to `len` positions: entries beyond go, the covering entry is reopened, the rows of a private page beyond it read zero (R193), and where it is
cached it is invalidated before its next append. -/
def State.truncate (s : State) (o : SeqOwner) (idx len : Nat) : State :=
  match s.seq o idx with
  | none => s
  | some q =>
    if q.positions ≤ len then s
    else
      let keep := q.entries.filter (fun e => decide (16 * e.index < len))
      let gone := q.entries.filter (fun e => decide (len ≤ 16 * e.index))
      let keep1 := if len % 16 = 0 then keep
        else keep.map (fun e => if e.index = len / 16 then { e with fill := len % 16, sealed := false } else e)
      let t := match keep1.getLast? with
        | some e => if e.fill < 16 ∧ (s.page e.ppn).refs ≤ 1 then s.clearRows e.ppn e.fill else s
        | none => s
      (gone.foldl (fun t e => t.dropRef e.ppn false) (t.setSeq { q with positions := len, entries := keep1 })).dropEntries q.part gone.length

/-- R224: a branch's decoder sequences truncated to its lifeline's TOKENS, beyond the prefix positions it started from. -/
def State.truncateDecoders (s : State) (b tokens : Nat) : State :=
  (s.pages.seqs.filter (fun q => q.owner == .decoder b)).foldl (fun t q => t.truncate (.decoder b) q.idx (q.base + tokens)) s

/-! ## The directory's answers (R218 to R222) -/

/-- R220 step 4: once no bit remains, a free proceeds; a reopened page stays WRITE_PENDING until the append's write (R222). The lookups held for a page that is freed
instead are dropped unanswered: the spec names no answer (DESIGN CHOICE, log 111). -/
def State.invalidated (s : State) (ppn : Nat) : State :=
  let d := s.dirEntry ppn
  if !d.writePending || d.owed then s
  else if (s.page ppn).freeing then s.pageFree ppn
  else s

/-- A holder's answer in flank `f`: the pending bit and the holder are cleared (R221). `crossing` marks EVICT taken as answer or NOT_HELD (Table 6-9). -/
def State.holderAnswered (s : State) (ppn f : Nat) (crossing : Bool) : State :=
  let d := s.dirEntry ppn
  let t := s.putDir ppn ((d.setInv f false).setHolder f 255)
  let u := if crossing then t.updPart ((t.pageOwner ppn).getD 0) (fun p => { p with crossings := bump 64 p.crossings 1 }) else t
  u.invalidated ppn

/-- The drain of a retirement: every holder field naming a logical ID is cleared and its pending INVALIDATE counts as NOT_HELD (chapter 6, Collisions). -/
def State.clearHolder (s : State) (logical f : Nat) : State :=
  (s.pages.dir.filter (fun e => e.2.holder f == logical)).foldl
    (fun t e => if (t.dirEntry e.1).inv f then t.holderAnswered e.1 f true else t.putDir e.1 ((t.dirEntry e.1).setHolder f 255)) s

end Sys2Proof.Machine
end

