-- ==== Sys2Proof/Machine/Streams.lean ====
section
/-!
DEFINITION. Machine/Streams.lean: streams and branches: chunk times, state events, carried state and lifelines, handoff rings, flag falls, passing, castling out,
frogging and bind-off (chapters 2 and 5).
-/
namespace Sys2Proof.Machine

/-! ## Codes and events (Tables 14-13 and 14-14) -/

/-- Table 14-13's stream state code. -/
def StreamState.code : StreamState → Nat
  | .closed => 0
  | .castOn => 1
  | .resident => 2
  | .castled => 3
  | .paused => 4
  | .frogging => 5
  | .bindingOff => 6

/-- Table 14-13's branch state code. -/
def BranchState.code : BranchState → Nat
  | .absent => 0
  | .attaching => 1
  | .active => 2
  | .stopped => 3
  | .detaching => 4

/-- Table 14-13's stage code. -/
def stageCode : Stage → Nat
  | .encode => 0
  | .translate => 1
  | .speak => 2

/-- The stage of a code. -/
def codeStage (c : Nat) : Stage := if c = 0 then .encode else if c = 1 then .translate else .speak

/-- Table 14-13's policy code. -/
def policyCode : Policy → Nat
  | .skip => 0
  | .hold => 1
  | .stop => 2

/-- The row counter a stream's state events carry: the chunk its encode section runs or runs next, as chapter 21 shows it (DEDUCED, log 70); the chunk filling once
nothing is carried. -/
def State.eventRow (s : State) (i : Nat) : Nat := if (s.stream i).enc.valid then (s.stream i).enc.next else (s.stream i).row

/-- R551: a STREAM_STATE event for a transition no command requested. -/
def State.postStream (s : State) (i : Nat) (src dst : StreamState) (cause : Nat) : State :=
  let x := s.stream i
  s.post x.part 0x8005 (streamHandle i x.gen)
    (pack [(3, src.code), (1, 0), (3, dst.code), (1, 0), (4, cause), (20, 0), (32, s.eventRow i)])

/-- R551: a BRANCH_STATE event for a transition no branch command requested. -/
def State.postBranch (s : State) (b : Nat) (src dst : BranchState) (cause row : Nat) : State :=
  let x := s.branch b
  s.post x.part 0x8006 (branchHandle b x.gen)
    (pack [(3, src.code), (1, 0), (3, dst.code), (1, 0), (4, cause), (20, 0), (32, row)])

/-- A STREAM_FAULT event: cause 1 OVERRUN, 2 STALEMATE, 3 LIFELINE_LOST. -/
def State.postFault (s : State) (i cause : Nat) (st : Stage) (row : Nat) : State :=
  let x := s.stream i
  s.post x.part 0x8007 (streamHandle i x.gen) (pack [(4, cause), (2, stageCode st), (26, 0), (32, row)])

/-! ## Stages and chunk times (R57, R61, R64, R70) -/

/-- A pipeline's entry for a stage. -/
def Pipeline.stage (p : Pipeline) (st : Stage) : StageCfg :=
  match st with
  | .encode => p.encode
  | .translate => p.translate
  | .speak => p.speak

/-- The stages a pipeline has, in order. -/
def Pipeline.stages (p : Pipeline) : List Stage :=
  [Stage.encode, Stage.translate, Stage.speak].filter (fun st => (p.stage st).present)

/-- Λ_k: look-ahead over the present stages up to and including `st` (R61). -/
def Pipeline.lookSum (p : Pipeline) (st : Stage) : Nat :=
  ((p.stages.filter (fun x => decide (stageCode x ≤ stageCode st))).map (fun x => (p.stage x).lookahead)).foldl (· + ·) 0

/-- The budgets of the present stages before `st`. -/
def Pipeline.budgetBefore (p : Pipeline) (st : Stage) : Nat :=
  ((p.stages.filter (fun x => decide (stageCode x < stageCode st))).map (fun x => (p.stage x).budget)).foldl (· + ·) 0

/-- d_I and d_G of R60. -/
def conditioning : Nat := 24576

/-- The pipeline of stream `i`. -/
def State.pipeOfStream (s : State) (i : Nat) : Pipeline := s.pipe (s.stream i).pipe

/-- R70: the last chunk closed before the pause chunk `n` was closed before, once that pause has taken effect; its gap chunks stand for what follows, also after
the resume. -/
def Stream.lastClosed (x : Stream) (n : Nat) : Option Nat :=
  if x.before.isSome && earlier32 n x.n0 then some (sub32 x.n0 1)
  else match x.pausedRow with
    | some m => if later32 n m then none else some m
    | none => none

/-- The chunk whose close makes stage `st` of chunk `n` of stream `i` eligible: n + Λ_k, or m where its right context n + L_k reaches beyond a pause's last chunk m
(R61, R70). -/
def State.closeRow (s : State) (st : Stage) (i n : Nat) : Nat :=
  let p := s.pipeOfStream i
  let due := bump 32 n (p.lookSum st)
  match (s.stream i).lastClosed n with
  | some m => if later32 (bump 32 n (p.stage st).lookahead) m then m else due
  | none => due

/-- W_k(n) of a stream (R61). -/
def State.stageTime (s : State) (st : Stage) (i n : Nat) : Nat :=
  s.gridClose i n (s.closeRow st i n) + conditioning + (s.pipeOfStream i).budgetBefore st

/-- The stream an item's object belongs to: the stream at encode, the branch's stream at translate and speak. -/
def State.objStream (s : State) (st : Stage) (obj : Nat) : Nat :=
  match st with
  | .encode => obj
  | _ => (s.branch obj).stream

/-- W_k(n) (R61). -/
def State.eligibleAt (s : State) (st : Stage) (obj n : Nat) : Nat := s.stageTime st (s.objStream st obj) n

/-- D_k(n) (R61). -/
def State.deadlineAt (s : State) (st : Stage) (obj n : Nat) : Nat :=
  s.eligibleAt st obj n + ((s.pipeOfStream (s.objStream st obj)).stage st).budget

/-- D_k(n) + h × P, with h 0 at encode (R78). -/
def State.heldDeadline (s : State) (st : Stage) (obj n : Nat) : Nat :=
  s.deadlineAt st obj n +
    match st with
    | .encode => 0
    | _ => (s.branch obj).hold * (s.pipeOfStream (s.objStream st obj)).period

/-- The chunks of a grid up to `last` that a pipeline may still have in work, earliest first. -/
def Stream.recent (x : Stream) (last : Nat) : List Nat :=
  ((List.range 16).map (fun j => sub32 last (15 - j))).filter (fun n => !earlier32 n (x.grid n).2)

/-- R76: the first chunk whose translate eligibility lies after now: of those closed before a pause first, then of those after the last anchor. -/
def State.firstRowNow (s : State) (i : Nat) : Nat :=
  let x := s.stream i
  let p := s.pipeOfStream i
  let base := x.anchor + (1 + p.lookSum .translate) * p.period + conditioning + p.budgetBefore .translate
  let now := if s.dt < base then x.n0 else bump 32 x.n0 ((s.dt - base) / max p.period 1 + 1)
  let old := fun (m : Nat) => (x.recent m).find? (fun n => decide (s.dt < s.stageTime .translate i n))
  match x.pausedRow with
  | some m => (old m).getD (bump 32 m 1)
  | none => if x.before.isSome then (old (sub32 x.n0 1)).getD now else now

/-! ## Sections -/

/-- The section of a stage and object. -/
def State.sect (s : State) (st : Stage) (obj : Nat) : Sect :=
  match st with
  | .encode => (s.stream obj).enc
  | .translate => (s.branch obj).translate
  | .speak => (s.branch obj).speak

/-- The section becomes `v`. -/
def State.setSect (s : State) (st : Stage) (obj : Nat) (v : Sect) : State :=
  match st with
  | .encode => s.updStream obj (fun x => { x with enc := v })
  | .translate => s.updBranch obj (fun x => { x with translate := v })
  | .speak => s.updBranch obj (fun x => { x with speak := v })

/-- The section changed. -/
def State.updSect (s : State) (st : Stage) (obj : Nat) (f : Sect → Sect) : State := s.setSect st obj (f (s.sect st obj))

/-- The current half (Table 5-3: SEQ[0]). -/
def Sect.current (x : Sect) : Carried := if x.seq % 2 = 0 then x.half0 else x.half1

/-- The branches of a stream that are not ABSENT, in slot order. -/
def State.branchesOf (s : State) (i : Nat) : List Nat :=
  (s.branches.filter (fun b => b.2.stream == i && b.2.state != .absent)).map (·.1)

/-- Every valid section of a stream and its branches, as stage and object. -/
def State.sectsOf (s : State) (i : Nat) : List (Stage × Nat) :=
  ([(Stage.encode, i)] ++ (s.branchesOf i).flatMap (fun b => [(Stage.translate, b), (Stage.speak, b)])).filter
    (fun k => (s.sect k.1 k.2).valid)

/-- The flank an object's stage runs on. -/
def State.flankOf (s : State) (st : Stage) (obj : Nat) : Nat := ((s.pipeOfStream (s.objStream st obj)).stage st).flank

/-- The model content an object's stage runs. -/
def State.contentOf (s : State) (st : Stage) (obj : Nat) : Nat := ((s.pipeOfStream (s.objStream st obj)).stage st).content

/-- The package of an object's stage. -/
def State.packageOf (s : State) (st : Stage) (obj : Nat) : Option Package := (s.content (s.contentOf st obj)).pkg

/-- Every section of the device that holds a slot: stage, object, tile. -/
def State.slots (s : State) : List (Stage × Nat × Nat) :=
  s.streams.filterMap (fun e => e.2.enc.tile.map (fun t => (Stage.encode, e.1, t)))
    ++ s.branches.filterMap (fun e => e.2.translate.tile.map (fun t => (Stage.translate, e.1, t)))
    ++ s.branches.filterMap (fun e => e.2.speak.tile.map (fun t => (Stage.speak, e.1, t)))

/-- Bytes of a tile's state store its slots take (R170). -/
def State.storeUsed (s : State) (t : Nat) : Nat :=
  ((s.slots.filter (fun k => k.2.2 == t)).map (fun k => (s.sect k.1 k.2.1).size)).foldl (· + ·) 0

/-- Slots of a binding on a tile. -/
def State.slotsOn (s : State) (t : Nat) (st : Stage) (content : Nat) : Nat :=
  (s.slots.filter (fun k => k.2.2 == t && k.1 == st && s.contentOf k.1 k.2.1 == content)).length

/-- R109: the tile that receives a slot of `need` bytes: with room, fewest slots of the binding, lowest ring position. -/
def State.placeSlot (s : State) (f : Nat) (st : Stage) (content need : Nat) : Option Nat :=
  ((s.ring f).filter (fun t => decide (s.storeUsed t + need ≤ 262144))).foldl
    (fun best t => match best with
      | none => some t
      | some b => if s.slotsOn t st content < s.slotsOn b st content then some t else best) none

/-- A slot for one section (R185): on the tile that holds a retired tile's logical ID where the slot was there (R117), else under R109. -/
def State.giveSlot (s : State) (st : Stage) (obj : Nat) : Option State :=
  let x := s.sect st obj
  if x.size = 0 ∨ x.tile ≠ none then some s
  else
    let kept := (x.home.bind s.logicalTile).filter (fun t => decide (s.storeUsed t + x.size ≤ 262144) && t / 48 == s.flankOf st obj)
    let place := match kept with
      | some t => some t
      | none => s.placeSlot (s.flankOf st obj) st (s.contentOf st obj) x.size
    place.map (fun t => s.setSect st obj { x with tile := some t, home := none })

/-- Slots for a list of sections, all or none. -/
def State.giveSlots (s : State) : List (Stage × Nat) → Option State
  | [] => some s
  | k :: ks => match s.giveSlot k.1 k.2 with
    | some t => t.giveSlots ks
    | none => none

/-- The working copy loaded from the current half (castling in and frogging). -/
def Sect.load (x : Sect) : Sect :=
  { x with work := x.current, kept := x.current, idle := x.dirIdle, dirty := false, commit := none, nextCommit := none }

/-- A package's initial carried state (R728). -/
def initialCarried (k : Package) : Carried :=
  { tokens := 0, gauges := k.gauges.map (fun d => initGauge d.param), groups := k.initGroups.map writtenGroup, channels := k.initChannels }

/-- R728: a section newly written: half 0, SEQ 0, VALID 1, ROW the row before its first chunk. The spec gives no value for the IDLE flag before the section's first
chunk or commit, and the model has it clear (DESIGN CHOICE, log 101). -/
def initialSect (k : Package) (row : Nat) : Sect :=
  { valid := true, row := row, size := k.footprint, half0 := initialCarried k, work := initialCarried k, kept := initialCarried k, slotRow := row,
    next := bump 32 row 1, delivered := bump 32 row 1 }

/-! ## The bytes of carried state (Tables 5-2 and 5-3) -/

/-- Table 5-2: a slot's header. -/
def Sect.header (x : Sect) (handle stage : Nat) : Nat :=
  pack [(32, handle), (32, x.slotRow), (2, stage), (1, bit x.idle), (1, bit x.dirty), (12, 0), (32, x.work.tokens), (400, 0)]

/-- Little-endian numbers of `w` bits one after another. -/
def spell (w : Nat) : List Int → Nat
  | [] => 0
  | v :: vs => unsigned w v + 2 ^ w * spell w vs

/-- R171: the bytes of a layer's state: its S16 mantissas, then their exponents, a 2-byte field each, then its 8-bit channels. -/
def layerImage (gs : List S16Group) (cs : List Int) : Nat × Nat :=
  let ms := gs.flatMap (·.mantissas)
  let es := gs.map (·.exponent)
  (16 * ms.length + 16 * es.length + 8 * cs.length,
   spell 16 ms + 2 ^ (16 * ms.length) * (spell 16 es + 2 ^ (16 * es.length) * spell 8 cs))

/-- R171: the state tensors in the package's layer order, then the gauge entries: bits and value. -/
def Carried.image (x : Carried) : List Layer → Nat × Nat
  | [] =>
    let gs := x.gauges.map (fun g => ((32 : Nat), pack [(4, unsigned 4 g.gamma), (6, g.quiet), (1, bit g.atBound), (5, 0), (16, g.satLast)]))
    (32 * gs.length, pack gs)
  | l :: ls =>
    let a := layerImage (x.groups.take l.s16) (x.channels.take l.eight)
    let b := ({ x with groups := x.groups.drop l.s16, channels := x.channels.drop l.eight } : Carried).image ls
    (a.1 + b.1, a.2 + 2 ^ a.1 * b.2)

/-- The bytes of a section's slot (R171). -/
def Sect.slotImage (x : Sect) (k : Package) (handle stage : Nat) : Nat :=
  x.header handle stage + 2 ^ 512 * (x.work.image k.layers).2

/-- Table 5-3: a directory entry that names row, commits made and IDLE. -/
def dirWord (row seq size branch stage : Nat) (valid idle : Bool) : Nat :=
  pack [(32, row), (32, seq), (32, size), (11, branch), (2, stage), (1, bit valid), (1, bit idle), (17, 0)]

/-- The section's directory entry as it stands (R173). -/
def Sect.dirEntry (x : Sect) (st : Stage) (obj : Nat) : Nat :=
  dirWord x.row x.seq x.size (if st = .encode then 0x7FF else obj) (stageCode st) x.valid x.dirIdle

/-- R173: a stream's directory: 33 entries, encode's and two for each of at most 16 branches; an entry without a section reads zero. -/
def State.directory (s : State) (i : Nat) : List Nat :=
  let es := (s.sect .encode i).dirEntry .encode i ::
    (s.branchesOf i).flatMap (fun b => [(s.sect .translate b).dirEntry .translate b, (s.sect .speak b).dirEntry .speak b])
  (List.range 33).map (fun j => es.getD j 0)

/-! ## Operations -/

/-- R267: the feeders drop an operation's unissued requests and start no descriptor of it; one that holds no tag goes at once. -/
def State.dropRequests (s : State) (op : Nat) : State :=
  (List.range 4).foldl
    (fun t f => (t.updFeeder f (fun x =>
      { x with progress := x.progress.map (fun p => if p.desc.task == op then { p with dropped := true } else p) })).sweepDropped f) s

/-- R266: an aborted operation is forgotten once no descriptor and no tag of it remains. -/
def State.reapOps (s : State) : State :=
  { s with ops := s.ops.filter (fun o =>
      !o.aborted ||
        (List.range 4).any (fun f => (s.feeder f).requests.any (fun r => r.op == o.id) || (s.feeder f).progress.any (fun p => p.desc.task == o.id)) ||
        s.queuedDesc o.id) }

/-- Operations selected by `p` are aborted without a record of their own: they go with a larger fault that has one. -/
def State.abandonOps (s : State) (p : Operation → Bool) : State :=
  let ids := (s.ops.filter (fun o => p o && !o.aborted)).map (·.id)
  let t : State := { s with ops := s.ops.map (fun (o : Operation) => if p o then { o with aborted := true } else o) }
  (ids.foldl State.dropRequests t).reapOps

/-- Whether any descriptor or tag of an operation remains. -/
def State.opBusy (s : State) (op : Nat) : Bool :=
  (List.range 4).any (fun f => (s.feeder f).requests.any (fun r => r.op == op) || (s.feeder f).progress.any (fun p => p.desc.task == op))

/-- Whether an operation of a kind still moves data, or still has transfers to make. -/
def State.kindBusy (s : State) (p : OpKind → Bool) : Bool := s.ops.any (fun o => p o.kind && (s.opBusy o.id || !o.owed.isEmpty))

/-! ## Handoff rings (R176, R177) -/

/-- The entries a stage input holds at most (R177). -/
def Pipeline.ringCap (p : Pipeline) (st : Stage) : Nat := p.commit + (p.stage st).lookahead + 4

/-- Whether a branch runs chunks: ACTIVE, or detaching with a drain (R87). -/
def Branch.runs (x : Branch) : Bool := x.state == .active || (x.state == .detaching && (x.zero.map (·.drain)).getD false)

/-- Whether a branch runs chunk `row`: a STOPPED branch runs those before the one its STOP fell on (R94). -/
def Branch.runsRow (x : Branch) (row : Nat) : Bool :=
  x.runs || (x.state == .stopped && (x.stopRow.map (fun r => earlier32 row r)).getD false)

/-- The branches that consume the ring into translate: those that run chunks, and those that stopped after some. -/
def State.consumers (s : State) (i : Nat) : List Nat :=
  (s.branchesOf i).filter (fun b => (s.branch b).runs || ((s.branch b).state == .stopped && (s.branch b).stopRow.isSome))

/-- Whether branch `b` still needs the ring entry of chunk `row` into translate: it consumes it and its ROW does not cover it (R176). -/
def State.needsEntry (s : State) (b row : Nat) : Bool :=
  let x := s.branch b
  x.runsRow row && !earlier32 row x.firstRow && later32 row x.translate.row

/-- R176: entries every consumer has committed are released; an entry into translate stays until its eligibility has passed, for a branch that attaches (R76). -/
def State.releaseEntries (s : State) (i : Nat) : State :=
  let x := s.stream i
  let keepTr := fun (e : Entry) =>
    decide (s.dt < s.eligibleAt .encode i e.row + (s.pipeOfStream i).encode.budget) || (s.consumers i).any (fun b => s.needsEntry b e.row)
  let t := s.updStream i (fun y => { y with encRing := x.encRing.filter (fun e => later32 e.row x.enc.row),
                                            trRing := x.trRing.filter keepTr })
  (s.branchesOf i).foldl
    (fun u b => u.updBranch b (fun y => { y with spRing := y.spRing.filter (fun e => later32 e.row y.speak.row) })) t

/-- A flank's task leaves it: its stretch of busy time is recorded (R112) and the flank idles from now on (R261). -/
def State.leaveTask (s : State) (f : Nat) (r : RunTask) : State :=
  s.updFlank f (fun x =>
    { x with run := none, idleFrom := s.tclk,
             busy := (x.busy.filter (fun b => decide (s.dt < b.stop + 24576000))) ++ [{ start := r.start, stop := s.dt, rows := r.rowsByPart }],
             busyTclk := bump 64 x.busyTclk (s.tclk - r.startTclk) })

/-- Work items removed from a flank's queue and from its running task. -/
def State.dropItems (s : State) (f : Nat) (p : Item → Bool) : State :=
  s.updFlank f (fun x => { x with items := x.items.filter (fun i => !p i),
                                  run := x.run.map (fun r => { r with items := r.items.filter (fun i => !p i) }) })

/-- A running task whose every chunk is cancelled ends: its requests, gambits among them, are dropped (R87, R272). -/
def State.endEmptyTask (s : State) (f : Nat) : State :=
  match (s.flank f).run with
  | none => s
  | some r => if r.items.isEmpty then (s.leaveTask f r).abandonOps (fun o => o.id == r.id) else s

/-- Work items of one stage and object removed on every flank. -/
def State.dropWork (s : State) (p : Item → Bool) : State := (List.range 3).foldl (fun t f => (t.dropItems f p).endEmptyTask f) s

/-- Whether a chunk of an object is in a running task. -/
def State.running (s : State) (st : Stage) (obj row : Nat) : Bool :=
  (List.range 3).any (fun f => match (s.flank f).run with
    | some r => r.items.any (fun i => i.stage == st && i.obj == obj && i.row == row)
    | none => false)

/-! ## Commits (R174, R175) -/

/-- The commit of what the slot holds now, with its chunk's stage deadline (R174). -/
def State.snapshot (s : State) (st : Stage) (obj : Nat) (why : CommitWhy) : Commit :=
  let x := s.sect st obj
  { row := x.slotRow, data := x.work, idle := x.idle, why := why, deadline := s.deadlineAt st obj x.slotRow }

/-- R174: a commit begins: the flank's feeder owes the writes of the slot's contents to the half that is not current, then the 16-byte write of the entry. -/
def State.beginCommit (s : State) (st : Stage) (obj : Nat) (c : Commit) : State :=
  let x := s.sect st obj
  let t := s.setSect st obj { x with commit := some c, nextCommit := none }
  let word := dirWord c.row (bump 32 x.seq 1) x.size (if st = .encode then 0x7FF else obj) (stageCode st) true c.idle
  t.newOpDue (.commit (stageCode st) obj) (s.stream (s.objStream st obj)).part c.deadline
    (if x.size = 0 then [] else [{ kind := 1, bytes := x.size }, { kind := 8, bytes := 16, data := word }])

/-- A commit of what the slot holds now; one that falls due while another of the section is in flight keeps its contents and begins when that one is complete
(the spec does not say; DESIGN CHOICE, log 102). -/
def State.startCommit (s : State) (st : Stage) (obj : Nat) (why : CommitWhy) : State :=
  let x := s.sect st obj
  let c := s.snapshot st obj why
  if x.commit ≠ none then s.setSect st obj { x with nextCommit := some c } else s.beginCommit st obj c

/-- What a section keeps of past chunks once its ROW stands at `row`. -/
def Sect.pastAfter (x : Sect) (row : Nat) : List (Nat × Carried) := x.past.filter (fun p => later32 p.1 row)

/-- R175: ROW advances in the directory entry alone. -/
def State.advanceRow (s : State) (st : Stage) (obj : Nat) : State :=
  let t := s.updSect st obj (fun x => { x with row := x.slotRow, sinceCommit := 0, past := x.pastAfter x.slotRow })
  (t.releaseEntries (s.objStream st obj)).pagesAdvance

/-- Chunks completed since the section's last commit, one in flight or waiting included. -/
def Sect.sinceLast (x : Sect) : Nat :=
  match x.nextCommit, x.commit with
  | some c, _ => sub32 x.slotRow c.row
  | none, some c => sub32 x.slotRow c.row
  | none, none => x.sinceCommit

/-- R175: after every c-th completed chunk the section commits, or its ROW alone advances where its slot has not changed or it holds none. -/
def State.commitDue (s : State) (st : Stage) (obj : Nat) : State :=
  let x := s.sect st obj
  if x.sinceLast < (s.pipeOfStream (s.objStream st obj)).commit then s
  else if x.dirty then s.startCommit st obj .interval
  else s.advanceRow st obj

/-- One chunk is complete at a stage (dispatched, passed or skipped). -/
def State.chunkDone (s : State) (st : Stage) (obj row : Nat) (changed : Bool) : State :=
  let t := match st with
    | .encode => s.updStream obj (fun y => { y with encFallen := y.encFallen.filter (fun r => later32 r row) })
    | _ => s
  (t.updSect st obj (fun x =>
    { x with next := bump 32 row 1, slotRow := row, dirty := x.dirty || changed, sinceCommit := x.sinceCommit + 1, kept := x.work,
             past := (x.past.filter (fun p => p.1 != row)) ++ [(row, x.work)], views := x.views.filter (fun v => later32 v.1 x.row),
             delivered := if later32 (bump 32 row 1) x.delivered then bump 32 row 1 else x.delivered })).commitDue st obj

/-- Whether chunk `row`'s output has been delivered already: on a re-run it is a shadow chunk (R190). -/
def Sect.shadow (x : Sect) (row : Nat) : Bool := earlier32 row x.delivered

/-- Chunks that no longer have to be dispatched again (R73). -/
def State.rerunSettled (s : State) (st : Stage) (obj : Nat) (p : Nat → Bool) : State :=
  s.updSect st obj (fun x => { x with again := x.again.filter (fun r => !p r) })

/-- R84: translate has committed no token for chunk `row` of a branch that has no speak stage and no TOKENS ring: its hold offset falls. -/
def State.quietChunk (s : State) (b row : Nat) : State :=
  let x := s.branch b
  if (s.pipeOfStream x.stream).speak.present || x.ring.isSome || x.hold == 0 || x.chunkTokens.any (fun c => c.1 == row && !c.2.isEmpty) then s
  else s.updBranch b (fun y => { y with hold := y.hold - 1, cnt := { y.cnt with silentDropped := bump 64 y.cnt.silentDropped 1 } })

/-- One chunk of a stage completes without being dispatched: passed or skipped. -/
def State.passDone (s : State) (st : Stage) (obj row : Nat) : State :=
  ((if st = .translate && !(s.sect st obj).shadow row then s.quietChunk obj row else s).rerunSettled st obj (fun r => r == row)).chunkDone st obj row false

/-! ## Flag falls (R78 to R86) -/

/-- R86: one flag fall reported: the first posts FLAG_FALL at once, later ones within 1 s merge. -/
def State.reportFall (s : State) (b : Nat) (st : Stage) (row : Nat) (pol : Policy) : State :=
  let x := s.branch b
  match x.report with
  | some r =>
    s.updBranch b (fun y => { y with report := some (if r.count = 0 then { r with stage := st, first := row, count := 1, policy := pol }
                                                     else { r with count := r.count + 1 }) })
  | none =>
    (s.updBranch b (fun y => { y with report := some { start := s.dt, stage := st, first := row, count := 0, policy := pol } })).post
      x.part 0x8008 (branchHandle b x.gen) (pack [(2, stageCode st), (2, policyCode pol), (28, 0), (32, row), (32, 1)])

/-- The policy a flag fall is applied as: HOLD at h = 4 is applied as SKIP (R82). -/
def Branch.applied (x : Branch) : Policy := if x.policy = .hold ∧ 4 ≤ x.hold then .skip else x.policy

/-- Table 14-9's per-stage flag-fall counter. -/
def BranchCounters.fall (c : BranchCounters) (st : Stage) (asSkip : Bool) : BranchCounters :=
  let c1 := { c with flagFalls := bump 64 c.flagFalls 1, holdAsSkip := bump 64 c.holdAsSkip (bit asSkip) }
  match st with
  | .encode => { c1 with ffEncode := bump 64 c1.ffEncode 1 }
  | .translate => { c1 with ffTranslate := bump 64 c1.ffTranslate 1 }
  | .speak => { c1 with ffSpeak := bump 64 c1.ffSpeak 1 }

/-- The items of a branch at one chunk, or at every chunk from it. -/
def itemOfBranch (b row : Nat) (onward : Bool) (i : Item) : Bool :=
  i.stage != .encode && i.obj == b && (i.row == row || (onward && !earlier32 i.row row))

/-- R85: running work of a branch that SKIP or STOP cancels leaves its section at the last commit within the chunk; committed tokens and their KV entries stay. -/
def State.backToCommit (s : State) (b : Nat) (st : Stage) : State :=
  let t := s.updSect st b (fun x => { x with work := x.kept })
  match st with
  | .translate => t.truncateDecoders b (s.sect st b).kept.tokens
  | _ => t

/-- Table 2-3: the work of a branch at one chunk, or from it on, is cancelled. -/
def State.cancelWork (s : State) (b row : Nat) (onward : Bool) : State :=
  let hit := fun (st : Stage) => (List.range 3).any (fun f => ((s.flank f).run.map (fun r => r.items.any (fun it => it.stage == st && itemOfBranch b row onward it))).getD false)
  let t := if hit .translate then s.backToCommit b .translate else s
  let u := if hit .speak then t.backToCommit b .speak else t
  u.dropWork (itemOfBranch b row onward)

/-- A chunk that SKIP or STOP leaves out does not run again (R73). -/
def State.leftOut (s : State) (b : Nat) (p : Nat → Bool) : State := (s.rerunSettled .translate b p).rerunSettled .speak b p

/-- R81, Table 2-3: one branch's flag fall for chunk `row` at stage `st`. A chunk that has fallen and been skipped already falls no more, and a shadow chunk never
falls (R190). -/
def State.declareFall (s : State) (b : Nat) (st : Stage) (row : Nat) : State :=
  let x := s.branch b
  let obj := if st = .encode then x.stream else b
  if x.state ≠ .active ∨ earlier32 row x.firstRow = true ∨ x.skipped.contains row = true ∨ (s.sect st obj).shadow row = true then s
  else
    let pol := x.applied
    let t := s.updBranch b (fun y => { y with cnt := y.cnt.fall st (x.policy == .hold && pol == .skip) })
    match pol with
    | .hold => ((t.updBranch b (fun y => { y with hold := y.hold + 1 })).rerunSettled st obj (fun r => r == row)).reportFall b st row pol
    | .skip =>
      (((t.updBranch b (fun y => { y with skipped := y.skipped ++ [row], skipStage := y.skipStage ++ [(row, st)] })).cancelWork
        b row false).leftOut b (fun r => r == row)).reportFall b st row pol
    | .stop =>
      ((((t.updBranch b (fun y => { y with state := .stopped, stopRow := some row })).cancelWork b row true).leftOut b
        (fun r => !earlier32 r row)).reportFall b st row pol).postBranch b .active .stopped 1 row

/-- A flag fall at a stage: at encode it applies to every ACTIVE branch of the stream, once (R78). -/
def State.fallAt (s : State) (st : Stage) (obj row : Nat) : State :=
  match st with
  | .encode =>
    if (s.stream obj).encFallen.contains row || (s.sect .encode obj).shadow row then s
    else ((s.branchesOf obj).foldl (fun t b => t.declareFall b .encode row)
      (s.updStream obj (fun x => { x with encFallen := x.encFallen ++ [row] }))).rerunSettled .encode obj (fun r => r == row)
  | _ => s.declareFall obj st row

/-! ## Writing handoff entries, passing and skipping (R177 to R179) -/

/-- R177's records: STREAM_FAULT OVERRUN, the journal entry, and flag falls for every waiting chunk. -/
def State.overrun (s : State) (i : Nat) (st : Stage) (obj : Nat) (waiting : List Nat) : State :=
  let x := s.stream i
  let t := (s.postFault i 1 st (waiting.headD 0)).journalWrite
    { JEntry.blank 0x14 with endpoint := 280, part := x.part, recovery := Recovery.passed.code, detail := streamHandle i x.gen }
  waiting.foldl (fun u r => match st with
    | .translate => (u.branchesOf i).foldl (fun v b => if earlier32 r (v.branch b).translate.next then v else v.declareFall b .translate r) u
    | _ => u.fallAt st obj r) t

/-- The chunks of a ring that wait for a stage whose next chunk is `next`; one in a running task does not wait. -/
def State.waitingRows (s : State) (st : Stage) (obj : Nat) (ring : List Entry) (next : Nat) : List Nat :=
  (ring.filter (fun e => !earlier32 e.row next && !s.running st obj e.row)).map (·.row)

/-- Whether branch `b` waits for the chunk of a ring entry into translate. -/
def State.waitsTr (s : State) (b row : Nat) : Bool :=
  let x := s.branch b
  x.runsRow row && !earlier32 row x.firstRow && !earlier32 row x.translate.next && !x.skipped.contains row && !s.running .translate b row

/-- The chunks of the ring into translate that wait: one branch at least waits for them and none runs them. -/
def State.waitingTr (s : State) (i : Nat) : List Nat :=
  (((s.stream i).trRing).filter (fun e => (s.consumers i).any (fun b => s.waitsTr b e.row) && !(s.consumers i).any (fun b => s.running .translate b e.row))).map (·.row)

/-- An entry written into the ring into translate (once per stream). A full ring passes its oldest waiting chunk; where none waits, the entry stands beyond the ring's
capacity (the spec names no chunk to pass; DESIGN CHOICE, log 103). -/
def State.pushTr (s : State) (i : Nat) (e : Entry) : State :=
  let p := s.pipeOfStream i
  if !p.translate.present then s
  else
    let x := s.stream i
    if x.trRing.length < p.ringCap .translate then s.updStream i (fun y => { y with trRing := y.trRing ++ [e] })
    else
      let waiting := s.waitingTr i
      let oldest := waiting.head?
      let t := s.overrun i .translate i waiting
      let u : State := match oldest with
        | none => t
        | some o =>
          (t.consumers i).foldl
            (fun (v : State) b => if v.waitsTr b o then v.updBranch b (fun y => { y with skipped := y.skipped ++ [o], skipStage := y.skipStage ++ [(o, Stage.translate)] }) else v)
            (t.dropWork (fun (it : Item) => it.stage == Stage.translate && (t.branch it.obj).stream == i && it.row == o))
      u.updStream i (fun y => { y with trRing := y.trRing.filter (fun z => some z.row != oldest) ++ [e] })

/-- An entry written into a branch's ring into speak; a full ring as in pushTr (log 103). -/
def State.pushSp (s : State) (b : Nat) (e : Entry) : State :=
  let x := s.branch b
  let p := s.pipeOfStream x.stream
  if !p.speak.present then s
  else if x.spRing.length < p.ringCap .speak then s.updBranch b (fun y => { y with spRing := y.spRing ++ [e] })
  else
    let waiting := (s.waitingRows .speak b x.spRing x.speak.next).filter (fun r => !x.skipped.contains r)
    let oldest := waiting.head?
    let t := s.overrun x.stream .speak b waiting
    (t.dropWork (fun it => it.stage == .speak && it.obj == b && some it.row == oldest)).updBranch b
      (fun y => { y with skipped := y.skipped ++ oldest.toList.filter (fun o => !y.skipped.contains o),
                         spRing := y.spRing.filter (fun z => some z.row != oldest) ++ [e] })

/-- The entries the ring into egress conditioning holds: COMMIT + 4 (DESIGN CHOICE, log 51). -/
def Pipeline.egressCap (p : Pipeline) : Nat := p.commit + 4

/-- An entry written into the ring into egress conditioning: a full ring passes its oldest chunk, which plays as silence (R177). -/
def State.pushEg (s : State) (b : Nat) (e : EgressEntry) : State :=
  let x := s.branch b
  if x.egRing.length < (s.pipeOfStream x.stream).egressCap then s.updBranch b (fun y => { y with egRing := y.egRing ++ [e] })
  else
    let t := (s.postFault x.stream 1 .speak ((x.egRing.head?.map (·.row)).getD e.row)).journalWrite
      { JEntry.blank 0x14 with endpoint := 280, part := x.part, recovery := Recovery.passed.code, detail := streamHandle x.stream (s.stream x.stream).gen }
    t.updBranch b (fun y => { y with egRing := y.egRing.drop 1 ++ [e] })

/-- R178: chunk `row` passed at encode: its state is held and a passed entry goes on, unless it went on before (R190). -/
def State.passEncode (s : State) (i row : Nat) : State :=
  let e := ((s.stream i).encRing.find? (fun z => z.row == row)).getD
    { row := row, gaps := 0, va := false, firstDt := 0, gammas := [], ready := true, passed := true }
  if (s.stream i).enc.shadow row then s.passDone .encode i row
  else
    let t := s.updStream i (fun y => { y with cnt := { y.cnt with chunksPassed := bump 64 y.cnt.chunksPassed 1 }, lastPassed := true })
    (t.pushTr i { e with passed := true }).passDone .encode i row

/-- An entry written into the ring into encode at a chunk close. A full ring passes its oldest waiting chunk; where none waits (all running or kept for frogs), the entry
stands beyond the ring's capacity, since the spec names no chunk to pass then (DESIGN CHOICE, log 103). -/
def State.pushEnc (s : State) (i : Nat) (e : Entry) : State :=
  let p := s.pipeOfStream i
  let x := s.stream i
  if x.encRing.length < p.ringCap .encode then s.updStream i (fun y => { y with encRing := y.encRing ++ [e] })
  else
    let waiting := s.waitingRows .encode i x.encRing x.enc.next
    let oldest := waiting.head?
    let t := (s.overrun i .encode i waiting).dropWork (fun it => it.stage == .encode && it.obj == i && some it.row == oldest)
    let u := if oldest = some x.enc.next then t.passEncode i x.enc.next else t
    u.updStream i (fun y => { y with encRing := y.encRing.filter (fun z => some z.row != oldest) ++ [e] })

/-- One step of a branch's stage past a chunk that does not run there: skipped, or passed with IDLE set, a STOPPED branch counting as idle (R179, Table 2-3).
None: the next chunk must run. -/
def State.branchStep (s : State) (b : Nat) (st : Stage) : Option State :=
  let x := s.branch b
  let y := s.sect st b
  let r := y.next
  let idle := y.idle || x.state == .stopped
  if !y.valid || y.lost || x.state == .attaching || s.running st b r then none
  else if x.skipped.contains r && (st == .translate || earlier32 r x.translate.next) then some (s.passDone st b r)
  else
    match st with
    | .translate =>
      match (s.stream x.stream).trRing.find? (fun e => e.row == r) with
      | some e =>
        if e.passed && idle then some ((if y.shadow r then s else s.pushSp b { e with passed := true }).passDone st b r) else none
      | none => none
    | .speak =>
      match x.spRing.find? (fun e => e.row == r) with
      | some e =>
        if e.passed && idle then some ((if y.shadow r then s else s.pushEg b { row := r, silent := true, samples := [] }).passDone st b r)
        else none
      | none => none
    | .encode => none

/-- As many such steps as there are, at most `n`. -/
def State.branchSteps (s : State) (b : Nat) (st : Stage) : Nat → State
  | 0 => s
  | n + 1 => match s.branchStep b st with
    | some t => t.branchSteps b st n
    | none => s

/-- Passing at encode while the next chunk's entry is marked passed, or was reused by R177, and the stream may run it. -/
def State.encodeSteps (s : State) (i : Nat) : Nat → State
  | 0 => s
  | n + 1 =>
    let x := s.stream i
    let r := x.enc.next
    if !x.enc.valid || x.enc.lost || s.running .encode i r then s
    else match x.encRing.find? (fun e => e.row == r) with
    | some e => if e.passed && e.ready then (s.passEncode i r).encodeSteps i n else s
    | none => if x.encRing.any (fun e => later32 e.row r) then (s.passEncode i r).encodeSteps i n else s

/-! ## Leaving slots: castling out and pausing (R69, R183) -/

/-- A section gives its slot up. -/
def State.releaseSlot (s : State) (st : Stage) (obj : Nat) : State := s.updSect st obj (fun x => { x with tile := none })

/-- Whether a section's lifeline holds its slot's contents. -/
def Sect.clean (x : Sect) : Bool := !x.dirty && x.commit.isNone && x.nextCommit.isNone

/-- Whether any chunk of a stream or its branches is in a running task. -/
def State.streamRuns (s : State) (i : Nat) : Bool :=
  (List.range 3).any (fun f => match (s.flank f).run with
    | some r => r.items.any (fun it => s.objStream it.stage it.obj == i)
    | none => false)

/-! ## The queue for castling in (R184) -/

/-- The earlier of two chunks, where there is one. -/
def earlierRow (a : Option Nat) (r : Nat) : Option Nat :=
  match a with
  | none => some r
  | some q => if earlier32 r q then some r else some q

/-- The chunks of a stream that wait at a stage and have not been passed. -/
def State.waitingChunks (s : State) (i : Nat) : List Nat :=
  let x := s.stream i
  ((x.encRing.filter (fun e => e.ready && !e.passed && !earlier32 e.row x.enc.next)).map (·.row)) ++
    (s.consumers i).flatMap (fun b =>
      let y := s.branch b
      ((x.trRing.filter (fun e => !e.passed && s.waitsTr b e.row)).map (·.row)) ++
        ((y.spRing.filter (fun e => !e.passed && y.runsRow e.row && !y.skipped.contains e.row && !earlier32 e.row y.speak.next)).map (·.row)))

/-- Whether a stream may wait for slots: CASTLED, or with chunks to run that a pause or a draining bind-off left (R69, R87). -/
def Stream.mayCastIn (x : Stream) : Bool := x.state == .castled || x.state == .paused || (x.state == .bindingOff && x.drain)

/-- R184: a stream without its slots queued for castling in, at the earliest deadline asked for. -/
def State.queueCastIn (s : State) (i deadline : Nat) : State :=
  let x := s.stream i
  if !x.mayCastIn then s
  else s.updStream i (fun y => { y with castIn := some (match y.castIn with
    | some d => min d deadline
    | none => deadline) })

/-- R184: queued with W_E of its oldest waiting chunk, if it has one. -/
def State.queueWaiting (s : State) (i : Nat) : State :=
  match (s.waitingChunks i).foldl earlierRow none with
  | some r => s.queueCastIn i (s.eligibleAt .encode i r)
  | none => s

/-- R183: a stream being castled out commits what is not current and leaves RESIDENT once every section is. -/
def State.castOutProgress (s : State) (i : Nat) : State :=
  match (s.stream i).castingOut with
  | none => s
  | some cause =>
    if s.streamRuns i then s
    else if (s.sectsOf i).all (fun k => (s.sect k.1 k.2).clean) then
      let t := (s.sectsOf i).foldl (fun u k => (u.updSect k.1 k.2 (fun x => { x with row := x.slotRow, sinceCommit := 0, past := x.pastAfter x.slotRow })).releaseSlot k.1 k.2) s
      ((((t.updStream i (fun x => { x with state := .castled, castingOut := none,
                                           cnt := { x.cnt with castleOuts := bump 64 x.cnt.castleOuts 1 } })).releaseEntries i).pagesAdvance).postStream
        i .resident .castled cause).queueWaiting i
    else (s.sectsOf i).foldl (fun v k => if (v.sect k.1 k.2).dirty && (v.sect k.1 k.2).commit.isNone then v.startCommit k.1 k.2 .castOut else v) s

/-- R183: castling out begins: work not yet dispatched waits in the handoff rings. -/
def State.castOut (s : State) (i cause : Nat) : State :=
  if (s.stream i).state ≠ .resident ∨ (s.stream i).castingOut ≠ none then s
  else
    ((s.updStream i (fun x => { x with castingOut := some cause })).dropWork
      (fun it => s.objStream it.stage it.obj == i && !s.running it.stage it.obj it.row)).castOutProgress i

/-- R69, R729: a paused stream's section commits after its last chunk and gives up its slot once that commit is complete. -/
def State.pauseStep (s : State) (i : Nat) (st : Stage) (obj : Nat) : State :=
  let x := s.sect st obj
  match (s.stream i).pausedRow with
  | none => s
  | some m =>
    let stops := st != .encode && !(s.branch obj).runsRow x.next
    if x.tile = none ∨ x.lost ∨ (x.next ≠ bump 32 m 1 ∧ !stops ∧ earlier32 x.next (bump 32 m 1) = true) then s
    else if x.commit ≠ none then s
    else if x.dirty then s.startCommit st obj .pause
    else ((s.updSect st obj (fun y => { y with row := y.slotRow, sinceCommit := 0, past := y.pastAfter y.slotRow })).releaseSlot st obj).releaseEntries i

/-- Every section of a paused stream. -/
def State.pauseProgress (s : State) (i : Nat) : State :=
  if (s.stream i).state ≠ .paused then s else (s.sectsOf i).foldl (fun t k => t.pauseStep i k.1 k.2) s

/-! ## Frogging (R188 to R190, R729) -/

/-- The chunks from `begins` up to `next`, exclusive, and one more where it was in work. -/
def rowsFrom (begins next more : Nat) : List Nat := (List.range (sub32 next begins + more)).map (fun j => bump 32 begins j)

/-- A lost section: its working copy and any commit are discarded; the chunks after ROW run again, from a branch's first row on (R76, R77) and, where it has
stopped, up to the chunk its STOP fell on. One that is lost already keeps what it has to run again. -/
def State.loseSection (s : State) (st : Stage) (obj : Nat) (inTask : Bool) : State :=
  let x := s.sect st obj
  if !x.valid then s
  else
    let after := bump 32 x.row 1
    let begins := if st != .encode && later32 (s.branch obj).firstRow after then (s.branch obj).firstRow else after
    let again := if x.lost then x.again
      else (rowsFrom begins x.next (bit inTask)).filter (fun r => st == .encode || (s.branch obj).runsRow r || (s.branch obj).state != .stopped)
    let t := s.setSect st obj { x with lost := true, tile := none, commit := none, nextCommit := none, work := {}, kept := {}, again := again,
                                       next := begins, slotRow := bump 32 begins (2 ^ 32 - 1), dirty := false, sinceCommit := 0 }
    let u := (t.dropWork (fun it => it.stage == st && it.obj == obj)).abandonOps
      (fun o => o.kind == OpKind.commit (stageCode st) obj || o.kind == OpKind.castIn (stageCode st) obj)
    match st with
    | .encode => u.dropStaged obj false
    | _ => u

/-- R189 steps 1 and 2 for a list of sections of stream `i`. `cause` is the STREAM_STATE cause; a rewind posts none (R521). A paused stream, and one that drains its
last chunks, keeps its state (R729, R87). -/
def State.frog (s : State) (i : Nat) (ks : List (Stage × Nat)) (cause : Nat) (rewind : Bool) : State :=
  let x := s.stream i
  let inTask := fun k : Stage × Nat => s.running k.1 k.2 (s.sect k.1 k.2).next
  let lose := fun (t : State) => ks.foldl (fun u k => u.loseSection k.1 k.2 (inTask k)) t
  let count := fun (t : State) => ((ks.filter (fun k => !(s.sect k.1 k.2).lost)).map (fun k => (t.sect k.1 k.2).again.length)).foldl (· + ·) 0
  match x.state with
  | .resident =>
    let t := lose s
    let u := t.updStream i (fun y => { y with state := .frogging, castingOut := none,
                                              frog := some { cause := cause, rewind := rewind, restored := false, count := count t },
                                              cnt := { y.cnt with frogs := bump 64 y.cnt.frogs 1 } })
    if rewind then u else u.postStream i .resident .frogging cause
  | .castled =>
    let t := lose s
    let u := t.updStream i (fun y => { y with state := .frogging, loading := false,
                                              frog := some { cause := cause, rewind := rewind, restored := false, count := count t },
                                              cnt := { y.cnt with frogs := bump 64 y.cnt.frogs 1 } })
    if rewind then u else u.postStream i .castled .frogging cause
  | .frogging =>
    let t := lose s
    t.updStream i (fun y => { y with frog := y.frog.map (fun f => { f with restored := false, rewind := f.rewind && rewind,
                                                                           count := f.count + count t }) })
  | .paused => lose s
  | .bindingOff => if x.drain then lose s else s
  | _ => s

/-- R73: a stream whose sections are restored and whose re-run chunks are all dispatched or fallen leaves FROGGING. What then follows (deferred commands) is the caller's. -/
def State.frogReady (s : State) (i : Nat) : Bool :=
  match (s.stream i).frog with
  | some f => f.restored && (s.sectsOf i).all (fun k => (s.sect k.1 k.2).again.isEmpty)
  | none => false

/-- R73, R66: FROGGING ends: RESIDENT, with the RESTORED event unless a rewind asked for it (R521), whose command completes with the chunks
re-run. A pause deferred under R67 stands, and takes effect at the next chunk close (R69; DEDUCED, log 58). -/
def State.frogExit (s : State) (i : Nat) : State :=
  if (s.stream i).state ≠ .frogging ∨ s.frogReady i = false then s
  else
    let x := s.stream i
    let f := x.frog.getD { cause := 0, rewind := false, restored := true, count := 0 }
    let t := s.updStream i (fun y => { y with state := .resident, frog := none })
    let u := if f.rewind then t else t.postStream i .frogging .resident 6
    u.completeKey x.part 0x0505 i { result := f.count }

/-- What a stream does after any of its chunks completes: passing and skipping at each stage in order, leaving FROGGING, castling out and pausing on. -/
def State.advance (s : State) (i : Nat) : State :=
  let t := if (s.stream i).state == .castOn || (s.stream i).state == .closed then s else s.encodeSteps i 16
  let u := (t.branchesOf i).foldl (fun v b => (v.branchSteps b .translate 16).branchSteps b .speak 16) t
  ((u.frogExit i).castOutProgress i).pauseProgress i

/-! ## Bind-off (R87 to R91) -/

/-- A branch's outputs play zero from now on, and its ring receives no further frame (R523): its schedule, its egress entries and what its slots hold are gone. -/
def State.muteBranch (s : State) (b : Nat) : State :=
  let t := s.updBranch b (fun x => { x with sched := [], egRing := [], ring := none, dropped := [], playEnd := s.dt })
  { t with audio := { t.audio with outputs := Table.mapVals {} (fun _ (o : OutSlot) =>
      if o.branch = some b then { o with held := [], fade := none, lag := 0, conv := {} } else o) t.audio.outputs } }

/-- A branch moves to DETACHING. `cause` 0: a branch command asked for it. -/
def State.detach (s : State) (b cause : Nat) (drain : Bool) : State :=
  let x := s.branch b
  match x.state with
  | .absent => s
  | .detaching => s
  | st =>
    let t := s.updBranch b (fun y => { y with
      state := .detaching,
      zero := some { acceptDt := s.dt, drain := drain && st == .active, started := false, done := false, commanded := cause == 0 } })
    let t1 := if drain && st == .active then t else (t.dropWork (fun it => it.stage != .encode && it.obj == b)).muteBranch b
    let t2 := if cause = 0 then t1 else t1.postBranch b st .detaching cause (t1.eventRow x.stream)
    let t3 := (t2.updBranch b (fun y => { y with nextOut := none })).completeKey x.part 0x0514 b (Answer.fail 0x0408)
    if st = .attaching then t3.complete x.part x.cmd (Answer.fail 0x0408) else t3

/-- R87, R88: a stream enters BINDING_OFF. `cause` 0: commanded; otherwise the STREAM_STATE cause. Pending pauses and rewinds end with STATE_INVALID. -/
def State.bindOff (s : State) (i : Nat) (drain : Bool) (cause : Nat) : State :=
  let x := s.stream i
  let last := sub32 x.row 1
  let t := s.updStream i (fun y => { y with
    state := .bindingOff, drain := drain, pause := none, deferBind := none, frog := none,
    loading := drain && y.loading, castIn := if drain then y.castIn else none, castingOut := none, lastDrain := last, nextSource := none,
    zero := some { acceptDt := s.dt, started := false, done := false, commanded := cause == 0 } })
  let t1 := t.updPart x.part (fun p => { p with bindOffs := bump 64 p.bindOffs 1 })
  let t2 := if cause = 0 then t1 else t1.postStream i x.state .bindingOff cause
  let t3 := (t2.branchesOf i).foldl (fun u b => u.detach b 2 drain) t2
  let t4 := if drain then t3 else (t3.dropWork (fun it => it.stage == .encode && it.obj == i)).abandonOps (fun o => match o.kind with
    | .castIn c obj => s.objStream (codeStage c) obj == i
    | _ => false)
  let t5 := if drain then t4.queueWaiting i else
    let u := t4.dropStaged i true
    u.updStream i (fun y => { y with zero := y.zero.map (fun (z : Zeroise) =>
      { z with pages := (t4.stagedPages i).filter (fun p => (u.page p).refs == 0) }) })
  [0x0503, 0x0505, 0x0507].foldl (fun u op => u.completeKey x.part op i (Answer.fail 0x0408)) t5

/-- R74: an unreadable lifeline: STREAM_FAULT, the journal entry, and BINDING_OFF. -/
def State.lifelineLost (s : State) (i : Nat) (st : Stage) (address : Nat) : State :=
  let x := s.stream i
  match x.state with
  | .closed => s
  | .castOn => s
  | .bindingOff => s
  | _ =>
    ((s.postFault i 3 st x.row).journalWrite
      { JEntry.blank 0x15 with
      endpoint := stackOf address, part := x.part, recovery := Recovery.bindOff.code, detail := streamHandle i x.gen, address := address }).bindOff
      i false 9

end Sys2Proof.Machine
end

