-- ==== Sys2Proof/Machine/Flanks.lean ====
section
/-!
DEFINITION. Machine/Flanks.lean: tile stores, bindings and re-layout (R100 to R103, R499 to R503), work items and the dispatcher (R108 to R112, R214, R569,
R572, R621, R635).
-/
namespace Sys2Proof.Machine

/-! ## Tile stores and bindings -/

/-- The groups of 64 output channels of a layer, the last one with the remainder (R102). -/
def layerGroups (l : Layer) : Nat := ceilDiv l.outChannels 64

/-- The groups of slice `k` of `n`: sizes differ by at most one group (R102). -/
def sliceGroups (l : Layer) (n k : Nat) : Nat := layerGroups l / n + bit (decide (k < layerGroups l % n))

/-- The first group of slice `k`. The slices divide the groups in order, the larger ones first, so that the layer's last group lies in its last slice that holds one: the spec does
not say which slice takes a partial last group (DESIGN CHOICE, log 107). -/
def sliceStart (l : Layer) (n k : Nat) : Nat := k * (layerGroups l / n) + min k (layerGroups l % n)

/-- The bytes of slice `k` of `n` of a layer. -/
def sliceBytesOf (l : Layer) (n k : Nat) : Nat :=
  let g := sliceGroups l n k
  if 0 < g ∧ sliceStart l n k + g = layerGroups l ∧ l.outChannels % 64 ≠ 0 then (g - 1) * l.groupBytes + l.groupBytes * (l.outChannels % 64) / 64
  else g * l.groupBytes

/-- The bytes of one layer's largest slice on `n` tiles: whole groups of 64 output channels where the layer has one (R102; log 107). -/
def layerSlice (l : Layer) (n : Nat) : Nat :=
  if l.outChannels < 64 then l.groupBytes * l.outChannels / 64 else ceilDiv (layerGroups l) n * l.groupBytes

/-- The largest per-tile slice of a package on `n` tiles (R102). -/
def largestSlice (k : Package) (n : Nat) : Nat := (k.layers.map (fun l => layerSlice l n)).foldl (· + ·) 0

/-- The page-cache reservation of flank `f` in KiB (Table 16-10). -/
def Site.cache (s : Site) (f : Nat) : Nat := if f = 0 then s.cacheQ else if f = 1 then s.cacheC else s.cacheK

/-- W in bytes of a tile of flank `f` with activation region `a` KiB (R101). -/
def State.weightRegion (s : State) (f a : Nat) : Nat := 1024 * (1024 - 64 - 32 - a - s.site.cache f)

/-- Where a tile store's regions begin, in the order of Table 3-3: the firmware's 64 KiB, the ring staging region, the activation region, the page cache and the weight region (R100, R124). -/
def stagingBase : Nat := 65536

/-- The activation region of every tile. -/
def activationBase : Nat := 98304

/-- The page-cache region of the tiles of flank `f`. -/
def State.cacheBase (s : State) (f : Nat) : Nat := activationBase + 1024 * (s.flank f).act

/-- The weight region of the tiles of flank `f`, which reaches to the store's end. -/
def State.weightBase (s : State) (f : Nat) : Nat := s.cacheBase f + 1024 * (s.flank f).cache

/-- The slice of every layer that tile `t` holds: its place among the flank's enabled tiles by logical ID, so that a spare holds that of the tile it stands for (R102, R117). -/
def State.sliceOf (s : State) (t : Nat) : Nat := ((s.ring (t / 48)).filter (fun k => decide ((s.tile k).logical < (s.tile t).logical))).length

/-- The tile of flank `f` that holds slice `k`. -/
def State.sliceHolder (s : State) (f k : Nat) : Option Nat := (s.ring f).find? (fun t => s.sliceOf t == k)

/-- The activation region the flank's bindings ask for, in KiB (R100). -/
def neededAct (bs : List Binding) : Nat := bs.foldl (fun a b => max a b.act) 0

/-- Slice bytes the resident bindings of a list take on a tile. -/
def residentBytes (bs : List Binding) : Nat := ((bs.filter (·.resident)).map (·.sliceBytes)).foldl (· + ·) 0

/-- Where tile `t`'s slice of layer `layer` of a resident binding lies in its tile store, and its bytes: bindings in the order made, layers in the model's order (R102, R103, R104). -/
def State.slicePlace (s : State) (t : Nat) (b : Binding) (k : Package) (layer : Nat) : Nat × Nat :=
  let f := t / 48
  let n := s.enabledTiles f
  let bytes := fun (l : Layer) => sliceBytesOf l n (s.sliceOf t)
  let before := ((s.flank f).bindings.takeWhile (fun x => x.content != b.content)).filter (·.resident)
  (s.weightBase f + residentBytes before + ((k.layers.take layer).map bytes).foldl (· + ·) 0, ((k.layers[layer]?).map bytes).getD 0)

/-- The bytes of every tile's slices of a package on `n` tiles together (R102). -/
def packageSlices (k : Package) (n : Nat) : Nat :=
  ((List.range n).map (fun j => (k.layers.map (fun l => sliceBytesOf l n j)).foldl (· + ·) 0)).foldl (· + ·) 0

/-- What loading a binding moves to its flank (R502): its tile programs and replicated tables by MCAST, and a resident one's slices. -/
def bindingLoads (k : Package) (resident : Bool) (n : Nat) : List Owed :=
  [({ kind := 5, bytes := k.programBytes } : Owed), { kind := 0, bytes := if resident then packageSlices k n else 0 }].filter (fun o => decide (0 < o.bytes))

/-- The bindings with every resident one, taken in the order made, that still fits in `w` bytes; the others move to streamed mode (R103). The count of
those moved. -/
def refit (w : Nat) : Nat → List Binding → List Binding × Nat
  | _, [] => ([], 0)
  | used, b :: bs =>
    if b.resident then
      if used + b.sliceBytes ≤ w then
        let r := refit w (used + b.sliceBytes) bs
        (b :: r.1, r.2)
      else
        let r := refit w used bs
        ({ b with resident := false } :: r.1, r.2 + 1)
    else
      let r := refit w used bs
      (b :: r.1, r.2)

/-- The binding of a content on flank `f`. -/
def State.bindingOn (s : State) (f content : Nat) : Option Binding := (s.flank f).bindings.find? (fun b => b.content == content)

/-- A binding changed. -/
def State.updBinding (s : State) (f content : Nat) (g : Binding → Binding) : State :=
  s.updFlank f (fun x => { x with bindings := x.bindings.map (fun b => if b.content == content then g b else b) })

/-- R501: a re-layout is owed where the bindings ask for another activation region than the one that stands. -/
def State.layoutCheck (s : State) (f : Nat) : State :=
  s.updFlank f (fun x => { x with relayoutWait := neededAct x.bindings != x.act })

/-- R499 to R501: one stage's binding on flank `f` for pipeline slot `pipe`: the status that refuses it, or the state with it made or shared. -/
def State.bindStage (s : State) (f content : Nat) (st : Stage) (mode : BindMode) (pipe : Nat) (k : Package) : Nat ⊕ State :=
  match s.bindingOn f content with
  | some b =>
    if (mode = .resident ∧ b.resident = false) ∨ (mode = .streamed ∧ b.resident = true) then .inl 0x0407
    else .inr (s.updBinding f content (fun x => { x with users := x.users ++ [pipe] }))
  | none =>
    let x := s.flank f
    let slice := largestSlice k (s.enabledTiles f)
    let act := max (neededAct x.bindings) k.actKib
    let w := s.weightRegion f act
    let used := residentBytes x.bindings
    if 8 ≤ x.bindings.length then .inl 0x0304
    else if neededAct x.bindings < k.actKib ∧ w < used then .inl 0x0305
    else
      let fits := decide (used + slice ≤ w)
      if mode = .resident ∧ fits = false then .inl 0x0303
      else
        let b : Binding := { content := content, stage := st, mode := mode, resident := mode != .streamed && fits, sliceBytes := slice, act := k.actKib, loaded := false,
                             users := [pipe], measured := [], lastServed := 0 }
        .inr ((s.updFlank f (fun y => { y with bindings := y.bindings ++ [b] })).layoutCheck f)

/-- R508: pipeline `pipe` leaves its bindings on flank `f`; a binding without users is released. -/
def State.unbind (s : State) (f pipe : Nat) : State :=
  (s.updFlank f (fun x =>
    { x with bindings := (x.bindings.map (fun b => { b with users := b.users.filter (fun u => u != pipe) })).filter (fun b => !b.users.isEmpty) })).layoutCheck f

/-! ## Frames and tile stores -/

/-- The partition whose pool holds a page, its counters changed. -/
def State.updOwner (s : State) (ppn : Nat) (g : Partition → Partition) : State :=
  match s.pageOwner ppn with
  | some n => s.updPart n g
  | none => s

/-- R216: whether a page's entry is sealed. -/
def State.sealedPage (s : State) (ppn : Nat) : Bool :=
  s.pages.seqs.any (fun q => q.entries.any (fun e => e.ppn == ppn && e.sealed))

/-- The frames of a tile of flank `f` (R216). -/
def State.frameCount (s : State) (f : Nat) : Nat := (s.flank f).cache / 4

/-- R216: whether a page may be cached: its entry is sealed and its record ALLOCATED. -/
def State.cacheable (s : State) (ppn : Nat) : Bool := (s.page ppn).state == .allocated && s.sealedPage ppn

/-- Whether a tile looks a page up in the directory: a sealed one that has not been freed, or one whose write is pending (R218, R222). -/
def State.looksUp (s : State) (ppn : Nat) : Bool :=
  (s.dirEntry ppn).writePending || (((s.page ppn).state == .allocated || (s.page ppn).state == .trimPending) && s.sealedPage ppn)

/-- Whether a row in progress reads a frame of tile `tile`: its own row, or one of a tile of its flank that has been sent to it (R218, R219). -/
def State.rowReading (s : State) (tile ppn : Nat) : Bool :=
  let x := s.tile tile
  x.attended.any (fun e => e.1 == ppn) || (flankTiles (tile / 48)).any (fun k => (s.tile k).waits.contains (.peer ppn x.logical))

/-- R220: an INVALIDATE that waited is answered DROPPED once the last read of the frame has finished. -/
def State.finishDrop (s : State) (tile ppn : Nat) : State :=
  if (s.tile tile).invalidating.contains ppn && !s.rowReading tile ppn && !(s.tile tile).waits.contains (.memory ppn) then
    (s.updTile tile (fun y => { y with frames := y.frames.erase ppn, invalidating := y.invalidating.erase ppn })).cacheSend .dropped tile ppn 0
  else s

/-- Reads of pages in progress at tile `t` end with their task: INVALIDATEs that waited for them are answered (R220). -/
def State.readsEnd (s : State) (t : Nat) : State :=
  if (s.tile t).attended.isEmpty then s
  else (s.tile t).invalidating.foldl (fun u p => u.finishDrop t p) (s.updTile t (fun x => { x with attended := [], fetched := [] }))

/-- A tile whose task has ended or aborted: nothing waits, pages still on their way from device memory stand in no frame (R219, R260). -/
def State.tileStops (s : State) (t : Nat) : State :=
  let lost := (s.tile t).waits.filterMap (fun w => match w with
    | .memory p => some p
    | _ => none)
  lost.foldl (fun u p =>
    let had := (u.tile t).frames.contains p
    let v := u.updTile t (fun x => { x with waits := x.waits.erase (.memory p), frames := x.frames.erase p, invalidating := x.invalidating.erase p })
    if had then v.cacheSend .evict t p 0 else v) ((s.stallEnds t).readsEnd t)

/-- R218: the tile's read of a page from device memory, with the task's deadline, through its flank's feeder. -/
def State.owePage (s : State) (op ppn : Nat) : State :=
  { s with ops := s.ops.map (fun (o : Operation) =>
      if o.id == op then { o with owed := o.owed ++ [{ kind := 0, bytes := 4096, data := 4096 * ppn }] } else o) }

/-- `n` bytes of the tile stores and the signal block's buffers from `k`. -/
def State.storeRead (s : State) (k : Nat) : Nat → Nat
  | 0 => 0
  | n + 1 => (Table.get 0#8 s.store k).toNat + 256 * s.storeRead (k + 1) n

/-- The low `n` bytes of `v` written there. -/
def State.storeWrite (s : State) (k : Nat) : Nat → Nat → State
  | 0, _ => s
  | n + 1, v => ({ s with store := Table.set 0#8 s.store k (BitVec.ofNat 8 v) }).storeWrite (k + 1) n (v / 256)

/-! ## Work items -/

/-- The stage deadline of an item; a shadow chunk takes that of the first chunk that is none (R63, R190). -/
def State.itemDeadline (s : State) (it : Item) : Nat :=
  let x := s.sect it.stage it.obj
  s.heldDeadline it.stage it.obj (if x.shadow it.row then x.delivered else it.row)

/-- R635: the order of items of equal deadline. -/
def State.itemOrder (s : State) (it : Item) : Nat :=
  match it.stage with
  | .encode => it.obj
  | _ => (s.branch it.obj).order

/-- An item put in its place by deadline, then R635. -/
def State.insertItem (s : State) (it : Item) : List Item → List Item
  | [] => [it]
  | y :: ys =>
    if s.itemDeadline it < s.itemDeadline y ∨ (s.itemDeadline it = s.itemDeadline y ∧ s.itemOrder it < s.itemOrder y)
    then it :: y :: ys else y :: s.insertItem it ys

/-- Items in deadline order (R111, R635). -/
def State.byDeadline (s : State) (items : List Item) : List Item := items.foldl (fun acc it => s.insertItem it acc) []

/-- R625: whether work of an object waits for a tag that timed out. -/
def State.heldBack (s : State) (st : Stage) (obj : Nat) : Bool :=
  s.ops.any (fun o => o.aborted && o.works.contains (stageCode st, obj) &&
    (List.range 4).any (fun f => (s.feeder f).requests.any (fun r => r.op == o.id && r.quarantined.isSome)))

/-- Whether a stream's chunk may be dispatched in its state (R69, R72, R73, R87, R185, R729). -/
def Stream.mayRun (x : Stream) (row : Nat) : Bool :=
  match x.state with
  | .resident => x.castingOut.isNone
  | .frogging => true
  | .paused => !x.loading
  | .bindingOff => x.drain && !x.loading && !later32 row x.lastDrain
  | _ => false

/-- Whether an item may be dispatched now: the object's next chunk (R161), its section valid, restored and in a slot, its stream and branch running. -/
def State.runnable (s : State) (it : Item) : Bool :=
  let x := s.sect it.stage it.obj
  let i := s.objStream it.stage it.obj
  let b := s.branch it.obj
  x.valid && !x.lost && (x.tile.isSome || x.size == 0) && it.row == x.next && (s.stream i).mayRun it.row &&
    (it.stage == .encode || b.runsRow it.row) && !s.heldBack it.stage it.obj

/-- The package's row limit per tile and row counts of an item on each tile: with carried state, the tile of its slot; without, spread (R109). -/
def State.placeRows (s : State) (f : Nat) (it : Item) (load : Table Nat) : Table Nat :=
  match (s.sect it.stage it.obj).tile with
  | some t => Table.upd 0 load t (· + it.rows)
  | none =>
    (List.range it.rows).foldl
      (fun l _ =>
        match (s.ring f).foldl (fun (best : Option Nat) t => match best with
            | none => some t
            | some b => if Table.get 0 l t < Table.get 0 l b then some t else best) none with
        | some t => Table.upd 0 l t (· + 1)
        | none => l) load

/-- R111's batch: items of one binding in deadline order while every tile stays within the row limit; the first always enters. -/
def State.fillBatch (s : State) (f limit : Nat) : Table Nat → List Item → List Item
  | _, [] => []
  | load, it :: rest =>
    let l := s.placeRows f it load
    if l.all (fun e => decide (e.2 ≤ limit)) then it :: s.fillBatch f limit l rest else []

/-- R214: the items that may share a batch with the first: its bucket, or alone where its attended count passes 4,096. -/
def bucketBatch (k : Package) (items : List Item) : List Item :=
  match items with
  | [] => []
  | first :: rest =>
    if !k.bucketMode then items
    else if 4096 < first.bucket then [first]
    else first :: rest.filter (fun it => it.bucket == first.bucket)

/-- q_min (Table 3-4). -/
def qMin (resident : Bool) (divisor : Nat) : Nat :=
  if resident then 64 else if divisor = 4 then 96 else if divisor = 5 then 77 else 64

/-- The tasks of a binding that ended within the last 16 chunk periods of the pipelines that use it (R79). -/
def State.recentTasks (s : State) (b : Binding) : List Measured :=
  let span := 16 * (b.users.map (fun p => (s.pipe p).period)).foldl max 0
  b.measured.filter (fun m => decide (s.dt ≤ m.stop + span))

/-- T: the estimated duration of a task of `rows` rows (R79, R572): a resident binding's durations are scaled to the divisor now. -/
def State.estimateOf (s : State) (b : Binding) (rows : Nat) : Nat :=
  let d := s.power.divisor
  Config.estimate ((s.recentTasks b).map (fun m => if b.resident then (m.rows, m.ticks * d / max m.divisor 1, d) else (m.rows, m.ticks, m.divisor))) rows d

/-- When a task dispatched now would start on flank `f`: after the pace gap (R569). -/
def State.startTime (s : State) (f : Nat) : Nat := max s.dt (s.flank f).paceEnd

/-- The share weight of partition `n` on flank `f` (Table 13-3). -/
def Partition.share (p : Partition) (f : Nat) : Nat := if f = 0 then p.shareQ else if f = 1 then p.shareC else p.shareK

/-- The stretches of busy time of flank `f`, its running task's up to now included. -/
def State.busyTimes (s : State) (f : Nat) : List Busy :=
  (s.flank f).busy ++ ((s.flank f).run.map (fun (r : RunTask) => { start := r.start, stop := s.dt, rows := r.rowsByPart })).toList

/-- Busy ticks of flank `f` in the second before now (R112, R120). -/
def State.busyTicks (s : State) (f : Nat) : Nat :=
  ((s.busyTimes f).map (fun b => b.stop - max b.start (s.dt - 24576000))).foldl (· + ·) 0

/-- Partition `n`'s part of the busy ticks, in proportion to its rows, in units of 2^-20 tick, rounded down task by task. -/
def State.servedTicks (s : State) (f n : Nat) : Nat :=
  ((s.busyTimes f).map (fun b =>
    (b.stop - max b.start (s.dt - 24576000)) * 1048576 * b.rows.getD n 0 / max 1 (b.rows.foldl (· + ·) 0))).foldl (· + ·) 0

/-- R112: how far partition `n` is below its share, over the common denominator of all partitions with eligible work. -/
def State.shortfall (s : State) (f : Nat) (ns : List Nat) (n : Nat) : Int :=
  let total := (ns.map (fun k => (s.part k).share f)).foldl (· + ·) 0
  let busy := max 1 (s.busyTicks f)
  ((s.part n).share f * busy * 1048576 : Nat) - ((s.servedTicks f n * total : Nat) : Int)

/-- One binding's runnable items in deadline order. -/
def State.bindingItems (s : State) (f : Nat) (b : Binding) : List Item :=
  s.byDeadline ((s.flank f).items.filter (fun it => it.content == b.content && it.stage == b.stage && s.runnable it))

/-- R111: the binding served next: earliest deadline; within g of it, the partition furthest below its share, then the binding served longest ago. A binding's
partition is that of its item of earliest deadline: where its eligible items belong to several, the spec does not say which one stands for it (DESIGN CHOICE, log 104). -/
def State.chooseBinding (s : State) (f : Nat) : Option (Binding × List Item) :=
  let cands := ((s.flank f).bindings.filter (·.loaded)).filterMap (fun b => match s.bindingItems f b with
    | [] => none
    | it :: rest => some (b, it :: rest))
  let first := fun (c : Binding × List Item) => (c.2.head?.map s.itemDeadline).getD 0
  let earliest := cands.foldl (fun a c => min a (first c)) (cands.foldl (fun a c => max a (first c)) 0)
  let near := cands.filter (fun c => decide (first c ≤ earliest + 24576))
  let ns := ((s.flank f).items.filter s.runnable).map (·.part) |>.eraseDups
  let key := fun (c : Binding × List Item) => s.shortfall f ns ((c.2.head?.map (·.part)).getD 0)
  near.foldl
    (fun best c => match best with
      | none => some c
      | some d =>
        if key d < key c ∨ (key d = key c ∧ c.1.lastServed < d.1.lastServed) then some c else best)
    none

/-- The objects whose chunks a binding runs, by stage. -/
def State.bindingObjects (s : State) (f : Nat) (b : Binding) : List Nat :=
  let runs := fun (i : Nat) => (s.pipeOfStream i |>.stage b.stage).present && (s.pipeOfStream i |>.stage b.stage).flank == f
    && (s.pipeOfStream i |>.stage b.stage).content == b.content
  let live := fun (x : Stream) => x.state == .resident || x.state == .frogging || x.state == .paused || (x.state == .bindingOff && x.drain)
  match b.stage with
  | .encode => (s.streams.filter (fun e => live e.2 && runs e.1)).map (·.1)
  | _ => (s.branches.filter (fun e => (e.2.runs || e.2.stopRow.isSome) && live (s.stream e.2.stream) && runs e.2.stream)).map (·.1)

/-- Whether chunk `row` of an object is one it still runs: its branch's, and not beyond the last one a pause or a draining bind-off lets run. -/
def State.stillRuns (s : State) (st : Stage) (obj row : Nat) : Bool :=
  let x := s.stream (s.objStream st obj)
  (st == .encode || (s.branch obj).runsRow row) &&
    (match x.state, x.pausedRow with
     | .paused, some m => !later32 row m
     | .bindingOff, _ => !later32 row x.lastDrain
     | _, _ => true)

/-- The next eligibility time of a binding's items strictly after now (R111). -/
def State.nextEligibility (s : State) (f : Nat) (b : Binding) : Option Nat :=
  let times := (s.bindingObjects f b).filterMap (fun obj =>
    let r := (s.sect b.stage obj).next
    (((List.range 16).map (fun j => bump 32 r j)).filter (s.stillRuns b.stage obj)).map (s.eligibleAt b.stage obj) |>.find? (fun t => decide (s.dt < t)))
  times.foldl (fun a t => match a with
    | none => some t
    | some x => some (min x t)) none

/-- One item of the batch leaves the queue; a re-run chunk counts as dispatched (R73). -/
def State.itemDispatched (s : State) (it : Item) : State := s.rerunSettled it.stage it.obj (fun r => r == it.row)

/-- R210, R211: the lengths of the encoder sequences an item's chunk reads: as they stood when it was dispatched first, so that a re-run reads the same, else as they stand
now. -/
def State.itemViews (s : State) (it : Item) : List (Nat × Nat) :=
  let before := (s.sect it.stage it.obj).views.filter (fun v => v.1 == it.row)
  if it.stage == .speak then []
  else if !before.isEmpty then before.map (·.2)
  else (s.pages.seqs.filter (fun q => q.owner == .encoder (s.objStream it.stage it.obj))).map (fun q => (q.idx, q.positions))

/-- What a batch reads: object, sequence, positions. -/
def State.viewLengths (s : State) (batch : List Item) : List (Nat × Nat × Nat) :=
  batch.flatMap (fun it => (s.itemViews it).map (fun v => (it.obj, v)))

/-- The lengths an item reads are kept with its section for a re-run. -/
def State.keepViews (s : State) (it : Item) : State :=
  s.updSect it.stage it.obj (fun x => { x with views := x.views.filter (fun v => v.1 != it.row) ++ (s.itemViews it).map (fun v => (it.row, v)) })

/-- R111, R621: a batch is dispatched: its operation, its watchdog, the timer cleared. -/
def State.startTask (s : State) (f : Nat) (b : Binding) (batch : List Item) : State :=
  let n0 := (batch.head?.map (·.part)).getD 7
  let part := if batch.all (fun it => it.part == n0) then n0 else 7
  let budget := (batch.map (fun it => ((s.pipeOfStream (s.objStream it.stage it.obj)).stage it.stage).budget)).foldl max 0
  let id := (s.newOp (.task f) part).2
  let r := (s.newOpDue (.task f) part ((batch.head?.map s.itemDeadline).getD s.dt) []).opWorks id (batch.map (fun it => (stageCode it.stage, it.obj)))
  let t := r.updFlank f (fun x =>
    { x with
      idleTclk := s.flankIdle f,
      run := some { id := id, content := b.content, stage := b.stage, items := batch, start := s.dt, startTclk := s.tclk, resident := b.resident,
                    placed := batch.foldl (fun l it => s.placeRows f it l) [], period := max 49152 (4 * budget),
                    paused := 0, injected := false, views := s.viewLengths batch },
      items := x.items.filter (fun it => !(batch.contains it)), timer := none,
      tasksDispatched := bump 64 x.tasksDispatched 1 })
  let u := t.updBinding f b.content (fun y => { y with lastServed := (s.flank f).tasksDispatched + 1 })
  batch.foldl (fun v it => v.itemDispatched it) (batch.foldl (fun v it => v.keepViews it) u)

/-- Whether flank `f` may dispatch (R111, R117, R501, R628). -/
def State.mayDispatch (s : State) (f : Nat) : Bool :=
  let x := s.flank f
  s.serving && x.run.isNone && x.state == .operational && x.repair == .none && x.queue.isEmpty && x.relayout.isNone && !x.relayoutWait && !x.cut

/-- R78, R79: an item that would complete after its deadline even when dispatched at once falls. Encode work still runs (R80), and its fall is declared once;
a shadow chunk never falls (R190). -/
def State.lateFall (s : State) (f : Nat) (it : Item) : State :=
  match s.bindingOn f it.content with
  | none => s
  | some b =>
    let x := s.sect it.stage it.obj
    if x.shadow it.row || !s.runnable it || decide (s.startTime f + s.estimateOf b it.rows ≤ s.itemDeadline it) then s
    else s.fallAt it.stage it.obj it.row

/-- Every late item of flank `f` falls, and the streams concerned go on. -/
def State.lateFalls (s : State) (f : Nat) : State :=
  let items := s.byDeadline (s.flank f).items
  let t := items.foldl (fun u it => u.lateFall f it) s
  (items.map (fun it => s.objStream it.stage it.obj)).eraseDups.foldl (fun u i => u.advance i) t

/-- R111: one dispatch point of flank `f`. -/
def State.dispatch (s : State) (f : Nat) : State :=
  if !s.mayDispatch f then s
  else
    let t := s.lateFalls f
    match t.chooseBinding f with
    | none => t.updFlank f (fun x => { x with timer := none })
    | some (b, items) =>
      let k := (t.content b.content).pkg
      let limit := (k.map (·.rowLimit)).getD 0
      let same := match k with
        | some p => bucketBatch p items
        | none => items
      let filled := t.fillBatch f limit [] same
      let batch := if filled.isEmpty then same.take 1 else filled
      let rows := (batch.map (·.rows)).foldl (· + ·) 0
      let due := (batch.head?.map t.itemDeadline).getD 0
      let start := due - (t.estimateOf b rows + 24576)
      if t.dt < (t.flank f).paceEnd then t.updFlank f (fun x => { x with timer := some x.paceEnd })
      else if qMin b.resident t.power.divisor * t.enabledTiles f ≤ rows ∨ start ≤ t.dt then
        let u := t.startTask f b batch
        (batch.map (fun it => u.objStream it.stage it.obj)).eraseDups.foldl (fun v i => v.frogExit i) u
      else
        match t.nextEligibility f b with
        | some e =>
          if e < start then t.updFlank f (fun x => { x with timer := some e })
          else
            let u := t.startTask f b batch
            (batch.map (fun it => u.objStream it.stage it.obj)).eraseDups.foldl (fun v i => v.frogExit i) u
        | none =>
          let u := t.startTask f b batch
          (batch.map (fun it => u.objStream it.stage it.obj)).eraseDups.foldl (fun v i => v.frogExit i) u

/-- Dispatch on every flank. -/
def State.dispatchAll (s : State) : State := ((s.dispatch 0).dispatch 1).dispatch 2

/-! ## Items becoming eligible (R61, R62) -/

/-- Whether the preceding stage has completed what chunk `n` of a stage needs (R62): its entry and those of its right context, which a paused stream's
gap chunks stand in for (R70). -/
def State.inputReady (s : State) (st : Stage) (obj n : Nat) : Bool :=
  let i := s.objStream st obj
  let look := ((s.pipeOfStream i).stage st).lookahead
  let last := match (s.stream i).lastClosed n with
    | some m => if later32 (bump 32 n look) m then m else bump 32 n look
    | none => bump 32 n look
  match st with
  | .encode => (s.stream i).encRing.any (fun e => e.row == n) && (s.stream i).encRing.any (fun e => e.row == last && e.ready)
  | .translate => (s.stream i).trRing.any (fun e => e.row == n) && earlier32 last (s.stream i).enc.next
  | .speak => (s.branch obj).spRing.any (fun e => e.row == n) && earlier32 last (s.branch obj).translate.next

/-- The chunk is one its object still has to run: not earlier than its next, not skipped, from the branch's first row on. -/
def State.rowWanted (s : State) (st : Stage) (obj n : Nat) : Bool :=
  let x := s.sect st obj
  let b := s.branch obj
  x.valid && !earlier32 n x.next &&
    (st == .encode || (b.runsRow n && !earlier32 n b.firstRow && !b.skipped.contains n))

/-- A branch's view of an encoder sequence: its own entries for the sealed pages, and the stream's tail through the stream's table (R203). -/
def State.encoderView (s : State) (b idx : Nat) : Option PageSeq :=
  (s.seq (.encoder (s.branch b).stream) idx).map (fun q =>
    let own := ((s.seq (.view b) idx).map (·.entries)).getD []
    { owner := .view b, idx := idx, part := q.part, base := q.base, positions := q.positions,
      entries := own ++ q.entries.filter (fun e => !e.sealed && !own.any (fun o => o.index == e.index)) })

/-- The sequences a chunk's attention reads (R200, R201, R203). -/
def State.seqsRead (s : State) (st : Stage) (obj : Nat) : List PageSeq :=
  match st with
  | .encode => s.pages.seqs.filter (fun q => q.owner == .encoder obj)
  | .translate =>
    ((List.range (s.seqCount (.view obj))).filterMap (s.encoderView obj)) ++ s.pages.seqs.filter (fun q => q.owner == .decoder obj)
  | .speak => []

/-- R212: an item's attended count, that of the sequence it reads most of (DEDUCED, log 98). -/
def State.attendedOf (s : State) (st : Stage) (obj : Nat) : Nat := ((s.seqsRead st obj).map s.attendedOver).foldl max 0

/-- R109 to R111: a chunk becomes an item of its stage's flank, with its attended count and in its bucket (R212 to R214); an item named with another count is none (log 98). -/
def State.admitItem (s : State) (st : Stage) (obj n rows attended : Nat) : State :=
  let f := s.flankOf st obj
  let i := s.objStream st obj
  let it : Item :=
    { stage := st, obj := obj, content := s.contentOf st obj, part := (s.stream i).part, row := n, rows := rows,
      bucket := bucketOf (s.attendedOf st obj), attended := s.attendedOf st obj }
  let known := (s.flank f).items.any (fun y => y.stage == st && y.obj == obj && y.row == n) || s.running st obj n
  if known || attended != s.attendedOf st obj || !s.rowWanted st obj n || !s.inputReady st obj n || decide (s.dt < s.eligibleAt st obj n) || !((s.pipeOfStream i).stage st).present then s
  else (s.updFlank f (fun x => { x with items := x.items ++ [it] })).dispatch f

end Sys2Proof.Machine
end

