-- ==== Sys2Proof/Machine/Recover.lean ====
section
/-!
DEFINITION. Machine/Recover.lean: aborting an operation (R267 to R273, R620, R629), the task watchdog (R621 to R623), castling in (R181 to R187), and what a flank
that goes out of service does with its bindings (R120).
-/
namespace Sys2Proof.Machine

/-! ## Aborts -/

/-- What a fault's report carries into the journal (R269, Table 17-3). -/
structure FaultInfo where
  kind : Nat
  feeder : Nat := 7
  coord : Nat := 255
  endpoint : Nat := 1023
  detail : Nat := 0
  address : Nat := 0
  injected : Bool := false
  part : Option Nat := none
  recovery : Option Recovery := none
deriving DecidableEq, Repr

/-- The recovery of an operation's owner (R267, Table 17-4). -/
def OpKind.recovery : OpKind → Recovery
  | .task _ => .frog
  | .commit _ _ => .commitAbandoned
  | .castIn _ _ => .frog
  | .copy _ => .reissued
  | .load _ => .reload
  | .zeroise _ _ => .reissued
  | .host _ => .hostFailed
  | .package _ => .hostFailed
  | .erase _ => .reissued
  | .release _ => .reissued

/-- R189 for every stream that lost work: sections grouped by stream. -/
def State.frogAll (s : State) (ks : List (Stage × Nat)) (cause : Nat) : State :=
  ((ks.map (fun k => s.objStream k.1 k.2)).eraseDups).foldl
    (fun t i => t.frog i (ks.filter (fun k => s.objStream k.1 k.2 == i)) cause false) s

/-- The running task ends without completing: it leaves its flank, and the streams of its items frog (R188). -/
def State.abortTask (s : State) (f cause : Nat) : State :=
  match (s.flank f).run with
  | none => s
  | some r =>
    let ks := (r.items.map (fun it => (it.stage, it.obj))).eraseDups
    let t := s.frogAll ks cause
    let u := ((flankTiles f).foldl State.tileStops (t.leaveTask f r)).updFlank f (fun x => { x with tasksAborted := bump 64 x.tasksAborted 1 })
    { u with ops := u.ops.map (fun o => if o.id == r.id then { o with aborted := true, works := ks.map (fun k => (stageCode k.1, k.2)) } else o) }

/-- What an operation's owner does (R267): frogging, an abandoned commit, a reload or the transfer again, as a new operation. `cause` is the STREAM_STATE cause of a frog. -/
def State.ownerRecovers (s : State) (k : OpKind) (part cause : Nat) : State :=
  match k with
  | .task f => s.abortTask f cause
  | .commit c obj =>
    let st := codeStage c
    let x := s.sect st obj
    let t := s.setSect st obj { x with commit := none, nextCommit := none }
    match x.nextCommit, x.commit with
    | some n, _ => t.beginCommit st obj n
    | none, some c => if c.why = .interval then t else t.startCommit st obj c.why
    | none, none => t
  | .castIn c obj => s.frogAll [(codeStage c, obj)] cause
  | .host _ => s
  | .package l => { s with loads := s.loads.map (fun x => if x.id == l then { x with failed := true } else x) }
  | again => match s.ops.find? (fun o => o.kind == again && o.aborted) with
    | some o => s.newOpDue again part (o.deadline.getD s.dt) o.asked
    | none => (s.newOp again part).1

/-- R267, R269, R620: operation `id` aborts, once; one journal entry, one count at the feeder, its owner's recovery. -/
def State.abortOpAs (s : State) (id : Nat) (i : FaultInfo) (cause : Nat) : State :=
  match s.ops.find? (fun o => o.id == id && !o.aborted) with
  | none => s
  | some o =>
    let t := s.journalWrite
      { JEntry.blank i.kind with coord := i.coord, endpoint := i.endpoint, feeder := i.feeder, part := i.part.getD o.part, task := id, aborted := true,
                                 injected := i.injected || o.injected, recovery := (i.recovery.getD o.kind.recovery).code, detail := i.detail, address := i.address }
    let u := if i.feeder < 4 then t.updFeeder i.feeder (fun x => { x with cnt := { x.cnt with aborted := bump 64 x.cnt.aborted 1 } }) else t
    let w : State := { u with ops := u.ops.map (fun (y : Operation) => if y.id == id then { y with aborted := true } else y) }
    let v := w.dropRequests id
    (v.ownerRecovers o.kind o.part cause).reapOps

/-- An abort by a fault of a request or of the task itself: STREAM_STATE cause TASK_ABORT. -/
def State.abortOp (s : State) (id : Nat) (i : FaultInfo) : State := (s.abortOpAs id i 4).dispatchAll

/-! ## Castling in (R181 to R187) -/

/-- Whether a stream has a chunk waiting at any stage. -/
def State.hasWaiting (s : State) (i : Nat) : Bool :=
  let x := s.stream i
  x.encRing.any (fun e => !earlier32 e.row x.enc.next) ||
    (s.consumers i).any (fun b =>
      x.trRing.any (fun e => s.waitsTr b e.row) ||
        (s.branch b).spRing.any (fun e => (s.branch b).runsRow e.row && !earlier32 e.row (s.branch b).speak.next))

/-- Whether a stream has a chunk waiting for a stage bound to flank `f` (R182). -/
def State.waitsOn (s : State) (i f : Nat) : Bool :=
  let x := s.stream i
  let here := fun (st : Stage) => ((s.pipeOfStream i).stage st).present && ((s.pipeOfStream i).stage st).flank == f
  (here .encode && x.encRing.any (fun e => !earlier32 e.row x.enc.next)) ||
    (s.consumers i).any (fun b =>
      (here .translate && x.trRing.any (fun e => s.waitsTr b e.row)) ||
        (here .speak && (s.branch b).spRing.any (fun e => (s.branch b).runsRow e.row && !earlier32 e.row (s.branch b).speak.next)))

/-- R180: eligible for castling out by silence. -/
def State.silentEligible (s : State) (i : Nat) : Bool :=
  let x := s.stream i
  x.state == .resident && x.castingOut.isNone && x.lastPassed && !s.hasWaiting i && !s.streamRuns i &&
    (s.branchesOf i).all (fun b =>
      (s.branch b).state == .stopped || ((!(s.branch b).translate.valid || (s.branch b).translate.idle) && (!(s.branch b).speak.valid || (s.branch b).speak.idle)))

/-- Bytes partition `n` holds in the state stores of flank `f`. -/
def State.holding (s : State) (f n : Nat) : Nat :=
  ((s.slots.filter (fun k => k.2.2 / 48 == f && (s.stream (s.objStream k.1 k.2.1)).part == n)).map (fun k => (s.sect k.1 k.2.1).size)).foldl (· + ·) 0

/-- The partitions of R182's sum on flank `f`, for a stream of partition `need`. -/
def State.quotaParts (s : State) (f need : Nat) : List Nat :=
  (List.range 4).filter (fun n =>
    n == need || decide (0 < s.holding f n) ||
      s.streams.any (fun e => e.2.part == n && e.2.state == .castled && s.waitsOn e.1 f))

/-- R182: whether partition `n` holds more (`more`) or less than its share of flank `f`'s state stores. -/
def State.overShare (s : State) (f need n : Nat) (more : Bool) : Bool :=
  let total := ((s.quotaParts f need).map (fun k => (s.part k).share f)).foldl (· + ·) 0
  let mine := (s.part n).share f * (s.enabledTiles f * 262144)
  if more then decide (mine < s.holding f n * total) else decide (s.holding f n * total < mine)

/-- A stream put into the order of R181 and R182: longest silence first, then the lower slot. -/
def State.insertSilent (s : State) (i : Nat) : List Nat → List Nat
  | [] => [i]
  | y :: ys => if (s.stream y).silence < (s.stream i).silence then i :: y :: ys else y :: s.insertSilent i ys

/-- Streams with slots on flank `f`. -/
def State.streamsOn (s : State) (f : Nat) : List Nat :=
  ((s.slots.filter (fun k => k.2.2 / 48 == f)).map (fun k => s.objStream k.1 k.2.1)).eraseDups

/-- R181: the streams that may be castled out on flank `f` for stream `i`, in order, with the STREAM_STATE cause. -/
def State.victims (s : State) (f i : Nat) : List (Nat × Nat) :=
  let need := (s.stream i).part
  let here := ((s.streamsOn f).filter (fun j => j != i && (s.stream j).state == .resident && (s.stream j).castingOut.isNone)).foldl
    (fun acc j => (acc.takeWhile (fun y => decide (y < j))) ++ j :: acc.dropWhile (fun y => decide (y < j))) []
  let byQuota := if s.overShare f need need false then
      here.filter (fun j => (s.stream j).part != need && s.overShare f need (s.stream j).part true) else []
  let quietQ := (byQuota.filter s.silentEligible).foldl (fun acc j => s.insertSilent j acc) []
  let otherQ := byQuota.filter (fun j => !s.silentEligible j)
  let quiet := ((here.filter (fun j => s.silentEligible j && !byQuota.contains j)).foldl (fun acc j => s.insertSilent j acc) [])
  (quietQ ++ otherQ).map (fun j => (j, 2)) ++ quiet.map (fun j => (j, 1))

/-- The sections of a stream that need slots on flank `f`. -/
def State.needing (s : State) (i f : Nat) : List (Stage × Nat) :=
  (s.sectsOf i).filter (fun k => s.flankOf k.1 k.2 == f && (s.sect k.1 k.2).tile.isNone && (s.sect k.1 k.2).size != 0)

/-- The state stores as they stand once every castling out in progress has released its slots (R183). -/
def State.afterCastOuts (s : State) : State :=
  (s.streams.filter (fun e => e.2.castingOut.isSome)).foldl (fun t e => (s.sectsOf e.1).foldl (fun u k => u.releaseSlot k.1 k.2) t) s

/-- R181: victims castled out one after another until the needed slots fit, or will once those castled out have committed. -/
def State.freeRoom (s : State) (f i : Nat) (need : List (Stage × Nat)) : List (Nat × Nat) → State
  | [] => s
  | v :: vs =>
    if (s.afterCastOuts.giveSlots need).isSome then s
    else if s.overShare f (s.stream i).part (s.stream v.1).part true || v.2 == 1 then (s.castOut v.1 v.2).freeRoom f i need vs
    else s.freeRoom f i need vs

/-- R182: the streams of partition `n` with slots on flank `f` in the order in which a lowered quota castles them out. -/
def State.quotaOrder (s : State) (f n : Nat) : List Nat :=
  let mine := ((s.streamsOn f).filter (fun j => (s.stream j).part == n && (s.stream j).state == .resident && (s.stream j).castingOut.isNone)).foldl
    (fun acc j => (acc.takeWhile (fun y => decide (y < j))) ++ j :: acc.dropWhile (fun y => decide (y < j))) []
  (mine.filter s.silentEligible).foldl (fun acc j => s.insertSilent j acc) [] ++ mine.filter (fun j => !s.silentEligible j)

/-- R182: a partition whose quota was lowered below its holding castles its streams out until the holding is within it. -/
def State.holdToQuota (s : State) (f n : Nat) : List Nat → State
  | [] => s
  | j :: js => if s.afterCastOuts.overShare f n n true then (s.castOut j 2).holdToQuota f n js else s

/-! ## The order in which slots are given: castling in and restores (R73, R117, R185 to R189) -/

/-- The sections of a stream that take slots together: every section it has that holds none; a stream that keeps its state takes those it has lost (R87, R185, R189, R729). -/
def State.slotNeeds (s : State) (i : Nat) : List (Stage × Nat) :=
  (s.sectsOf i).filter (fun k =>
    let x := s.sect k.1 k.2
    x.tile.isNone && x.size != 0 && (x.lost || (s.stream i).state == .castled || (s.stream i).state == .frogging || (s.stream i).castIn.isSome))

/-- The deadline of a lost section's first chunk to run again; a shadow chunk takes that of the first that is none (R190). -/
def State.restoreDeadline (s : State) (k : Stage × Nat) : Nat :=
  let x := s.sect k.1 k.2
  s.heldDeadline k.1 k.2 (if x.shadow x.next then x.delivered else x.next)

/-- The deadline at which a stream waits for slots: that of its castling in (R184), or of the chunks its lost sections run again (R189, R729). None: it waits for none. -/
def State.slotDue (s : State) (i : Nat) : Option Nat :=
  let x := s.stream i
  let lost := (s.slotNeeds i).filter (fun k => (s.sect k.1 k.2).lost || x.state == .frogging)
  let asked := if x.mayCastIn && !x.loading then x.castIn else none
  lost.foldl (fun a k => some (match a with
    | some d => min d (s.restoreDeadline k)
    | none => s.restoreDeadline k)) asked

/-- A stream put in its place in the order of R185: earlier deadline first, then the lower slot. -/
def insertDue (x : Nat × Nat) : List (Nat × Nat) → List (Nat × Nat)
  | [] => [x]
  | y :: ys => if x.2 < y.2 ∨ (x.2 = y.2 ∧ x.1 < y.1) then x :: y :: ys else y :: insertDue x ys

/-- The streams that wait for slots, in order. -/
def State.slotOrder (s : State) : List Nat :=
  ((s.streams.filterMap (fun e => (s.slotDue e.1).map (fun d => (e.1, d)))).foldl (fun acc x => insertDue x acc) []).map (·.1)

/-- Whether slots are given on flank `f`: OPERATIONAL, or a repair that has come to its restores (R117). -/
def State.givesSlots (s : State) (f : Nat) : Bool :=
  let x := s.flank f
  (x.state == .operational && x.repair == .none) || x.repair == .restoring

/-- How a stream's turn ends: with its slots, waiting for streams that commit before they castle out, or without room on some flank (R187). -/
inductive Turn where
  | taken | pending | blocked
deriving DecidableEq, Repr

/-- The transfers of castling in and of a restore: the sections' halves are read into their slots, one operation per section, with the deadline `due` (R185, R186, R189). -/
def State.startLoads (s : State) (i due : Nat) (ks : List (Stage × Nat)) : State :=
  ks.foldl (fun t k => t.newOpDue (.castIn (stageCode k.1) k.2) (t.stream i).part due [{ kind := 0, bytes := (t.sect k.1 k.2).size }])
    (s.updStream i (fun x => { x with loading := x.loading || x.mayCastIn && x.castIn.isSome }))

/-- Room for the sections `ks` of stream `i`, freed flank by flank under R181 and R182. -/
def State.makeRoom (s : State) (i : Nat) (ks : List (Stage × Nat)) : State :=
  ((ks.map (fun k => s.flankOf k.1 k.2)).eraseDups).foldl (fun (u : State) f =>
    let here := ks.filter (fun k => u.flankOf k.1 k.2 == f)
    if (u.afterCastOuts.giveSlots here).isSome then u else u.freeRoom f i here (u.victims f i)) s

/-- One stream's turn: slots for all it needs, with room freed under R181 and R182 flank by flank. -/
def State.takeSlots (s : State) (i : Nat) : Turn × State :=
  let ks := s.slotNeeds i
  if !ks.all (fun k => s.givesSlots (s.flankOf k.1 k.2) && !((s.sect k.1 k.2).lost && s.heldBack k.1 k.2)) then (.blocked, s)
  else
    let t := s.makeRoom i ks
    match t.giveSlots ks with
    | some u => (.taken, u.startLoads i ((s.slotDue i).getD s.dt) ks)
    | none => (if (t.afterCastOuts.giveSlots ks).isSome then .pending else .blocked, t)

/-- The flanks a stream needs slots on. -/
def State.needFlanks (s : State) (i : Nat) : List Nat := ((s.slotNeeds i).map (fun k => s.flankOf k.1 k.2)).eraseDups

/-- Streams take their turns in order until `stop` holds of one that has taken its slots. One that waits for room being freed keeps its flanks from those behind it; one that
is blocked does not (R187). -/
def State.serveSlots (s : State) (stop : State → Nat → Bool) (held : List Nat) : List Nat → State
  | [] => s
  | i :: is =>
    if (s.needFlanks i).any held.contains then s.serveSlots stop (held ++ s.needFlanks i) is
    else
      let fs := s.needFlanks i
      let hit := stop s i
      let r := s.takeSlots i
      match r.1 with
      | .taken => if hit then r.2 else r.2.serveSlots stop held is
      | .pending => r.2.serveSlots stop (held ++ fs) is
      | .blocked => r.2.serveSlots stop held is

/-- CASTLING_IN_START (R185, R187): on flank `f` the stream of earliest deadline takes its slots; a stream without carried state takes its turn on any flank. -/
def State.castInStart (s : State) (f : Nat) : State :=
  if !s.serving || !s.givesSlots f then s
  else s.serveSlots (fun t i => (t.needFlanks i).contains f || (t.slotNeeds i).isEmpty) [] s.slotOrder

/-- The streams with lost sections that wait for slots, in order. -/
def State.restoresWait (s : State) : List Nat :=
  s.slotOrder.filter (fun i => (s.slotNeeds i).any (fun k => (s.sect k.1 k.2).lost || (s.stream i).state == .frogging))

/-- Lost sections take slots in the order of R185 as soon as there is room (R189 step 3). -/
def State.serveRestores (s : State) : State :=
  match s.restoresWait.getLast? with
  | none => s
  | some last => if s.serving then s.serveSlots (fun _ i => i == last) [] (s.slotOrder.takeWhile (fun i => i != last) ++ [last]) else s

/-- Whether a section is being loaded. -/
def State.loadsOf (s : State) (st : Stage) (obj : Nat) : Bool := s.kindBusy (fun k => k == OpKind.castIn (stageCode st) obj)

/-- The ends of the operations of a kind that load a stream's sections. -/
def State.endLoads (s : State) (i : Nat) : State :=
  s.endOps (fun o => match o.kind with
    | .castIn c obj => s.objStream (codeStage c) obj == i && !o.aborted
    | _ => false)

/-- R185: every section loaded: the stream enters RESIDENT with cause CASTLED_IN; one that a pause or a draining bind-off holds keeps its state and runs the chunks it waited for. -/
def State.castInDone (s : State) (i : Nat) : State :=
  let x := s.stream i
  if x.mayCastIn = false ∨ x.loading = false then s
  else
    let ks := (s.sectsOf i).filter (fun k => (x.state == .castled || s.ops.any (fun o => o.kind == OpKind.castIn (stageCode k.1) k.2)) && !(s.sect k.1 k.2).lost)
    let t := ks.foldl (fun u k => u.updSect k.1 k.2 Sect.load) (s.endLoads i)
    let u := t.updStream i (fun y => { y with loading := false, castIn := none, cnt := { y.cnt with castleIns := bump 64 y.cnt.castleIns 1 } })
    let v := if x.state == .castled then (u.updStream i (fun y => { y with state := .resident })).postStream i .castled .resident 3 else u
    (v.advance i).dispatchAll

/-! ## Restores (R189) -/

/-- A section's working copy loaded from its current half; a lost translate section's decoder sequences go back to the lifeline's token count (R224). -/
def State.restoreSect (s : State) (k : Stage × Nat) : State :=
  let t := s.updSect k.1 k.2 (fun x => { x.load with lost := false })
  match k.1 with
  | .translate => t.truncateDecoders k.2 (s.sect k.1 k.2).current.tokens
  | _ => t

/-- R189 steps 3 to 5, once the transfers are made: the loaded sections stand in their slots, and once none of the stream's is lost its chunks after ROW run again. -/
def State.frogRestore (s : State) (i : Nat) : State :=
  let lost := (s.sectsOf i).filter (fun k => (s.sect k.1 k.2).lost)
  let ready := fun (k : Stage × Nat) => (s.sect k.1 k.2).tile.isSome || (s.sect k.1 k.2).size == 0
  let x := s.stream i
  if !lost.all ready || !s.serving || (lost.isEmpty && (x.frog.map (·.restored)).getD true) then s
  else
    let fresh := if x.state == .frogging then (s.sectsOf i).filter (fun k => !(s.sect k.1 k.2).lost && s.ops.any (fun o => o.kind == OpKind.castIn (stageCode k.1) k.2)) else []
    let u := lost.foldl State.restoreSect (fresh.foldl (fun v k => v.updSect k.1 k.2 Sect.load) (s.endLoads i))
    let full := (u.sectsOf i).all (fun k => (u.sect k.1 k.2).tile.isSome || (u.sect k.1 k.2).size == 0)
    ((u.updStream i (fun y => { y with frog := y.frog.map (fun f => { f with restored := full }) })).advance i).dispatchAll

/-! ## Flanks out of service (R120) -/

/-- R120: the OPERATIONAL flank with the least busy time over the preceding second. Of two with equal busy time the spec names neither; the model takes the lower flank number
(DESIGN CHOICE, log 105). -/
def State.rebindTarget (s : State) : Option Nat :=
  (List.range 3).foldl
    (fun best f =>
      if (s.flank f).state != .operational then best
      else match best with
        | none => some f
        | some g => if s.busyTicks f < s.busyTicks g then some f else best) none

/-- The stage entries of a pipeline that name flank `f` now name `g`. -/
def Pipeline.moveFlank (p : Pipeline) (f g : Nat) : Pipeline :=
  let mv := fun (c : StageCfg) => if c.present && c.flank == f then { c with flank := g } else c
  { p with encode := mv p.encode, translate := mv p.translate, speak := mv p.speak }

/-- One binding of flank `f` rebound to flank `g`, resident where it fits and its composition permits it (R103, R120); the count of resident bindings of `g` displaced. A binding of the same content there takes its users. -/
def State.rebindOne (s : State) (g : Nat) (b : Binding) : State × Nat :=
  let x := s.flank g
  match x.bindings.find? (fun y => y.content == b.content) with
  | some _ => (s.updBinding g b.content (fun y => { y with users := y.users ++ b.users }), 0)
  | none =>
    let act := max (neededAct x.bindings) b.act
    let w := s.weightRegion g act
    let r := refit w 0 x.bindings
    let slice := (s.content b.content).pkg.map (fun k => largestSlice k (s.enabledTiles g))
    let fits := match slice with
      | some v => decide (residentBytes r.1 + v ≤ w)
      | none => false
    ((s.updFlank g (fun y => { y with bindings := r.1 ++ [{ b with resident := fits && b.mode != .streamed, sliceBytes := slice.getD 0, loaded := false }] })).layoutCheck g, r.2)

/-- R120: the sections with slots on flank `f`. -/
def State.sectsOnFlank (s : State) (f : Nat) : List (Stage × Nat) :=
  (s.slots.filter (fun k => k.2.2 / 48 == f)).map (fun k => (k.1, k.2.1))

/-- R120: the bindings of flank `f` move to the least busy OPERATIONAL flank; its items follow, and every stream with a section there frogs. With no OPERATIONAL
flank nothing moves. The count of bindings moved, displaced ones included. -/
def State.rebind (s : State) (f : Nat) : State × Nat :=
  match s.rebindTarget with
  | none => (s, 0)
  | some g =>
    let bs := (s.flank f).bindings
    if bs.isEmpty then (s, 0)
    else
      let t := s.frogAll (s.sectsOnFlank f) 5
      let moved := bs.foldl (fun (acc : State × Nat) b =>
        let r := acc.1.rebindOne g b
        (r.1, acc.2 + r.2 + 1)) (t, 0)
      let u := moved.1
      let items := (u.flank f).items
      let v := (u.updFlank f (fun x => { x with bindings := [], items := [], timer := none, relayoutWait := false })).updFlank g
        (fun x => { x with items := x.items ++ items })
      ({ v with pipes := Table.mapVals {} (fun _ p => p.moveFlank f g) v.pipes }, moved.2)

/-- R120: the first time a flank is OPERATIONAL again, bindings that stayed with a flank out of service move to it. -/
def State.rebindWaiting (s : State) : State :=
  (List.range 3).foldl (fun t f => if (t.flank f).state == .outOfService then (t.rebind f).1 else t) s

end Sys2Proof.Machine
end

