-- ==== Sys2Proof/Machine/Fabric.lean ====
section
/-!
DEFINITION. Machine/Fabric.lean: the stitch fabric (chapter 8): endpoints and route tables, hops, spraying and detours, end-to-end windows and contexts,
multicast, links that go DOWN.
-/
namespace Sys2Proof.Machine

/-! ## Places (R279 to R284, Table 8-1) -/

/-- The port opposite a mesh port. -/
def oppositePort (p : Nat) : Nat := if p = 1 then 3 else if p = 3 then 1 else if p = 2 then 4 else if p = 4 then 2 else p

/-- The neighbouring tile on a mesh port, none at the edge. -/
def neighbour (t p : Nat) : Option Nat :=
  if p = 1 then (if t % 12 < 11 then some (t + 1) else none)
  else if p = 3 then (if 0 < t % 12 then some (t - 1) else none)
  else if p = 2 then (if t / 12 < 11 then some (t + 12) else none)
  else if p = 4 then (if 0 < t / 12 then some (t - 12) else none)
  else none

/-- An edge agent's first attach router, its edge port and how many attach points it has. -/
def attachBase (e : Nat) : Option (Nat × Nat × Nat) :=
  if 256 ≤ e ∧ e ≤ 258 then some (48 * (e - 256) + 11, 1, 4)
  else if 259 ≤ e ∧ e ≤ 261 then some (48 * (e - 259), 3, 4)
  else if 272 ≤ e ∧ e ≤ 275 then some (3 * (e - 272), 4, 3)
  else if e = 280 then some (132, 2, 2)
  else if e = 288 then some (134, 2, 2)
  else if e = 292 then some (136, 2, 2)
  else if e = 300 then some (138, 2, 1)
  else if e = 301 then some (139, 2, 1)
  else if e = 302 then some (140, 2, 1)
  else if e = 303 then some (141, 2, 3)
  else none

/-- The edge agents. -/
def edgeAgents : List Nat := [256, 257, 258, 259, 260, 261, 272, 273, 274, 275, 280, 288, 292, 300, 301, 302, 303]

/-- Attach point `k` of an agent: files rise by 12 tiles on the north and south edges, ranks by 1 on the east and west edges. -/
def attachPoint (e k : Nat) : Option (Nat × Nat) :=
  (attachBase e).map (fun a => (a.1 + k * (if a.2.1 = 1 ∨ a.2.1 = 3 then 12 else 1), a.2.1))

/-- The agent at an edge port of a router. -/
def edgeAgentAt (t p : Nat) : Option Nat :=
  edgeAgents.find? (fun e => match attachBase e with
    | some a => (List.range a.2.2).any (fun k => attachPoint e k == some (t, p))
    | none => false)

/-- The key of a router's link. -/
def linkKey (t p : Nat) : Nat := 5 * t + p

/-- The key of the sender at the other end of a router's port. -/
def farKey (t p : Nat) : Nat :=
  match neighbour t p with
  | some n => linkKey n (oppositePort p)
  | none => 1024 + linkKey t p

/-- Route entry `e`. -/
def State.route (s : State) (e : Nat) : Route := Table.get {} s.fabric.routes e

/-- A route entry written. -/
def State.setRoute (s : State) (e : Nat) (r : Route) : State := { s with fabric := { s.fabric with routes := Table.set {} s.fabric.routes e r } }

/-- R287, R320: group `f` rewritten: the logical tiles in ring order, a tile that is loading its role included. -/
def State.rebuildGroup (s : State) (f : Nat) : State :=
  let ids := ((flankTiles f).filter (fun t => (s.tile t).state == .enabled || (s.tile t).state == .loading)).map (fun t => (s.tile t).logical)
  let groups := (List.range 48).foldl
    (fun (g : Table Member) k => Table.set {} g (48 * f + k) (match ids[k]? with
      | some e => { endpoint := e, valid := true }
      | none => {}))
    s.fabric.groups
  { s with fabric := { s.fabric with groups := groups } }

/-- R282, R283: the route tables as they stand at READY: every tile's own logical ID (a spare's too, R320) and the edge agents. -/
def State.initRoutes (s : State) : State :=
  let tiles := (List.range 144).foldl
    (fun (u : State) t => u.setRoute (48 * (t / 48) + tileMember t) { coord := coordByte t, port := 0, count := 0, valid := true }) s
  let agents := edgeAgents.foldl
    (fun (u : State) e => match attachBase e with
      | some a => u.setRoute e { coord := coordByte a.1, port := a.2.1, count := a.2.2 - 1, valid := true }
      | none => u) tiles
  ((agents.rebuildGroup 0).rebuildGroup 1).rebuildGroup 2

/-! ## Words (Tables 8-2, 8-4 to 8-7) -/

/-- Table 8-2: a stitch's header. -/
def stitchHeader (st : Stitch) : Nat :=
  pack [(15, st.tag), (6, st.length), (1, bit st.last), (1, bit st.multicast), (1, bit st.fence), (6, st.kind), (2, st.cls), (12, st.seq), (10, st.source), (10, st.dest)]

/-- Table 8-4: a route table entry. -/
def Route.word (r : Route) : Nat := pack [(8, r.coord), (3, r.port), (2, r.count), (2, 0), (1, bit r.valid)]

/-- Table 8-5: a group member entry. -/
def Member.word (m : Member) : Nat := pack [(10, m.endpoint), (5, 0), (1, bit m.valid)]

/-- Table 8-7: a multicast span. -/
def spanWord (axis line first last : Nat) : Nat := pack [(2, 0), (4, last), (4, first), (4, line), (1, axis)]

/-- The bit that makes the parity of `w` bits even. -/
def evenParity (w n : Nat) : Nat := ((List.range w).map (fun j => bit (flag n j))).sum % 2

/-- Table 8-6: the sideband word of one FCLK: the stitch the link sends, if any, and what its receiver has accepted and freed in the other direction. -/
def Link.sideband (l : Link) (sent : Option QStitch) : Nat :=
  let fwd := match sent with
    | some q => pack [(8, q.hop), (1, 1), (3, q.detours)]
    | none => 0
  let rev := pack [(8, bump 8 l.expected 255), (1, bit l.nakSent), (4, l.freeReq), (4, l.freeRsp), (4, l.freeCtl)]
  pack [(12, fwd), (1, evenParity 12 fwd), (21, rev), (1, evenParity 21 rev)]

/-- A receiver's slot of a class freed again: the stitch has gone on (R298). -/
def Link.freed (l : Link) (cls : Nat) : Link :=
  if cls = 0 then { l with freeReq := bump 4 l.freeReq 1 }
  else if cls = 1 then { l with freeRsp := bump 4 l.freeRsp 1 }
  else { l with freeCtl := bump 4 l.freeCtl 1 }

/-- A control stitch sent. -/
def State.sendCtl (s : State) (kind src dst value : Nat) : State :=
  { s with fabric := { s.fabric with ctl := s.fabric.ctl ++ [{ kind := kind, src := src, dst := dst, value := value }] } }

/-! ## Links: queues, the replay window, slots (R294 to R298) -/

/-- Stitches of a class sent and not yet credited on a link. -/
def Link.used (l : Link) (cls : Nat) : Nat :=
  if cls = 0 then (l.sentReq + 16 - l.credReq) % 16
  else if cls = 1 then (l.sentRsp + 16 - l.credRsp) % 16
  else (l.sentCtl + 16 - l.credCtl) % 16

/-- One more stitch of a class sent. -/
def Link.countSent (l : Link) (cls : Nat) : Link :=
  if cls = 0 then { l with sentReq := bump 4 l.sentReq 1 }
  else if cls = 1 then { l with sentRsp := bump 4 l.sentRsp 1 }
  else { l with sentCtl := bump 4 l.sentCtl 1 }

/-- Queued stitches of a class. -/
def Link.queued (l : Link) (cls : Nat) : Nat := (l.queue.filter (fun q => q.stitch.cls == cls)).length

/-- Stitches leave a link's queue while the replay buffer and the downstream slots allow (R294, R298). -/
def Link.transmit (l : Link) : Nat → Link
  | 0 => l
  | n + 1 =>
    match l.queue with
    | [] => l
    | q :: rest =>
      if l.down || decide (16 ≤ l.replay.length) || decide (8 ≤ l.used q.stitch.cls) then l
      else
        Link.transmit
          ({ l with queue := rest, replay := l.replay ++ [{ q with hop := l.nextSeq }], nextSeq := bump 8 l.nextSeq 1,
                    forwarded := bump 64 l.forwarded 1 }.countSent q.stitch.cls) n

/-- A stitch put into a link's output queue and sent when it may be. -/
def State.enqueue (s : State) (key detours : Nat) (st : Stitch) : State :=
  s.updLink key (fun l =>
    let q := l.queue ++ [{ hop := 0, detours := detours, stitch := st }]
    ({ l with queue := q, depthMax := max l.depthMax q.length }).transmit 16)

/-- An adaptive slot is free downstream: 8 slots a class, the last the escape slot (R298, R299). -/
def Link.adaptive (l : Link) (cls : Nat) : Bool := !l.down && decide (l.used cls + l.queued cls < 7)

/-! ## Spraying and detours (R284, R299 to R301, R314, R315) -/

/-- The router a stitch makes for: its tile, or the attach point its sequence chooses (R284). -/
def State.target (s : State) (st : Stitch) : Option (Nat × Nat) :=
  let r := s.route st.dest
  if !r.valid then none
  else match attachBase st.dest with
    | some a => attachPoint st.dest (st.seq % a.2.2)
    | none => some (coordTile r.coord, 0)

/-- The productive ports from tile `t` toward tile `d`. -/
def productive (t d : Nat) : List Nat :=
  (if t / 12 < d / 12 then [2] else if d / 12 < t / 12 then [4] else [])
    ++ (if t % 12 < d % 12 then [1] else if d % 12 < t % 12 then [3] else [])

/-- UNREACHABLE to a stitch's source (R315). -/
def State.unreachableTo (s : State) (st : Stitch) : State := s.sendCtl 6 st.dest st.source st.seq

/-- Distance between two tiles. -/
def meshDistance (a b : Nat) : Nat := (a / 12 - b / 12) + (b / 12 - a / 12) + ((a % 12 - b % 12) + (b % 12 - a % 12))

/-- The ports of a list with the fewest queued stitches of a class (R299). -/
def State.shortest (s : State) (t cls : Nat) (ps : List Nat) : List Nat :=
  let depth := fun p => (s.link (linkKey t p)).queued cls
  let least := ps.foldl (fun a p => min a (depth p)) (ps.foldl (fun a p => max a (depth p)) 0)
  ps.filter (fun p => depth p == least)

/-- R315: a detour from tile `t`: another mesh port with a free adaptive slot, perpendicular to the blocked direction before others, then the least
occupied; with no slot free it waits at one; a fifth detour discards the stitch. -/
def State.detour (s : State) (t detours : Nat) (blocked : List Nat) (st : Stitch) : State :=
  if 4 ≤ detours then s.unreachableTo st
  else
    let others := [1, 2, 3, 4].filter (fun p => !blocked.contains p && (neighbour t p).isSome && !(s.link (linkKey t p)).down)
    let free := others.filter (fun p => (s.link (linkKey t p)).adaptive st.cls)
    let side := free.filter (fun p => blocked.all (fun b => b % 2 != p % 2))
    match s.shortest t st.cls (if side.isEmpty then (if free.isEmpty then others else free) else side) with
    | [] => s.enqueue (linkKey t (blocked.headD 1)) detours st
    | p :: _ =>
      (s.enqueue (linkKey t p) (detours + 1) st).updLink (linkKey t p) (fun l => { l with detourCount := bump 32 l.detourCount 1 })

/-- One hop: a stitch at router `t` leaves through the local port, the edge port, a productive port, an escape slot or a detour. A stitch for an edge port that is
DOWN makes for another, which counts as one detour where it leaves (R315). -/
def State.forward (s : State) (t detours : Nat) (st : Stitch) : State :=
  match s.target st with
  | none => s.unreachableTo st
  | some (d, port) =>
    let up := fun k p => !(s.link (linkKey k p)).down
    -- R315: an edge port that is DOWN gives way to the agent's nearest attach point whose link is up
    let alt : Option (Nat × Nat) :=
      if port = 0 ∨ up d port then some (d, port)
      else
        let a := (attachBase st.dest).getD (0, 0, 0)
        (((List.range a.2.2).filterMap (attachPoint st.dest)).filter (fun x => up x.1 x.2)).foldl
          (fun (best : Option (Nat × Nat)) x => match best with
            | none => some x
            | some y => if meshDistance t x.1 < meshDistance t y.1 then some x else best) none
    match alt with
    | none => s.unreachableTo st
    | some (k, q) =>
      if t = k then
        if q = 0 then s.updLink (linkKey t 0) (fun l => { l with forwarded := bump 64 l.forwarded 1 })
        else if (k, q) = (d, port) then s.enqueue (linkKey t q) detours st
        else if 4 ≤ detours then s.unreachableTo st
        else (s.enqueue (linkKey t q) (detours + 1) st).updLink (linkKey t q) (fun l => { l with detourCount := bump 32 l.detourCount 1 })
      else
        let ps := productive t k
        let live := ps.filter (fun p => up t p)
        match live with
        | [] => s.detour t detours ps st
        | first :: _ =>
          match s.shortest t st.cls (live.filter (fun p => (s.link (linkKey t p)).adaptive st.cls)) with
          | [] => s.enqueue (linkKey t first) detours st
          | [p] => s.enqueue (linkKey t p) detours st
          | p :: rest =>
            let r := drawFree s
            r.2.enqueue (linkKey t ((p :: rest).getD (r.1 % (rest.length + 1)) p)) detours st

/-! ## Acknowledgement and replay (R295 to R297) -/

/-- A cumulative acknowledgement frees replay entries; an advance clears the replay count. -/
def Link.acked (l : Link) (ack : Nat) : Link :=
  let keep := l.replay.dropWhile (fun q => decide ((ack + 256 - q.hop) % 256 < 16))
  if keep.length = l.replay.length then l else ({ l with replay := keep, replays := 0 }).transmit 16

/-- One replay of everything unacknowledged (R296). -/
def Link.replayAll (l : Link) : Link :=
  if l.down || l.replay.isEmpty then l else { l with replays := l.replays + 1, retries := bump 32 l.retries 1 }

/-- The reverse half of a sideband word: acknowledgement, credits, NAK. -/
def Link.reverse (l : Link) (w : HopWord) : Link :=
  let m := { l with credReq := field w.credits 0 4, credRsp := field w.credits 4 4, credCtl := field w.credits 8 4 }.acked w.ackSeq
  (if w.nak then m.replayAll else m).transmit 16

/-! ## End to end (R302 to R308) -/

/-- Reorder contexts an endpoint has (R303). -/
def contextLimit (e : Nat) : Nat := if e < 144 then 16 else 64

/-- A CREDIT carrying E from `dst` to `src` (R307). -/
def State.credit (s : State) (src dst : Nat) : State :=
  match (s.netif dst).contexts.find? (fun c => c.holder == src) with
  | some c =>
    (s.updNetif dst (fun n => { n with contexts := n.contexts.map (fun (x : Context) => if x.holder == src then { x with credited := x.expected } else x) })).sendCtl
      1 dst src c.expected
  | none => s

/-- A context bound for source `src` expecting `e`, and its CREDIT (R303). -/
def State.bindContext (s : State) (src dst e : Nat) : State :=
  (s.updNetif dst (fun n =>
    { n with contexts := n.contexts ++ [{ holder := src, expected := e, held := [], done := [], credited := e, closing := false, last := s.dt }] })).credit
    src dst

/-- R303: whether a context may be reclaimed: empty, credited, and 1,024 FCLK without an arrival (200 FCLK are 3 ticks). -/
def Context.reclaimable (c : Context) (dt : Nat) : Bool :=
  c.held.isEmpty && c.done.isEmpty && c.credited == c.expected && decide (3 * 1024 ≤ 200 * (dt - c.last))

/-- R303: the least recently used idle context of an endpoint is reclaimed: CLOSE to its holder. -/
def State.reclaimAt (s : State) (dst : Nat) : State :=
  let idle := ((s.netif dst).contexts.filter (fun c => c.reclaimable s.dt && !c.closing)).foldl
    (fun (best : Option Context) c => match best with
      | none => some c
      | some b => if c.last < b.last then some c else best) none
  match idle with
  | some c =>
    (s.updNetif dst (fun x => { x with contexts := x.contexts.map (fun (y : Context) => if y.holder == c.holder then { y with closing := true } else y) })).sendCtl
      4 dst c.holder 0
  | none => s

/-- R303: OPEN at the destination: an existing context answers again, a free one is bound, an idle one is reclaimed, else the OPEN waits. -/
def State.openAt (s : State) (src dst e : Nat) : State :=
  let n := s.netif dst
  if n.contexts.any (fun c => c.holder == src) then s.credit src dst
  else if n.contexts.length < contextLimit dst then s.bindContext src dst e
  else
    (if n.waiting.any (fun w => w.1 == src) then s else s.updNetif dst (fun x => { x with waiting := x.waiting ++ [(src, e)] })).reclaimAt dst

/-- A waiting OPEN takes a context that is free (R303). -/
def State.serveOpen (s : State) (dst : Nat) : State :=
  match (s.netif dst).waiting with
  | [] => s
  | (src, e) :: rest =>
    if (s.netif dst).contexts.length < contextLimit dst then (s.updNetif dst (fun n => { n with waiting := rest })).bindContext src dst e else s

/-- The interfaces at which an OPEN waits for a context. -/
def State.opensWait (s : State) : List Nat := (s.fabric.netifs.filter (fun e => !e.2.waiting.isEmpty)).map (·.1)

/-- R303: OPENs that wait: as many contexts are reclaimed as they need, once contexts have gone idle. -/
def State.serveOpens (s : State) : State :=
  s.opensWait.foldl (fun (t : State) e =>
    let u := t.serveOpen e
    let n := u.netif e
    if (n.contexts.filter (·.closing)).length < n.waiting.length then u.reclaimAt e else u) s

/-- A context and its source's window closed (R308, R318). -/
def State.dropContext (s : State) (src dst : Nat) : State :=
  ((s.updNetif dst (fun n => { n with contexts := n.contexts.filter (fun c => c.holder != src) })).updWindow src dst
    (fun w => { w with isOpen := false, opening := false, closing := false, probeFrom := none, unacked := [], acked := w.seq, openFrom := none, stallFrom := none })).serveOpen dst

/-- The stitch at a sequence, if held. -/
def Context.at (c : Context) (q : Nat) : Option Stitch := c.held.find? (fun st => st.seq == q)

/-- Whether sequence `q` starts a message: it is E, or the sequence before it ended one. -/
def Context.starts (c : Context) (q : Nat) : Bool :=
  let p := (q + 4095) % 4096
  q == c.expected || c.done.contains (p, true) || (match c.at p with
    | some st => st.last
    | none => false)

/-- The stitches of the message that starts at `q`, when all are held. -/
def Context.message (c : Context) : Nat → Nat → Option (List Stitch)
  | _, 0 => none
  | q, n + 1 => match c.at q with
    | none => none
    | some st => if st.last then some [st] else (c.message ((q + 1) % 4096) n).map (fun r => st :: r)

/-- The next message that may be delivered: complete, and at E where it is fenced (R306). -/
def Context.ready (c : Context) : Option (List Stitch) :=
  (List.range 64).findSome? (fun j =>
    let q := (c.expected + j) % 4096
    if c.starts q then
      match c.message q 16 with
      | some (st :: r) => if st.fence && q != c.expected then none else some (st :: r)
      | _ => none
    else none)

/-- E past the delivered sequences at its front. -/
def Context.advance (c : Context) : Nat → Context
  | 0 => c
  | n + 1 => match c.done.find? (fun d => d.1 == c.expected) with
    | some d => Context.advance { c with expected := (c.expected + 1) % 4096, done := c.done.filter (fun x => x != d) } n
    | none => c

/-- R306, R307: messages delivered while any is ready, with the credits they call for. -/
def State.deliverReady (s : State) (src dst : Nat) : Nat → State
  | 0 => s
  | n + 1 =>
    match (s.netif dst).contexts.find? (fun c => c.holder == src) with
    | none => s
    | some c => match c.ready with
      | none => s
      | some ms =>
        let c1 := { c with held := c.held.filter (fun st => !ms.contains st), done := c.done ++ ms.map (fun (st : Stitch) => (st.seq, st.last)) }
        let c2 := c1.advance 64
        let t := s.updNetif dst (fun x => { x with
          contexts := x.contexts.map (fun (y : Context) => if y.holder == src then c2 else y), delivered := x.delivered ++ ms })
        let fenced := (ms.head?.map (·.fence)).getD false
        let due := fenced || decide (16 ≤ (c2.expected + 4096 - c2.credited) % 4096)
        (if due then t.credit src dst else t).deliverReady src dst n

/-- R305, R306, R319: a REQ or RSP stitch at its destination. -/
def State.arriveAt (s : State) (e : Nat) (st : Stitch) : State :=
  match (s.netif e).contexts.find? (fun c => c.holder == st.source) with
  | none => s.updNetif e (fun n => { n with protocolErrors := bump 32 n.protocolErrors 1 })
  | some c =>
    let d := (st.seq + 4096 - c.expected) % 4096
    let held := (c.at st.seq).isSome || c.done.any (fun x => x.1 == st.seq)
    let touch := fun (n : NetIf) => { n with contexts := n.contexts.map (fun (y : Context) => if y.holder == st.source then { y with last := s.dt } else y) }
    if d < 64 ∧ held = false then
      let t := s.updNetif e (fun n => { touch n with
        contexts := n.contexts.map (fun (y : Context) => if y.holder == st.source then { y with held := y.held ++ [st], last := s.dt } else y) })
      t.deliverReady st.source e 64
    else if d < 64 ∨ 4096 - 64 ≤ d then s.updNetif e (fun n => { touch n with duplicates := bump 32 n.duplicates 1 })
    else s.updNetif e (fun n => { touch n with protocolErrors := bump 32 n.protocolErrors 1 })

/-- Whether an endpoint is a logical tile ID no working tile holds (R319). -/
def State.endpointRetired (s : State) (e : Nat) : Bool := decide (e < 144) && (s.logicalTile e).isNone

/-- R319: a stitch at the network interface of a RETIRED tile is discarded and credited as delivered. -/
def State.retiredArrival (s : State) (e : Nat) (st : Stitch) : State :=
  (s.arriveAt e st).updNetif e (fun n => { n with delivered := n.delivered.filter (fun x => x != st) })

/-- R304, R308: a cumulative credit at source `src` from `dst`. The time of a recovery that ends counts neither for the task watchdogs (R622) nor
for the feeders' (R274). -/
def State.creditArrives (s : State) (src dst value : Nat) : State :=
  let w := s.window src dst
  let span := (w.seq + 4096 - w.acked) % 4096
  let step := (value + 4096 - w.acked) % 4096
  if w.isOpen ∧ span < step then s
  else
    let w1 := if w.isOpen then
        { w with acked := value, unacked := w.unacked.filter (fun u => decide (step ≤ (u.1 + 4096 - w.acked) % 4096)),
                 probeFrom := if step = 0 then w.probeFrom else none, since := if step = 0 then w.since else s.dt }
      else { w with isOpen := true, opening := false, acked := value, openFrom := none }
    let waited := fun (n : NetIf) => match w.openFrom with
      | some d => { n with openWaits := bump 64 n.openWaits (fclk (s.dt - d)) }
      | none => n
    let t := (if w.isOpen then s else s.updNetif src waited).updWindow src dst (fun _ => w1)
    match w.probeFrom with
    | some from0 =>
      if step = 0 then t
      else
        let t1 := if 300 ≤ src ∧ src ≤ 303 then t.updFeeder (src - 300) (fun x =>
            { x with requests := x.requests.map (fun r => if wordEndpoint r.addr = some dst then { r with issued := r.issued + (s.dt - from0) } else r) })
          else t
        (List.range 3).foldl (fun (u : State) f => u.updFlank f (fun x =>
          { x with run := x.run.map (fun r => if w.unacked.any (fun y => y.2 == r.id) then { r with paused := r.paused + (s.dt - from0) } else r) })) t1
    | none => t

/-- R308, R315: the source gives a destination up: every operation with an unacknowledged stitch there aborts, and the context is closed. -/
def State.giveUp (s : State) (src dst : Nat) : State :=
  let ops := ((s.window src dst).unacked.map (·.2)).eraseDups.filter (fun o => o != 0)
  let f := if 300 ≤ src ∧ src ≤ 303 then src - 300 else 7
  let t := (s.updNetif src (fun n => { n with unreachable := bump 32 n.unreachable 1 })).dropContext src dst
  ops.foldl (fun (u : State) o => u.abortOp o { kind := 0x08, feeder := f, endpoint := dst, address := dst }) t

/-- R285: whether a network interface may inject toward a destination. -/
def State.canInject (s : State) (dst : Nat) : Bool := (s.route dst).valid

/-- `n` stitches of operation `op` sent from `src` to `dst` (R302): their sequences count as unacknowledged. -/
def State.inject (s : State) (src dst op n : Nat) : State :=
  s.updWindow src dst (fun w => { w with seq := (w.seq + n) % 4096, unacked := w.unacked ++ (List.range n).map (fun j => ((w.seq + j) % 4096, op)),
                                         since := if w.unacked.isEmpty then s.dt else w.since, stallFrom := none })

/-! ## Injection (R284, R290, R302 to R304, R316) -/

/-- Where a source injects the stitch with sequence `q`: a tile at its router's local port, an edge agent at the attach point the sequence chooses among those whose links
are up. -/
def State.injectKey (s : State) (src q : Nat) : Option Nat :=
  match attachBase src with
  | none => if (s.route src).valid then some (farKey (coordTile (s.route src).coord) 0) else none
  | some a =>
    let points := (List.range a.2.2).filterMap (attachPoint src)
    let up := fun (x : Nat × Nat) => !(s.link (farKey x.1 x.2)).down && !(s.link (linkKey x.1 x.2)).down
    match (points[q % a.2.2]?).filter up with
    | some x => some (farKey x.1 x.2)
    | none => (points.find? up).map (fun x => farKey x.1 x.2)

/-- A message of operation `op`: `n` stitches with consecutive sequences enter the fabric, the last marked (R290). What their payloads hold is internal to the device
(R292): free values of what they carry (log 119). -/
def State.sendMessage (s : State) (src dst op cls kind tag n : Nat) (content : Nat) : State :=
  let w := s.window src dst
  let sts := (List.range n).map (fun j => ({
    dest := dst, source := src, seq := (w.seq + j) % 4096, cls := cls, kind := kind, fence := false, multicast := false, last := j + 1 == n,
    length := Config.payloadLength cls kind j % 33, tag := tag, payload := (Config.payload content j).toNat } : Stitch))
  let t := (s.inject src dst op n).updNetif src (fun x => match w.stallFrom with
    | some d => { x with windowStalls := bump 64 x.windowStalls (fclk (s.dt - d)) }
    | none => x)
  sts.foldl (fun u st => match u.injectKey src st.seq with
    | some k => u.enqueue k 0 st
    | none => u) t

/-- A message waits for its source's window (R304). -/
def State.windowWaits (s : State) (src dst : Nat) : State := s.updWindow src dst (fun w => { w with stallFrom := some (w.stallFrom.getD s.dt) })

/-! ## Links that go DOWN (R313, R314, R316) -/

/-- R313: the FABRIC_LINK event and the journal entry of one link. -/
def State.linkRecord (s : State) (t p : Nat) : State :=
  let near := match neighbour t p with
    | some n => coordByte n
    | none => 255
  let agent := (edgeAgentAt t p).getD 0
  (s.journalWrite { JEntry.blank 0x22 with coord := coordByte t, detail := pack [(8, near), (10, agent), (3, p)] }).postAll 0x8011
    (pack [(8, coordByte t), (8, near), (10, agent), (3, p)])

/-- R316: whether an agent has an attach link left. -/
def State.agentAttached (s : State) (e : Nat) : Bool :=
  match attachBase e with
  | some a => ((List.range a.2.2).filterMap (attachPoint e)).any (fun x => !(s.link (linkKey x.1 x.2)).down)
  | none => true

/-- R316: an agent cut off: a flank feeder takes its flank out of service, any other agent is a FATAL device fault. -/
def State.agentCut (s : State) (e : Nat) : State :=
  if s.agentAttached e then s
  else if 300 ≤ e ∧ e ≤ 302 then
    let f := e - 300
    let t := (s.degradedFault 6).updFlank f (fun x => { x with cut := true, state := .outOfService })
    let u := match (t.flank f).run with
      | some r => t.abortOpAs r.id { kind := 0x08, feeder := f } 4
      | none => t
    (u.rebind f).1.dispatchAll
  else s.fatalFault 3 0

/-- R313, R314: a link goes DOWN in both directions, once; what it held is routed again from each end, an edge agent's stitches from another of its
attach points. -/
def State.linkDown (s : State) (t p : Nat) : State :=
  if (s.link (linkKey t p)).down then s
  else
    let mine := s.link (linkKey t p)
    let far := s.link (farKey t p)
    let close := fun (l : Link) => { l with down := true, replay := [], queue := [], replays := 0, nakSent := false }
    let u := ((s.updLink (linkKey t p) close).updLink (farKey t p) close).linkRecord t p
    let v := (mine.replay ++ mine.queue).foldl (fun (w : State) q => w.forward t q.detours q.stitch) u
    match neighbour t p with
    | some n => (far.replay ++ far.queue).foldl (fun (w : State) q => w.forward n q.detours q.stitch) v
    | none => match edgeAgentAt t p with
      | some e => (far.replay ++ far.queue).foldl (fun (w : State) q => match w.injectKey e q.stitch.seq with
          | some k => w.enqueue k q.detours q.stitch
          | none => w) (v.agentCut e)
      | none => v

/-! ## Windows -/

/-- Whether a window admits `n` more stitches (R304). -/
def Window.room (w : Window) (n : Nat) : Bool := w.isOpen && !w.closing && decide ((w.seq + 4096 - w.acked) % 4096 + n ≤ 64)

/-- R303: a source without a context sends OPEN. -/
def State.wantContext (s : State) (src dst : Nat) : State :=
  let w := s.window src dst
  if w.isOpen ∨ w.opening then s else (s.updWindow src dst (fun x => { x with opening := true, openFrom := some s.dt })).sendCtl 3 src dst w.seq

/-! ## What arrives -/

/-- HOP_RECEIVE (R293 to R300, R313): one sideband word, with the stitch it may carry, at port `port` of router `tile`. -/
def State.hopReceive (s : State) (tile port : Nat) (word : HopWord) : State :=
  let key := linkKey tile port
  if (s.link key).down then s
  else
    let far := farKey tile port
    let injected := if word.stitch.isSome then (s.link far).inject else 0
    let s0 := if injected = 0 then s else s.updLink far (fun l => { l with inject := 0 })
    let s1 := if injected = 0 ∨ 4 < injected then s0
      else s0.journalWrite { JEntry.blank 0x30 with coord := coordByte tile, injected := true, detail := 5 }
    let errors := word.byteErrors + injected
    let s2 := s1.updLink key (fun l =>
      let m := if word.revParity then l.reverse word else l
      { m with invalid := if word.fwdParity && word.revParity then 0 else m.invalid + 1 })
    match word.stitch with
    | none => s2
    | some st =>
      let l := s2.link key
      if word.fwdParity = false ∨ 4 < errors then
        (s2.updLink key (fun m => { m with uncorrectable := bump 32 m.uncorrectable 1, nakSent := true }))
      else
        let s3 := if errors = 0 then s2 else s2.updLink key (fun m => { m with corrections := bump 64 m.corrections 1 })
        if word.hopSeq = l.expected then
          let t := s3.updLink key (fun m => { m with expected := bump 8 m.expected 1, nakSent := false }.freed st.cls)
          (if st.multicast then t else t.forward tile word.detours st)
        else if (l.expected + 255 - word.hopSeq) % 256 < 16 then
          (s3.updLink key (fun m => { m with hopDuplicates := bump 32 m.hopDuplicates 1 }))
        else (s3.updLink key (fun m => { m with nakSent := true }))

/-- NAK (R296): the sender at a router's port replays what follows ACK_SEQ. -/
def State.nakArrives (s : State) (tile port ackSeq : Nat) : State :=
  (s.updLink (linkKey tile port) (fun l => (l.acked ackSeq).replayAll))

/-- HOP_ACK_TIMEOUT (R296): 32 FCLK without an acknowledgement: everything unacknowledged is replayed. -/
def State.hopAckTimeout (s : State) (tile port : Nat) : State :=
  (s.updLink (linkKey tile port) Link.replayAll)

/-- LINK_GIVE_UP (R297): after 6 replays without progress the link goes DOWN. -/
def State.linkGiveUp (s : State) (tile port : Nat) : State :=
  (if 6 ≤ (s.link (linkKey tile port)).replays then s.linkDown tile port else s)

/-- INVALID_SIDEBAND_LIMIT (R313): 64 consecutive invalid words take the link DOWN. -/
def State.sidebandLimit (s : State) (tile port : Nat) : State :=
  (if 64 ≤ (s.link (linkKey tile port)).invalid then s.linkDown tile port else s)

/-- E2E_STITCH_ARRIVAL (R305 to R307, R319): a REQ or RSP stitch reaches its destination. -/
def State.stitchArrives (s : State) (endpoint : Nat) (st : Stitch) : State :=
  (if 2 ≤ st.cls then s
         else if s.endpointRetired endpoint then s.retiredArrival endpoint st
         else s.arriveAt endpoint st)

/-- CREDIT (R304, R308, R309): a cumulative credit at the source; with the multicast flag it credits multicast stitches. -/
def State.creditReceived (s : State) (src dst value : Nat) (multicast : Bool) : State :=
  (if multicast then
      s.updNetif src (fun n => { n with mcastUnacked := n.mcastUnacked.filter (fun q => decide (2048 ≤ (value + 4096 - 1 - q) % 4096)) })
    else s.creditArrives src dst value)

/-- CREDIT_TIMER (R307): an uncredited advance of 64 FCLK is credited. -/
def State.creditTimer (s : State) (src dst : Nat) : State :=
  (match (s.netif dst).contexts.find? (fun c => c.holder == src) with
    | some c => if c.expected = c.credited then s else s.credit src dst
    | none => s)

/-- OPEN (R303): a source asks for a reorder context; it carries the source's next sequence. -/
def State.openReceived (s : State) (src dst : Nat) : State := (s.openAt src dst (s.window src dst).seq)

/-- CLOSE (R303): the holder answers CLOSE_ACK once it has no unacknowledged stitch, and must OPEN again. -/
def State.closeReceived (s : State) (src dst : Nat) : State :=
  let w := s.window src dst
  (if w.unacked.isEmpty then
      (s.updWindow src dst (fun x => { x with isOpen := false, opening := false, closing := false })).sendCtl 5 src dst 0
    else s.updWindow src dst (fun x => { x with closing := true }))

/-- CLOSE_ACK (R303): the context is free again, and a waiting OPEN takes it. -/
def State.closeAckReceived (s : State) (src dst : Nat) : State :=
  (if (s.netif dst).contexts.any (fun c => c.holder == src && c.closing) then
      (s.updNetif dst (fun n => { n with contexts := n.contexts.filter (fun c => c.holder != src), reclaims := bump 32 n.reclaims 1 })).serveOpen dst
    else s)

/-- PROBE (R307): the destination answers with a CREDIT. -/
def State.probeReceived (s : State) (src dst : Nat) : State := (s.credit src dst)

/-- PROBE_TIMER (R308): 2,048 FCLK without credit progress: a PROBE; the first starts a credit recovery. -/
def State.probeTimer (s : State) (src dst : Nat) : State :=
  (if (s.window src dst).unacked.isEmpty || decide (200 * (s.dt - (s.window src dst).since) < 3 * 2048) then s
    else ((s.updWindow src dst (fun w => { w with probeFrom := some (w.probeFrom.getD s.dt), since := s.dt })).updNetif src
      (fun n => { n with probes := bump 32 n.probes 1 })).sendCtl 2 src dst 0)

/-- PROBE_GIVE_UP (R308): 8,192 FCLK after the first PROBE: FABRIC_UNRECOVERABLE and the context is closed. -/
def State.probeGiveUp (s : State) (src dst : Nat) : State :=
  (match (s.window src dst).probeFrom with
    | some t => if 3 * 8192 ≤ 200 * (s.dt - t) then s.giveUp src dst else s
    | none => s)

/-- UNREACHABLE (R315): the source learns that a stitch was discarded, and gives the destination up at once. -/
def State.unreachableReceived (s : State) (src dst sequence : Nat) : State :=
  (if (s.window src dst).unacked.any (fun u => u.1 == sequence) then s.giveUp src dst
         else s.updNetif src (fun n => { n with unreachable := bump 32 n.unreachable 1 }))

/-- The next router of a multicast path from tile `t` (R310): toward the line, then along it from FIRST to LAST; none at LAST. -/
def spanNext (span t : Nat) : Option Nat :=
  let line := field span 10 4
  let first := field span 6 4
  let last := field span 2 4
  let across := if flag span 14 then t % 12 else t / 12
  let along := if flag span 14 then t / 12 else t % 12
  let stepAcross := if flag span 14 then (if across < line then 1 else 3) else (if across < line then 2 else 4)
  let stepAlong := if flag span 14 then (if first ≤ last then 2 else 4) else (if first ≤ last then 1 else 3)
  if across ≠ line then some stepAcross else if along = last then none else some stepAlong

/-- Whether a tile lies on a multicast span. -/
def onSpan (span t : Nat) : Bool :=
  let line := field span 10 4
  let first := field span 6 4
  let last := field span 2 4
  let across := if flag span 14 then t % 12 else t / 12
  let along := if flag span 14 then t / 12 else t % 12
  across == line && decide (min first last ≤ along ∧ along ≤ max first last)

/-- R310: the attach router of stack `k` through which a multicast to file `file` leaves: the nearest to that file, the lower index on a tie. -/
def mcastEntry (k file : Nat) : Nat :=
  let points := (List.range 4).filterMap (attachPoint (256 + k))
  let far := fun (t : Nat) => (t / 12 - file) + (file - t / 12)
  ((points.foldl (fun (best : Option Nat) x => match best with
    | none => some x.1
    | some b => if far x.1 < far b then some x.1 else best) none).getD 0)

/-- The span of stack `k`'s multicast to ranks `lo` to `hi` (less 1) of file `file`, FIRST the end nearer the attach point (R310). -/
def mcastSpan (k file lo hi : Nat) : Nat :=
  let r := mcastEntry k file % 12
  let far := fun (x : Nat) => (x - r) + (r - x)
  if far hi < far lo then spanWord 0 file hi lo else spanWord 0 file lo hi

/-- The links a multicast crosses from router `t` on. -/
def spanLinks (span t : Nat) : Nat → List Nat
  | 0 => []
  | n + 1 => match spanNext span t with
    | none => []
    | some p => linkKey t p :: (match neighbour t p with
      | some u => spanLinks span u n
      | none => [])

/-- R312: whether a multicast from stack `k` crosses a link that a multicast has found DOWN. -/
def State.mcastCut (s : State) (k file lo hi : Nat) : Bool := (spanLinks (mcastSpan k file lo hi) (mcastEntry k file) 24).any s.fabric.unicast.contains

/-- R309: a DATA message of `n` stitches multicast by stack `k`, if its 64 unacknowledged stitches leave room; the feeder's tag is in the first payload. -/
def State.sendMulticast (s : State) (k file lo hi tag n content : Nat) : Option State :=
  let x := s.netif (256 + k)
  if 64 < x.mcastUnacked.length + n then none
  else
    let span := mcastSpan k file lo hi
    let sts := (List.range n).map (fun j => ({
      dest := 1023, source := 256 + k, seq := (x.mcastSeq + j) % 4096, cls := 1, kind := 1, fence := false, multicast := true, last := j + 1 == n,
      length := Config.payloadLength 1 1 j % 33, tag := span, payload := if j = 0 then tag else (Config.payload content j).toNat } : Stitch))
    let t := s.updNetif (256 + k) (fun y => { y with mcastSeq := (y.mcastSeq + n) % 4096, mcastUnacked := y.mcastUnacked ++ sts.map (·.seq) })
    let e := mcastEntry k file
    some (sts.foldl (fun u st => u.enqueue (farKey e (((attachBase (256 + k)).map (·.2.1)).getD 1)) 0 st) t)

/-- MULTICAST_STITCH (R310 to R312): a router on the path delivers the stitch to its tile, forwards it, or returns the multicast CREDIT at LAST. -/
def State.multicastAt (s : State) (tile : Nat) (st : Stitch) : State :=
  let x := s.tile tile
  let t := if onSpan st.tag tile && (x.state == .enabled || x.state == .loading)
    then s.updNetif x.logical (fun n => { n with delivered := n.delivered ++ [st] }) else s
  match spanNext st.tag tile with
  | none => (t.sendCtl 1 1023 st.source ((st.seq + 1) % 4096))
  | some p =>
    if (t.link (linkKey tile p)).down then
      let f := if 300 ≤ st.source ∧ st.source ≤ 303 then st.source - 300 else 7
      let op := ((t.feeder f).requests.find? (fun r => r.tag == st.payload % 65536)).map (·.op)
      let u := { t with fabric := { t.fabric with unicast := t.fabric.unicast ++ [linkKey tile p] } }
      (match op with
        | some o => (u.unreachableTo st).abortOp o { kind := 0x08, feeder := f, endpoint := 1023, detail := st.payload % 65536 }
        | none => u.unreachableTo st)
    else (t.enqueue (linkKey tile p) 0 st)

/-- NOTICE (R317, R319): an endpoint receives a notice; a fenced one is covered by a CREDIT at once (R307). -/
def State.noticeReceived (s : State) (endpoint : Nat) (st : Stitch) : State :=
  (if s.endpointRetired endpoint then s.retiredArrival endpoint st else s.arriveAt endpoint st)

end Sys2Proof.Machine
end

