-- ==== Sys2Proof/Machine/Repair.lean ====
section
/-!
DEFINITION. Machine/Repair.lean: tile retirement and repair (R114 to R123, R317 to R320, R634), flank resets (R586), re-layouts (R501), and what a tile
does within a task (R99, R104, R133 to R149, R158 to R165, R200, R201).
-/
namespace Sys2Proof.Machine

/-! ## Flank reset (R586) -/

/-- Staging, activation and page-cache regions and needles of a tile emptied. -/
def Tile.emptied (t : Tile) : Tile :=
  { t with acc := [], act := [], vec := [], task := 0, attended := [], reads := [], fetched := [], needles := [], frames := [], waits := [], invalidating := [] }

/-- R586: tasks abort, barriers return to FREE, tile regions empty, the directory forgets the flank's holders; state store slots stay. -/
def State.flankReset (s : State) (f : Nat) : State :=
  let t := match (s.flank f).run with
    | some r =>
      let u : State := { s with ops := s.ops.map (fun (o : Operation) => if o.id == r.id then { o with aborted := true } else o) }
      (u.dropRequests r.id).abortTask f 4
    | none => s
  let u := (flankTiles f).foldl (fun (v : State) k => v.updTile k Tile.emptied) t
  let v := { u with barriers := Table.clear (fun k => k / 256 == f) u.barriers }
  (flankTiles f).foldl (fun (w : State) k => if (w.tile k).logical = 255 then w else w.clearHolder (w.tile k).logical f) v

/-! ## Retirement (R117 to R122) -/

/-- The lowest-numbered spare of flank `f` still unused (R118). -/
def State.nextSpare (s : State) (f : Nat) : Option Nat :=
  ((List.range 4).map (fun k => memberTile f (44 + k))).find? (fun t => (s.tile t).state == .spare)

/-- Table 17-4's ENDPOINT of a tile, from the logical ID it holds (Table 3-7). -/
def holderId (logical : Nat) : Nat := if logical = 255 then 1023 else logical

/-- A per-partition list with `n`'s entry raised by `k`. -/
def addAt (xs : List Nat) (n k : Nat) : List Nat := (List.range 4).map (fun j => xs.getD j 0 + if j = n then k else 0)

/-- R117 steps 1 to 3: tile `t` is RETIRED, the flank's task aborts, streams in it or with slots on the tile frog; a drain begins unless one runs. -/
def State.retire (s : State) (t : Nat) (injected : Bool) : State :=
  let f := t / 48
  let x := s.tile t
  if x.state = .retired then s
  else
    let logical := x.logical
    let s1 := (((s.stallEnds t).moveTile t .retired).updTile t (fun y => { y.emptied with logical := 255, residue := .none })).journalWrite
      { JEntry.blank 0x13 with coord := coordByte t, endpoint := holderId logical, recovery := Recovery.frog.code, detail := logical, injected := injected }
    let items := match (s.flank f).run with
      | some r => r.items
      | none => []
    let lostKeys := (s.slots.filter (fun k => k.2.2 == t)).map (fun k => (k.1, k.2.1))
    let s2 := match (s.flank f).run with
      | some r =>
        let u : State := { s1 with ops := s1.ops.map (fun (o : Operation) => if o.id == r.id then { o with aborted := true } else o) }
        (u.dropRequests r.id).abortTask f 5
      | none => s1
    let s3 := lostKeys.foldl (fun (u : State) k => u.updSect k.1 k.2 (fun y => { y with home := some logical })) (s2.frogAll lostKeys 5)
    let keys := (items.map (fun it => (it.stage, it.obj)) ++ lostKeys).eraseDups
    let rerun := keys.foldl (fun acc k => addAt acc (s3.stream (s3.objStream k.1 k.2)).part (s3.sect k.1 k.2).again.length) [0, 0, 0, 0]
    let aborted := (List.range 4).map (fun n => bit (items.any (fun it => it.part == n)))
    let rep : Retire := { tile := t, logical := logical, spare := 255, moved := 0, aborted := aborted, rerun := rerun,
                          left := items.map (fun it => (it.stage, it.obj, it.row)), selfTest := false }
    s3.updFlank f (fun y =>
      { y with
        state := if y.state = .operational then .repairing else y.state,
        repair := if y.repair = .none then .draining else y.repair,
        drainStart := some (y.drainStart.getD s.dt),
        queue := y.queue ++ [t], reports := y.reports ++ [rep], retirements := bump 64 y.retirements 1 })

/-- Whether a chunk still has to complete or fall (R634). -/
def State.chunkOpen (s : State) (k : Stage × Nat × Nat) : Bool :=
  let x := s.sect k.1 k.2.1
  let i := s.objStream k.1 k.2.1
  let b := s.branch k.2.1
  x.valid && !earlier32 k.2.2 x.next && (s.stream i).state != .closed && (s.stream i).state != .bindingOff &&
    (k.1 == .encode || (b.state == .active && !b.skipped.contains k.2.2))

/-- The code of a flank's state (Table 14-13). -/
def FlankState.code : FlankState → Nat
  | .operational => 0
  | .repairing => 1
  | .outOfService => 2

/-- R121: TILE_RETIRED to every partition, with the enabled tiles and the state the flank had after this repair. -/
def State.postRetired (s : State) (f : Nat) (r : Retire) : State :=
  let fs := r.after.getD (s.enabledTiles f, (s.flank f).state.code)
  (List.range 4).foldl
    (fun (u : State) n => u.post n 0x8010 0
      (pack [(8, coordByte r.tile), (8, r.spare), (6, fs.1), (2, fs.2), (8, r.moved), (16, r.aborted.getD n 0), (32, r.rerun.getD n 0)])) s

/-- R634 item 5: reports of finished repairs whose every aborted chunk has completed or fallen are posted. -/
def State.reportRetires (s : State) : State :=
  (List.range 3).foldl
    (fun (t : State) f =>
      let x := t.flank f
      let due := x.reports.filter (fun r => !r.selfTest && !x.queue.contains r.tile && !r.left.any t.chunkOpen)
      due.foldl (fun (u : State) r => u.postRetired f r)
        (if due.isEmpty then t else t.updFlank f (fun y => { y with reports := y.reports.filter (fun r => !due.contains r) }))) s

/-- What a finished repair of tile `t` adds to its report: the spare, the bindings moved, and the flank as this repair leaves it, REPAIRING still where another follows. -/
def State.noteRepair (s : State) (f t spare moved : Nat) : State :=
  let x := s.flank f
  let left := (s.enabledTiles f, if x.state = .outOfService then 2 else if x.queue.all (fun k => k == t) then 0 else 1)
  s.updFlank f (fun x => { x with reports := x.reports.map (fun r => if r.tile == t then { r with spare := spare, moved := r.moved + moved, after := some left } else r) })

/-- R120: a flank with fewer than 40 enabled tiles goes OUT_OF_SERVICE and its bindings are rebound; retirements that wait there go on. -/
def State.outOfService (s : State) (f t : Nat) : State :=
  let u := s.updFlank f (fun x =>
    let q := x.queue.filter (fun k => k != t)
    { x with state := .outOfService, queue := q, repair := if q.isEmpty then .none else .draining, drainStart := if q.isEmpty then none else some s.dt })
  let r := u.rebind f
  (r.1.noteRepair f t 255 r.2).dispatchAll

/-- The binding slices of flank `f` for its enabled tiles, and those that no longer fit moved to streamed mode (R119). The count moved. -/
def State.reslice (s : State) (f n : Nat) : State × Nat :=
  let bs := (s.flank f).bindings.map (fun b => { b with sliceBytes := ((s.content b.content).pkg.map (fun k => largestSlice k n)).getD b.sliceBytes })
  let r := refit (s.weightRegion f (neededAct bs)) 0 bs
  (s.updFlank f (fun x => { x with bindings := r.1 }), r.2)

/-- R317 steps 2 and 3: no tag's request or data names an endpoint, no stitch is held there and every window toward it is acknowledged. -/
def State.endpointIdle (s : State) (e : Nat) : Bool :=
  (s.netif e).contexts.all (fun c => c.held.isEmpty) && s.fabric.windows.all (fun w => w.1 % 1024 != e || w.2.acked == w.2.seq) &&
    (List.range 4).all (fun f => (s.feeder f).requests.all (fun r => wordEndpoint r.addr != some e && wordEndpoint r.other != some e))

/-- The repair in progress on flank `f`: its tile and the logical ID it held. -/
def State.repairOf (s : State) (f : Nat) : Option (Nat × Nat) :=
  match (s.flank f).queue with
  | [] => none
  | t :: _ => ((s.flank f).reports.find? (fun r => r.tile == t)).map (fun r => (t, r.logical))

/-- R117 steps 5 and 6, R320: bypass, routes, the directory's holder fields; a spare starts loading, or the flank is re-sliced, or goes out of service. -/
def State.drained (s : State) (f t logical : Nat) : State :=
  let s1 := (s.updTile t (fun x => { x with bypass := true })).clearHolder logical f
  let s2 := s1.updFlank f (fun x => { x with drainStart := none })
  match s2.nextSpare f with
  | some sp =>
    let own := 48 * f + tileMember sp
    let s3 := (s2.moveTile sp .loading).updTile sp (fun x => { x with logical := logical, bypass := false })
    let s4 := (s3.setRoute logical { (s3.route logical) with coord := coordByte sp }).setRoute own { (s3.route own) with valid := false }
    (s4.rebuildGroup f).updFlank f (fun x => { x with repair := .loadingSpare sp })
  | none =>
    let s3 := (s2.setRoute logical { (s2.route logical) with valid := false }).rebuildGroup f
    if s3.enabledTiles f < 40 then s3.outOfService f t
    else
      let s4 := s3.flankReset f
      ((s4.ring f).foldl (fun (u : State) k => u.moveTile k .loading) s4).updFlank f (fun x => { x with repair := .reslicing })

/-- The repair of the queue's first tile is complete: the next repair begins, or the flank's streams are restored (R117 step 7). -/
def State.repairDone (s : State) (f : Nat) : State :=
  s.updFlank f (fun x =>
    let q := x.queue.drop 1
    if q.isEmpty then { x with queue := q, repair := if x.state = .outOfService then .none else .restoring }
    else { x with queue := q, repair := .draining, drainStart := some s.dt })

/-- Whether a flank still restores: a lost section of it is being read into its slot, or waits for streams that commit before they leave their slots. -/
def State.restoring (s : State) (f : Nat) : Bool :=
  let lost := (s.streams.flatMap (fun e => s.sectsOf e.1)).filter (fun k => s.flankOf k.1 k.2 == f && (s.sect k.1 k.2).lost)
  lost.any (fun k => (s.sect k.1 k.2).tile.isSome) ||
    (!lost.isEmpty && s.streams.any (fun e => e.2.castingOut.isSome && (s.sectsOf e.1).any (fun k => s.flankOf k.1 k.2 == f)))

/-- R117 step 8: with the streams restored that there is room for, the flank is OPERATIONAL and dispatch resumes. -/
def State.resumeFlank (s : State) (f : Nat) : State :=
  if (s.flank f).repair ≠ .restoring ∨ s.restoring f = true then s
  else
    let t := s.updFlank f (fun x => { x with repair := .none, state := if x.state = .outOfService then x.state else .operational })
    (if (t.flank f).state == .operational then t.rebindWaiting else t).dispatchAll

/-- The steps of repairs that follow any change: restores take their slots in deadline order, and flanks whose restores are made resume (R117 steps 7 and 8). -/
def State.serveRepairs (s : State) : State := (((s.serveRestores).resumeFlank 0).resumeFlank 1).resumeFlank 2

/-- DRAIN_COMPLETE: with no stitch in flight toward the retired tile's ID. -/
def State.drainComplete (s : State) (f : Nat) : State :=
  match (s.flank f).repair, s.repairOf f with
  | .draining, some (t, logical) => if s.endpointIdle logical then s.drained f t logical else s
  | _, _ => s

/-- DRAIN_TIMEOUT (R318): 1.9 ms (46,695 ticks) into the drain the remaining contexts close, their stitches are discarded and their operations abort. -/
def State.drainTimeout (s : State) (f : Nat) : State :=
  match (s.flank f).repair, s.repairOf f, (s.flank f).drainStart with
  | .draining, some (_, logical), some start =>
    if s.dt < start + 46695 then s
    else
      let srcs := (((s.netif logical).contexts.map (fun (c : Context) => c.holder))
        ++ (s.fabric.windows.filter (fun (w : Nat × Window) => w.1 % 1024 == logical && w.2.acked != w.2.seq)).map (fun (w : Nat × Window) => w.1 / 1024)).eraseDups
      srcs.foldl (fun (u : State) src =>
        let ops := ((u.window src logical).unacked.map (fun (y : Nat × Nat) => y.2)).eraseDups.filter (fun o => o != 0)
        ops.foldl (fun (v : State) o => v.abortOp o { kind := 0x08, feeder := if 300 ≤ src ∧ src ≤ 303 then src - 300 else 7, endpoint := logical, address := logical })
          (u.dropContext src logical)) s
  | _, _, _ => s

/-- SPARE_LOADED (R117, Table 3-5): the spare is ENABLED. -/
def State.spareLoaded (s : State) (f : Nat) : State :=
  match (s.flank f).repair, s.repairOf f with
  | .loadingSpare sp, some (t, _) =>
    (((s.moveTile sp .enabled).rebuildGroup f).noteRepair f t (coordByte sp) 0).repairDone f
  | _, _ => s

/-- RESLICE_LOADED (R119): the re-sliced bindings are loaded on the remaining tiles. -/
def State.resliceLoaded (s : State) (f : Nat) : State :=
  match (s.flank f).repair, s.repairOf f with
  | .reslicing, some (t, _) =>
    let u := (flankTiles f).foldl (fun (v : State) k => if (v.tile k).state = .loading then v.moveTile k .enabled else v) s
    let z := u.updFlank f (fun x => { x with bindings := x.bindings.map (fun b => { b with loaded := true }) })
    let r := z.reslice f (z.enabledTiles f)
    ((r.1.rebuildGroup f).noteRepair f t 255 r.2).repairDone f
  | _, _ => s

/-- R122: tiles that fail the self-test: first the failing spares, then failing enabled tiles in ascending member order, each handing its role to the lowest
spare that passed and is unused, which loads nothing, no binding being made yet (Table 3-5). Journal entries now; TILE_RETIRED at READY. -/
def State.selfTestRetire (s : State) (f : Nat) (failing : List Nat) : State :=
  let here := failing.filter (fun t => t / 48 == f)
  let spares := (List.range 4).map (fun k => memberTile f (44 + k)) |>.filter (fun t => here.contains t)
  let members := (List.range 44).map (fun m => memberTile f m) |>.filter (fun t => here.contains t)
  let one := fun (u : State) (t : Nat) =>
    let x := u.tile t
    let logical := x.logical
    let v := ((u.moveTile t .retired).updTile t (fun y => { y with logical := 255, bypass := true })).journalWrite
      { JEntry.blank 0x13 with coord := coordByte t, endpoint := holderId logical, detail := logical + 256 }
    let sp := if x.state = .spare then none else v.nextSpare f
    let w := match sp with
      | some k => (v.moveTile k .loading).updTile k (fun y => { y with logical := logical, bypass := false })
      | none => v
    let z := match sp with
      | some k => w.moveTile k .enabled
      | none => w
    z.updFlank f (fun y => { y with
      retirements := bump 64 y.retirements 1,
      reports := y.reports ++ [{ tile := t, logical := logical, spare := (sp.map coordByte).getD 255, moved := 0, aborted := [0, 0, 0, 0],
                                 rerun := [0, 0, 0, 0], left := [], selfTest := true,
                                 after := some (z.enabledTiles f, if z.enabledTiles f < 40 then 2 else 0) }] })
  let t := (spares ++ members).foldl one s
  if t.enabledTiles f < 40 then t.updFlank f (fun x => { x with state := .outOfService }) else t

/-! ## Re-layout (R501) -/

/-- RELAYOUT: after the running task ends the tile stores of flank `f` are laid out anew; dispatch pauses. -/
def State.relayoutStart (s : State) (f : Nat) : State :=
  let x := s.flank f
  if x.relayoutWait = false ∨ x.run ≠ none ∨ x.relayout ≠ none ∨ x.state ≠ .operational then s
  else (s.flankReset f).updFlank f (fun y => { y with relayout := some s.dt, relayoutWait := false })

/-- RELAYOUT_DONE: the new layout stands and dispatch resumes. -/
def State.relayoutDone (s : State) (f : Nat) : State :=
  if (s.flank f).relayout = none then s
  else ((s.updFlank f (fun x => { x with relayout := none, act := neededAct x.bindings, cache := s.site.cache f, relayouts := bump 64 x.relayouts 1 })).layoutCheck
    f).dispatch f

/-! ## Block products (R114 to R116) -/

/-- One result added to an accumulator with its bounds: a sum beyond one stays at that bound (R133, R134). -/
def addTo (b : Int × Int) (a : Int × Bool) (y : Int) : Int × Bool :=
  let v := a.1 + y
  if a.2 then a else if v < b.1 then (b.1, true) else if b.2 < v then (b.2, true) else (v, false)

/-- A block product's results added to the accumulators, missing ones starting at 0. -/
def addBlock (b : Int × Int) : List (Int × Bool) → List Int → List (Int × Bool)
  | a :: as, y :: ys => addTo b a y :: addBlock b as ys
  | [], y :: ys => addTo b (0, false) y :: addBlock b [] ys
  | as, [] => as

/-- Accumulators that have saturated. -/
def saturatedCount (xs : List (Int × Bool)) : Nat := (xs.filter (·.2)).length

/-- A tile that begins to work for operation `id`: what another task left in its accumulators, buffers and reads is no part of it (R153). -/
def Tile.forTask (k : Tile) (id : Nat) : Tile :=
  if k.task = id then k else { k with task := id, acc := [], act := [], vec := [], attended := [], reads := [], fetched := [] }

/-- A block's results added at tile `t` to the accumulators of the reduction in progress, or to those of a new one, which start at 0; each that saturates counts once
(R133, R134). -/
def State.addProduct (s : State) (t id : Nat) (f : NumFormat) (begins : Bool) (y : List (List Int)) : State :=
  s.updTile t (fun j =>
    let k := j.forTask id
    let old := if begins then [] else k.acc
    let acc := addBlock (accBounds f) old y.flatten
    { k with acc := acc, accSaturations := bump 64 k.accSaturations (saturatedCount acc - saturatedCount old) })

/-- The operation a tile's block product belongs to: the task its flank runs, or none on a tile that loads and only checks (R123). -/
def State.productTask (s : State) (t : Nat) : Option (Option Nat) :=
  match (s.tile t).state, (s.flank (t / 48)).run with
  | .enabled, some r => some (some r.id)
  | .loading, _ => some none
  | _, _ => none

/-- BLOCK_PRODUCT: the product checked, run again once on a mismatch, then added; a second mismatch retires the tile, one that loads among them (Table 3-5). An N8F block is given by its
integer images. -/
def State.blockStep (s : State) (t : Nat) (f : NumFormat) (begins : Bool) (x w first again : List (List Int)) : State :=
  let armed := (s.tile t).residue
  let ok1 := residueOk x w first && armed == .none
  match s.productTask t with
  | none => s
  | some task =>
    let add := fun (v : State) (y : List (List Int)) => match task with
      | some id => v.addProduct t id f begins y
      | none => v
    if ok1 then add s first
    else
      let ok2 := residueOk x w again && armed != .twice
      let u := s.updTile t (fun k => { k with residue := .none })
      if ok2 then
        let v := if armed = .once then u.journalWrite { JEntry.blank 0x30 with
          coord := coordByte t, endpoint := holderId (s.tile t).logical, injected := true, detail := 1 } else u
        add (v.updTile t (fun k => { k with residueReruns := bump 64 k.residueReruns 1 })) again
      else u.retire t (armed == .twice)

/-! ## A tile's part of a task (R104) -/

/-- The item of a running task that concerns an object. -/
def RunTask.itemOf (r : RunTask) (obj : Nat) : Option Item := r.items.find? (fun it => it.obj == obj)

/-- The gauge tracker's count of one element (R147); a saturated one is never quiet. -/
def RunTask.stat (r : RunTask) (obj tensor : Nat) (sat quiet : Bool) : RunTask :=
  match r.stats.find? (fun x => x.1 == obj && x.2.1 == tensor) with
  | some _ =>
    { r with stats := r.stats.map (fun x =>
        if x.1 == obj && x.2.1 == tensor then (x.1, x.2.1, x.2.2.1 + 1, x.2.2.2.1 + bit sat, x.2.2.2.2 && quiet) else x) }
  | none => { r with stats := r.stats ++ [(obj, tensor, 1, bit sat, quiet)] }

/-- The running task of flank `f` changed. -/
def State.updRun (s : State) (f : Nat) (g : RunTask → RunTask) : State := s.updFlank f (fun x => { x with run := x.run.map g })

/-- The bytes of tile `t`'s slices of the resident bindings of its flank (R102, R103). -/
def State.tileSlices (s : State) (t : Nat) : Nat :=
  let n := s.enabledTiles (t / 48)
  (((s.flank (t / 48)).bindings.filter (·.resident)).map (fun b =>
    (((s.content b.content).pkg.map (fun (k : Package) => k.layers)).getD []).foldl (fun a l => a + sliceBytesOf l n (s.sliceOf t)) 0)).foldl (· + ·) 0

/-- R99: the slices of tile `t` are loaded again before its flank dispatches: no binding counts as loaded until BINDING_READY. -/
def State.reloadSlices (s : State) (t : Nat) : State :=
  let n := s.tileSlices t
  (s.updFlank (t / 48) (fun x => { x with bindings := x.bindings.map (fun b => { b with loaded := false }) })).newOpOwing (.load (t / 48)) 7
    (if n = 0 then [] else [{ kind := 0, bytes := n }])

/-- An uncorrectable word of a tile's stores (R99): every task that read it aborts; a state slot's stream frogs too. The spec gives the tile's count of them no width where Table 14-9 counts
the others in 64 bits; the model wraps it at 32 (DESIGN CHOICE, log 106). -/
def State.badWord (s : State) (t f address : Nat) (w : BadWord) : State :=
  let s1 := s.updTile t (fun k => { k with eccUncorrectable := bump 32 k.eccUncorrectable 1 })
  let inState := match w with
    | .state _ _ => true
    | _ => false
  let s2 := match (s1.flank f).run with
    | some r => s1.abortOpAs r.id { kind := 0x12, coord := coordByte t, endpoint := holderId (s.tile t).logical, detail := bit inState, address := address,
                                    recovery := if w == BadWord.weight then some .reload else none } 4
    | none => s1
  match w with
  | .state st obj => (s2.frogAll [(st, obj)] 4).dispatchAll
  | .weight => (s2.reloadSlices t).dispatchAll
  | .activation => s2.dispatchAll

/-- R131, R146: the gauge exponent of a tensor at a stage: 0 untracked, its entry's, or the one its handoff entry records (0 for a gap chunk, R70). -/
def State.gammaOf (s : State) (st : Stage) : GammaSource → Int
  | .none => 0
  | .own obj tensor => ((s.sect st obj).work.gauges.getD tensor {}).gamma
  | .handoff obj row tensor =>
    let ring := match st with
      | .encode => []
      | .translate => (s.stream (s.branch obj).stream).trRing
      | .speak => (s.branch obj).spRing
    ((ring.find? (fun (e : Entry) => e.row == row)).map (fun (e : Entry) => e.gammas.getD tensor 0)).getD 0

/-- The requantisation parameters of an output channel as the array takes them (Table 4-3). -/
def requantRow (p : RequantParam) : RequantRow := { mult := p.mult, shift := p.shift, corr := p.corr, bias := p.bias, zero := p.zero }

/-- R171: where a layer's groups and channels begin among those of its object. -/
def stateStart (k : Package) (layer : Nat) : Nat × Nat :=
  ((k.layers.take layer).foldl (fun (a : Nat × Nat) l => (a.1 + l.s16, a.2 + l.eight)) (0, 0))

/-- R167: whether a layer computes right-context positions: it stands at or before the stage's last bidirectional layer, and the stage looks ahead. -/
def State.takesContext (s : State) (r : RunTask) (k : Package) (layer : Nat) : Bool :=
  (k.layers.drop layer).any (·.bidirectional) &&
    r.items.any (fun it => decide (0 < ((s.pipeOfStream (s.objStream it.stage it.obj)).stage it.stage).lookahead))

/-- The package a running task's items run. -/
def State.runPackage (s : State) (r : RunTask) : Option Package := (s.content r.content).pkg

/-- Whether tile `t` holds an item's rows: that of its section's slot, any tile for one without carried state (R109). -/
def State.holdsItem (s : State) (t : Nat) (it : Item) : Bool :=
  let x := s.sect it.stage it.obj
  x.tile == some t || x.size == 0

/-- The item of a running task that concerns an object whose rows tile `t` holds. -/
def State.itemAt (s : State) (t : Nat) (r : RunTask) (obj : Nat) : Option Item := (r.itemOf obj).filter (s.holdsItem t)

/-! ### Rounds (R104, R105, R107, R160) -/

/-- The segments a slice of `bytes` is cut into (Table 3-3). -/
def segments (bytes : Nat) : Nat := ceilDiv bytes 16384

/-- The slices of a layer's round with their segments: one of each enabled tile; in streamed mode the whole layer, which enters at ring position 0 (R104, R107). -/
def RunTask.roundSlices (r : RunTask) (n : Nat) (l : Layer) : List (Nat × Nat) :=
  if r.resident then (List.range n).map (fun k => (k, segments (sliceBytesOf l n k))) else [(0, segments (sliceBytesOf l 1 0))]

/-- The positions of a layer's rounds: a matrix recurrent layer takes one round for each (R160), any other one for all (R158, R159). -/
def RunTask.roundCount (r : RunTask) (l : Layer) : Nat := if l.kind = .matrix then (r.items.map (·.rows)).foldl max 0 else 1

/-- The rows tile `t` brings to the running round: one of each of its objects at the position of a matrix recurrent layer (R160); else the rows placed on it, those of the right
context too where the layer computes it (R158, R167). -/
def State.roundRows (s : State) (r : RunTask) (k : Package) (t : Nat) : Nat :=
  match k.layers[r.layer]? with
  | none => 0
  | some l =>
    if l.kind = .matrix then (r.items.filter (fun it => (s.sect it.stage it.obj).tile == some t && decide (r.position < it.rows))).length
    else
      let look := (r.items.map (fun it => ((s.pipeOfStream (s.objStream it.stage it.obj)).stage it.stage).lookahead)).foldl max 0
      Table.get 0 r.placed t * (if s.takesContext r k r.layer then 1 + look else 1)

/-- How many rows of tile `t` have used a segment of the running round. -/
def RunTask.usedRows (r : RunTask) (t slice seg : Nat) : Nat :=
  ((r.used.find? (fun u => u.tile == t && u.slice == slice && u.seg == seg)).map (·.rows)).getD 0

/-- The tiles a slice passes through before it reaches tile `t`, along the ring from the one that holds it, or from ring position 0 in streamed mode (R97, R104, R107). -/
def State.before (s : State) (r : RunTask) (t slice : Nat) : List Nat :=
  let ring := s.ring (t / 48)
  let start := if r.resident then (s.sliceHolder (t / 48) slice).bind (fun h => ring.findIdx? (fun x => x == h)) else some 0
  let i := start.getD 0
  (ring.drop i ++ ring.take i).takeWhile (fun x => x != t)

/-- R105, R107: whether a segment is at tile `t`: every row of every tile before it has used it, and at the entry tile of streamed mode the working half of pair 0 holds it. A matrix layer's
weights enter for its first round and stand for the rounds after it, since a task reads every weight once (DESIGN CHOICE, log 115). -/
def State.segmentAt (s : State) (r : RunTask) (k : Package) (t slice seg : Nat) : Bool :=
  let n := (s.tile t).needle 0
  (s.before r t slice).all (fun x => decide (s.roundRows r k x ≤ r.usedRows x slice seg)) &&
    (r.resident || r.position != 0 || s.ringPos t != 0 || r.usedRows t slice seg != 0 || (n.half n.current == .working && !n.used))

/-- R104: whether the running round is complete: each segment of each slice has been used by every row of every enabled tile. -/
def State.roundDone (s : State) (f : Nat) (r : RunTask) (k : Package) (l : Layer) : Bool :=
  (r.roundSlices (s.enabledTiles f) l).all (fun e => (List.range e.2).all (fun g =>
    (s.ring f).all (fun t => decide (s.roundRows r k t ≤ r.usedRows t e.1 g))))

/-- Rounds in the model's layer order, position by position in a matrix layer, as far as they are complete; at most `n` (R104, R160). -/
def State.roundsOn (s : State) (f : Nat) (k : Package) (r : RunTask) : Nat → RunTask
  | 0 => r
  | n + 1 =>
    match k.layers[r.layer]? with
    | none => r
    | some l =>
      if r.position < r.roundCount l ∧ s.roundDone f r k l = false then r
      else if r.position + 1 < r.roundCount l then State.roundsOn s f k { r with position := r.position + 1, used := [] } n
      else State.roundsOn s f k { r with layer := r.layer + 1, position := 0, used := [] } n

/-- The running task of flank `f` with its rounds as far as they are complete. -/
def State.roundAdvance (s : State) (f : Nat) : State :=
  match (s.flank f).run with
  | none => s
  | some r => match s.runPackage r with
    | none => s
    | some k => s.updRun f (fun x => s.roundsOn f k x (k.layers.length * ((x.items.map (·.rows)).foldl max 1) + 1))

/-- R104, R264: whether every round of a task is complete and every barrier of its handoff writes. -/
def State.taskComplete (s : State) (f : Nat) (r : RunTask) : Bool :=
  ((s.runPackage r).map (fun k => decide (k.layers.length ≤ r.layer))).getD true && r.outputs.all (fun i => (s.barrier f i).state == .complete)

/-- Rows of tile `t` have used a segment (R105); at the entry tile of streamed mode that is what pair 0's working half holds (R107). -/
def State.useSegment (s : State) (t f : Nat) (r : RunTask) (k : Package) (slice seg rows : Nat) : State :=
  let n := min (s.roundRows r k t) (r.usedRows t slice seg + rows)
  let u := s.updRun f (fun x => { x with used := x.used.filter (fun e => !(e.tile == t && e.slice == slice && e.seg == seg)) ++
    [{ tile := t, slice := slice, seg := seg, rows := n }] })
  let v := if !r.resident && s.ringPos t == 0 then u.updNeedle t 0 (fun x => { x with used := true }) else u
  v.roundAdvance f

/-! ### Attention -/

/-- The sequence a row's attention reads: the encoder sequences as they stood when the chunk was dispatched first (R203, R210, R211), the branch's own decoder sequence as it stands (R201). -/
def State.attendSeq (s : State) (r : RunTask) (decoder : Bool) (slot idx : Nat) : Option PageSeq :=
  let len := (r.views.find? (fun v => v.1 == slot && v.2.1 == idx)).map (fun v => v.2.2)
  match r.stage, decoder with
  | .encode, false => match s.seq (.encoder slot) idx, len with
    | some q, some n => some (q.upTo n)
    | _, _ => none
  | .translate, true => s.seq (.decoder slot) idx
  | .translate, false => match s.encoderView slot idx, len with
    | some q, some n => some (q.upTo n)
    | _, _ => none
  | _, _ => none

/-- R231: whether attention for chunk `row` of stream `i` may still read a page: one that waits to be trimmed only while C(n) does not exceed its TIME. -/
def State.notTrimmed (s : State) (i row : Nat) (e : PageEntry) : Bool :=
  (s.page e.ppn).state != .trimPending || decide (pageTime (s.closeTime i row) ≤ (s.page e.ppn).time)

/-- R219: the tile's own frames that it reads become its most recently used ones. -/
def Tile.touch (k : Tile) (ppns : List Nat) : Tile :=
  { k with frames := k.frames.filter (fun p => !ppns.contains p) ++ ppns.filter (fun p => k.frames.contains p) }

/-- How an operation of a tile's program ends: it is done, or waits for a cause of Table 7-8. -/
inductive OpEnd where
  | done | waits (c : Stall)
deriving DecidableEq, Repr

/-- Whether a page's bytes are at hand at a tile: in one of its frames, or read for this row (R216, R218). -/
def Tile.hasPage (x : Tile) (ppn : Nat) : Bool :=
  x.fetched.contains ppn || (x.frames.contains ppn && !x.waits.contains (.memory ppn))

/-- The scores and weighted values of a group's heads against a page's positions below FILL, while the page is at hand (R208, R211): for each head the score of each position, then the value of
each dimension, under the weights the program has formed. -/
def State.pageWork (s : State) (f : NumFormat) (ppn fill : Nat) (queries weights : List (List Nat)) : List (Int × Bool) :=
  let reduce := fun (pairs : List (Nat × Nat)) => reduceFrom f 0 false pairs
  let key := fun (t : Nat) => (s.keyRow ppn fill t).map (unsigned 8)
  let value := fun (t : Nat) => (s.valueRow ppn fill t).map (unsigned 8)
  let ts := List.range (min fill 16)
  queries.flatMap (fun q => ts.map (fun t => reduce (q.zip (key t)))) ++
    weights.flatMap (fun w => (List.range 128).map (fun d => reduce (ts.map (fun t => (w.getD t 0, (value t).getD d 0)))))

/-- The query heads of a group: G of the layer whose sequence the row reads (R208). -/
def State.headGroup (s : State) (r : RunTask) (x : Tile) : Nat :=
  match x.reads.getLast? with
  | none => 0
  | some (decoder, slot, idx, _) =>
    max 1 (s.attention (if decoder then .decoder slot else if r.stage == .encode then .encoder slot else .view slot) idx).group

/-- The next page a row's attention has selected: read where its bytes are at hand; else the tile waits for the page service's answer, or for the bytes from device memory, which it asks for
itself where the page is not cached (R208, R216, R218). -/
def State.readPage (s : State) (t f : Nat) (r : RunTask) (fmt : NumFormat) (queries weights : List (List Nat)) : OpEnd × State :=
  let x := s.tile t
  match x.attended with
  | [] => (.done, s)
  | (ppn, fill) :: rest =>
    if x.hasPage ppn then
      let a := s.headGroup r x
      let z := s.pageWork fmt ppn fill (queries.take a) (weights.take a)
      (.done, (s.updTile t (fun k => { k.touch [ppn] with attended := rest, fetched := k.fetched.erase ppn, acc := k.acc ++ z,
                                                          accSaturations := bump 64 k.accSaturations (saturatedCount z) })).finishDrop t ppn)
    else if x.waits.contains (.memory ppn) then (.waits .dataLate, s)
    else if s.looksUp ppn && s.frameCount f != 0 then (.waits .page, s)
    else (.waits .dataLate, (s.updTile t (fun k => { k with waits := k.waits ++ [.memory ppn] })).owePage r.id ppn)

/-- A row's attention over one sequence selects its pages, once for each row, sequence and step (R208 to R211); a branch whose view is still owed an entry waits (R204). -/
def State.attendRow (s : State) (t : Nat) (r : RunTask) (it : Item) (decoder : Bool) (idx row : Nat) (zq : Int) (queries : List (List Nat)) : OpEnd × State :=
  let me := (decoder, it.obj, idx, row)
  if (s.tile t).reads.contains me then (.done, s)
  else if r.stage == .translate && !decoder && s.wanting (.view it.obj) (some idx) then (.waits .page, s)
  else match s.attendSeq r decoder it.obj idx with
    | none => (.done, s)
    | some q =>
      let es := s.attends { q with entries := q.entries.filter (s.notTrimmed (s.objStream r.stage it.obj) it.row) } zq queries
      (.done, s.updTile t (fun k => { k with reads := k.reads ++ [me], attended := k.attended ++ es.map (fun e => (e.ppn, e.fill)) }))

/-! ### Carried state and commits within a chunk -/

/-- A tile's vector results, with the lanes saturated (R138). -/
def State.vecOut (s : State) (t : Nat) (xs : List Int) (sat : Nat) : State :=
  s.updTile t (fun k => { k with vec := k.vec ++ xs, vectorSaturations := bump 64 k.vectorSaturations sat })

/-- A group's exponent and mantissas. -/
def groupLanes (g : S16Group) : List Int := g.exponent :: g.mantissas

/-- Whether a layer's recurrence may run: its input projections are computed, all positions at once (R159), or the matrix layer's rounds have come to it (R160). -/
def RunTask.layerReady (r : RunTask) (l : Layer) (layer : Nat) : Bool := decide (layer < r.layer) || (l.kind == .matrix && layer == r.layer)

/-- One group of a layer's state run over positions in order, reading and writing the object's slot; over the right context's on a scratch copy that is not written back (R159, R160, R164, R167). -/
def State.scanGroup (s : State) (t : Nat) (r : RunTask) (it : Item) (k : Package) (layer group : Nat) (steps context : List (List LaneStep)) : OpEnd × State :=
  match k.layers[layer]? with
  | none => (.done, s)
  | some l =>
    let i := (stateStart k layer).1 + group
    match (s.sect it.stage it.obj).work.groups[i]? with
    | none => (.done, s)
    | some g =>
      if l.s16 ≤ group then (.done, s)
      else if !r.layerReady l layer then (.waits .ringWait, s)
      else
        let v := scanPositions g steps
        let g' := (v.1.getLast?).getD g
        let c := if s.takesContext r k layer then scanPositions g' context else ([], 0)
        let u := if steps.isEmpty then s
          else s.updSect it.stage it.obj (fun x => { x with dirty := true, work := { x.work with groups := x.work.groups.set i g' } })
        (.done, u.vecOut t ((v.1 ++ c.1).flatMap groupLanes) (v.2 + c.2))

/-- A channel of 8-bit state requantised into the slot: its layer's format, static scale and zero point, γ_t 0 (R163). -/
def State.channelState (s : State) (t : Nat) (r : RunTask) (it : Item) (k : Package) (layer index acc param : Nat) (input : GammaSource) : OpEnd × State :=
  match k.layers[layer]?, k.requants[param]? with
  | some l, some p =>
    let i := (stateStart k layer).2 + index
    if l.eight ≤ index ∨ (s.sect it.stage it.obj).work.channels.length ≤ i then (.done, s)
    else if !r.layerReady l layer then (.waits .ringWait, s)
    else
      let a := (s.tile t).acc.getD acc (0, false)
      let e := requantise l.format a.1 { requantRow p with zero := l.zero } (s.gammaOf r.stage input) 0
      (.done, (s.updSect it.stage it.obj (fun x => { x with dirty := true, work := { x.work with channels := x.work.channels.set i e.code } })).updTile t
        (fun j => { j with requantSaturations := bump 64 j.requantSaturations (bit (e.saturated || a.2)) }))
  | _, _ => (.done, s)

/-- One element requantised (R135, R137), and counted where its tensor is tracked (R147). -/
def State.requantOne (s : State) (t f : Nat) (r : RunTask) (k : Package) (acc param : Nat) (input : GammaSource) (track : Option (Nat × Nat)) : State :=
  match k.requants[param]? with
  | none => s
  | some p =>
    let a := (s.tile t).acc.getD acc (0, false)
    let gt := match track with
      | some (obj, tensor) => s.gammaOf r.stage (.own obj tensor)
      | none => 0
    let e := requantise p.format a.1 (requantRow p) (s.gammaOf r.stage input) gt
    let sat := e.saturated || a.2
    let u := s.updTile t (fun k => { k with act := k.act ++ [e.code], requantSaturations := bump 64 k.requantSaturations (bit sat) })
    match track with
    | some (obj, tensor) => u.updRun f (fun x => x.stat obj tensor sat (e.quiet && !sat))
    | none => u

/-- The place in the tile stores of `n` bytes of tile `t`'s activation region at `offset`, where they lie within it (R100, R104). -/
def State.activationAt (s : State) (t offset n : Nat) : Option Nat :=
  if offset + n ≤ 1024 * (s.flank (t / 48)).act then some (t * 2 ^ 21 + activationBase + offset) else none

/-- The tile's activation codes written to its activation region (R104, R126). -/
def State.storeCodes (s : State) (t : Nat) (fmt : NumFormat) (offset : Nat) : State :=
  let bs := codeBytes fmt (s.tile t).act
  match s.activationAt t offset bs.length with
  | some x => (s.storeWrite x bs.length (concatRecords 8 bs)).updTile t (fun k => { k with act := [] })
  | none => s

/-- Codes read from there. -/
def State.loadCodes (s : State) (t : Nat) (fmt : NumFormat) (offset count : Nat) : State :=
  let n := if fmt = .int4 then ceilDiv count 2 else count
  match s.activationAt t offset n with
  | some x =>
    let v := s.storeRead x n
    let code := fun (i : Nat) => match fmt with
      | .n8f => (elementAt fmt v i : Int)
      | .int8 => signed 8 (elementAt fmt v i)
      | .int4 => signed 4 (elementAt fmt v i)
    s.updTile t (fun k => { k with act := (List.range count).map code })
  | none => s

/-- The deadline the running task's requests carry (R63). -/
def State.runDue (s : State) (r : RunTask) : Nat := ((s.ops.find? (fun o => o.id == r.id)).bind (·.deadline)).getD s.dt

/-- A committed token: a position of each of the branch's decoder sequences, then the token; its section's working copy is committed with it (R85, R201). A shadow chunk delivers none (R190). -/
def State.commitToken (s : State) (r : RunTask) (it : Item) (id : Nat) (rows : List (List Nat)) : OpEnd × State :=
  let b := it.obj
  let n := s.seqCount (.decoder b)
  if rows.length < n then (.done, s)
  else match s.appendToken b (s.sect .translate b).work.tokens (s.runDue r) 0 (rows.take n) with
    | (.waits, u) => (.waits .page, u)
    | (.done, u) =>
      let v := u.updSect .translate b (fun x =>
        let w := { x.work with tokens := x.work.tokens + 1 }
        { x with dirty := true, work := w, kept := w })
      (.done, if (v.sect .translate b).shadow it.row then v
        else v.updBranch b (fun y =>
          { y with chunkTokens := if y.chunkTokens.any (fun c => c.1 == it.row)
                                  then y.chunkTokens.map (fun c => if c.1 == it.row then (c.1, c.2 ++ [id]) else c)
                                  else y.chunkTokens ++ [(it.row, [id])] }))

/-- An encode chunk's rows for one encoder sequence (R198, R200); those of a shadow chunk stand already. -/
def State.appendRowsOf (s : State) (r : RunTask) (it : Item) (a : KvAppend) : OpEnd × State :=
  if s.seqCount (.encoder a.slot) ≤ a.idx ∨ (s.sect .encode a.slot).shadow it.row = true then (.done, s)
  else match s.appendEncoder a.slot a.idx a.rows (s.runDue r) with
    | (.done, u) => (.done, u)
    | (.waits, u) => (.waits .page, u)

/-- A needle pair declared over the activation region, both halves within it (R100, R253, Table 3-3). -/
def State.declareNeedle (s : State) (t pair base size : Nat) (outbound : Bool) : State :=
  if 1 ≤ pair ∧ pair ≤ 15 ∧ size % 256 = 0 ∧ 256 ≤ size ∧ size ≤ 262144 ∧ activationBase ≤ base ∧ base + 2 * size ≤ s.cacheBase (t / 48) then
    s.updTile t (fun k => { k with needles := Table.set {} k.needles pair { declared := true, base := base, size := size, outbound := outbound } })
  else s

/-- A barrier armed (R262), `output` that of the task's handoff writes (R264). -/
def State.armBarrier (s : State) (f index expect : Nat) (output : Bool) (owing : List Party) : State :=
  if (s.barrier f index).state = .armed then s
  else
    let t := s.updBarrier f index (fun _ => { expect := expect, state := .armed, lastArrival := s.dt, owing := owing })
    if output then t.updRun f (fun x => { x with outputs := if x.outputs.contains index then x.outputs else x.outputs ++ [index] }) else t

/-- R286: member `k` of group `g`, as every tile's group tables name it; none where the member is 48 or above or its entry is not valid. -/
def State.memberOf (s : State) (g k : Nat) : Option Nat :=
  let m := Table.get {} s.fabric.groups (48 * g + k)
  if 64 ≤ g ∨ 48 ≤ k ∨ m.valid = false then none else some m.endpoint

/-- R285: a tile's network interface refuses a stitch: it is counted, and the task's operation aborts. -/
def State.tileRefused (s : State) (t : Nat) (r : RunTask) (dst : Nat) : State :=
  (s.updNetif (s.tile t).logical (fun y => { y with refused := bump 32 y.refused 1 })).abortOp r.id
    { kind := 0x06, coord := coordByte t, endpoint := (s.tile t).logical, address := dst }

/-- A tile's program sends a REQ or RSP message of `n` stitches (R285, R290, R302 to R304): it waits for a context and for its window. -/
def State.tileSend (s : State) (t : Nat) (r : RunTask) (dst cls kind n : Nat) : OpEnd × State :=
  let src := (s.tile t).logical
  if !s.canInject dst then (.done, s.tileRefused t r dst)
  else if 2 ≤ cls ∨ n = 0 ∨ 16 < n then (.done, s)
  else if !(s.window src dst).isOpen then (.waits .fabric, s.wantContext src dst)
  else if !(s.window src dst).room n then (.waits .fabric, s.windowWaits src dst)
  else (.done, s.sendMessage src dst r.id cls kind 0 n 0)

/-- One operation of a tile's program in the running task (R104, R132 to R143, R158 to R167, R201, R208, R253, R262). Arming a barrier, the firmware's part of the task's dispatch, stands here too. -/
def State.tileOp (s : State) (t f : Nat) (r : RunTask) (k : Package) (op : TileOp) : OpEnd × State :=
  match op with
  | .segment slice seg rows =>
    match k.layers[r.layer]? with
    | none => (.done, s)
    | some l =>
      if !(r.roundSlices (s.enabledTiles f) l).any (fun e => e.1 == slice && decide (seg < e.2)) then (.done, s)
      else if s.segmentAt r k t slice seg then (.done, s.useSegment t f r k slice seg rows)
      else (.waits (if !r.resident && s.ringPos t == 0 then .dataLate else .ringWait), s)
  | .reduce fmt pairs =>
    let v := reduceFrom fmt 0 false pairs
    (.done, s.updTile t (fun k => { k with acc := k.acc ++ [v], accSaturations := bump 64 k.accSaturations (bit v.2) }))
  | .requant acc param input track => (.done, s.requantOne t f r k acc param input track)
  | .store fmt offset => (.done, s.storeCodes t fmt offset)
  | .load fmt offset count => (.done, s.loadCodes t fmt offset count)
  | .enter fmt code zero => let v := enterLane fmt code zero; (.done, s.vecOut t [v.1] (bit v.2))
  | .vmul a b shift => let v := vectorMul a b shift; (.done, s.vecOut t [v.1] (bit v.2))
  | .vadd a b => let v := vectorAdd a b; (.done, s.vecOut t [v.1] (bit v.2))
  | .vshift x amount => let v := vectorShift x amount; (.done, s.vecOut t [v.1] (bit v.2))
  | .combine a b => let v := combineGroups a b; (.done, s.vecOut t (groupLanes v.1) v.2)
  | .special fn frac x => let v := specialResult fn frac x; (.done, s.vecOut t [v.1.1, v.1.2] (bit v.2))
  | .scan obj layer group steps context =>
    match s.itemAt t r obj with
    | some it => s.scanGroup t r it k layer group steps context
    | none => (.done, s)
  | .backward obj layer steps =>
    match s.itemAt t r obj, k.layers[layer]? with
    | some _, some l =>
      let v := scanPositions zeroGroup steps
      if !l.bidirectional then (.done, s) else if !r.layerReady l layer then (.waits .ringWait, s) else (.done, s.vecOut t (v.1.flatMap groupLanes) v.2)
    | _, _ => (.done, s)
  | .channel obj layer index acc param input =>
    match s.itemAt t r obj with
    | some it => s.channelState t r it k layer index acc param input
    | none => (.done, s)
  | .append a =>
    match s.itemAt t r a.slot with
    | some it => if r.stage == .encode then s.appendRowsOf r it a else (.done, s)
    | none => (.done, s)
  | .attend decoder slot idx row zq queries =>
    match s.itemAt t r slot with
    | some it => s.attendRow t r it decoder idx row zq queries
    | none => (.done, s)
  | .page fmt queries weights => s.readPage t f r fmt queries weights
  | .token b id rows =>
    match s.itemAt t r b with
    | some it => if r.stage == .translate then s.commitToken r it id rows else (.done, s)
    | none => (.done, s)
  | .frame b =>
    match s.itemAt t r b with
    | some _ => (.done, if r.stage == .speak then s.updSect .speak b (fun x => { x with kept := x.work }) else s)
    | none => (.done, s)
  | .needle pair base size outbound => (.done, s.declareNeedle t pair base size outbound)
  | .arm index expect output owingTasks owingRings =>
    (.done, s.armBarrier f index expect output (owingTasks.map Party.task ++ owingRings.map (fun x => Party.ring x.1 x.2)))
  | .barrierWait index =>
    if (s.barrier f index).state = .complete then (.done, s)
    else (.waits .barrier, s.updBarrier f index (fun x => if x.waiters.contains (.task r.id) then x else { x with waiters := x.waiters ++ [.task r.id] }))
  | .send endpoint cls kind n => s.tileSend t r endpoint cls kind n
  | .sendMember group member cls kind n => match s.memberOf group member with
    | some e => s.tileSend t r e cls kind n
    | none => (.done, s.tileRefused t r member)
  | .corrected n => (.done, s.updTile t (fun k => { k with eccCorrected := bump 64 k.eccCorrected n }))
  | .bad address w => (.done, s.badWord t f address w)

/-- Time a task has waited for pages in an exhaustion episode, which its watchdog does not count (R622). -/
def RunTask.waited (r : RunTask) (dt : Nat) : RunTask :=
  { r with waitFrom := none, paused := r.paused + (match r.waitFrom with
      | some w => dt - w
      | none => 0) }

/-- Whether an operation takes pages. -/
def takesPages : TileOp → Bool
  | .append _ => true
  | .token _ _ _ => true
  | _ => false

/-- A tile's program waits: the cycles count from now on (R260), and a task that waits for a page in an exhaustion episode stops its watchdog (R622). -/
def State.programWaits (s : State) (t f : Nat) (r : RunTask) (op : TileOp) (c : Stall) : State :=
  let u := s.stalls t c
  if takesPages op && r.items.any (fun it => (u.part it.part).episodePages || (u.part it.part).episodeTable) then
    u.updRun f (fun x => { x with waitFrom := some (x.waitFrom.getD s.dt) })
  else u

/-- A tile's work, one thing after another while the task runs; an operation that waits ends it, and a later TASK of the tile goes on from that operation (DEDUCED, log 56). -/
def State.tileWork (s : State) (t f : Nat) : List TileOp → State
  | [] => s
  | op :: rest =>
    match (s.flank f).run with
    | none => s
    | some r => match s.runPackage r with
      | none => s
      | some k =>
        match (s.updTile t (fun x => x.forTask r.id)).tileOp t f r k op with
        | (.waits c, u) => u.programWaits t f r op c
        | (.done, u) =>
          let v := if takesPages op then u.updRun f (fun x => x.waited s.dt) else u
          (v.stallEnds t).tileWork t f rest

/-! ## The end of a task (R111, R148, R165, R177, R179, R190) -/

/-- R166, R165, R148: renormalisation where it is due, then the gauges, on the working copy. -/
def State.chunkState (s : State) (r : RunTask) (it : Item) : State :=
  match s.packageOf it.stage it.obj with
  | none => s
  | some k =>
    s.updSect it.stage it.obj (fun x =>
      let groups := if bump 32 it.row 1 % max 1 k.renorm = 0 then x.work.groups.map renormGroup else x.work.groups
      let gauges := (List.range x.work.gauges.length).map (fun j =>
        let g := x.work.gauges.getD j {}
        let st := (r.stats.find? (fun y => y.1 == it.obj && y.2.1 == j)).map (fun y => ({ elements := y.2.2.1, saturated := y.2.2.2.1, quiet := y.2.2.2.2 } : GaugeStat))
        match k.gauges[j]?, st with
        | some d, some z => gaugeStep d.param g z
        | _, _ => g)
      { x with work := { x.work with groups := groups, gauges := gauges } })

/-- What one completed item hands on (R177, R190, R200, R207, R368): pages published, decoder pages that have left the horizon, the handoff entry with the exponents its chunk used, speech to play. -/
def State.handOn (s : State) (it : Item) (res : ItemResult) : State :=
  let x := s.sect it.stage it.obj
  let gammas := x.work.gauges.map (·.gamma)
  if x.shadow it.row then s
  else
    match it.stage with
    | .encode =>
      let y := s.stream it.obj
      let e := (y.encRing.find? (fun z => z.row == it.row)).getD
        { row := it.row, gaps := 0, va := false, firstDt := 0, gammas := [], ready := true, passed := false }
      let t := s.updStream it.obj (fun z => { z with lastPassed := false })
      (t.publishEncoder it.obj it.row).pushTr it.obj { e with gammas := gammas, passed := false }
    | .translate =>
      let y := s.branch it.obj
      let e := ((s.stream y.stream).trRing.find? (fun z => z.row == it.row)).getD
        { row := it.row, gaps := 0, va := false, firstDt := 0, gammas := [], ready := true, passed := false }
      let t := (s.pages.seqs.filter (fun q => q.owner == .decoder it.obj)).foldl (fun v q => v.leaveHorizon q it.row) s
      t.pushSp it.obj { e with gammas := gammas, passed := false }
    | .speak =>
      s.pushEg it.obj { row := it.row, silent := isSilent res.samples, samples := res.samples }

/-- One item of a finished task. A shadow chunk leaves what it left before, since a task's result does not depend on when it runs (R153, R191). -/
def State.itemEnd (s : State) (r : RunTask) (results : List ItemResult) (it : Item) : State :=
  let res := (results.find? (fun z => z.obj == it.obj && z.row == it.row)).getD { obj := it.obj, row := it.row, idle := false, samples := [] }
  let shadow := (s.sect it.stage it.obj).shadow it.row
  let i := s.objStream it.stage it.obj
  let t0 := (s.handOn it res).chunkState r it
  let t := match (s.sect it.stage it.obj).past.find? (fun p => p.1 == it.row) with
    | some p => if shadow then t0.updSect it.stage it.obj (fun x => { x with work := p.2 }) else t0
    | none => t0
  let u := match it.stage with
    | .encode => t
    | _ => t.updSect it.stage it.obj (fun x => { x with idle := res.idle })
  let v := if shadow then u.updStream i (fun y => { y with cnt := { y.cnt with shadowChunks := bump 64 y.cnt.shadowChunks 1 } }) else u
  v.chunkDone it.stage it.obj it.row true

/-- TASK_END: the running task of flank `f` completes, once its rounds and the handoff writes of its items are (R37, R104, R264). -/
def State.taskEnd (s : State) (f : Nat) (result : TaskResult) : State :=
  let s := s.roundAdvance f
  match (s.flank f).run with
  | none => s
  | some r =>
    if !s.taskComplete f r then s
    else
    let s := (flankTiles f).foldl State.tileStops s
    let took := s.dt - r.start
    let m : Measured := { rows := (r.items.map (·.rows)).foldl (· + ·) 0, ticks := took, divisor := s.power.divisor, stop := s.dt }
    let t := (s.leaveTask f r).updFlank f (fun x =>
      { x with expiries := 0, resetDone := false, paceEnd := s.dt + ceilDiv (took * s.power.pace) 8 })
    let u := t.updBinding f r.content (fun b => { b with measured := m :: s.recentTasks b })
    let v := (r.items.foldl (fun (w : State) it => w.itemEnd r result.items it) u).endOps (fun o => o.id == r.id)
    let w := ((r.items.map (fun it => s.objStream it.stage it.obj)).eraseDups).foldl (fun (y : State) i => y.advance i) v
    w.dispatchAll

/-- R622: since when time that a task's watchdog does not count runs on, from the earliest cause: its page wait, a credit recovery toward an endpoint that holds a
request of it, a reset of a pseudo-channel that holds one. -/
def State.watchStops (s : State) (r : RunTask) : List Nat :=
  r.waitFrom.toList ++
  (s.fabric.windows.filter (fun w => w.2.unacked.any (fun y => y.2 == r.id))).filterMap (fun w => w.2.probeFrom) ++
  (s.mem.channels.filter (fun c => c.2.inReset && (List.range 4).any (fun f =>
    (s.feeder f).requests.any (fun q => q.op == r.id && channelOf q.addr == c.1)))).map (fun c => c.2.resetFrom)

/-- R622: the ticks of the time that runs on uncounted. -/
def State.watchHeld (s : State) (r : RunTask) : Nat :=
  match s.watchStops r with
  | [] => 0
  | x :: xs => s.dt - xs.foldl min x

/-- TASK_WATCHDOG (R621 to R623): the task aborts; a second consecutive expiry resets the flank, a third after that is FLANK_HUNG. -/
def State.taskWatchdog (s : State) (f : Nat) : State :=
  match (s.flank f).run with
  | none => s
  | some r =>
    if s.dt < r.start + r.period + r.paused + s.watchHeld r then s
    else
      let n := (s.flank f).expiries + 1
      let t := (s.updFlank f (fun x => { x with expiries := n })).abortOpAs r.id
        { kind := 0x10, endpoint := 288, detail := pack [(8, stageCode r.stage), (4, f), (4, n)] } 4
      if 3 ≤ n ∧ (t.flank f).resetDone = true then t.fatalFault 4 0
      else if n = 2 then
        (((t.flankReset f).journalWrite { JEntry.blank 0x24 with endpoint := 288, recovery := Recovery.flankReset.code, detail := f }).updFlank f
          (fun x => { x with resetDone := true })).dispatchAll
      else t.dispatchAll

end Sys2Proof.Machine
end

