-- ==== Sys2Proof/Machine/Boot.lean ====
section
/-!
DEFINITION. Machine/Boot.lean: resets, the boot flow, the boot flash and site configurations (chapter 16).
-/
namespace Sys2Proof.Machine

/-- The boot state changed. -/
def State.updBoot (s : State) (g : Boot → Boot) : State := { s with boot := g s.boot }

/-! ## The boot directory (R602 to R606) -/

/-- Whether copy 1 is the current one: valid with the higher SEQ by R22, or the only valid one. -/
def Flash.second (f : Flash) : Bool := f.copy1.valid && (!f.copy0.valid || later32 f.copy1.seq f.copy0.seq)

/-- The current copy. -/
def Flash.dir (f : Flash) : Directory := if f.second then f.copy1 else f.copy0

/-- R602: an update writes the copy that is not current, with SEQ increased by one. -/
def Flash.update (f : Flash) (g : Directory → Directory) : Flash :=
  let d := { g f.dir with valid := true, seq := bump 32 f.dir.seq 1 }
  if f.second then { f with copy0 := d } else { f with copy1 := d }

/-- Image slot `k`. -/
def Directory.slot (d : Directory) (k : Nat) : ImageSlot := if k = 0 then d.slot0 else d.slot1

/-- Image slot `k` changed. -/
def Directory.updSlot (d : Directory) (k : Nat) (g : ImageSlot → ImageSlot) : Directory :=
  if k = 0 then { d with slot0 := g d.slot0 } else { d with slot1 := g d.slot1 }

/-- R604: a slot in state ACTIVATED or GOOD is bootable. -/
def ImageSlot.bootable (x : ImageSlot) : Bool := x.state == .activated || x.state == .good

/-- The directory of the flash changed. -/
def State.updDir (s : State) (g : Directory → Directory) : State := s.updBoot (fun b => { b with flash := b.flash.update g })

/-! ## CRC-32 (IEEE 802.3) -/

/-- One bit of the reflected CRC-32. -/
def crcBit (c : Nat) : Nat := if c % 2 = 1 then Nat.xor (c / 2) 0xEDB88320 else c / 2

/-- One byte. -/
def crcByte (c b : Nat) : Nat := (List.range 8).foldl (fun x _ => crcBit x) (Nat.xor c b)

/-- The CRC-32 of the low `n` bytes of `v`, byte 0 first. -/
def crc32 (n v : Nat) : Nat := Nat.xor ((List.range n).foldl (fun c i => crcByte c (field v (8 * i) 8)) 0xFFFFFFFF) 0xFFFFFFFF

/-! ## The bytes of the boot flash (R602, R603, R608, Tables 16-6, 16-8, 16-13) -/

/-- Table 16-13's code of a slot state. -/
def SlotState.code : SlotState → Nat
  | .empty => 0
  | .staged => 1
  | .activated => 2
  | .good => 3
  | .bad => 4

/-- A slot state from its code; 5 to 7 are reserved. -/
def slotStateOf (x : Nat) : Option SlotState := [SlotState.empty, .staged, .activated, .good, .bad][x]?

/-- The 16 bytes of an image slot in a boot directory copy. -/
def ImageSlot.bytes (x : ImageSlot) : Nat := pack [(3, x.state.code), (2, x.timeouts), (27, 0), (32, x.length), (32, x.version), (32, 0)]

/-- Bytes 0 to 4,091 of a boot directory copy. -/
def Directory.body (d : Directory) : Nat :=
  pack [(32, 0x4E424431), (16, 1), (16, 0), (32, d.seq), (1, d.preferred), (31, 0), (128, d.slot0.bytes), (128, d.slot1.bytes)]

/-- A boot directory copy as the device writes it, its CRC last. -/
def Directory.image (d : Directory) : Nat := d.body + 2 ^ (8 * 4092) * crc32 4092 d.body

/-- R603: whether 4,096 bytes of flash are a valid copy: MAGIC and CRC-32. -/
def directoryValid (img : Nat) : Bool := field img 0 32 == 0x4E424431 && crc32 4092 (img % 2 ^ (8 * 4092)) == field img (8 * 4092) 32

/-- What an image slot's 16 bytes say; a reserved state reads as EMPTY, which the ROM never boots. -/
def imageSlotOf (b : Nat) : ImageSlot :=
  { state := (slotStateOf (field b 0 3)).getD .empty, timeouts := field b 3 2, length := field b 32 32, version := field b 64 32 }

/-- What 4,096 bytes of flash say as a boot directory copy. -/
def directoryOf (img : Nat) : Directory :=
  { valid := directoryValid img, seq := field img 64 32, preferred := field img 96 1, slot0 := imageSlotOf (field img 128 128), slot1 := imageSlotOf (field img 256 128) }

/-- The 16 bytes of a reset record (Table 16-8). -/
def resetRecord (reported : Bool) : Nat := pack [(32, 0x54524950), (8, 4), (8, if reported then 0 else 255), (80, 2 ^ 80 - 1)]

/-- The contents of the flash (Table 16-6). -/
inductive FlashArea where
  | directory (copy : Nat) | resetRecords | site (slot : Nat) | image (slot : Nat)
deriving DecidableEq, Repr

/-- Where an area of the flash begins and its bytes (Table 16-6). -/
def FlashArea.place : FlashArea → Nat × Nat
  | .directory k => (0x1000 * k, 4096)
  | .resetRecords => (0x10000, 65536)
  | .site k => (0x20000 + 0x10000 * k, 65536)
  | .image k => (0x1000000 + 0x2000000 * k, 33554432)

/-! ## Site configurations (R610, R611, R618, Tables 16-9 to 16-11) -/

/-- Block B of an image: bytes 16 to 47. -/
def siteBlock (img : Nat) : Nat := field img 128 256

/-- Partition `n`'s block: 64 bytes at byte 48 + 64 n. -/
def sitePartBlock (img n : Nat) : Nat := field img (384 + 512 * n) 512

/-- A partition's entry. -/
def sitePartOf (b : Nat) : SitePart :=
  { streams := field b 0 11, branches := field b 16 12, pipelines := field b 32 6, models := field b 40 5, memBytes := field b 64 64,
    shareQ := field b 128 8, shareC := field b 136 8, shareK := field b 144 8, tdmPorts := field b 160 16, windowMib := field b 192 32,
    nPool := field b 224 32, hostLoss := field b 256 8, trim := field b 264 1 }

/-- The values of an image (Table 16-9). -/
def siteOf (img : Nat) : SiteConfig :=
  let b := siteBlock img
  { planPort := field b 0 2, dedup := flag b 2, scrubHours := field b 8 8,
    digests := (List.range (field b 16 8)).map (fun i => field img (8 * (304 + 32 * i)) 256),
    cap := field b 24 8, cacheQ := field b 32 7, cacheC := field b 40 7, cacheK := field b 48 7, sharedMib := field b 64 32,
    parts := (List.range 4).map (fun n => sitePartOf (sitePartBlock img n)) }

/-- Whether the reserved bits of a partition's block are zero. -/
def sitePartReserved (b : Nat) : Bool :=
  [(11, 5), (28, 4), (38, 2), (45, 19), (152, 8), (176, 16), (260, 4), (265, 247)].all (fun r => field b r.1 r.2 == 0)

/-- Check 1 of Table 16-10. -/
def siteHeaderOk (img : Nat) : Bool :=
  let b := siteBlock img
  field img 0 32 == 0x53434E31 && field img 32 16 == 1 && field img 48 16 == 1024 &&
    crc32 1024 (img - 2 ^ 96 * field img 96 32) == field img 96 32 &&
    [(3, 5), (39, 1), (47, 1), (55, 9), (96, 160)].all (fun r => field b r.1 r.2 == 0) &&
    (List.range 4).all (fun n => sitePartReserved (sitePartBlock img n)) &&
    field img (8 * (304 + 32 * min 16 (field b 16 8))) (8 * (720 - 32 * min 16 (field b 16 8))) == 0

/-- Check 2 for one partition. -/
def sitePartRange (p : SitePart) : Bool :=
  decide (p.streams ≤ 1024 ∧ p.branches ≤ 2048 ∧ p.pipelines ≤ 32 ∧ p.models ≤ 24 ∧ p.memBytes % 4096 = 0 ∧ 1 ≤ p.shareQ ∧ 1 ≤ p.shareC ∧ 1 ≤ p.shareK ∧
    p.windowMib % 64 = 0 ∧ p.hostLoss % 4 ≠ 3 ∧ p.hostLoss / 4 ≠ 3)

/-- The sum of a value over the partitions. -/
def siteSum (c : SiteConfig) (f : SitePart → Nat) : Nat := (c.parts.map f).foldl (· + ·) 0

/-- R618: checks 2 to 7 of Table 16-10. -/
def siteOk (c : SiteConfig) : Bool :=
  decide (6 ≤ c.scrubHours ∧ c.scrubHours ≤ 168 ∧ c.digests.length ≤ 16 ∧ 14 ≤ c.cap ∧ c.cap ≤ 28 ∧ c.cacheQ ≤ 64 ∧ c.cacheC ≤ 64 ∧ c.cacheK ≤ 64 ∧
      c.sharedMib % 64 = 0) && c.parts.all sitePartRange &&
    (c.dedup || (c.digests.isEmpty && c.sharedMib == 0)) && decide (2048 + c.sharedMib + siteSum c (·.windowMib) ≤ 98304) &&
    c.parts.all (fun p => decide (p.memBytes ≤ p.windowMib * mib ∧ 4288 * p.nPool ≤ p.memBytes)) &&
    decide (siteSum c (·.streams) ≤ 1024 ∧ siteSum c (·.branches) ≤ 2048 ∧ siteSum c (·.pipelines) ≤ 32 ∧ siteSum c (·.models) ≤ 24) &&
    (List.range 16).all (fun t => decide ((c.parts.filter (fun p => flag p.tdmPorts t)).length ≤ 1))

/-- Whether an image is valid. -/
def siteValid (img : Nat) : Bool := siteHeaderOk img && siteOk (siteOf img)

/-- Table 16-11. -/
def defaultSite : SiteConfig :=
  { planPort := 0, dedup := false, scrubHours := 24, digests := [], cacheQ := 0, cacheC := 0, cacheK := 0, cap := 28, sharedMib := 0,
    parts := (List.range 4).map (fun n =>
      { streams := 256, branches := 512, pipelines := 8, models := 6, memBytes := 24064 * 1048576, windowMib := 24064, nPool := 1048576,
        shareQ := 1, shareC := 1, shareK := 1, tdmPorts := 15 * 16 ^ n, hostLoss := 4, trim := 0 }) }

/-- The site slot an image goes to or was read from. -/
def Flash.siteSlot (f : Flash) (k : Nat) : Option Nat := if k = 0 then f.site0 else f.site1

/-- The SEQ of a site image. -/
def siteSeq (img : Nat) : Nat := field img 64 32

/-- R610: the site slot selected: the valid one with the higher SEQ. -/
def Flash.currentSite (f : Flash) : Option Nat :=
  let ok := fun (x : Option Nat) => (x.map siteValid).getD false
  match ok f.site0, ok f.site1 with
  | false, false => none
  | true, false => some 0
  | false, true => some 1
  | true, true => some (if later32 (siteSeq (f.site1.getD 0)) (siteSeq (f.site0.getD 0)) then 1 else 0)

/-- R610: the image with SEQ one above the current slot's and its CRC made right again. -/
def siteWithSeq (img seq : Nat) : Nat :=
  let bare := img - 2 ^ 64 * field img 64 32 - 2 ^ 96 * field img 96 32 + 2 ^ 64 * (seq % 2 ^ 32)
  bare + 2 ^ 96 * crc32 1024 bare

/-- The windows, quotas and attributes of a site configuration (R339, Table 16-1). -/
def State.applySite (s : State) (c : SiteConfig) : State :=
  let base := fun n => (2048 + c.sharedMib + ((c.parts.take n).map (·.windowMib)).foldl (· + ·) 0) * mib
  let t : State := { s with
    site := { planPort := c.planPort, dedup := c.dedup, scrubHours := c.scrubHours, digests := c.digests, cacheQ := 4 * c.cacheQ, cacheC := 4 * c.cacheC,
              cacheK := 4 * c.cacheK, cap := c.cap, sharedMib := c.sharedMib } }
  (List.range 4).foldl
    (fun (u : State) n => match c.parts[n]? with
      | none => u
      | some p => u.updPart n (fun q =>
          { q with streams := p.streams, branches := p.branches, pipelines := p.pipelines, models := p.models, memBytes := p.memBytes, shareQ := p.shareQ,
                   shareC := p.shareC, shareK := p.shareK, tdmPorts := p.tdmPorts, windowBase := base n, windowMib := p.windowMib, nPool := p.nPool,
                   hlTdm := p.hostLoss % 4, hlHost := p.hostLoss / 4 % 4, trimNone := p.trim == 1 })) t

/-! ## Resets (R583 to R587, Table 16-1) -/

/-- A device reset begins: flash, straps, always-on state and the management endpoint stay; everything else is as after a reset; the device is held in it until
RESET_END. DT stands at zero meanwhile. -/
def State.enterReset (s : State) (cause : DevCause) : State :=
  { pending := s.pending, free := s.free, mgmt := s.dropHostMedia.mgmt, pins := s.pins,
    ports := Table.mapVals {} (fun _ (p : HostPort) => { perst := p.perst }) s.ports,
    power := { clocksOn := s.power.clocksOn, locked := s.power.locked, tripped := s.power.tripped, prochot := s.power.prochot },
    boot := { aonIn := s.boot.aonIn, ioIn := s.boot.ioIn, inReset := true, cause := cause, straps := s.boot.straps, flash := s.boot.flash,
              timedOut := s.boot.timedOut } }

/-- COLD_RESET (R583, R614): VDD_AON rises into range; everything but the flash is as after a reset, and GPIO6 and GPIO7 are sampled. -/
def State.coldReset (s : State) (straps : Nat) : State :=
  { pending := s.pending, free := s.free, ports := Table.mapVals {} (fun _ (p : HostPort) => { perst := p.perst }) s.ports,
    boot := { inReset := true, cause := .powerOn, straps := straps % 4, flash := s.boot.flash } }

/-- SYS_RESET (R583, R584): a low pulse of at least 10 µs resets; one below 1 µs is ignored; between the two the manual says nothing (Config.shortPulseResets). -/
def State.sysReset (s : State) (ns : Nat) : State :=
  if s.boot.aonIn && (decide (10000 ≤ ns) || (decide (1000 ≤ ns) && Config.shortPulseResets ns)) then s.enterReset .sysReset else s

/-- RESET_END (R583): with lock, rails in range and the clocks not stopped by a trip, the reset ends: DT is zero and the boot ROM runs. -/
def State.resetEnd (s : State) : State :=
  if s.boot.inReset && s.power.locked && !s.power.tripped && s.boot.aonIn && s.boot.ioIn then
    { s with dt := 0, boot := { s.boot with inReset := false, stage := .rom } }
  else s

/-- THERMAL_TRIP (R577, R608): THERM_TRIP_N asserts, clocks stop, the reset record is written, and the device is held in reset. -/
def State.thermalTrip (s : State) : State :=
  if s.power.tripped || !s.boot.aonIn then s
  else
    let f := s.boot.flash
    let t := s.enterReset .thermalTrip
    { t with power := { t.power with tripped := true, clocksOn := false },
             boot := { t.boot with flash := { f with records := (if f.records.length < 4096 then f.records ++ [false] else f.records) } } }

/-- LOSS_OF_LOCK (R557). -/
def State.lossOfLock (s : State) : State :=
  if !s.power.locked then s
  else
    let t := s.enterReset .clockLoss
    { t with power := { t.power with locked := false } }

/-- LOCK_REGAINED (R557): the reset of a loss of lock ends. -/
def State.lockRegained (s : State) : State :=
  if s.power.locked then s else State.resetEnd { s with power := { s.power with locked := true } }

/-- FW_WATCHDOG (R585): 500 ms, 12,288,000 ticks, without a refresh. -/
def State.fwWatchdog (s : State) : State :=
  if s.boot.watchdogArmed && !s.boot.refreshing && decide (s.boot.watchdogFrom + 12288000 ≤ s.dt) then s.enterReset .fwWatchdog else s

/-- WATCHDOG_REFRESH_STOP (R628): 10 ms after a FATAL fault. -/
def State.refreshStop (s : State) : State :=
  match s.boot.fatal with
  | some t => if t + 245760 ≤ s.dt && s.boot.refreshing then s.updBoot (fun b => { b with refreshing := false, watchdogFrom := s.dt }) else s
  | none => s

/-- BOOT_TIMEOUT (R606): 1.5 s after the reset ended, an image that passed IMAGE_CHECK is not READY. -/
def State.bootTimeout (s : State) : State :=
  let late := s.boot.stage == .training || s.boot.stage == .clear || s.boot.stage == .selfTest || s.boot.stage == .config
  if late && !s.boot.inReset && decide (36864000 ≤ s.dt) then
    (s.updBoot (fun b => { b with timedOut := some b.runningSlot })).enterReset .bootTimeout
  else s

/-- RESET_DT_REACHED (R547). -/
def State.resetDtReached (s : State) : State :=
  match s.boot.resetDt with
  | some t => if t ≤ s.dt then s.enterReset .command else s
  | none => s

/-! ## The boot flow (R592, Table 16-3) -/

/-- FW_STATE of every port (Table 16-4). -/
def State.allFwState (s : State) (v : Nat) : State := (List.range 4).foldl (fun t n => t.updPort n (fun p => { p with fwState := v })) s

/-- FAILED (R597). -/
def State.bootFails (s : State) (reason stack : Nat) : State :=
  (s.updBoot (fun b => { b with stage := .failed, failReason := reason, failStack := stack })).allFwState 4

/-- R606: the slot that timed out is marked, before a slot is chosen. -/
def State.noteTimeout (s : State) : State :=
  match s.boot.timedOut with
  | none => s
  | some k =>
    let x := s.boot.flash.dir.slot k
    let mark := fun (y : ImageSlot) =>
      if y.state = .activated then { y with state := .bad }
      else { y with timeouts := y.timeouts + 1, state := if 2 ≤ y.timeouts + 1 then .bad else y.state }
    (if x.bootable then s.updDir (fun d => d.updSlot k mark) else s).updBoot (fun b => { b with timedOut := none })

/-- R609: a trip not yet reported is the reset cause, and is marked reported. -/
def State.reportTrip (s : State) : State :=
  match s.boot.flash.records.getLast? with
  | some false =>
    s.updBoot (fun b => { b with cause := .thermalTrip, flash := { b.flash with records := b.flash.records.dropLast ++ [true] } })
  | _ => s

/-- ROM: the flash read, the slot chosen (R604), the site slot selected (R610, R611). -/
def State.romDone (s : State) (readable : Bool) : State :=
  if s.boot.stage ≠ .rom ∨ s.boot.inReset = true then s
  else if !readable || (!s.boot.flash.copy0.valid && !s.boot.flash.copy1.valid) then s.bootFails 3 0
  else
    let began := s.boot.flash.dir.preferred
    let t := s.noteTimeout.reportTrip
    let d := t.boot.flash.dir
    let site := t.boot.flash.currentSite
    let u := t.updBoot (fun b => { b with preferredAtBoot := began, siteDefault := site.isNone, siteSlot := site.getD 0 })
    if (d.slot d.preferred).bootable then u.updBoot (fun b => { b with stage := .imageCheck, runningSlot := d.preferred })
    else if (d.slot (1 - d.preferred)).bootable then
      (u.updDir (fun x => { x with preferred := 1 - x.preferred })).updBoot (fun b => { b with stage := .imageCheck, runningSlot := 1 - d.preferred })
    else u.bootFails 1 0

/-- IMAGE_CHECK (R604). -/
def State.imageCheck (s : State) (passed : Bool) : State :=
  if s.boot.stage ≠ .imageCheck then s
  else if passed then s.updBoot (fun b => { b with stage := .training })
  else
    let k := s.boot.runningSlot
    let t := s.updDir (fun d => d.updSlot k (fun x => { x with state := .bad }))
    if (t.boot.flash.dir.slot (1 - k)).bootable && !t.boot.triedOther then
      (t.updDir (fun d => { d with preferred := 1 - k })).updBoot (fun b => { b with runningSlot := 1 - k, triedOther := true })
    else t.bootFails 1 0

/-- TRAINING (R595). -/
def State.training (s : State) (failing : Option Nat) : State :=
  if s.boot.stage ≠ .training then s
  else match failing with
    | some k => s.bootFails 2 (k % 8)
    | none => s.updBoot (fun b => { b with stage := .clear })

/-- CLEAR (R592): device memory, tile stores and state stores hold zeros. -/
def State.clearDone (s : State) : State :=
  if s.boot.stage ≠ .clear then s
  else { s with mem := { s.mem with bytes := [], errs := [] }, store := [], boot := { s.boot with stage := .selfTest } }

/-- SELF_TEST (R122). -/
def State.selfTest (s : State) (failing : List Nat) : State :=
  if s.boot.stage ≠ .selfTest then s
  else ((List.range 3).foldl (fun (t : State) f => t.selfTestRetire f failing) s).updBoot (fun b => { b with stage := .config })

/-- R122: TILE_RETIRED for every tile the self-test retired. -/
def State.postSelfTest (s : State) : State :=
  (List.range 3).foldl
    (fun (t : State) f =>
      let due := (t.flank f).reports.filter (·.selfTest)
      due.foldl (fun (u : State) r => u.postRetired f r) (t.updFlank f (fun x => { x with reports := x.reports.filter (fun r => !r.selfTest) }))) s

/-- The descriptor rings the firmware laid out: 64 to a feeder, of 8 to 4,096 descriptors, 256-byte aligned within its own 2,048 MiB (R242, Table 9-2). -/
def State.setRings (s : State) (rings : List RingSetup) : State :=
  rings.foldl (fun t r =>
    if r.feeder < 4 ∧ r.ring < 64 ∧ 3 ≤ r.log ∧ r.log ≤ 12 ∧ r.base % 256 = 0 ∧ r.base + 32 * 2 ^ r.log ≤ 2147483648 then
      t.updFeeder r.feeder (fun x => { x with rings := Table.set {} x.rings r.ring { live := true, base := r.base, log := r.log } })
    else t) s

/-- CONFIG (R592, R573, R605, R609): windows, routes, rings and governor set; the booted slot is GOOD; FW_STATE reads READY. -/
def State.configDone (s : State) (rings : List RingSetup) : State :=
  if s.boot.stage ≠ .config then s
  else
    let c := match s.boot.siteDefault, s.boot.flash.siteSlot s.boot.siteSlot with
      | false, some img => siteOf img
      | _, _ => defaultSite
    let t := ((s.applySite c).initRoutes).setRings rings
    let u := t.updDir (fun d => d.updSlot t.boot.runningSlot (fun x => { x with state := .good, timeouts := 0 }))
    let v := u.updBoot (fun b =>
      { b with stage := .ready, watchdogArmed := true, refreshing := true,
               flash := if 4096 ≤ b.flash.records.length then { b.flash with records := [] } else b.flash })
    let w : State := { v with mem := { v.mem with scrubStart := v.dt } }
    ((List.range 3).foldl (fun (y : State) f => y.updFlank f (fun x => { x with cache := y.site.cache f })) ((w.allFwState 2).takeCap c.cap)).postSelfTest

/-! ## Flash writes (R545 to R549) -/

/-- Whether a flash operation runs or a device reset is pending (R549). -/
def State.flashBusy (s : State) : Bool := s.boot.writing.isSome || s.boot.resetDt.isSome

/-- The image slot that is not running. -/
def Boot.spareSlot (b : Boot) : Nat := 1 - b.runningSlot

/-- An image write begins: the slot is EMPTY until the image is written and verified (R602). -/
def State.startImage (s : State) (port cmd version length : Nat) : State :=
  let k := s.boot.spareSlot
  (s.updDir (fun d => d.updSlot k (fun _ => {}))).updBoot (fun b => { b with writing := some { port := port, cmd := cmd, job := .image k version length } })

/-- A site configuration write begins, into the slot that is not current, with the next SEQ (R610). -/
def State.startSite (s : State) (port cmd image : Nat) : State :=
  let f := s.boot.flash
  let cur := f.currentSite
  let k := match cur with
    | some j => 1 - j
    | none => 0
  let seq := match cur with
    | some j => siteSeq ((f.siteSlot j).getD 0) + 1
    | none => siteSeq image
  let f1 := if k = 0 then { f with site0 := none } else { f with site1 := none }
  s.updBoot (fun b => { b with flash := f1, writing := some { port := port, cmd := cmd, job := .site k (siteWithSeq image seq) } })

/-- FLASH_WRITE_DONE: written and verified, or failed. -/
def State.flashWriteDone (s : State) (ok : Bool) : State :=
  match s.boot.writing with
  | none => s
  | some w =>
    let t := s.updBoot (fun b => { b with writing := none })
    if !ok then t.complete w.port w.cmd (Answer.fail 0x0602)
    else match w.job with
      | .image k version length =>
        (t.updDir (fun d => d.updSlot k (fun _ => { state := .staged, timeouts := 0, length := length, version := version }))).complete w.port w.cmd
          { result := version }
      | .site k img =>
        (t.updBoot (fun b => { b with flash := if k = 0 then { b.flash with site0 := some img } else { b.flash with site1 := some img } })).complete
          w.port w.cmd {}

end Sys2Proof.Machine
end

