-- ==== Sys2Proof/Machine/Feeders.lean ====
section
/-!
DEFINITION. Machine/Feeders.lean: feeders: rings and skeins, descriptors, requests and tags, needle pairs, barriers and the stalemate check, watchdogs (chapter 7).
-/
namespace Sys2Proof.Machine

/-! ## Descriptors (Tables 7-1 to 7-4) -/

/-- The 32 bytes of a descriptor decoded. -/
def Desc.ofBytes (w : Nat) : Desc :=
  let put := field w 0 4 == 8
  { kind := field w 0 4, ordered := flag w 4, wait := flag w 5, arrive := flag w 6, gambit := flag w 7, notify := flag w 8, needle := flag w 9,
    pair := field w 10 4, part := field w 14 2, barrier := field w 16 10, deadline := field w 32 32, task := field w 64 16,
    span := if put then 0 else field w 80 16, length := if put then 16 else field w 96 24,
    src := if put then field w 80 48 else field w 128 64, dst := if put then field w 128 128 else field w 192 64,
    reservedOk := field w 26 6 == 0 && (put || field w 120 8 == 0) }

/-- A device-memory range of Table 7-3: SPACE 0, other bits zero, within device memory, aligned. -/
def memWordOk (w len : Nat) : Bool := field w 37 27 == 0 && decide (field w 0 37 + len ≤ memEnd) && w % 32 == 0

/-- A tile-store or state-store range of flank `f`. -/
def tileWordOk (f w len : Nat) : Bool :=
  let space := field w 60 4
  let size := if space = 1 then 1048576 else 262144
  (space == 1 || space == 2) && field w 28 32 == 0 && decide (48 * f ≤ field w 20 8 ∧ field w 20 8 < 48 * f + 48 ∧ field w 0 20 + len ≤ size) && w % 32 == 0

/-- A signal block range, within the 24 bits of its offset. -/
def signalWordOk (w len : Nat) : Bool := field w 60 4 == 5 && field w 24 36 == 0 && w % 32 == 0 && decide (field w 0 24 + len ≤ 2 ^ 24)

/-- A host aperture range, within the 32 bits of its offset. -/
def hostWordOk (w len : Nat) : Bool := field w 60 4 == 3 && field w 58 2 == 0 && w % 32 == 0 && decide (field w 0 32 + len ≤ 2 ^ 32)

/-- The address word of an end that is none: SPACE 4, LOCATION zero (Table 7-3). -/
def noneWord : Nat := 4 * 2 ^ 60

/-- R248, R249: whether feeder `f` accepts a descriptor. -/
def Desc.ok (d : Desc) (f : Nat) : Bool :=
  let lenOk := decide (32 ≤ d.length ∧ d.length ≤ 16777184 ∧ d.length % 32 = 0)
  let near := fun w => if f = 3 then signalWordOk w d.length else tileWordOk f w d.length
  let spanOk := d.kind == 5 || d.span == 0
  d.reservedOk && d.task != 0 && decide (d.barrier / 256 ≤ 2) && spanOk &&
    (match d.kind with
     | 0 => lenOk && memWordOk d.src d.length && near d.dst
     | 1 => lenOk && near d.src && memWordOk d.dst d.length
     | 2 => lenOk && memWordOk d.src d.length && memWordOk d.dst d.length
     | 3 => f == 3 && lenOk && hostWordOk d.src d.length && memWordOk d.dst d.length
     | 4 => f == 3 && lenOk && memWordOk d.src d.length && hostWordOk d.dst d.length
     | 5 => f != 3 && lenOk && memWordOk d.src d.length && tileWordOk f d.dst d.length && field d.dst 60 4 == 1 && d.span / 4096 == 0
              && decide (field d.span 8 4 / 4 = f ∧ field d.span 0 4 ≤ 11 ∧ field d.span 4 4 ≤ 11)
     | 6 => lenOk && d.src == noneWord && memWordOk d.dst d.length
     | 7 => d.length == 0 && d.src == noneWord && d.dst == noneWord
     | 8 => !d.needle && !d.gambit && d.src % 16 == 0 && decide (d.src + 16 ≤ memEnd)
     | _ => false)

/-! ## Barriers (R262 to R265) -/

/-- One arrival at a barrier: none when it is a BARRIER fault (R263). -/
def Barrier.arrive (b : Barrier) (dt : Nat) (who : Party) : Option Barrier :=
  if b.state ≠ .armed ∨ b.expect ≤ b.arrived then none
  else
    let n := b.arrived + 1
    some (if n = b.expect then { b with arrived := n, state := .complete, waiters := [], owing := [], lastArrival := dt }
          else { b with arrived := n, owing := b.owing.erase who, lastArrival := dt })

/-- An arrival of operation `op` at barrier `index` of flank `f`. -/
def State.arriveBarrier (s : State) (f index op : Nat) (who : Party) (feeder : Nat) : State :=
  match (s.barrier f index).arrive s.dt who with
  | some b => s.updBarrier f index (fun _ => b)
  | none => s.abortOp op { kind := 0x07, feeder := feeder, endpoint := 288 }

/-- The head descriptor a ring has fetched. -/
def FRing.headDesc (r : FRing) : Option Desc :=
  match r.skein with
  | none => none
  | some (first, ws) => if r.head ≠ r.tail ∧ r.head / 8 = first / 8 then (ws[r.head % 8]?).map Desc.ofBytes else none

/-- Feeder ring `r`. -/
def Feeder.ring (x : Feeder) (r : Nat) : FRing := Table.get {} x.rings r

/-- Whether a party is blocked on barrier `k` (256 × flank + index). -/
def State.blockedOn (s : State) (k : Nat) : Party → Bool
  | .task op => (Table.get {} s.barriers k).waiters.contains (.task op)
  | .ring f r => match ((s.feeder f).ring r).headDesc with
    | some d => d.wait && d.barrier == k
    | none => false

/-- The stalemate set (R265): incomplete barriers, less those with an owing party that is not blocked on a barrier of the set, until none leaves. -/
def State.stalemateSet (s : State) : Nat → List Nat → List Nat
  | 0, ks => ks
  | n + 1, ks =>
    let keep := ks.filter (fun k => (Table.get {} s.barriers k).owing.all (fun p => ks.any (fun j => s.blockedOn j p)))
    if keep.length = ks.length then ks else s.stalemateSet n keep

/-- The operation of a party: a task, or the operation of the ring's head descriptor. -/
def State.partyOp (s : State) : Party → Nat
  | .task op => op
  | .ring f r => match ((s.feeder f).ring r).headDesc with
    | some d => d.task
    | none => 0

/-- The streams an operation works for. -/
def State.opStreams (s : State) (op : Nat) : List (Nat × Stage × Nat) :=
  match s.ops.find? (fun o => o.id == op) with
  | none => []
  | some o => match o.kind with
    | .task f => match (s.flank f).run with
      | some r => r.items.map (fun it => (s.objStream it.stage it.obj, it.stage, it.row))
      | none => []
    | .commit c obj => [(s.objStream (codeStage c) obj, codeStage c, (s.sect (codeStage c) obj).row)]
    | .castIn c obj => [(s.objStream (codeStage c) obj, codeStage c, (s.sect (codeStage c) obj).row)]
    | _ => []

/-- R265: the check of barrier `index` of flank `f`. -/
def State.stalemateCheck (s : State) (f index : Nat) : State :=
  let b := s.barrier f index
  let waited := !b.waiters.isEmpty || (List.range 4).any (fun k => (s.feeder k).rings.any (fun r => s.blockedOn (256 * f + index) (.ring k r.1)))
  if b.state ≠ .armed ∨ waited = false ∨ s.dt < b.lastArrival + 6144 then s
  else
    let armed := (s.barriers.filter (fun e => e.2.state == .armed)).map (·.1)
    let found := s.stalemateSet armed.length armed
    if !found.contains (256 * f + index) then s.updBarrier f index (fun x => { x with lastArrival := s.dt })
    else
      let parties := found.flatMap (fun k => (Table.get {} s.barriers k).owing ++ (Table.get {} s.barriers k).waiters)
      let ops := ((parties.map s.partyOp).filter (fun o => o != 0)).eraseDups
      let hit := ops.flatMap s.opStreams
      let streams := (hit.map (·.1)).eraseDups
      let t := s.updFeeder f (fun x => { x with cnt := { x.cnt with stalemates := bump 32 x.cnt.stalemates 1 } })
      let u := streams.foldl (fun (v : State) i => match hit.find? (fun h => h.1 == i) with
        | some h => v.postFault i 2 h.2.1 h.2.2
        | none => v) t
      let w := ops.foldl (fun (v : State) o => v.abortOpAs o { kind := 0x11, endpoint := 288, detail := pack [(8, found.length), (2, f)] } 10) u
      ({ w with barriers := Table.clear (fun k => found.contains k) w.barriers }).dispatchAll

/-! ## Rings (R242 to R244) -/

/-- Descriptors written one after another into a ring's memory from index `i`. -/
def State.writeRing (s : State) (r : FRing) : Nat → List Nat → State
  | _, [] => s
  | i, d :: ds => (s.memWrite (r.base + 32 * (i % 2 ^ r.log)) 32 d).writeRing r (i + 1) ds

/-- A feeder's ring changed. -/
def State.updRing (s : State) (f r : Nat) (g : FRing → FRing) : State :=
  s.updFeeder f (fun x => { x with rings := Table.set {} x.rings r (g (x.ring r)) })

/-- R242: the host port a ring of FX is assigned to; none for the signal block's. -/
def ringPort (r : Nat) : Option Nat := if r < 16 then none else some ((r - 16) / 12)

/-- R242: whether a descriptor belongs to a ring: on FX those of the signal block and of each port go to the rings assigned to it. -/
def Desc.fitsRing (d : Desc) (f r : Nat) : Bool :=
  f != 3 || (match d.kind with
    | 0 => ringPort r == none
    | 1 => ringPort r == none
    | 3 => ringPort r == some (field d.src 56 2)
    | 4 => ringPort r == some (field d.dst 56 2)
    | _ => true)

/-- R63: a descriptor made for an operation carries that operation's deadline. -/
def State.stampDesc (s : State) (w : Nat) : Nat :=
  match (s.ops.find? (fun o => o.id == field w 64 16)).bind (·.deadline) with
  | some d => w - field w 32 32 * 2 ^ 32 + d * 2 ^ 32
  | none => w

/-- The earliest deadline of the descriptors handed over (R243). -/
def earliestDeadline (given : Nat) (descs : List Nat) : Nat :=
  match descs.map (fun w => field w 32 32) with
  | [] => low32 given
  | d :: ds => ds.foldl (fun a b => if earlier32 b a then b else a) d

/-- R63, R243, R244: a doorbell with the descriptors it hands over; the skein that held the old tail is read again. -/
def State.ringDoorbell (s : State) (f r tail deadline : Nat) (descs : List Nat) : State :=
  let x := (s.feeder f).ring r
  let ds := descs.map s.stampDesc
  if !x.live || !ds.all (fun w => (Desc.ofBytes w).fitsRing f r) then s
  else (s.writeRing x x.tail ds).updRing f r (fun y =>
    { y with tail := tail % 2 ^ y.log, deadline := earliestDeadline deadline ds,
             skein := y.skein.filter (fun k => k.1 / 8 != x.tail / 8) })

/-! ## Deadline order at a pseudo-channel (R258) -/

/-- Whether a ring waits for a skein (R244). -/
def FRing.wants (r : FRing) : Bool := r.live && r.head != r.tail && r.skein.isNone

/-- The device address of the skein a ring waits for. -/
def FRing.skeinAddr (r : FRing) : Nat := r.base + 32 * (r.head / 8 * 8)

/-- The requests that stand at pseudo-channel `c`, as deadline and source feeder: those issued and not served, and the skeins that rings wait for (R244, R257). -/
def State.atChannel (s : State) (c : Nat) : List (Nat × Nat) :=
  (List.range 4).flatMap (fun f =>
    (((s.feeder f).requests.filter (fun q => !q.fetched && !(q.kind == 3 && q.read) && channelOf q.addr == c)).map (fun q => (q.deadline, f))) ++
      (((s.feeder f).rings.filter (fun e => e.2.wants && channelOf e.2.skeinAddr == c)).map (fun e => (e.2.deadline, f))))

/-- R258: whether a request of feeder `f` with a deadline is the one pseudo-channel `c` issues next: none there has an earlier one, and of those with the same deadline none comes from a source
nearer in turn after the last one served. Every request issued counts as standing at its controller with its bank ready (DESIGN CHOICE, log 116). -/
def State.firstAt (s : State) (c f deadline : Nat) : Bool :=
  let turn := fun (g : Nat) => (g + 3 - (s.channel c).lastSource) % 4
  (s.atChannel c).all (fun e => !earlier32 e.1 deadline && (e.1 != deadline || decide (turn f ≤ turn e.2)))

/-- Pseudo-channel `c` has served feeder `f`. -/
def State.servedAt (s : State) (c f : Nat) : State := s.updChannel c (fun x => { x with lastSource := f })

/-- R629: an uncorrectable burst of a descriptor ring is zero-filled, and its operation, where one exists, aborts; one entry with PART 7. -/
def State.ringBurstLost (s : State) (f burst kind : Nat) : State :=
  let task := field (s.memRead (32 * burst) 32) 64 16
  let t := s.memWrite (32 * burst) 32 0
  let e : JEntry := { JEntry.blank kind with endpoint := stackOf (32 * burst), feeder := f, task := task, detail := if kind = 0x20 then channelOf (32 * burst) else 0, address := 32 * burst }
  match t.ops.find? (fun o => o.id == task && !o.aborted) with
  | some o =>
    let u := (t.journalWrite { e with aborted := true, recovery := o.kind.recovery.code })
    let v : State := { u with ops := u.ops.map (fun (y : Operation) => if y.id == task then { y with aborted := true } else y) }
    (((v.dropRequests task).ownerRecovers o.kind o.part 4).reapOps).dispatchAll
  | none => t.journalWrite e

/-- SKEIN (R244, R258): eight descriptors read at the head's aligned group, in the turn of the doorbell's deadline. -/
def State.fetchSkein (s : State) (f r : Nat) : State :=
  let x := (s.feeder f).ring r
  let a := x.skeinAddr
  if !x.wants || !s.firstAt (channelOf a) f x.deadline then s
  else
    let first := x.head / 8 * 8
    let bad := (burstsOf a 256).filter (fun b => eccOf b (s.mem.err b) == .uncorrectable)
    let t := bad.foldl (fun (u : State) b => u.ringBurstLost f b 0x01) (s.servedAt (channelOf a) f)
    let ws := (List.range 8).map (fun j => t.memRead (a + 32 * j) 32)
    t.updRing f r (fun y => { y with skein := some (first, ws) })

/-! ## Needle pairs (R255, R256) -/

/-- The half a fill takes: an EMPTY one, the next to be swapped in first; else the one now worked on, whose turn comes after the swap (R255). -/
def Needle.fillHalf (n : Needle) : Bool :=
  if n.half (!n.current) = .empty then !n.current else n.current

/-- SWAP (R256): the roles of a pair's halves exchanged when they may be; else the tile waits. -/
def Needle.swap (n : Needle) : Needle :=
  let next := !n.current
  if n.outbound then
    if n.half next = .empty then
      let m := if n.half n.current = .working then n.setHalf n.current .full else n
      { m.setHalf next .working with current := next, waiting := false }
    else { n with waiting := true }
  else
    if n.half next = .full then
      let m := if n.half n.current = .working then n.setHalf n.current .empty else n
      { m.setHalf next .working with current := next, waiting := false, used := false }
    else { n with waiting := true }

/-- SWAP at a tile: a fill that waited for the half begins to fill it (R255, R276). A tile whose swap has to wait counts data-late until it is made (R256). -/
def State.swapNeedle (s : State) (t p : Nat) : State :=
  let f := t / 48
  let n := (s.tile t).needle p
  if !n.declared then s
  else
    let m := n.swap
    let freed := !m.outbound && m.half n.current == .empty && m.current != n.current
    let waiting := (s.feeder f).progress.any (fun q => q.desc.needle && q.desc.pair == p && q.half == some n.current && s.wordTile q.desc.dst == some t)
    let m1 := if freed && waiting then m.setHalf n.current .filling else m
    let u := s.updNeedle t p (fun _ => m1)
    if m.waiting then u.stalls t .dataLate else if n.waiting then u.stallEnds t else u

/-- A swap that waits is made as soon as its half allows it (R256). -/
def State.pendingSwap (s : State) (t p : Nat) : State :=
  let n := (s.tile t).needle p
  if n.waiting && !n.swap.waiting then s.swapNeedle t p else s

/-! ## Starting descriptors (R245) -/

/-- R405, R421: a descriptor that needs a host port waits while the port may issue no memory request. -/
def State.portOpen (s : State) (d : Desc) : Bool :=
  d.kind != 3 && d.kind != 4 || (s.port (field (if d.kind = 3 then d.src else d.dst) 56 2)).canWrite

/-- The tiles on an MCAST's file and rank span (R251). -/
def Desc.spanTiles (d : Desc) : List Nat :=
  let file := field d.span 8 4
  let lo := min (field d.span 0 4) (field d.span 4 4)
  let hi := max (field d.span 0 4) (field d.span 4 4)
  List.range' (12 * file + lo) (hi + 1 - lo)

/-- The tiles an MCAST's multicast writes: enabled or loading tiles of the span (R251). -/
def State.mcastTiles (s : State) (d : Desc) : List Nat := d.spanTiles.filter (fun t => (s.tile t).state == .enabled || (s.tile t).state == .loading)

/-- The logical members of the span whose role a tile outside it has taken: each receives a unicast copy (R117, R251). -/
def State.movedMembers (s : State) (d : Desc) : List Nat :=
  (d.spanTiles.map (fun t => 48 * (t / 48) + tileMember t)).filter (fun e => match s.logicalTile e with
    | some k => !d.spanTiles.contains k
    | none => false)

/-- The stacks an MCAST reads from. -/
def Desc.stacks (d : Desc) : List Nat :=
  ((List.range (d.length / 256 + 2)).map (fun j => channelOf (min (field d.src 0 37 + 256 * j) (field d.src 0 37 + (d.length - 1))) / 32)).eraseDups

/-- R312: whether an MCAST is issued as unicast copies: its path crosses a link that a multicast has found DOWN. -/
def State.asUnicast (s : State) (d : Desc) : Bool :=
  d.kind == 5 && d.stacks.any (fun k => s.mcastCut k (field d.span 8 4) (field d.span 0 4) (field d.span 4 4))

/-- The unicast copies of a descriptor: every member of the span, or those whose role a tile outside it has taken. -/
def State.copiesOf (s : State) (d : Desc) : List Nat :=
  if d.kind ≠ 5 then []
  else if s.asUnicast d then (d.spanTiles.map (fun t => 48 * (t / 48) + tileMember t)).filter (fun e => (s.logicalTile e).isSome)
  else s.movedMembers d

/-- Whether a ring's head descriptor may start. -/
def State.mayStart (s : State) (f r : Nat) (d : Desc) : Bool :=
  let x := s.feeder f
  decide (x.progress.length < 16) &&
    (!d.ordered || x.progress.all (fun p => p.ring != r)) &&
    (!d.wait || (Table.get {} s.barriers d.barrier).state == .complete) &&
    s.portOpen d

/-- The ring whose head descriptor starts next: earliest deadline, then round-robin after the last ring served. -/
def State.nextRing (s : State) (f : Nat) : Option (Nat × Desc) :=
  let x := s.feeder f
  let order := (List.range 64).map (fun k => (x.lastRing + 1 + k) % 64)
  order.foldl
    (fun best r => match (x.ring r).headDesc with
      | none => best
      | some d =>
        if !s.mayStart f r d then best
        else match best with
          | none => some (r, d)
          | some (q, e) => if earlier32 d.deadline e.deadline then some (r, d) else some (q, e)) none

/-- What an operation still owes once a descriptor of it has completed: a page read, a copy and a PUT16 are the very transfers it was made for, other kinds count by their bytes (R174, R206). -/
def owedAfter (d : Desc) : List Owed → List Owed
  | [] => []
  | o :: os =>
    let same := if d.kind = 8 then d.dst == o.data
      else if d.kind = 2 then d.src + 2 ^ 64 * d.dst == o.data && d.length == o.bytes
      else d.src == o.data && d.length == o.bytes
    if o.kind = d.kind ∧ (o.data = 0 ∨ same = true) then
      if o.data = 0 ∧ d.length < o.bytes then { o with bytes := o.bytes - d.length } :: os else os
    else o :: owedAfter d os

/-- The bytes of a list of transfers. -/
def owedBytes (os : List Owed) : Nat := (os.map (fun o => o.bytes)).foldl (· + ·) 0

/-- The operation of a completed descriptor owes that much less; NOTIFY reports the completion to the firmware (R247). The deadline of a package's read is renewed for each 64 MiB read
(R491). -/
def State.countDesc (s : State) (d : Desc) : State :=
  { s with ops := s.ops.map (fun (o : Operation) =>
      if o.id == d.task then
        let left := owedAfter d o.owed
        let all := owedBytes o.asked
        let renew := match o.kind with
          | .package _ => decide ((all - owedBytes o.owed) / 2 ^ 26 < (all - owedBytes left) / 2 ^ 26)
          | _ => false
        { o with owed := left, notified := o.notified + bit d.notify, deadline := if renew then some (low32 (s.dt + 24576000)) else o.deadline }
      else o) }

/-- A page read into a tile store is complete: the tile's wait for its bytes ends (R218, R219). -/
def State.pageArrived (s : State) (d : Desc) : State :=
  if d.kind ≠ 0 ∨ d.length ≠ 4096 ∨ d.src % 4096 ≠ 0 then s
  else match s.wordTile d.dst with
    | none => s
    | some k =>
      let ppn := d.src / 4096
      if !(s.tile k).waits.contains (.memory ppn) then s
      else (s.updTile k (fun x => { x with waits := x.waits.erase (.memory ppn),
                                           fetched := if x.frames.contains ppn then x.fetched else x.fetched ++ [ppn] })).finishDrop k ppn

/-- A descriptor with every tag returned completes (R254, R263, R277): its needle half, its arrival, its place, its operation's count. An aborted operation's descriptor publishes
nothing (R268). -/
def State.descDone (s : State) (f : Nat) (p : Progress) : State :=
  if p.dropped || s.ops.any (fun o => o.id == p.desc.task && o.aborted) then (s.progressGone f p).reapOps
  else
    let t := s.updFeeder f (fun x =>
      { x with progress := x.progress.filter (fun q => q.id != p.id), cnt := { x.cnt with descriptors := bump 64 x.cnt.descriptors 1 } })
    let u := match p.half, s.wordTile p.desc.nearWord with
      | some h, some k => (t.updNeedle k p.desc.pair (fun n =>
          n.setHalf h (if n.outbound = false ∧ n.half h = HalfState.filling then HalfState.full
                       else if n.half h = HalfState.working then HalfState.working else HalfState.empty))).pendingSwap k p.desc.pair
      | _, _ => t
    let u := (u.countDesc p.desc).pageArrived p.desc
    (if p.desc.arrive then u.arriveBarrier (p.desc.barrier / 256) (p.desc.barrier % 256) p.desc.task (.ring f p.ring) f else u).reapOps

/-- R273, R267: a fault of a descriptor's request: a gambit is sacrificed, anything else aborts its operation. -/
def State.transferFault (s : State) (f : Nat) (d : Desc) (prog : Nat) (i : FaultInfo) : State :=
  if d.gambit then
    let t := s.updFeeder f (fun x =>
      { x with progress := x.progress.map (fun p => if p.id == prog then { p with dropped := true } else p),
               cnt := { x.cnt with gambitFaults := bump 32 x.cnt.gambitFaults 1 } })
    (t.sweepDropped f).journalWrite
      { JEntry.blank i.kind with
        endpoint := i.endpoint, feeder := f, part := d.part, task := d.task, gambit := true, injected := i.injected,
        recovery := Recovery.sacrificed.code, detail := i.detail, address := i.address }
  else s.abortOp d.task { i with feeder := f, part := some d.part }

/-- The bytes a descriptor asks for in all: an MCAST its length, unless a link it would cross is DOWN (R312), and again for each unicast copy (R251). -/
def Progress.total (p : Progress) : Nat := p.desc.length * (bit (!p.unicast) + p.copies.length)

/-- The unicast copy a request of an MCAST belongs to: the logical member, none for the multicast itself (R251). -/
def Progress.copyOf (p : Progress) : Option Nat :=
  if p.unicast then p.copies[p.issued / max 1 p.desc.length]? else if p.issued < p.desc.length then none else p.copies[p.issued / p.desc.length - 1]?

/-- DESCRIPTOR_START (R245, R249). A descriptor of an aborted operation is passed over (R267). -/
def State.startDesc (s : State) (f : Nat) : State :=
  match s.nextRing f with
  | none => s
  | some (r, d) =>
    let x := s.feeder f
    let next := ((x.ring r).head + 1) % 2 ^ (x.ring r).log
    let t := s.updRing f r (fun y => { y with head := next, skein := if next % 8 = 0 then none else y.skein })
    let t1 := t.updFeeder f (fun y => { y with lastRing := r })
    let aborted := s.ops.any (fun o => o.id == d.task && o.aborted)
    if aborted then t1.reapOps
    else if !d.ok f then t1.transferFault f d 0 { kind := 0x06, endpoint := 300 + f, address := d.src }
    else
      let w := d.nearWord
      let needle := if d.needle && decide (d.kind ≤ 1 ∧ f < 3) then s.wordTile w else none
      let half := match needle with
        | some k =>
          let n := (s.tile k).needle d.pair
          some (if n.outbound then (if n.half0 = .full then false else true) else n.fillHalf)
        | none => none
      let fits := match needle with
        | some k => decide (field w 0 20 + d.length ≤ ((s.tile k).needle d.pair).size)
        | none => true
      if !fits then t1.transferFault f d 0 { kind := 0x06, endpoint := 300 + f, address := w }
      else
        let p : Progress := { id := x.nextProg, ring := r, index := (x.ring r).head, desc := d, half := half, copies := s.copiesOf d, unicast := s.asUnicast d }
        let t2 := t1.updFeeder f (fun y => { y with progress := y.progress ++ [p], nextProg := y.nextProg + 1 })
        let t3 := match needle, half with
          | some k, some h => t2.updNeedle k d.pair (fun n =>
              if n.outbound then (if n.half h = .full then n.setHalf h .draining else n)
              else if n.half h = .empty then n.setHalf h .filling else n)
          | _, _ => t2
        if p.total = 0 then t3.descDone f p else t3

/-! ## Issuing requests (R240, R241, R246, R255, R271) -/

/-- Tags held by all feeders. -/
def State.allTags (s : State) : Nat := ((List.range 4).map (fun f => (s.feeder f).requests.length)).foldl (· + ·) 0

/-- The lowest tag a feeder does not hold; the manual does not say which (DESIGN CHOICE, log 16). -/
def Feeder.freeTag (x : Feeder) : Nat := ((List.range 2048).find? (fun t => x.requests.all (fun r => r.tag != t))).getD 0

/-- The tags of a port's outstanding requests it may hold (R419) and the first of their numbers. -/
def HostPort.tagSpace (p : HostPort) : Nat × Nat :=
  match p.cfg.tagMode with
  | .ten => (256, 768)
  | .eight => (0, 256)
  | .five => (0, 32)

/-- A PCI Express tag not outstanding and not quarantined, if the port's limit allows one (R419, R423). -/
def HostPort.freePcieTag (p : HostPort) : Option Nat :=
  let sp := p.tagSpace
  if sp.2 ≤ p.requests.length then none
  else (List.range' sp.1 sp.2).find? (fun t => p.requests.all (fun r => r.pcieTag != t) && p.quarantine.all (fun q => q.pcieTag != t))

/-- The PCI Express tags a port may still take (R419, R423). -/
def HostPort.freeTags (p : HostPort) : Nat :=
  let sp := p.tagSpace
  min (sp.2 - p.requests.length)
    (sp.2 - (p.requests.filter (fun r => decide (sp.1 ≤ r.pcieTag ∧ r.pcieTag < sp.1 + sp.2))).length -
      (p.quarantine.filter (fun q => decide (sp.1 ≤ q.pcieTag ∧ q.pcieTag < sp.1 + sp.2))).length)

/-- The address in a tile's stores a word names, with the needle half's place (R254): tile by tile, the state store after the tile store. -/
def State.storeKey (s : State) (w : Nat) (d : Desc) (half : Option Bool) : Option Nat :=
  if field w 60 4 = 5 then some (144 * 2 ^ 21 + field w 0 24)
  else
    (s.wordTile w).map (fun t =>
      let off := field w 0 20
      let place := match half with
        | some h => let n := (s.tile t).needle d.pair
                    n.base + (if h then n.size else 0) + off
        | none => off
      t * 2 ^ 21 + (if field w 60 4 = 2 then 2 ^ 20 else 0) + place)

/-- The next piece of a descriptor: device address, other address word, bytes: never across a 256-byte boundary of device memory (R241). -/
def Progress.piece (p : Progress) : Nat × Nat × Nat :=
  let d := p.desc
  let left := d.length - p.issued
  let cut := fun x => 256 - (x + p.issued) % 256
  let off := p.issued % max 1 d.length
  match d.kind with
  | 2 => (field d.src 0 37 + p.issued, d.dst + p.issued, min left (min (cut d.src) (cut d.dst)))
  | 0 => (field d.src 0 37 + p.issued, d.dst + p.issued, min left (cut d.src))
  | 4 => (field d.src 0 37 + p.issued, d.dst + p.issued, min left (cut d.src))
  | 5 =>
    let near := match p.copyOf with
      | some e => d.dst - field d.dst 20 8 * 2 ^ 20 + e * 2 ^ 20
      | none => d.dst
    (field d.src 0 37 + off, near + off, min (d.length - off) (256 - (d.src + off) % 256))
  | 8 => (d.src, d.dst, 16)
  | _ => (field d.dst 0 37 + p.issued, d.src + p.issued, min left (cut d.dst))

/-- The next piece as its port allows it: on the host's side at most 256 bytes and the programmed Max_Read_Request_Size or Max_Payload_Size, never across a 256-byte boundary (R418). -/
def State.pieceOf (s : State) (p : Progress) : Nat × Nat × Nat :=
  let x := p.piece
  let c := (s.port (field x.2.1 56 2)).cfg
  let limit := if p.desc.kind = 3 then c.maxReadRequest else c.maxPayload
  if p.desc.kind = 3 ∨ p.desc.kind = 4 then (x.1, x.2.1, min x.2.2 (min (max 4 limit) (256 - field x.2.1 0 32 % 256))) else x

/-- R271: whether a gambit may issue now. -/
def State.gambitRoom (s : State) (f : Nat) : Bool := decide ((s.feeder f).requests.length ≤ 1536 ∧ 512 ≤ 6144 - s.allTags)

/-- Bytes a fill would put into the return buffer (R255). -/
def State.bufferNeed (s : State) (p : Progress) (bytes : Nat) : Nat :=
  match p.half, s.wordTile p.desc.dst with
  | some h, some t => if ((s.tile t).needle p.desc.pair).half h = .filling then 0 else bytes
  | _, _ => 0

/-- Whether a descriptor in progress has a request to issue. -/
def State.canIssue (s : State) (f : Nat) (p : Progress) : Bool :=
  !p.dropped && decide (p.issued < p.total) && (!p.desc.gambit || s.gambitRoom f) && s.portOpen p.desc &&
    decide ((s.feeder f).returnUsed + s.bufferNeed p (s.pieceOf p).2.2 ≤ 131072)

/-- The descriptor whose request issues next (R246). -/
def State.nextIssue (s : State) (f : Nat) : Option Progress :=
  let x := s.feeder f
  let order := x.progress.filter (fun p => decide (x.lastProg < p.id)) ++ x.progress.filter (fun p => decide (p.id ≤ x.lastProg))
  (order.filter (s.canIssue f)).foldl
    (fun best p => match best with
      | none => some p
      | some q => if earlier32 p.desc.deadline q.desc.deadline then some p else some q) none

/-- A request recorded under a free tag. -/
def State.addRequest (s : State) (f : Nat) (p : Progress) (r : Request) : State :=
  s.updFeeder f (fun x =>
    let reqs := x.requests ++ [r]
    { x with
      requests := reqs, lastProg := p.id,
      progress := x.progress.map (fun q => if q.id == p.id then { q with issued := q.issued + r.bytes, tags := q.tags + 1 } else q),
      returnUsed := x.returnUsed + (if r.buffered then r.bytes else 0),
      cnt := { x.cnt with tagsHigh := max x.cnt.tagsHigh reqs.length } })

/-- The stitches a request sends: READ, PUT16 and ZERO one, WRITE one and its data (Table 8-3). -/
def requestStitches (kind : Nat) (read : Bool) (bytes : Nat) : Nat := if read ∨ kind = 8 ∨ kind = 6 then 1 else 1 + ceilDiv bytes 32

/-- Table 8-3's KIND of a request: READ, WRITE, PUT16 or ZERO. -/
def requestKind (kind : Nat) (read : Bool) : Nat := if read then 1 else if kind = 8 then 3 else if kind = 6 then 4 else 2

/-- R417 for a descriptor's host range: the port bound to PART, the aperture, its permission. -/
def State.hostRange (s : State) (d : Desc) (w bytes : Nat) (write : Bool) : ApertureCheck :=
  let n := field w 56 2
  if n ≠ d.part then .outside else (s.port n).checkAperture (field w 32 24) (field w 0 32) bytes (!write) write

/-- R342, R417: a refused host range: the violation log, and the abort with REGION_GUARD. -/
def State.hostRefused (s : State) (f : Nat) (p : Progress) (w : Nat) (write : Bool) (r : ApertureCheck) : State :=
  let t := s.violate p.desc.part (if r == .forbidden then 5 else 4) .fxDma write w 0 0
  t.transferFault f p.desc p.id { kind := 0x02, endpoint := 272 + field w 56 2, address := w }

/-- R250, R285: whether the tile a request names has a valid route; other ends need none. -/
def State.nearRoute (s : State) (f : Nat) (d : Desc) (w : Nat) : Bool :=
  !(decide (d.kind ≤ 1) && f != 3) || (s.route (field w 20 8)).valid

/-- REQUEST_ISSUE (R240, R246, R285, R303, R304, R417, R419): one request of feeder `f`, once tag, window and port allow it. -/
def State.issueRequest (s : State) (f : Nat) : State :=
  let x := s.feeder f
  match s.nextIssue f with
  | none => s
  | some p =>
    let d := p.desc
    if 2048 ≤ x.requests.length ∨ 6144 ≤ s.allTags then s.updFeeder f (fun y => { y with waitFrom := some (y.waitFrom.getD s.dt) })
    else
      let pc := s.pieceOf p
      let tag := x.freeTag
      let waited := match x.waitFrom with
        | some w => (s.dt - w) * 200 / 3
        | none => 0
      let s1 := s.updFeeder f (fun y => { y with waitFrom := none, cnt := { y.cnt with tagPoolWaits := bump 64 y.cnt.tagPoolWaits waited } })
      let read := d.kind != 1 && d.kind != 6 && d.kind != 8
      let req : Request :=
        { tag := tag, prog := p.id, op := d.task, part := d.part, deadline := d.deadline, kind := if p.copyOf.isSome then 0 else d.kind, read := read, gambit := d.gambit,
          addr := pc.1, other := pc.2.1, bytes := pc.2.2, issued := s.dt, data := 0, buffered := decide (0 < s.bufferNeed p pc.2.2) }
      if d.kind = 3 then
        match s1.hostRange d pc.2.1 pc.2.2 false with
        | .ok =>
          let n := field pc.2.1 56 2
          match (s1.port n).freePcieTag with
          | none => s1
          | some pt =>
            (s1.addRequest f p req).updPort n (fun y =>
              { y with requests := y.requests ++ [{ pcieTag := pt, fxTag := tag, aperture := field pc.2.1 32 24, op := d.task, purpose := .other, issued := s.dt, deadline := d.deadline }] })
        | r => s1.hostRefused f p pc.2.1 false r
      else
        let dst := 256 + channelOf pc.1 / 32
        let n := requestStitches d.kind read pc.2.2
        let hostBad := if d.kind = 4 then s1.hostRange d pc.2.1 pc.2.2 true else ApertureCheck.ok
        if hostBad != .ok then s1.hostRefused f p pc.2.1 true hostBad
        else if !s1.canInject dst then
          (s1.updNetif (300 + f) (fun y => { y with refused := bump 32 y.refused 1 })).transferFault f d p.id { kind := 0x06, endpoint := dst, address := dst }
        else if !s1.nearRoute f d pc.2.1 then
          (s1.updNetif (300 + f) (fun y => { y with refused := bump 32 y.refused 1 })).transferFault f d p.id { kind := 0x06, endpoint := field pc.2.1 20 8, address := field pc.2.1 20 8 }
        else if !(s1.window (300 + f) dst).isOpen then s1.wantContext (300 + f) dst
        else if !(s1.window (300 + f) dst).room n then s1.windowWaits (300 + f) dst
        else
          let v := if d.kind = 1 then (match s1.storeKey pc.2.1 d p.half with
              | some k => s1.storeRead k pc.2.2
              | none => 0) else if d.kind = 8 then d.dst else 0
          (s1.addRequest f p { req with data := v }).sendMessage (300 + f) dst d.task 0 (requestKind d.kind read) tag n
            (pack [(37, pc.1), (64, pc.2.1), (32, d.deadline), (9, pc.2.2), (2, d.part), (1, bit d.gambit)] + 2 ^ 145 * v)

/-! ## Tags returning (R240, R254, R255, R272) -/

/-- A request of feeder `f`. -/
def State.request (s : State) (f tag : Nat) : Option Request := (s.feeder f).requests.find? (fun r => r.tag == tag)

/-- A request changed. -/
def State.updRequest (s : State) (f tag : Nat) (g : Request → Request) : State :=
  s.updFeeder f (fun x => { x with requests := x.requests.map (fun r => if r.tag == tag then g r else r) })

/-- A tag returns to its pool; its descriptor completes once all are back. -/
def State.returnTag (s : State) (f : Nat) (r : Request) : State :=
  let t := s.updFeeder f (fun x =>
    { x with
      requests := x.requests.filter (fun y => y.tag != r.tag),
      returnUsed := x.returnUsed - (if r.buffered then r.bytes else 0),
      progress := x.progress.map (fun q => if q.id == r.prog then { q with tags := q.tags - 1 } else q) })
  match (t.feeder f).progress.find? (fun q => q.id == r.prog) with
  | some p => if p.tags = 0 ∧ (p.dropped = true ∨ p.total ≤ p.issued) then t.descDone f p else t
  | none => t.reapOps

/-- Where a request's bytes end: the tile stores, every tile of an MCAST span, or host memory. -/
def State.landData (s : State) (d : Desc) (half : Option Bool) (r : Request) : State :=
  if r.kind = 5 then
    (s.mcastTiles d).foldl (fun (t : State) k => t.storeWrite (k * 2 ^ 21 + field r.other 0 20) r.bytes r.data) s
  else if r.kind = 4 then
    s.updPort (field r.other 56 2) (fun p => p.hostWrite (field r.other 32 24) (field r.other 0 32) r.bytes r.data)
  else match s.storeKey r.other d half with
    | some k => s.storeWrite k r.bytes r.data
    | none => s

/-- The descriptor a request belongs to. -/
def State.progressOf (s : State) (f : Nat) (r : Request) : Option Progress := (s.feeder f).progress.find? (fun p => p.id == r.prog)

/-- Whether a request's operation or descriptor no longer counts (R267, R272). -/
def State.requestDead (s : State) (f : Nat) (r : Request) : Bool :=
  r.failed || s.ops.any (fun o => o.id == r.op && o.aborted) || ((s.progressOf f r).map (·.dropped)).getD true

/-- DATA (R255, R272): read data arrives: straight to its place, or into the return buffer; a copy's data goes on as a write. Data of aborted or sacrificed work
is discarded. -/
def State.dataArrives (s : State) (f tag : Nat) : State :=
  match s.request f tag with
  | none => s
  | some r =>
    if !r.read || !r.fetched then s
    else if r.quarantined.isSome then
      (s.updFeeder f (fun x => { x with cnt := { x.cnt with late := bump 64 x.cnt.late 1 } })).returnTag f r
    else if s.requestDead f r then
      (s.updFeeder f (fun x => { x with cnt := { x.cnt with sacrificed := bump 64 x.cnt.sacrificed (if r.gambit then r.bytes else 0) } })).returnTag f r
    else
      let t := s.updFeeder f (fun x => { x with cnt := { x.cnt with bytesRead := bump 64 x.cnt.bytesRead r.bytes } })
      match s.progressOf f r with
      | none => t
      | some p =>
        if r.kind = 2 then
          let dst := 256 + channelOf (field r.other 0 37) / 32
          (t.updRequest f tag (fun y => { y with read := false, fetched := false, addr := field r.other 0 37, other := r.addr, issued := s.dt })).sendMessage
            (300 + f) dst r.op 0 2 tag (requestStitches 1 false r.bytes) (pack [(37, field r.other 0 37), (32, r.deadline), (9, r.bytes), (2, r.part)] + 2 ^ 80 * r.data)
        else if r.buffered then t.updRequest f tag (fun y => { y with read := false })
        else (t.landData p.desc p.half r).updRequest f tag (fun y => { y with read := false })

/-- DONE (R240): the endpoint that stored the data answers and the tag returns. Buffered data is forwarded once its needle half is EMPTY (R255), or discarded
with work that no longer counts (R272). -/
def State.tagDone (s : State) (f tag : Nat) : State :=
  match s.request f tag with
  | none => s
  | some r =>
    if !r.fetched then s
    else if r.quarantined.isSome then
      (s.updFeeder f (fun x => { x with cnt := { x.cnt with late := bump 64 x.cnt.late 1 } })).returnTag f r
    else if r.read && !s.requestDead f r then s
    else
      let wrote := if r.failed then 0 else if r.kind = 1 ∨ r.kind = 2 ∨ r.kind = 3 ∨ r.kind = 6 ∨ r.kind = 8 then r.bytes else 0
      let t0 := s.updFeeder f (fun x => { x with cnt := { x.cnt with bytesWritten := bump 64 x.cnt.bytesWritten wrote } })
      let t := if r.buffered && !r.read && r.gambit && s.requestDead f r then
          t0.updFeeder f (fun x => { x with cnt := { x.cnt with sacrificed := bump 64 x.cnt.sacrificed r.bytes } }) else t0
      match s.progressOf f r with
      | none => t.returnTag f r
      | some p =>
        if r.buffered && !s.requestDead f r then
          match p.half, s.wordTile p.desc.dst with
          | some h, some k =>
            if ((s.tile k).needle p.desc.pair).half h = .filling then (t.landData p.desc p.half r).returnTag f r else s
          | _, _ => (t.landData p.desc p.half r).returnTag f r
        else t.returnTag f r

/-- MEM_TIMEOUT (R274, R625): 81,920 FCLK after its issue a request that no recovery holds up fails; its tag is quarantined. -/
def State.memTimeout (s : State) (f tag : Nat) : State :=
  match s.request f tag with
  | none => s
  | some r =>
    let dst := 256 + channelOf r.addr / 32
    let recovering := (s.window (300 + f) dst).probeFrom.isSome
    if r.fetched || r.failed || r.quarantined.isSome || (r.kind == 3 && r.read) || recovering || decide (200 * (s.dt - r.issued) < 3 * 81920) then s
    else
      let t := (s.updRequest f tag (fun y => { y with failed := true, quarantined := some s.dt })).updFeeder f
        (fun x => { x with cnt := { x.cnt with watchdog := bump 32 x.cnt.watchdog 1 } })
      match s.progressOf f r with
      | some p => t.transferFault f p.desc p.id { kind := 0x03, endpoint := dst, detail := tag, address := r.addr }
      | none => t

end Sys2Proof.Machine
end

