-- ==== Sys2Proof/Machine/MemCtl.lean ====
section
/-!
DEFINITION. Machine/MemCtl.lean: the memory controllers: reads, writes, PUT16 and ZERO behind the region guard, ECC, refresh, patrol scrub, stack temperatures and
controller resets (chapter 9, R541's memory injections, R629).
-/
namespace Sys2Proof.Machine

/-! ## The region guard (R340 to R342) -/

/-- R340: a request's origin. The requests that load programs and slices are the control cluster's own. -/
def State.originOf (s : State) (op : Nat) : Origin :=
  if s.ops.any (fun o => o.id == op && (match o.kind with
    | .load _ => true
    | _ => false)) then .firmware else .partition

/-- A request's part in its feeder's record is over: it failed, and its tag waits for the answer. -/
def State.requestFailed (s : State) (f tag : Nat) : State := s.updRequest f tag (fun r => { r with failed := true, fetched := true })

/-- A failure reported to the request's descriptor (R267, R273). -/
def State.requestFault (s : State) (f : Nat) (r : Request) (i : FaultInfo) : State :=
  match s.progressOf f r with
  | some p => s.transferFault f p.desc p.id i
  | none => s

/-- R341, R342: the guard refuses a request: it is counted, the operation aborts or the gambit is sacrificed, every refusal has a journal entry, and a host DMA's
is a violation of the port bound to PART. -/
def State.guardRefuses (s : State) (f : Nat) (r : Request) : State :=
  let t := (s.countRefusal r.addr).requestFailed f r.tag
  let hostDma := (r.kind == 3 || r.kind == 4) && !r.gambit
  let t1 := if hostDma then t.violate r.part 7 .fxDma (!r.read) (memWord r.addr) 0 0 else t
  let i : FaultInfo := { kind := 0x02, endpoint := stackOf r.addr, detail := r.tag, address := memWord r.addr, part := some r.part }
  if r.gambit || t1.ops.any (fun o => o.id == r.op && !o.aborted) then t1.requestFault f r i
  else t1.journalWrite { JEntry.blank 0x02 with endpoint := i.endpoint, feeder := f, part := r.part, task := r.op, detail := r.tag, address := i.address }

/-- A request of feeder `f` that its controller may serve now: waiting there, in its turn by deadline and source (R258), and its pseudo-channel not in a controller reset (R345). -/
def State.atController (s : State) (f tag : Nat) : Option Request :=
  match s.request f tag with
  | some r =>
    if r.fetched || (r.kind == 3 && r.read) || (s.channel (channelOf r.addr)).inReset || !s.firstAt (channelOf r.addr) f r.deadline then none else some r
  | none => none

/-! ## Uncorrectable bursts (R332, R336, R629) -/

/-- The feeder whose descriptor ring holds a burst of the FW window. -/
def State.ringAt (s : State) (burst : Nat) : Option Nat :=
  (List.range 4).find? (fun f => (s.feeder f).rings.any (fun r => r.2.live && decide (r.2.base ≤ 32 * burst ∧ 32 * burst < r.2.base + 32 * 2 ^ r.2.log)))

/-- R629: an uncorrectable burst of the FW window: zero-filled in a descriptor ring, a hold buffer or the spill area; a FATAL device fault elsewhere. -/
def State.fwBurst (s : State) (burst kind : Nat) : State :=
  match s.ringAt burst with
  | some f => s.ringBurstLost f burst kind
  | none =>
    if Config.fwSpill burst then
      (s.memWrite (32 * burst) 32 0).journalWrite { JEntry.blank kind with
        endpoint := stackOf (32 * burst), detail := if kind = 0x20 then channelOf (32 * burst) else 0, address := 32 * burst }
    else s.fatalFault 2 (32 * burst)

/-- R336: MEMORY_ERROR's DATA: the device address and the pseudo-channel (Table 14-14). -/
def memoryErrorData (burst : Nat) : Nat := pack [(37, 32 * burst), (3, 0), (8, channelOf (32 * burst))]

/-- R336: what follows when scrub finds burst `b` uncorrectable. -/
def State.scrubBad (s : State) (b : Nat) : State :=
  let note := fun (u : State) (n : Nat) => u.journalWrite { JEntry.blank 0x20 with
    endpoint := stackOf (32 * b), part := n, injected := s.mem.injectedAt (32 * b), detail := channelOf (32 * b), address := 32 * b }
  match s.windowAt (32 * b) with
  | .part n => (note s n).post n 0x8012 0 (memoryErrorData b)
  | .shared => (note s 7).postAll 0x8012 (memoryErrorData b)
  | .unassigned => note s 7
  | .fw =>
    if (s.ringAt b).isSome || Config.fwSpill b then (s.fwBurst b 0x20).postAll 0x8012 (memoryErrorData b) else s.fwBurst b 0x20

/-- R632: the first correction of a burst armed with MEM_SINGLE has an INJECTED_COUNTED entry (KIND 3). -/
def State.noteSingle (s : State) (b : Nat) : State :=
  let e := s.mem.err b
  if e.single && !e.reported && eccOf b e != .uncorrectable then
    ({ s with mem := { s.mem with errs := Table.set {} s.mem.errs b { e with reported := true } } }).journalWrite
      { JEntry.blank 0x30 with
        endpoint := stackOf (32 * b), part := s.holderOf (32 * b), injected := true, detail := 3, address := 32 * b }
  else s

/-! ## Requests (R252, R331 to R333) -/

/-- A read of `n` bytes at `x` counted and corrected: the data, or the address of the first uncorrectable burst. -/
def State.channelRead (s : State) (x n : Nat) : State × Nat × Option Nat :=
  let bs := burstsOf x n
  let r := s.mem.readEcc x n bs (s.memRead x n) 0 none
  let t := s.updChannel (channelOf x) (fun c =>
    { c with reads := bump 64 c.reads bs.length, corrected := bump 64 c.corrected r.2.1,
             uncorrectable := bump 32 c.uncorrectable (s.mem.uncorrectableIn bs) })
  (bs.foldl State.noteSingle t, r.1, r.2.2)

/-- R332, R74: a foreground read finds a burst uncorrectable: MEM_UNCORRECTABLE, a lifeline lost where it was being restored, R629 in the FW window. -/
def State.readFails (s : State) (f : Nat) (r : Request) (bad : Nat) : State :=
  let t := s.requestFailed f r.tag
  let i : FaultInfo := { kind := 0x01, endpoint := stackOf r.addr, detail := r.tag, address := memWord r.addr,
                         injected := s.mem.injectedAt bad, part := some r.part }
  if s.windowAt bad == .fw then t.fwBurst (bad / 32) 0x01
  else match s.ops.find? (fun o => o.id == r.op && !o.aborted) with
    | some o => match o.kind with
      | .castIn c obj =>
        let u := t.journalWrite { JEntry.blank 0x01 with
          endpoint := i.endpoint, feeder := f, part := r.part, task := r.op, aborted := true, injected := i.injected,
          recovery := Recovery.bindOff.code, detail := r.tag, address := i.address }
        let v := u.updFeeder f (fun x => { x with cnt := { x.cnt with aborted := bump 64 x.cnt.aborted 1 } })
        ((v.abandonOps (fun y => y.id == r.op)).lifelineLost (s.objStream (codeStage c) obj) (codeStage c) bad).dispatchAll
      | _ => t.requestFault f r i
    | none => t.requestFault f r i

/-- The upsets a read meets strike device memory: bits of stored bytes invert. -/
def State.upset (s : State) (us : List (Nat × Nat)) : State := { s with mem := s.mem.upset us }

/-- READ (R331, R332, R341): the guard, then the bursts with their corrections. -/
def State.readRequest (s : State) (f tag : Nat) (upset : List (Nat × Nat)) : State :=
  match s.atController f tag with
  | none => s
  | some r =>
    if !r.read then s
    else
      let v := s.servedAt (channelOf r.addr) f
      if !v.admits (v.originOf r.op) r.part false r.addr r.bytes then v.guardRefuses f r
      else
      let q := (v.upset upset).channelRead r.addr r.bytes
      match q.2.2 with
      | some bad => q.1.readFails f r bad
      | none =>
        if r.kind = 5 then
          let d := (v.progressOf f r).map (·.desc.span)
          (match q.1.sendMulticast (channelOf r.addr / 32) (field (d.getD 0) 8 4) (field (d.getD 0) 0 4) (field (d.getD 0) 4 4) tag (1 + ceilDiv r.bytes 32) q.2.1 with
           | some u => u.updRequest f tag (fun y => { y with data := q.2.1, fetched := true })
           | none => v)
        else q.1.updRequest f tag (fun y => { y with data := q.2.1, fetched := true })

/-- Bursts written: counted, and a scrub write-back that waits for one of them is dropped (R336). -/
def State.channelWrote (s : State) (x n : Nat) : State :=
  s.updChannel (channelOf x) (fun c =>
    { c with writes := bump 64 c.writes (burstsOf x n).length,
             writeBack := c.writeBack.filter (fun b => !(burstsOf x n).contains b) })

/-- WRITE (R333, R341): whole bursts, behind the guard. -/
def State.writeRequest (s : State) (f tag : Nat) : State :=
  match s.atController f tag with
  | none => s
  | some r =>
    if r.read || r.kind == 6 || r.kind == 8 then s
    else
      let v := s.servedAt (channelOf r.addr) f
      if !v.admits (v.originOf r.op) r.part true r.addr r.bytes then v.guardRefuses f r
      else ((v.memWrite r.addr r.bytes r.data).channelWrote r.addr r.bytes).updRequest f tag (fun y => { y with fetched := true })

/-- ZERO (R252): zero bytes with valid ECC. -/
def State.zeroRequest (s : State) (f tag : Nat) : State :=
  match s.atController f tag with
  | none => s
  | some r =>
    if r.read || r.kind != 6 then s
    else
      let s := s.servedAt (channelOf r.addr) f
      if !s.admits (s.originOf r.op) r.part true r.addr r.bytes then s.guardRefuses f r
      else ((s.memZero r.addr r.bytes).channelWrote r.addr r.bytes).updRequest f tag (fun y => { y with fetched := true })

/-- PUT16 (R333): one burst read, its 16 bytes merged, the burst written; an uncorrectable read writes nothing. -/
def State.put16Request (s : State) (f tag : Nat) (upset : List (Nat × Nat)) : State :=
  match s.atController f tag with
  | none => s
  | some r =>
    if r.read || r.kind != 8 then s
    else
      let v := s.servedAt (channelOf r.addr) f
      if !v.admits (v.originOf r.op) r.part true r.addr 16 then v.guardRefuses f r
      else
      let b := r.addr / 32
      let q := (v.upset upset).channelRead (32 * b) 32
      match q.2.2 with
      | some bad => q.1.readFails f r bad
      | none =>
        (((q.1.memWrite (32 * b) 32 q.2.1).memWrite r.addr 16 r.data).channelWrote (32 * b) 32).updRequest f tag (fun y => { y with fetched := true })

/-! ## Patrol scrub (R335, R336) -/

/-- The device address of burst `pos` of a pseudo-channel: the inverse of R329's map. -/
def scrubAddress (channel pos : Nat) : Nat :=
  let l := pos / 128
  let low := Nat.xor (channel % 32) (Nat.xor (Nat.xor (field l 0 5) (field l 5 5)) (Nat.xor (field l 10 5) (field l 15 2)))
  4096 * (6 * (32 * l + low) + channel / 32) + 32 * (pos % 128)

/-- The bursts of one pseudo-channel. -/
def channelBursts : Nat := 16777216

/-- R335: whether a pseudo-channel's scrub lies more than 4,096 bursts behind its pace (the position counts modulo the pass). -/
def State.scrubBehind (s : State) (channel : Nat) : Bool :=
  let period := s.site.scrubHours * 3600 * 24576000
  let target := if period = 0 then 0 else (s.dt - s.mem.scrubStart) % period * channelBursts / period
  let lag := (target + channelBursts - (s.channel channel).scrubPosition) % channelBursts
  decide (4096 < lag ∧ lag < channelBursts / 2)

/-- A scrub write-back: what the controller made of the burst becomes its contents, with valid ECC (R331: a wrong correction goes undetected). -/
def Memory.correct (m : Memory) (b : Nat) : Memory :=
  let e := m.err b
  let change := match eccOf b e with
    | .wrong off d => (off, d) :: e.bytes
    | _ => []
  let t := change.foldl (fun (u : Memory) (x : Nat × Nat) =>
    if x.1 < 32 then u.setByte (32 * b + x.1) (u.byte (32 * b + x.1) ^^^ BitVec.ofNat 8 x.2) else u) m
  { t with errs := Table.set {} t.errs b {} }

/-- The write-back that waits is made. -/
def State.scrubWriteBack (s : State) (channel : Nat) : State :=
  match (s.channel channel).writeBack with
  | none => s
  | some b =>
    ({ s with mem := s.mem.correct b }).updChannel channel (fun c =>
      { c with writeBack := none, scrubCorrected := bump 32 c.scrubCorrected 1, scrubSlots := bump 64 c.scrubSlots 1 })

/-- SCRUB_READ: the write-back of the burst before, then the next burst of the pass. -/
def State.scrubRead (s : State) (channel : Nat) (upset : List (Nat × Nat)) : State :=
  if 192 ≤ channel ∨ (s.channel channel).inReset = true then s
  else
    let forced := s.scrubBehind channel
    let t := (s.upset upset).scrubWriteBack channel
    let pos := (t.channel channel).scrubPosition
    let b := scrubAddress channel pos / 32
    let next := (pos + 1) % channelBursts
    let u := t.updChannel channel (fun c =>
      { c with scrubPosition := next, scrubSlots := bump 64 c.scrubSlots 1, scrubForced := bump 32 c.scrubForced (bit forced) })
    let v : State := if next = 0 then
        { u with mem := { u.mem with scrubReported := u.mem.scrubReported.filter (fun (x : Nat) => channelOf (32 * x) != channel) } } else u
    match eccOf b (v.mem.err b) with
    | .clean => v
    | .corrected => (v.noteSingle b).updChannel channel (fun c => { c with writeBack := some b })
    | .wrong _ _ => (v.noteSingle b).updChannel channel (fun c => { c with writeBack := some b })
    | .uncorrectable =>
      let w := v.updChannel channel (fun c => { c with scrubUncorrectable := bump 32 c.scrubUncorrectable 1 })
      if s.mem.scrubReported.contains b then w
      else State.scrubBad { w with mem := { w.mem with scrubReported := if next = 0 then w.mem.scrubReported else b :: w.mem.scrubReported } } b

/-! ## Controller resets (R344, R345) -/

/-- Every request that waits at a pseudo-channel or names it, with its feeder. -/
def State.requestsAt (s : State) (channel : Nat) : List (Nat × Request) :=
  (List.range 4).flatMap (fun f => (((s.feeder f).requests.filter (fun (r : Request) => channelOf r.addr == channel && !(r.kind == 3 && r.read))).map (fun r => (f, r))))

/-- R344: whether the firmware resets a pseudo-channel's controller: a tag quarantined for 1 ms names it, or a drain waits on such a tag. -/
def State.resetDue (s : State) (channel : Nat) : Bool :=
  (s.requestsAt channel).any (fun x => match x.2.quarantined with
    | some t => decide (t + 24576 ≤ s.dt) || (List.range 3).any (fun f => (s.flank f).repair == .draining && (match s.repairOf f with
        | some (_, l) => wordEndpoint x.2.addr == some l || wordEndpoint x.2.other == some l
        | none => false))
    | none => false)

/-- The tag of a request, where it is held, returns to the pool. -/
def State.tagBack (s : State) (f tag : Nat) : State :=
  match s.request f tag with
  | some r => s.returnTag f r
  | none => s

/-- A request queued at a resetting controller fails with MEM_TIMEOUT (R345 step 2). -/
def State.resetFails (s : State) (channel f : Nat) (r : Request) : State :=
  (s.requestFailed f r.tag).requestFault f r { kind := 0x03, endpoint := 256 + channel / 32, detail := r.tag, address := memWord r.addr, part := some r.part }

/-- CONTROLLER_RESET (R345 steps 1 to 4): requests queued there fail with MEM_TIMEOUT; their tags and quarantined ones return to the pool. -/
def State.controllerReset (s : State) (channel : Nat) : State :=
  if 192 ≤ channel ∨ (s.channel channel).inReset = true ∨ s.resetDue channel = false then s
  else
    let here := s.requestsAt channel
    let queued := here.filter (fun x => !x.2.fetched && x.2.quarantined.isNone && !(x.2.kind == 3 && x.2.read))
    let t := s.updChannel channel (fun c => { c with inReset := true, resetFrom := s.dt, controllerResets := bump 16 c.controllerResets 1 })
    let u := queued.foldl (fun (v : State) x => v.resetFails channel x.1 x.2) t
    let back := here.filter (fun x => x.2.quarantined.isSome) ++ queued
    let w := back.foldl (fun (v : State) x => v.tagBack x.1 x.2.tag) u
    (w.journalWrite { JEntry.blank 0x21 with endpoint := 256 + channel / 32, detail := pack [(8, channel), (16, queued.length)] }).dispatchAll

/-- CONTROLLER_RESET_DONE (R345 step 5, R622): foreground issue resumes; the reset's time does not count for the tasks whose requests waited it out. -/
def State.controllerResetDone (s : State) (channel : Nat) : State :=
  let c := s.channel channel
  if !c.inReset then s
  else
    let ids := (s.requestsAt channel).map (fun x => x.2.op)
    let t := s.updChannel channel (fun k => { k with inReset := false, resetFrom := 0 })
    (List.range 3).foldl (fun (u : State) f => u.updFlank f (fun x =>
      { x with run := x.run.map (fun r => if ids.contains r.id then { r with paused := r.paused + (s.dt - c.resetFrom) } else r) })) t

/-! ## What arrives -/

/-- REFRESH_FORCED (R334): a refresh within 2 µs of its deadline takes one slot. -/
def State.refreshForced (s : State) (channel : Nat) : State :=
  (if channel < 192 then s.updChannel channel (fun c =>
    { c with refreshSlots := bump 64 c.refreshSlots 1, refreshForced := bump 32 c.refreshForced 1 }) else s)

/-- PER_BANK_REFRESH (R334): a refresh in a slot no foreground request can use. -/
def State.perBankRefresh (s : State) (channel : Nat) : State :=
  (if channel < 192 then s.updChannel channel (fun c => { c with refreshSlots := bump 64 c.refreshSlots 1 }) else s)

/-- STACK_TEMPERATURE_READOUT (R337, R338, Table 9-5): the readings, and fast refresh from 85 °C until below 82 °C. -/
def State.stackReadout (s : State) (stack temp : Nat) : State :=
  (if stack < 6 then
    { s with mem := { s.mem with stackRegs := Table.upd {} s.mem.stackRegs stack (fun k =>
      { tempNow := temp % 256, tempMax := max k.tempMax (temp % 256),
        fast := if 85 ≤ temp % 256 then true else if temp % 256 < 82 then false else k.fast }) } }
    else s)

end Sys2Proof.Machine
end

