-- ==== Sys2Proof/Machine/Cache.lean ====
section
/-!
DEFINITION. Machine/Cache.lean: the page cache's messages between tiles and the page service, the sweeper, and the end of a copy (R206, R216 to R228, Table 6-6).
-/
namespace Sys2Proof.Machine

/-! ## Messages -/

/-- A message of a kind for a tile and page that is on its way. -/
def State.cacheMsg (s : State) (k : CacheKind) (tile ppn : Nat) : Option CacheMsg :=
  s.pages.msgs.find? (fun m => m.kind == k && m.tile == tile && m.ppn == ppn)

/-- The message taken off its way. -/
def State.cacheTake (s : State) (m : CacheMsg) : State := { s with pages := { s.pages with msgs := s.pages.msgs.erase m } }

/-- Whether a tile waits for a page: for the page service's answer, a peer's, or its bytes from device memory. -/
def Tile.awaits (x : Tile) (ppn : Nat) : Bool :=
  x.waits.any (fun w => match w with
    | .lookup p => p == ppn
    | .peer p _ => p == ppn
    | .memory p => p == ppn)

/-- LOOKUP (R218, R222): the page service answers HOLDER or NONE, or holds the lookup while a write is pending. A flank without a page cache sends none (R216). -/
def State.lookup (s : State) (tile ppn : Nat) : State :=
  let x := s.tile tile
  let f := tile / 48
  let d := s.dirEntry ppn
  if x.state != .enabled || s.frameCount f == 0 || !s.looksUp ppn || x.frames.contains ppn || x.awaits ppn then s
  else
    let t := (s.updTile tile (fun y => { y with waits := y.waits ++ [.lookup ppn] })).updOwner ppn (fun p => { p with lookups := bump 64 p.lookups 1 })
    if d.writePending then t.setDir ppn { d with held := d.held ++ [tile] } else t.answerLookup ppn tile

/-- HOLDER (R218): the tile asks the named holder of its flank for the page. -/
def State.holderAnswer (s : State) (tile ppn holder : Nat) : State :=
  match s.cacheMsg .holder tile ppn with
  | none => s
  | some m =>
    if m.holder ≠ holder then s
    else (s.cacheTake m).updTile tile (fun y => { y with waits := (y.waits.erase (.lookup ppn)) ++ [.peer ppn holder] })

/-- R219: a frame for a page: a free one, or the least recently used that no row in progress reads, with EVICT. Where rows read every frame the tile keeps none and sends
EVICT for the page just answered, so that the directory names no holder that lacks it; the spec does not say what it does (DESIGN CHOICE, log 110). -/
def State.takeFrame (s : State) (tile ppn : Nat) : State :=
  let x := s.tile tile
  if x.frames.length < s.frameCount (tile / 48) then s.updTile tile (fun y => { y with frames := y.frames ++ [ppn] })
  else match x.frames.find? (fun p => !s.rowReading tile p) with
    | some old => (s.updTile tile (fun y => { y with frames := y.frames.erase old ++ [ppn], invalidating := y.invalidating.erase old })).cacheSend .evict tile old 0
    | none => s.cacheSend .evict tile ppn 0

/-- NONE (R216, R218, R219): the tile reads the page from device memory, into a frame where it is cached. Without a running task nothing reads it, and the directory's holder
goes again. -/
def State.noneAnswer (s : State) (tile ppn : Nat) : State :=
  match s.cacheMsg .none tile ppn with
  | none => s
  | some m =>
    let t := (s.cacheTake m).updTile tile (fun y => { y with waits := y.waits.erase (.lookup ppn) })
    let mine := (t.dirEntry ppn).holder (tile / 48) == (t.tile tile).logical
    match (t.flank (tile / 48)).run with
    | none => if mine then t.cacheSend .evict tile ppn 0 else t
    | some r =>
      let u := if t.cacheable ppn && mine then t.takeFrame tile ppn else t
      (u.updTile tile (fun y => { y with waits := y.waits ++ [.memory ppn] })).owePage r.id ppn

/-- PEER_READ (R218, R219): the holder returns the page to a requester of its flank, once it stands in its frame; the frame is the most recently used. -/
def State.peerRead (s : State) (holder ppn requester : Nat) : State :=
  match s.logicalTile holder with
  | none => s
  | some t =>
    if !(s.tile requester).waits.contains (.peer ppn holder) || requester / 48 != t / 48 || (s.tile t).waits.contains (.memory ppn) then s
    else
      let u := (s.updTile requester (fun y => { y with waits := y.waits.erase (.peer ppn holder), fetched := y.fetched ++ [ppn] })).updTile t
        (fun y => if y.frames.contains ppn then { y with frames := y.frames.erase ppn ++ [ppn] } else y)
      u.finishDrop t ppn

/-- EVICT (R219, R221): the holder is cleared; where an INVALIDATE is pending it counts as the answer. One that names no current holder is ignored. -/
def State.evict (s : State) (tile ppn : Nat) : State :=
  match s.cacheMsg .evict tile ppn with
  | none => s
  | some m =>
    let t := s.cacheTake m
    let f := tile / 48
    let d := t.dirEntry ppn
    if d.holder f ≠ (t.tile tile).logical ∨ d.holder f = 255 then t
    else if d.inv f then t.holderAnswered ppn f true
    else t.putDir ppn (d.setHolder f 255)

/-- INVALIDATE (R220, R221): the tile drops the page after reads in progress, or answers NOT_HELD. -/
def State.invalidateAt (s : State) (tile ppn : Nat) : State :=
  match s.cacheMsg .invalidate tile ppn with
  | none => s
  | some m =>
    let t := s.cacheTake m
    if (t.tile tile).frames.contains ppn then
      (t.updTile tile (fun y => { y with invalidating := if y.invalidating.contains ppn then y.invalidating else y.invalidating ++ [ppn] })).finishDrop tile ppn
    else t.cacheSend .notHeld tile ppn 0

/-- DROPPED (R220): the pending bit is cleared, and the free or reopen proceeds once none remains. -/
def State.droppedAnswer (s : State) (tile ppn : Nat) : State :=
  match s.cacheMsg .dropped tile ppn with
  | none => s
  | some m =>
    let t := s.cacheTake m
    if (t.dirEntry ppn).inv (tile / 48) then t.holderAnswered ppn (tile / 48) false else t

/-- NOT_HELD (R221, Table 6-9): likewise, counted as a crossing. -/
def State.notHeldAnswer (s : State) (tile ppn : Nat) : State :=
  match s.cacheMsg .notHeld tile ppn with
  | none => s
  | some m =>
    let t := s.cacheTake m
    if (t.dirEntry ppn).inv (tile / 48) then t.holderAnswered ppn (tile / 48) true
    else t.updOwner ppn (fun p => { p with crossings := bump 64 p.crossings 1 })

/-! ## The sweeper (R225 to R227) -/

/-- Whether an outstanding tag targets a page (R225). -/
def State.pageTagged (s : State) (ppn : Nat) : Bool :=
  let names := fun (w : Nat) => field w 60 4 == 0 && field w 12 25 == ppn
  (List.range 4).any (fun f => (s.feeder f).requests.any (fun (r : Request) => names r.addr || names r.other))

/-- SWEEP_START (R225, R227): the sweeper's 16 requests over the page and one over its summary. How many of them win their slot below L_sw is not stated (log 59: a free
value, at most 17). -/
def State.sweepStart (s : State) (ppn : Nat) : State :=
  match s.pageOwner ppn with
  | none => s
  | some n =>
    let r := s.page ppn
    if r.state != .freeUnswept || r.sweeping || s.pageTagged ppn then s
    else
      let t := ((s.updPage ppn (fun x => { x with sweeping := true })).updChannel (channelOf (4096 * ppn))
        (fun c => { c with sweepSlots := bump 64 c.sweepSlots 16 })).updChannel (channelOf (s.summaryAddr n ppn))
        (fun c => { c with sweepSlots := bump 64 c.sweepSlots 1 })
      if r.foreground || decide ((s.part n).lsw ≤ (s.part n).freeSwept) then t
      else
        let v := drawFree t
        v.2.updPart n (fun p => { p with sweepSlotsWon := bump 64 p.sweepSlotsWon (v.1 % 18) })

/-- SWEEP_COMPLETE (R225, Table 6-4): page and summary hold zeros, and the page enters FREE_SWEPT. -/
def State.sweepComplete (s : State) (ppn : Nat) : State :=
  match s.pageOwner ppn with
  | none => s
  | some n =>
    if (s.page ppn).state != .freeUnswept || !(s.page ppn).sweeping then s
    else
      ((((s.memZero (4096 * ppn) 4096).memZero (s.summaryAddr n ppn) 128).updPage ppn
        (fun r => { state := .freeSwept, reserved := r.reserved })).updPart n (fun p => { p with unswept := p.unswept - 1 })).endEpisodes n

/-! ## Copies (R206) -/

/-- A sequence whose entry `index` names `old` names `new` there, unsealed. -/
def PageSeq.renamed (q : PageSeq) (index old new : Nat) : PageSeq :=
  { q with entries := q.entries.map (fun e => if e.index == index && e.ppn == old then { e with ppn := new } else e) }

/-- Whether a sequence holds the entry a copy is made for. -/
def Copy.names (c : Copy) (q : PageSeq) : Bool :=
  q.owner == c.owner && q.idx == c.idx && q.entries.any (fun e => e.index == c.index && e.ppn == c.oldPpn)

/-- The entry a copy was made for names the new page, in the published sequence and in a working copy (R206). -/
def State.renameEntry (s : State) (c : Copy) : State :=
  let ren := fun (qs : List PageSeq) => qs.map (fun q => if c.names q then q.renamed c.index c.oldPpn c.newPpn else q)
  { s with pages := { s.pages with seqs := ren s.pages.seqs, staged := ren s.pages.staged } }

/-- A copy is no longer in progress. -/
def State.endCopy (s : State) (c : Copy) : State :=
  ({ s with pages := { s.pages with copies := s.pages.copies.erase c } } : State).endOps (fun o => o.kind == OpKind.copy c.newPpn)

/-- COPY_ON_WRITE_DONE (R204, R206): with the 4,096 bytes written to the new page, the appender's entry names it, the old page has one reference fewer and the append may proceed; a
new holder receives its entry. A copy whose sequence has gone frees its new page. -/
def State.copyDone (s : State) (ppn : Nat) : State :=
  match s.pages.copies.find? (fun c => c.newPpn == ppn) with
  | none => s
  | some c =>
    if s.kindBusy (fun k => k == OpKind.copy ppn) then s
    else
      let t1 := s.endCopy c
      let count := fun (u : State) => u.updOwner ppn (fun p => { p with cowCopies := bump 64 p.cowCopies 1 })
      match c.fresh with
      | some e =>
        let part := (t1.pageOwner ppn).getD 0
        let live : Bool := match c.owner with
          | .view b => (t1.branch b).state == .attaching || (t1.branch b).state == .active || (t1.branch b).state == .stopped
          | .decoder b => (t1.branch b).state == .attaching || (t1.branch b).state == .active || (t1.branch b).state == .stopped
          | _ => false
        if live then
          count ((t1.updPage ppn (fun r => { r with time := (t1.page c.oldPpn).time })).giveEntry
            { owner := c.owner, idx := c.idx, part := part, entry := e } { e with ppn := ppn })
        else t1.dropRef ppn false
      | none =>
        if t1.pages.seqs.any c.names || t1.pages.staged.any c.names then count ((t1.renameEntry c).dropRef c.oldPpn false)
        else t1.dropRef ppn false

end Sys2Proof.Machine
end

