-- ==== Sys2Proof/Machine/Audio.lean ====
section
/-!
DEFINITION. Machine/Audio.lean: TDM ports, slot maps, ingress and egress chains, voice activity, the chunk grid at ingress, host audio rings (chapter 10, R54 to R58,
R64, R69, R83, R178, R184, R356, R523, R524, R528, R530, R542).
-/
namespace Sys2Proof.Machine

/-! ## Formats (Tables 10-1, 10-2) -/

/-- The frame period in ticks (R352). -/
def TdmConfig.period (c : TdmConfig) : Nat := if c.rate48 then 512 else 1536

/-- The slots of a frame. -/
def TdmConfig.count (c : TdmConfig) : Nat := if c.slots = 0 then 8 else if c.slots = 1 then 16 else 32

/-- The bits of a slot. -/
def TdmConfig.bits (c : TdmConfig) : Nat := if c.width = 0 then 16 else if c.width = 1 then 24 else 32

/-- R352, Table 10-1: 32 slots of more than 16 bits do not fit at 48 kHz. -/
def TdmConfig.supported (c : TdmConfig) : Bool :=
  decide (c.slots ≤ 2 ∧ c.width ≤ 2) && (!c.rate48 || c.slots != 2 || c.width == 0)

/-- D of Table 10-1 (R352): the largest divisor of the frame length in ticks that leaves room for every slot. -/
def TdmConfig.divisor (c : TdmConfig) : Nat :=
  ((List.range' 1 12).reverse.find? (fun d => decide (c.period % d = 0 ∧ c.count * c.bits ≤ c.period / d))).getD 1

/-- The bit periods of a frame (R352). -/
def TdmConfig.bitPeriods (c : TdmConfig) : Nat := c.period / c.divisor

/-- TDMn_BCLK at a DT while the port is not DISABLED (R353, R355): its rising edge coincides with one of ACLK; with D 1 it is ACLK itself, taken here at the tick's rising edge. -/
def TdmConfig.bclk (c : TdmConfig) (dt : Nat) : Bool := decide (2 * (dt % c.divisor) < c.divisor)

/-- TDMn_FS in bit period `k` from its rising edge (Table 10-2): one bit period, or half the frame's. -/
def TdmConfig.fs (c : TdmConfig) (k : Nat) : Bool := decide (k < (if c.fsWidth = 0 then 1 else c.bitPeriods / 2))

/-- The bits on DOUT over a frame of slot words, from the frame's first bit period (R354): each slot most significant bit first, then the idle bit periods; none is high impedance. -/
def TdmConfig.doutBits (c : TdmConfig) (words : List (Option Nat)) : List (Option Bool) :=
  (words.take c.count).flatMap (fun w => (List.range c.bits).map (fun j => w.map (fun x => x.testBit (c.bits - 1 - j)))) ++
    List.replicate (c.bitPeriods - c.count * c.bits) (if c.doutIdle = 0 then some false else none)

/-- TDMn_DOUT in bit period `k` from the rising edge of frame sync: FS_DELAY moves the frame's first bit period (R354), so that with a delay the last bit of the frame before comes first. -/
def TdmConfig.doutAt (c : TdmConfig) (before words : List (Option Nat)) (k : Nat) : Option Bool :=
  if k < c.fsDelay then (c.doutBits before).getD (c.bitPeriods + k - c.fsDelay) none else (c.doutBits words).getD (k - c.fsDelay) none

/-- The word of slot `i` that the device reads from a frame's DIN bits, from the frame's first bit period (R354, R355). -/
def TdmConfig.dinWord (c : TdmConfig) (bits : List Bool) (i : Nat) : Nat :=
  ((bits.drop (i * c.bits)).take c.bits).foldl (fun a b => 2 * a + bit b) 0

/-- Input samples of a 10 ms frame at a rate in kHz. -/
def frameSamples (khz : Nat) : Nat := 10 * khz

/-- A slot's key. -/
def slotKey (port slot : Nat) : Nat := 32 * port + slot

/-! ## The slot map (R359) -/

/-- Input slots of port `t` mapped to streams. -/
def State.mappedIn (s : State) (t : Nat) : List (Nat × Nat) :=
  (List.range 32).filterMap (fun k => (s.inSlot (slotKey t k)).stream.map (fun i => (k, i)))

/-- Output slots of port `t` mapped to branches. -/
def State.mappedOut (s : State) (t : Nat) : List (Nat × Nat) :=
  (List.range 32).filterMap (fun k => (s.outSlot (slotKey t k)).branch.map (fun b => (k, b)))

/-- The input slot of a stream given back. -/
def State.unmapIn (s : State) (i : Nat) : State :=
  { s with audio := { s.audio with inputs := Table.mapVals {} (fun _ (x : InSlot) => if x.stream = some i then { x with stream := none } else x) s.audio.inputs } }

/-- A stream's source takes its input slot. -/
def State.mapIn (s : State) (i : Nat) (src : Source) : State :=
  match src with
  | .tdm p k => s.updIn (slotKey p k) (fun x => { x with stream := some i })
  | _ => s

/-- The samples that fell due on a DISABLED port's slot since they were last counted (R378). -/
def OutSlot.idleDue (o : OutSlot) (dt : Nat) : Nat := if o.branch.isSome then dt / 1024 - o.idleFrom / 1024 else 0

/-- Those samples counted in HELD_DROPPED. -/
def State.countIdle (s : State) (t : Nat) : State :=
  if (s.tdm t).state ≠ .disabled then s
  else
    let total := ((s.mappedOut t).map (fun m => (s.outSlot (slotKey t m.1)).idleDue s.dt)).foldl (· + ·) 0
    let u := (s.mappedOut t).foldl (fun (v : State) m => v.updOut (slotKey t m.1) (fun o => { o with idleFrom := s.dt })) s
    u.updTdm t (fun p => { p with heldDropped := bump 64 p.heldDropped total })

/-- An output slot given to a branch: it starts with the cross-fade from zero (R372, R378, R530). -/
def State.mapOut (s : State) (b port slot : Nat) : State :=
  (s.countIdle port).updOut (slotKey port slot) (fun o =>
    { o with branch := some b, held := [], half := decide (s.dt / 512 % 2 = 1), conv := {}, fade := some { pos := 0, conv := {}, rest := [] },
             lag := 0, fillNow := true, idleFrom := s.dt })

/-- An output slot taken from its branch. `count`: its held samples count in HELD_DROPPED (R530). -/
def State.unmapOut (s : State) (port slot : Nat) (count : Bool) : State :=
  let t := s.countIdle port
  let n := (t.outSlot (slotKey port slot)).held.length
  (t.updOut (slotKey port slot) (fun o =>
    { o with branch := none, held := [], conv := {}, fade := none, lag := 0, fillNow := true })).updTdm port
      (fun p => { p with heldDropped := bump 64 p.heldDropped (if count then n else 0) })

/-- Every output of a branch given back. -/
def State.unmapBranch (s : State) (b : Nat) : State :=
  ((s.audio.outputs.filter (fun e => e.2.branch == some b)).foldl (fun (t : State) e => t.unmapOut (e.1 / 32) (e.1 % 32) false) s).updBranch b
    (fun x => { x with outs := [], ring := none })

/-! ## Ingress (R360 to R366, R377, R378, R730) -/

/-- The rate of a source in kHz. -/
def State.sourceRate (s : State) (src : Source) : Nat :=
  match src with
  | .none => 16
  | .tdm p _ => if (s.tdm p).cfg.rate48 then 48 else 16
  | .ring r => r.rate

/-- The end of the 10 ms frame in progress: the chunk's start and the frames closed in it. -/
def State.frameEnd (s : State) (i : Nat) : Nat :=
  let x := s.stream i
  s.closeTime i x.row - (s.pipeOfStream i).period + 245760 * (x.ingress.frames.length + 1)

/-- Whether a stream's chunks close at ingress: an open stream's, less PAUSED; in BINDING_OFF with DRAIN as far as drained chunks need right context (R523). -/
def State.closing (s : State) (i : Nat) : Bool :=
  let x := s.stream i
  let p := s.pipeOfStream i
  match x.state with
  | .castOn => true
  | .resident => true
  | .castled => true
  | .frogging => true
  | .bindingOff => x.drain && !later32 x.row (bump 32 x.lastDrain (p.lookSum .speak))
  | _ => false

/-- The raw samples of the frame in progress, unless it is a gap frame (R58, R377, R378, R384, R523). -/
def State.frameRaw (s : State) (i : Nat) : Option (List Int) :=
  let x := s.stream i
  let stop := s.frameEnd i
  let drained := x.state == .bindingOff && ((x.zero.map (fun z => decide (z.acceptDt < stop))).getD false)
  if drained then none
  else match x.source with
    | .none => none
    | .tdm p _ =>
      let n := frameSamples (s.sourceRate x.source)
      if x.ingress.frameGap || (s.tdm p).state != .running || decide (stop - 245760 < x.ingress.realFrom) || decide (x.ingress.raw.length < n) then none
      else some (x.ingress.raw.take n)
    | .ring _ => (x.fetched.find? (fun y => y.1 == x.frames)).map (·.2)

/-- R365's result for a frame: voice activity, with the hangover. The noise floor, its run and the hangover left. -/
def vadFrame (theta lmin hangLen : Nat) (g : Ingress) (l : Nat) : Ingress × Bool :=
  let n := noiseStep g.floor g.run l
  let raw := rawVoiced theta lmin n.1 l
  ({ g with floor := some n.1, run := n.2, hang := if raw then hangLen else g.hang - 1 }, raw || decide (0 < g.hang))

/-- R360 on one frame of samples: decimation, DC block, gain, voice activity, pre-emphasis. -/
def ingressFrame (khz : Nat) (gain beta : Int) (theta lmin hangLen : Nat) (g : Ingress) (raw : List Int) : Ingress × FrameInfo :=
  let d := if khz = 48 then decimate g.hist 0 raw else ([], raw.map (fun x => (x, false)))
  let before := if g.fresh && khz == 48 then (decimate g.oldHist 0 (List.replicate 48 0)).2 else []
  let y := before ++ d.2.drop before.length
  let v := dcGains gain g.dcX g.dcY y
  let a := vadFrame theta lmin hangLen g (level (energy (v.2.map (·.1))))
  let e := preEmphasis beta g.preX v.2
  ({ a.1 with hist := d.1, oldHist := [], fresh := false, dcX := v.1.1, dcY := v.1.2, preX := e.1 },
   { gap := false, va := a.2, samples := e.2.map (·.1), saturated := (e.2.filter (·.2)).length })

/-- A gap frame: 160 zero samples, histories at zero, no voice activity (R362, R364 to R366, R730). -/
def gapFrame (g : Ingress) : Ingress × FrameInfo :=
  ({ g with hist := [], oldHist := [], fresh := false, dcX := 0, dcY := 0, preX := 0, hang := g.hang - 1 },
   { gap := true, va := false, samples := List.replicate 160 0, saturated := 0 })

/-- The frame in progress of stream `i` closes; one that has not arrived as a gap frame (R58). -/
def State.closeFrame (s : State) (i : Nat) : State :=
  let x := s.stream i
  let khz := s.sourceRate x.source
  let r := match s.frameRaw i with
    | some xs => ingressFrame khz x.gain (((s.packageOf .encode i).map (fun (k : Package) => k.preEmphasis)).getD 0) x.theta x.lmin x.hangLen x.ingress xs
    | none => gapFrame x.ingress
  let t := s.updStream i (fun y =>
    { y with
      ingress := { r.1 with raw := y.ingress.raw.drop (frameSamples khz), frameGap := false, frames := y.ingress.frames ++ [r.2] },
      frames := y.frames + 1, fetched := y.fetched.filter (fun z => decide (y.frames < z.1)),
      arriving := y.arriving.filter (fun z => decide (y.frames < z.1)), saturations := bump 64 y.saturations r.2.saturated })
  let u := match x.source with
    | .tdm p k =>
      let lost := r.2.gap && ((s.tdm p).state == TdmState.acquiring || (s.tdm p).state == TdmState.down || x.ingress.frameGap || decide (s.frameEnd i - 245760 < x.ingress.realFrom))
      (t.updIn (slotKey p k) (fun z => { z with saturations := bump 64 z.saturations r.2.saturated })).updTdm p
        (fun z => { z with gapFrames := bump 64 z.gapFrames (bit lost) })
    | _ => t
  if r.2.va then u.queueCastIn i (u.eligibleAt .encode i x.row) else u

/-- FRAME_CLOSE (R363, R184): at its end the 10 ms frame in progress closes. -/
def State.frameClose (s : State) (i : Nat) : State :=
  let x := s.stream i
  if !s.closing i || decide (s.dt < s.frameEnd i) || decide ((s.pipeOfStream i).period ≤ 245760 * x.ingress.frames.length) then s
  else s.closeFrame i

/-- Frames that have not closed by the chunk's end close, those that have not arrived as gap frames (R58). -/
def State.fillGaps (s : State) (i : Nat) : Nat → State
  | 0 => s
  | n + 1 =>
    if (s.pipeOfStream i).period ≤ 245760 * (s.stream i).ingress.frames.length then s else (s.closeFrame i).fillGaps i n

/-! ## Chunk closes (R57, R58, R69) -/

/-- Bit i of a word for each frame that satisfies `p`. -/
def frameBits (p : FrameInfo → Bool) : List FrameInfo → Nat
  | [] => 0
  | f :: fs => bit (p f) + 2 * frameBits p fs

/-- The ingress entry of a closed chunk (Table 10-3), not yet conditioned. -/
def State.ingressEntry (s : State) (i : Nat) : Entry :=
  let x := s.stream i
  let fs := x.ingress.frames
  { row := x.row, gaps := frameBits (·.gap) fs, va := fs.any (·.va), firstDt := s.closeTime i x.row - (s.pipeOfStream i).period, gammas := [],
    ready := false, passed := false, vaFrames := frameBits (·.va) fs, saturations := (fs.map (·.saturated)).foldl (· + ·) 0,
    samples := fs.flatMap (·.samples) }

/-- The header of an ingress entry (Table 10-3): its 64 bytes as one number; `stream` is the stream's handle. -/
def Entry.header (e : Entry) (frames stream : Nat) : Nat :=
  pack [(32, e.row), (64, e.firstDt), (8, e.vaFrames), (8, e.gaps), (4, frames), (1, bit e.va), (11, 0), (32, e.saturations), (32, stream), (320, 0)]

/-- An ingress entry as the signal block writes it (R366): the header, then the samples from byte 64 on. -/
def State.ingressImage (s : State) (i : Nat) (e : Entry) : Nat :=
  e.header ((s.pipeOfStream i).period / 245760) (streamHandle i (s.stream i).gen) + 2 ^ 512 * concatRecords 16 (e.samples.map (unsigned 16))

/-- The header of an egress entry (Table 10-4). -/
def EgressEntry.header (e : EgressEntry) (branch : Nat) : Nat :=
  pack [(32, e.row), (32, branch), (1, bit e.silent), (15, 0), (16, e.samples.length), (416, 0)]

/-- An egress entry as speak writes it (R368). -/
def State.egressImage (s : State) (b : Nat) (e : EgressEntry) : Nat :=
  e.header (branchHandle b (s.branch b).gen) + 2 ^ 512 * concatRecords 16 (e.samples.map (unsigned 16))

/-- R69: a pause that was accepted takes effect at the close of chunk `m`: a command's completes with RESULT m, a HOST_LOSS pause posts its event. A stream without its slots whose chunks up to
`m` wait still takes them to run those. -/
def State.enterPaused (s : State) (i m : Nat) : State :=
  let x := s.stream i
  match x.pause with
  | none => s
  | some why =>
    if x.state ≠ .resident ∧ x.state ≠ .castled then s
    else
      let t := (s.updStream i (fun y =>
        { y with state := .paused, pause := none, pausedRow := some m, pauseDt := s.dt, clockStopped := true, castingOut := none,
                 castIn := if y.loading then y.castIn else none, ingress := { y.ingress with raw := [], frames := [] } })).queueWaiting i
      let u := match why with
        | .hostLoss => t.postStream i x.state .paused 7
        | .command => t
      u.completeKey x.part 0x0503 i { result := m }

/-- CHUNK_CLOSE: at C(n) the chunk filling closes, with gap frames for frames that have not arrived; its entry enters the ring into encode. -/
def State.chunkClose (s : State) (i : Nat) : State :=
  let row := (s.stream i).row
  if !s.closing i || decide (s.dt < s.closeTime i row) then s
  else
    let t := s.fillGaps i 8
    let e := t.ingressEntry i
    let u := t.updStream i (fun y =>
      { y with row := bump 32 row 1, before := if 64 ≤ sub32 row y.n0 then none else y.before, ingress := { y.ingress with frames := [] }, cnt := { y.cnt with chunksClosed := bump 64 y.cnt.chunksClosed 1 } })
    ((u.pushEnc i e).enterPaused i row).advance i

/-- R178: whether a chunk is passed at encode, and the run of chunks without voice activity after it. -/
def silenceStep (run : Nat) (va : Bool) : Bool × Nat := if va then (false, 0) else (decide (25 ≤ run), run + 1)

/-- INGRESS_CONDITIONING_DONE (R60, R178, R184): the oldest chunk not yet conditioned is ready for encode, or passed. -/
def State.conditioned (s : State) (i : Nat) : State :=
  let x := s.stream i
  match x.encRing.find? (fun e => !e.ready) with
  | none => s
  | some e =>
    let r := silenceStep x.silence e.va
    let t := s.updStream i (fun y =>
      { y with silence := r.2, encRing := y.encRing.map (fun z => if z.row == e.row then { z with ready := true, passed := r.1 } else z) })
    let u := if r.1 then t else t.queueCastIn i (t.eligibleAt .encode i e.row)
    u.advance i

/-! ## Changes of source (R524) -/

/-- R524, R383: a new host input ring goes on with the stream's frame count: its first frame read is frame `f`, and CONSUMED stands there (DEDUCED, log 23). -/
def Source.from (x : Source) (f : Nat) : Source :=
  match x with
  | .ring r => .ring { r with consumed := f }
  | y => y

/-- STREAM_INPUT_SET_EFFECT: at the boundary the new source supplies the frames. -/
def State.inputSwitch (s : State) (i : Nat) : State :=
  let x := s.stream i
  match x.nextSource with
  | none => s
  | some src =>
    if s.dt < x.switchDt ∨ x.state = .closed ∨ x.state = .bindingOff then s
    else
      let old := if s.sourceRate x.source = 48 then x.ingress.hist else []
      let t := (s.unmapIn i).updStream i (fun y =>
        { y with
          source := src.from y.frames, nextSource := none, gain := y.nextGain, theta := y.nextTheta, lmin := y.nextLmin, hangLen := y.nextHang, fetched := [], arriving := [],
          fetchNext := y.frames, handed := max y.handed y.frames,
          ingress := { y.ingress with hist := [], oldHist := old, fresh := true, dcX := 0, dcY := 0, preX := 0, raw := [], frameGap := false, realFrom := 0 } })
      (t.mapIn i src).completeKey x.part 0x0507 i {}

/-! ## Egress (R368 to R372, R379, R380) -/

/-- A value at the front of a list of at most `n`. -/
def pushFlag (n : Nat) (bs : List Bool) (b : Bool) : List Bool := (b :: bs).take n

/-- One 48 kHz instant through the interpolator (R361). -/
def Conv.push (c : Conv) (x : Int) : Conv :=
  let h := pushHist c.hist x
  let y := fir firInterp h
  { hist := h, mid := pushHist c.mid y.1, flags := pushFlag 51 c.flags y.2 }

/-- The converted sample at a rate in kHz before the gain, and whether a narrowing that formed it saturated (R151, R369). -/
def Conv.value (c : Conv) (khz : Nat) : Int × Bool :=
  if khz = 16 then
    let y := fir firDecim c.mid
    (y.1, y.2 || ((c.flags.drop 48).take 3).any (fun b => b))
  else (c.mid.headD 0, c.flags.headD false)

/-- Converter and cross-fade of an output. -/
structure Chain where
  conv : Conv
  fade : Option Fade
deriving DecidableEq, Repr

/-- One 24 kHz sample enters a chain: a break in the schedule starts a cross-fade with the audio that would have followed (R372). -/
def Chain.take (c : Chain) (d : Due) : Chain :=
  let fade : Option Fade := match d.join with
    | some old => some { pos := 0, conv := c.conv, rest := old }
    | none => c.fade
  { conv := c.conv.push d.x, fade := fade.map (fun (f : Fade) => { f with conv := f.conv.push (f.rest.headD 0), rest := f.rest.drop 1 }) }

/-- The instant between two 24 kHz samples. -/
def Chain.stuff (c : Chain) : Chain := { conv := c.conv.push 0, fade := c.fade.map (fun (f : Fade) => { f with conv := f.conv.push 0 }) }

/-- One output sample at a rate: gain, limiter, cross-fade; the flags: limited, saturated, by any narrowing that formed it, the fading audio's among them (R151). -/
def Chain.sample (c : Chain) (khz : Nat) (gain : Int) : Chain × Int × Bool × Bool :=
  let v := c.conv.value khz
  let g := gainLimit gain v.1
  match c.fade with
  | none => (c, g.1, g.2.1, g.2.2 || v.2)
  | some f =>
    let w := f.conv.value khz
    let old := gainLimit gain w.1
    let y := crossFade (fadeLength khz) f.pos old.1 g.1
    ({ c with fade := if f.pos + 1 < fadeLength khz then some { f with pos := f.pos + 1 } else none }, y, g.2.1, g.2.2 || v.2 || old.2.2 || w.2)

/-- The sample of a branch's schedule at a 24 kHz instant (R368, R371). -/
def Branch.due (x : Branch) (t : Nat) : Due :=
  match x.sched.find? (fun g => decide (g.start ≤ t ∧ t < g.start + 1024 * g.samples.length)) with
  | some g => { x := g.samples.getD ((t - g.start) / 1024) 0, fill := false, join := if t = g.start then g.join else none }
  | none => { x := 0, fill := true, join := none }

/-- The chain of a slot. -/
def OutSlot.chain (o : OutSlot) : Chain := { conv := o.conv, fade := o.fade }

/-- A slot's chain one 48 kHz instant on: a due sample taken, or the instant between two. -/
def OutSlot.advance (o : OutSlot) : OutSlot :=
  if o.half then
    let c := o.chain.stuff
    { o with half := false, conv := c.conv, fade := c.fade }
  else
    let d := o.held.headD { x := 0, fill := true, join := none }
    let c := o.chain.take d
    { o with half := true, held := o.held.drop 1, conv := c.conv, fade := c.fade, fillNow := d.fill }

/-- R380: at the start of each silent 10 ms segment a lagging slot omits as much of it as it lags, one segment after the other, and joins with the cross-fade from
the audio that would have followed. The ticks omitted, over at most so many segments. -/
def OutSlot.trim (o : OutSlot) (ahead : List Due) (t : Nat) : Nat → OutSlot × Nat
  | 0 => (o, 0)
  | n + 1 =>
    let seg := (o.held ++ ahead).take 240
    if o.lag = 0 ∨ o.half = true ∨ (t - o.lag) % 245760 ≠ 0 ∨ seg.all (fun d => decide (d.x.natAbs ≤ 32)) = false then (o, 0)
    else
      let k := min o.lag 245760
      let p := (List.range (k / 512)).foldl (fun (q : OutSlot) _ => { q.advance with fade := none }) { o with fade := none }
      let r := ({ p with lag := o.lag - k }).trim ahead t n
      ({ r.1 with fade := some { pos := 0, conv := o.conv, rest := seg.map (·.x) } }, k + r.2)

/-- What one frame of a port does to an output slot and what it plays. -/
structure SlotPlay where
  slot : OutSlot
  out : Int
  dropped : Nat
  trimmed : Nat
deriving DecidableEq, Repr

/-- One 48 kHz instant of a slot (R378 to R380). `first`: the instant an output sample is formed at. -/
def SlotPlay.tick (p : SlotPlay) (b : Branch) (st : TdmState) (khz t : Nat) (first : Bool) : SlotPlay :=
  let o := if t % 1024 = 0 then { p.slot with held := p.slot.held ++ [b.due t] } else p.slot
  match st with
  | .running =>
    let r := if o.lag = 0 then (o, 0) else o.trim ((List.range 240).map (fun j => b.due ((t / 1024 + 1 + j) * 1024))) t 20
    let q := r.1.advance
    if first then
      let v := q.chain.sample khz b.gain
      { p with
        slot := { q with conv := v.1.conv, fade := v.1.fade, limited := bump 64 q.limited (bit v.2.2.1), saturations := bump 64 q.saturations (bit v.2.2.2),
                         filled := bump 64 q.filled (bit q.fillNow) },
        out := v.2.1, trimmed := p.trimmed + r.2 }
    else { p with slot := q, trimmed := p.trimmed + r.2 }
  | .down =>
    let extra := o.held.length - 4800
    { p with slot := { o with held := o.held.drop extra, lag := o.lag + 512 - 1024 * extra }, dropped := p.dropped + extra }
  | _ =>
    { p with
      slot := { o with held := [], half := decide (t % 1024 = 0), conv := {}, fade := some { pos := 0, conv := {}, rest := [] }, lag := 0, fillNow := true },
      dropped := p.dropped + o.held.length }

/-- One frame of an output slot. -/
def playSlot (o : OutSlot) (b : Branch) (st : TdmState) (c : TdmConfig) (start : Nat) : SlotPlay :=
  (List.range (c.period / 512)).foldl
    (fun (p : SlotPlay) j => p.tick b st (if c.rate48 then 48 else 16) (start + 512 * j) (j == 0)) { slot := o, out := 0, dropped := 0, trimmed := 0 }

/-- DOUT of one slot in a frame (R354, R375, R379): none is high impedance. -/
def TdmConfig.dout (c : TdmConfig) (slot start : Nat) (played : Option (TdmState × Int)) : Option Nat :=
  if c.sentOutEn ∧ c.sentOut = slot then some (sentinelOut start c.period * 2 ^ (c.bits - 16))
  else match played with
    | some (.running, x) => some (sampleOut c.bits x)
    | _ => if c.doutIdle = 0 then some 0 else none

/-! ## TDM frames (R354, R374 to R381) -/

/-- Every mapped output slot of port `t` plays one frame; the words on DOUT. After a FATAL fault every slot plays zero (R628). -/
def State.playPort (s : State) (t start : Nat) : State :=
  let c := (s.tdm t).cfg
  let st := (s.tdm t).state
  let plays := (s.mappedOut t).map (fun m => (m.1, playSlot (s.outSlot (slotKey t m.1)) (s.branch m.2) st c start))
  let u := plays.foldl (fun (v : State) p => v.updOut (slotKey t p.1) (fun _ => p.2.slot)) s
  let words := (List.range c.count).map (fun k =>
    c.dout k start ((plays.find? (fun p => p.1 == k)).map (fun p => (st, if s.boot.fatal.isSome then 0 else p.2.out))))
  let dropped := (plays.map (fun p => p.2.dropped)).foldl (· + ·) 0
  let trimmed := (plays.map (fun p => p.2.trimmed)).foldl (· + ·) 0
  u.updTdm t (fun p =>
    { p with dout := words, dropped := if st = .down then p.dropped + dropped else p.dropped, heldDropped := bump 64 p.heldDropped dropped,
             lagTrimmed := bump 64 p.lagTrimmed trimmed, frames := bump 64 p.frames 1 })

/-- The samples of one frame enter the frames in progress of the streams mapped to port `t` (R55: from the anchor on). -/
def State.takeInputs (s : State) (t start : Nat) (words : List Nat) : State :=
  (s.mappedIn t).foldl
    (fun (u : State) m =>
      let x := u.stream m.2
      if !u.closing m.2 || decide (start < x.anchor) then u
      else u.updStream m.2 (fun y => { y with ingress := { y.ingress with raw := y.ingress.raw ++ [sampleIn (s.tdm t).cfg.bits (words.getD m.1 0)] } })) s

/-- R377: the 10 ms frames in progress become gap frames. -/
def State.gapInputs (s : State) (t : Nat) : State :=
  (s.mappedIn t).foldl (fun (u : State) m => u.updStream m.2 (fun y => { y with ingress := { y.ingress with frameGap := true } })) s

/-- R378, R380: input is real from the first 10 ms frame that begins now or later. -/
def State.realInputs (s : State) (t : Nat) : State :=
  (s.mappedIn t).foldl (fun (u : State) m => u.updStream m.2 (fun y => { y with ingress := { y.ingress with realFrom := s.dt } })) s

/-- An event to the owner of a TDM port. -/
def State.postTdm (s : State) (t code data : Nat) : State :=
  match s.tdmOwner t with
  | some n => s.post n code (tdmHandle t) data
  | none => s

/-- Port `t` enters RUNNING (R378, R380, R381). -/
def State.tdmRuns (s : State) (t : Nat) : State :=
  let old := (s.tdm t).state
  let lag := ((s.mappedOut t).map (fun m => (s.outSlot (slotKey t m.1)).lag)).foldl max 0
  let u := if old = .down then
      (s.mappedOut t).foldl (fun (v : State) m => v.updOut (slotKey t m.1) (fun o => { o with fade := some { pos := 0, conv := {}, rest := [] } })) s
    else s
  let v := (u.updTdm t (fun p => { p with state := .running })).realInputs t
  if old = .down then v.postTdm t 0x800D (pack [(32, lag), (32, (s.tdm t).dropped)])
  else if old = .acquiring then v.postTdm t 0x800D 0
  else v

/-- Port `t` enters DOWN (R377, R381). -/
def State.tdmDown (s : State) (t : Nat) : State :=
  ((s.updTdm t (fun p => { p with state := .down, dropped := 0, downEpisodes := bump 32 p.downEpisodes 1 })).gapInputs t).postTdm t 0x800C 0

/-- R374, R376, Table 10-5: the input sentinel of one frame and the state it leads to. -/
def State.sentinel (s : State) (t word : Nat) : State :=
  let p := s.tdm t
  if !p.cfg.sentInEn then s
  else
    let w := word / 2 ^ (p.cfg.bits - 16) % 65536
    let ok := sentinelValid p.prevValid p.prevWord w
    let q := { p with prevWord := w, prevValid := ok, validRun := if ok then p.validRun + 1 else 0, invalidRun := if ok then 0 else p.invalidRun + 1,
                      sentinelInvalid := bump 32 p.sentinelInvalid (bit !ok) }
    let u := s.updTdm t (fun _ => q)
    if q.state = .running then (if 4 ≤ q.invalidRun then u.tdmDown t else u)
    else if 16 ≤ q.validRun then u.tdmRuns t else u

/-- TDM_FRAME: one frame of port `t` has ended: its outputs, its inputs (DOUT under loopback, R542), its sentinel. -/
def State.tdmFrame (s : State) (t : Nat) (words : List Nat) : State :=
  let p := s.tdm t
  if 16 ≤ t ∨ p.state = .disabled then s
  else
    let start := (s.dt - 1) / p.cfg.period * p.cfg.period
    let u := s.playPort t start
    let din := if p.loopback then (u.tdm t).dout.map (fun w => w.getD 0) else words
    (u.takeInputs t start din).sentinel t (din.getD p.cfg.sentIn 0)

/-- PORT_ENABLE_EFFECT (R356, R376, Table 10-5): at the boundary the port starts or stops. -/
def State.enableEffect (s : State) (t : Nat) : State :=
  match (s.tdm t).enableAt with
  | none => s
  | some (when0, on) =>
    if s.dt < when0 then s
    else
      let owner := (s.tdmOwner t).getD 0
      let u := (s.countIdle t).updTdm t (fun p => { p with enableAt := none, prevValid := false, prevWord := 0, validRun := 0, invalidRun := 0 })
      let v := if on then
          (if (s.tdm t).cfg.sentInEn then (u.updTdm t (fun p => { p with state := .acquiring })).gapInputs t else u.tdmRuns t)
        else (s.mappedOut t).foldl (fun (w : State) m => w.updOut (slotKey t m.1) (fun o => { o with held := [], lag := 0, idleFrom := s.dt }))
          (u.updTdm t (fun p => { p with state := .disabled, dout := [] }))
      v.completeKey owner 0x0602 t { result := when0 }

/-- LOOPBACK_EFFECT (R542). -/
def State.loopEffect (s : State) (t : Nat) : State :=
  match (s.tdm t).loopAt with
  | none => s
  | some (when0, on) =>
    if s.dt < when0 then s
    else (s.updTdm t (fun p => { p with loopAt := none, loopback := on })).completeKey ((s.tdmOwner t).getD 0) 0x0803 t { result := when0 }

/-! ## The schedule of a branch (R64, R83, R368, R371) -/

/-- O(n)'s instant: the first 24 kHz sample instant at or after O(n). -/
def State.playAt (s : State) (b row : Nat) : Nat := roundUp (s.heldDeadline .speak b row + 24576) 1024

/-- When chunk `row` of branch `b` starts to play: at O(n). Where a pause gives two chunks one O(n), since both take C(m) (R70), the later one plays when the earlier has played: the spec has
both play and gives no other instant (DESIGN CHOICE, log 117). -/
def State.playFrom (s : State) (b row : Nat) : Nat :=
  let x := s.branch b
  if ((s.stream x.stream).lastClosed row).isSome && x.lastPlayed == some (sub32 row 1) then max (s.playAt b row) x.playEnd else s.playAt b row

/-- OUTPUT_CHUNK_START: the oldest egress entry of branch `b` starts, or is dropped as R83 says. -/
def State.chunkStart (s : State) (b : Nat) : State :=
  let x := s.branch b
  match x.egRing with
  | [] => s
  | e :: rest =>
    let start := s.playFrom b e.row
    if s.dt < start ∨ s.boot.fatal.isSome = true then s
    else if 1 ≤ x.hold ∧ e.silent = true then
      s.updBranch b (fun y => { y with egRing := rest, hold := y.hold - 1, dropped := y.dropped ++ e.samples,
                                       cnt := { y.cnt with silentDropped := bump 64 y.cnt.silentDropped 1 } })
    else
      let follows := match x.lastPlayed with
        | some r => decide (x.playEnd = start ∧ e.row = bump 32 r 1) && x.dropped.isEmpty
        | none => false
      let g : Seg := { start := start, row := e.row, silent := e.silent, samples := e.samples, join := if follows then none else some x.dropped }
      s.updBranch b (fun y =>
        { y with egRing := rest, sched := y.sched.filter (fun z => decide (s.dt < z.start + 1024 * z.samples.length + 983040)) ++ [g],
                 lastPlayed := some e.row, dropped := [], playEnd := start + 1024 * e.samples.length })

/-! ## Host audio rings (R382 to R386, R528) -/

/-- The bytes of a frame slot. -/
def HostRing.slotBytes (r : HostRing) : Nat := if r.rate = 0 then 512 else 32 + 20 * r.rate

/-- The offset of frame `f`'s slot. -/
def HostRing.slotOffset (r : HostRing) (f : Nat) : Nat := r.offset + 64 + r.slotBytes * (f % 2 ^ r.log)

/-- R386: NOTIFY_FRAMES more frames handed over or produced signal the ring's vector; the count left and the signals. -/
def HostRing.notified (r : HostRing) (n : Nat) : HostRing × Nat :=
  ({ r with sinceNotify := (r.sinceNotify + n) % max 1 r.notify }, (r.sinceNotify + n) / max 1 r.notify)

/-- A vector of port `n` signalled `k` times. -/
def State.signalTimes (s : State) (n v k : Nat) : State :=
  (List.range k).foldl (fun (t : State) _ => t.updPort n (fun p => p.signal s.dt v false)) s

/-- The frame FX reads next for a host-fed stream. -/
def Stream.nextFetch (x : Stream) : Nat := max x.frames x.fetchNext

/-- One request of a host-fed frame's read: its piece of the frame slot under a free tag, with the frame's close as its deadline (R384). -/
def HostPort.askFrame (p : HostPort) (i f aperture slot op now closes : Nat) (x : Nat × Nat) : HostPort :=
  match p.freePcieTag with
  | some pt =>
    { p with requests := p.requests ++
        [{ pcieTag := pt, fxTag := 65535, aperture := aperture, op := op, purpose := .feedFrame i f (x.1 - slot) x.2, issued := now, deadline := low32 closes }] }
  | none => p

/-- HOST_FRAME_FETCH (R384, R418): at most 20 ms before it closes, FX starts reading the next frame handed over, once tags for all its requests are free. -/
def State.fetchFrame (s : State) (i : Nat) : State :=
  let x := s.stream i
  match x.source with
  | .ring r =>
    let f := x.nextFetch
    let closes := s.frameEnd i + 245760 * (f - x.frames)
    let p := s.port x.part
    if !s.closing i || x.state == .bindingOff || decide (x.handed ≤ f) || decide (s.dt + 491520 < closes) || !p.canWrite then s
    else
      let slot := r.slotOffset f
      let pieces := hostPieces p.cfg.maxReadRequest r.slotBytes slot r.slotBytes
      if p.freeTags < pieces.length then s
      else match p.checkAperture r.aperture slot r.slotBytes true false with
        | .ok =>
          let o := s.newOp (.host x.part) x.part
          (o.1.updPort x.part (fun q => pieces.foldl (fun (v : HostPort) y => v.askFrame i f r.aperture slot o.2 s.dt closes y) q)).updStream i
            (fun y => { y with fetchNext := f + 1 })
        | _ => s
  | _ => s

/-- R384: a frame's read has completed: CONSUMED is written; a wrong FRAME counts, and data that comes after the close is not used. -/
def State.frameFetched (s : State) (i f field0 : Nat) (samples : List Int) : State :=
  let x := s.stream i
  match x.source with
  | .ring r =>
    let t := (s.updStream i (fun y => { y with source := .ring { r with consumed := f + 1 } })).updPort x.part
      (fun p => p.hostWrite r.aperture (r.offset + 8) 8 (f + 1))
    if field0 ≠ low32 f then t.updStream i (fun y => { y with mismatched := bump 32 y.mismatched 1 })
    else if f < x.frames then t
    else t.updStream i (fun y => { y with fetched := y.fetched ++ [(f, samples)] })
  | _ => s

/-- A frame slot's pieces, put together. -/
def joinPieces (xs : List (Nat × Nat × Nat × Nat)) : Nat := (xs.map (fun x => 2 ^ (8 * x.2.1) * (x.2.2.2 % 2 ^ (8 * x.2.2.1)))).foldl (· + ·) 0

/-- One piece of frame `f`'s slot arrives: once all have, the header's FRAME field and the samples from byte 32 on (R382, Table 10-7). -/
def State.frameArrives (s : State) (i f first bytes value : Nat) : State :=
  match (s.stream i).source with
  | .ring r =>
    let all := (s.stream i).arriving ++ [(f, first, bytes, value)]
    let mine := all.filter (fun x => x.1 == f)
    if (mine.map (fun x => x.2.2.1)).foldl (· + ·) 0 < r.slotBytes then s.updStream i (fun y => { y with arriving := all })
    else
      let v := joinPieces mine
      (s.updStream i (fun y => { y with arriving := all.filter (fun x => x.1 != f) })).frameFetched i f (field v 0 32)
        ((List.range ((r.slotBytes - 32) / 2)).map (fun k => signed 16 (field v (256 + 16 * k) 16)))
  | _ => s

/-- G_out of R367 in ticks at a rate in kHz. -/
def outDelay (khz : Nat) : Nat := if khz = 48 then 24576 else if khz = 16 then 49152 else 0

/-- One 24 kHz instant of an output ring: the chain's new state and the samples formed (R369). A 16 kHz ring forms one at every third 48 kHz instant. -/
def ringInstant (khz : Nat) (gain : Int) (b : Branch) (acc : Chain × List Int) (t : Nat) : Chain × List Int :=
  if khz = 24 then
    let d := b.due t
    let fade : Option Fade := match d.join with
      | some old => some { pos := 0, conv := {}, rest := old }
      | none => acc.1.fade
    let new := (gainLimit gain d.x).1
    match fade with
    | none => ({ acc.1 with fade := none }, acc.2 ++ [new])
    | some f =>
      let y := crossFade 120 f.pos (gainLimit gain (f.rest.headD 0)).1 new
      ({ acc.1 with fade := if f.pos + 1 < 120 then some { f with pos := f.pos + 1, rest := f.rest.drop 1 } else none }, acc.2 ++ [y])
  else
    let c1 := acc.1.take (b.due t)
    let s1 := if khz = 48 ∨ t % 1536 = 0 then (let v := c1.sample khz gain; (v.1, [v.2.1])) else (c1, [])
    let c2 := s1.1.stuff
    let s2 := if khz = 48 ∨ (t + 512) % 1536 = 0 then (let v := c2.sample khz gain; (v.1, [v.2.1])) else (c2, [])
    (s2.1, acc.2 ++ s1.2 ++ s2.2)

/-- R385: the samples of the output frame whose schedule window begins at `b0`, and the chain after it. -/
def ringFrame (khz : Nat) (b : Branch) (b0 : Nat) : Chain × List Int :=
  let stop := b0 + 245760 + outDelay khz
  let pre := (List.range' (b.ringPos / 1024) ((b0 + outDelay khz) / 1024 - b.ringPos / 1024)).foldl
    (fun a k => ((ringInstant khz b.gain b a (1024 * k)).1, [])) ({ conv := b.ringConv, fade := b.ringFade }, [])
  (List.range' ((b0 + outDelay khz) / 1024) ((stop - (b0 + outDelay khz)) / 1024)).foldl (fun a k => ringInstant khz b.gain b a (1024 * k)) pre

/-- The two flags of an output frame's header (R385): SILENT, FILLED. -/
def ringFlags (b : Branch) (b0 : Nat) : Bool × Bool :=
  let seg := fun (t : Nat) => b.sched.find? (fun g => decide (g.start ≤ t ∧ t < g.start + 1024 * g.samples.length))
  let at0 := (List.range 240).map (fun k => seg (b0 + 1024 * k))
  (at0.all (fun g => match g with
    | some x => x.silent
    | none => true), at0.any (fun g => g.isNone))

/-- One frame slot written, or dropped where the ring is full; PRODUCED, the notification (R385, R386). -/
def State.ringWrite (s : State) (b : Nat) (header frame : Nat → Nat) : State :=
  let x := s.branch b
  match x.ring with
  | none => s
  | some r =>
    let p := s.port x.part
    if !p.canWrite then s.updPort x.part (fun q => { q with cnt := { q.cnt with linkDroppedFrames := bump 32 q.cnt.linkDroppedFrames 1 } })
    else if 2 ^ r.log ≤ r.produced - r.consumed then s.updBranch b (fun y => { y with outOverruns := bump 32 y.outOverruns 1 })
    else
      let q := { r with produced := r.produced + 1 }.notified 1
      let t := s.updPort x.part (fun y => (y.hostWrite r.aperture (r.slotOffset r.produced) r.slotBytes (header r.produced + frame r.produced)).hostWrite
        r.aperture r.offset 8 (r.produced + 1))
      (t.updBranch b (fun y => { y with ring := some q.1 })).signalTimes x.part r.vector q.2

/-- R528: the frame slots of one chunk's tokens, at most 126 in each. -/
def State.tokenFrames (s : State) (b row : Nat) : Nat → List Nat → State
  | 0, _ => s
  | n + 1, ids =>
    let now := ids.take 126
    let more := ids.drop 126
    let t := s.ringWrite b (fun _ => pack [(32, row), (7, now.length), (1, bit (!more.isEmpty)), (24, 0)]) (fun _ => 2 ^ 64 * concatRecords 32 now)
    if more.isEmpty then t else t.tokenFrames b row n more

/-- The tokens a branch committed for a chunk. -/
def Branch.tokensOf (x : Branch) (row : Nat) : List Nat := ((x.chunkTokens.find? (fun c => c.1 == row)).map (·.2)).getD []

/-- R528, R84: the next chunk of a TOKENS ring: its frames, or, while h is at least 1, none for a chunk without tokens. -/
def State.tokensWrite (s : State) (b : Nat) : State :=
  let x := s.branch b
  let row := x.tokRow
  let ids := x.tokensOf row
  if !earlier32 row x.translate.next || decide (s.dt < s.heldDeadline .translate b row) then s
  else
    let t := s.updBranch b (fun y => { y with tokRow := bump 32 row 1, chunkTokens := y.chunkTokens.filter (fun c => c.1 != row) })
    if 1 ≤ x.hold ∧ ids = [] ∧ (s.pipeOfStream x.stream).speak.present = false then
      t.updBranch b (fun y => { y with hold := y.hold - 1, cnt := { y.cnt with silentDropped := bump 64 y.cnt.silentDropped 1 } })
    else t.tokenFrames b row (ids.length / 126 + 1) ids

/-- OUTPUT_RING_FRAME_WRITE: with the host's CONSUMED as the device reads it back, the next output frame or chunk of tokens. -/
def State.ringFrameWrite (s : State) (b consumed : Nat) : State :=
  let x := s.branch b
  match x.ring with
  | none => s
  | some r =>
    if s.boot.fatal.isSome ∨ x.state = .absent then s
    else
      let r1 := if r.consumed ≤ consumed ∧ consumed ≤ r.produced then { r with consumed := consumed } else r
      let t := s.updBranch b (fun y => { y with ring := some r1 })
      if r.rate = 0 then t.tokensWrite b
      else
        let b0 := x.ringNext
        if s.dt < b0 + 245760 + outDelay r.rate then t
        else
          let f := ringFrame r.rate x b0
          let g := ringFlags x b0
          let u := t.updBranch b (fun y => { y with ringConv := f.1.conv, ringFade := f.1.fade, ringPos := b0 + 245760 + outDelay r.rate, ringNext := b0 + 245760 })
          u.ringWrite b (fun n => pack [(32, n), (1, bit g.1), (1, bit g.2), (222, 0)]) (fun _ => 2 ^ 256 * concatRecords 16 (f.2.map (unsigned 16)))

/-! ## Changes of outputs (R530) -/

/-- A branch's outputs set: slots no longer named are given back, newly named ones start, a replaced ring starts anew. -/
def State.setOutputs (s : State) (b block : Nat) (outs : List (Nat × Nat)) (ring : Option HostRing) (gain : Int) : State :=
  let x := s.branch b
  let gone := x.outs.filter (fun o => !outs.contains o)
  let new := outs.filter (fun o => !x.outs.contains o)
  let same := match x.ring, ring with
    | some r, some q => decide (r.aperture = q.aperture ∧ r.offset = q.offset ∧ r.log = q.log ∧ r.rate = q.rate)
    | _, _ => false
  let t := gone.foldl (fun (u : State) o => u.unmapOut o.1 o.2 true) s
  let u := new.foldl (fun (v : State) o => v.mapOut b o.1 o.2) t
  let v := u.updBranch b (fun y => { y with outBlock := block, outs := outs, gain := gain, nextOut := none })
  if same then v.updBranch b (fun y => { y with ring := match y.ring, ring with
      | some r, some q => some { r with vector := q.vector, notify := q.notify }
      | _, _ => ring })
  else v.updBranch b (fun y =>
    { y with ring := ring, ringConv := {}, ringFade := some { pos := 0, conv := {}, rest := [] }, ringPos := frameBoundary s.dt, ringNext := frameBoundary s.dt,
             tokRow := y.translate.next })

/-- BRANCH_OUTPUT_SET_EFFECT: at the boundary the new outputs stand. -/
def State.outputSwitch (s : State) (b : Nat) : State :=
  let x := s.branch b
  match x.nextOut with
  | none => s
  | some (block, outs, ring) =>
    if s.dt < x.switchDt ∨ (x.state ≠ .active ∧ x.state ≠ .stopped) then s
    else (s.setOutputs b block outs ring x.nextGain).completeKey x.part 0x0514 b {}

end Sys2Proof.Machine
end

