-- ==== Sys2Proof/Machine/Setup.lean ====
section
/-!
DEFINITION. Machine/Setup.lean: the effects of the set-up commands (chapter 13): partitions, site, apertures, models, pipelines and prefixes. Each answers its
completion, or waits.
-/
namespace Sys2Proof.Machine

/-- How a command that ends at once answers. -/
def answered (s : State) (a : Answer) : State × Reply := (s, .done a)

/-- An empty answer of status SUCCESS. -/
def succeeded (s : State) : State × Reply := answered s {}

/-- The first failing check answers; otherwise the effect. -/
def checked (s : State) (checks : List (Bool × Answer)) (f : Unit → State × Reply) : State × Reply :=
  match firstFail checks with
  | some a => answered s a
  | none => f ()

/-- A live object or HANDLE_INVALID (R438). -/
def named (s : State) (o : Option Nat) (f : Nat → State × Reply) : State × Reply :=
  match o with
  | some i => f i
  | none => answered s (Answer.fail 0x0401)

/-! ## What a partition holds (R482) -/

/-- The bytes of a handoff entry whose size at 40 ms is `size`, at period `period` (R727). -/
def entryBytes (size period : Nat) : Nat := 64 + ceilDiv ((size - 64) * period) 983040

/-- The bytes of a stage entry's output at 40 ms (Table 13-9). -/
def State.outputBytes (s : State) (c : StageCfg) : Nat := ((s.content c.content).pkg.map (·.entryBytes)).getD 64

/-- The bytes a stream of pipeline `p` takes in its window without branches: directory and encode halves (R173), the rings into encode and translate (R727). -/
def State.streamBytes (s : State) (p : Pipeline) (footprint : Nat) : Nat :=
  roundUp (528 + 2 * footprint) 64 + p.ringCap .encode * entryBytes 1344 p.period +
    (if p.translate.present then p.ringCap .translate * entryBytes (s.outputBytes p.encode) p.period else 0)

/-- The bytes a branch takes: its halves, the ring into speak and the ring into egress conditioning, which the model gives COMMIT + 4 entries (DESIGN CHOICE, log 51). -/
def State.branchBytes (s : State) (p : Pipeline) (footT footS : Nat) : Nat :=
  2 * footT + 2 * footS +
    (if p.speak.present then p.ringCap .speak * entryBytes (s.outputBytes p.translate) p.period + (p.commit + 4) * entryBytes 1984 p.period else 0)

/-- A stage's footprint (R169) in pipeline `p`. -/
def State.footprint (s : State) (c : StageCfg) : Nat := if c.present then ((s.content c.content).pkg.map Package.footprint).getD 0 else 0

/-- A sum over a list. -/
def total (xs : List Nat) : Nat := xs.foldl (· + ·) 0

/-- Streams of partition `n` in any state but CLOSED. -/
def State.openStreams (s : State) (n : Nat) : Nat := (s.streams.filter (fun e => e.2.part == n && e.2.state != .closed)).length

/-- Branches of partition `n` in any state but ABSENT. -/
def State.openBranches (s : State) (n : Nat) : Nat := (s.branches.filter (fun e => e.2.part == n && e.2.state != .absent)).length

/-- Pipelines of partition `n`. -/
def State.livePipes (s : State) (n : Nat) : Nat := (s.pipes.filter (fun e => e.2.part == n && e.2.live)).length

/-- Models of partition `n`, those being loaded included (R494). -/
def State.liveModels (s : State) (n : Nat) : Nat :=
  (s.models.filter (fun e => e.2.part == n && e.2.live)).length + (s.loads.filter (fun l => l.port == n && !l.erasing)).length

/-- The bytes placed in partition `n`'s window: page storage (R196), private models and reserved packages, lifelines and handoff rings. -/
def State.memUsed (s : State) (n : Nat) : Nat :=
  4288 * (s.part n).nPool
    + total ((s.contents.filter (fun e => e.2.live && !e.2.shared && e.2.owner == n)).map (fun e => 4096 * e.2.pages))
    + total ((s.loads.filter (fun l => l.port == n)).map (fun l => 4096 * l.pages))
    + total ((s.streams.filter (fun e => e.2.part == n && e.2.state != .closed && e.2.state != .castOn)).map (fun e =>
        s.streamBytes (s.pipe e.2.pipe) (s.footprint (s.pipe e.2.pipe).encode)))
    + total ((s.branches.filter (fun e => e.2.part == n && e.2.state != .absent && e.2.state != .attaching)).map (fun e =>
        let p := s.pipeOfStream e.2.stream
        s.branchBytes p (s.footprint p.translate) (s.footprint p.speak)))

/-! ## Partitions and the site -/

/-- Table 13-3's quota record. -/
def Partition.quotaRecord (p : Partition) : Nat :=
  pack [(11, p.streams), (5, 0), (12, p.branches), (4, 0), (6, p.pipelines), (2, 0), (5, p.models), (19, 0), (64, p.memBytes),
        (8, p.shareQ), (8, p.shareC), (8, p.shareK), (8, 0), (16, p.tdmPorts), (16, 0)]

/-- USAGE in the layout of Table 13-3 (R482). Its TDM_PORTS field is stated by no rule: `ports` is a free value (log 33). -/
def State.usageRecord (s : State) (n ports : Nat) : Nat :=
  pack [(11, s.openStreams n), (5, 0), (12, s.openBranches n), (4, 0), (6, s.livePipes n), (2, 0),
        (5, (s.models.filter (fun e => e.2.part == n && e.2.live)).length), (19, 0),
        (64, s.memUsed n), (32, 0), (16, ports), (16, 0)]

/-- Table 11-4's HOST_LOSS byte. -/
def Partition.hostLoss (p : Partition) : Nat := pack [(2, p.hlTdm), (2, p.hlHost), (4, 0)]

/-- Table 13-4. -/
def State.partitionRecord (s : State) (n ports : Nat) : Nat :=
  let p := s.part n
  pack [(192, p.quotaRecord), (192, s.usageRecord n ports), (64, p.windowBase), (32, p.windowMib), (8, p.hostLoss), (1, bit p.trimNone),
        (1, bit (s.isPlan n)), (22, 0), (32, p.nPool), (96, 0)]

/-- PARTITION_QUERY (R482). -/
def State.partitionQuery (s : State) (c : Call) (pl : Nat) : State × Reply :=
  checked s (bufferChecks c pl) fun _ =>
    named s (s.partOf c.port c.handle true) fun n =>
      let d := drawFree s
      d.2.respond c pl 80 (s.partitionRecord n d.1) none

/-- The quota record of a payload. -/
def Partition.withQuota (p : Partition) (pl : Nat) : Partition :=
  { p with streams := field pl 0 11, branches := field pl 16 12, pipelines := field pl 32 6, models := field pl 40 5, memBytes := field pl 64 64,
           shareQ := field pl 128 8, shareC := field pl 136 8, shareK := field pl 144 8, tdmPorts := field pl 160 16 }

/-- Table 14-14's mask of changed fields, in Table 13-3's row order. -/
def quotaMask (a b : Partition) : Nat :=
  pack [(1, bit (a.streams != b.streams)), (1, bit (a.branches != b.branches)), (1, bit (a.pipelines != b.pipelines)), (1, bit (a.models != b.models)),
        (1, bit (a.memBytes != b.memBytes)), (1, bit (a.shareQ != b.shareQ)), (1, bit (a.shareC != b.shareC)), (1, bit (a.shareK != b.shareK)),
        (1, bit (a.tdmPorts != b.tdmPorts))]

/-- Whether a TDM port is DISABLED with no mapped slot. -/
def State.tdmIdle (s : State) (t : Nat) : Bool :=
  (s.tdm t).state == .disabled && (s.mappedIn t).isEmpty && (s.mappedOut t).isEmpty

/-- The counters of Table 10-8 read zero: those of a port's slots too (R484). -/
def State.clearTdmCounters (s : State) (t : Nat) : State :=
  let u := s.updTdm t (fun p => { p with frames := 0, sentinelInvalid := 0, downEpisodes := 0, gapFrames := 0, heldDropped := 0, lagTrimmed := 0 })
  { u with audio := { u.audio with
      inputs := Table.mapVals {} (fun k (x : InSlot) => if k / 32 = t then { x with saturations := 0 } else x) u.audio.inputs,
      outputs := Table.mapVals {} (fun k (x : OutSlot) => if k / 32 = t then { x with saturations := 0, limited := 0, filled := 0 } else x) u.audio.outputs } }

/-- R483's checks of the fields. -/
def quotaChecks (pl : Nat) : List (Bool × Answer) :=
  [resZero pl 11 5, resZero pl 28 4, resZero pl 38 2, resZero pl 45 19, resZero pl 152 8, resZero pl 176 16,
   rangeFail (decide (1024 < field pl 0 11)) 0, rangeFail (decide (2048 < field pl 16 12)) 16, rangeFail (decide (32 < field pl 32 6)) 32,
   rangeFail (decide (24 < field pl 40 5)) 40, rangeFail (decide (field pl 64 64 % 4096 ≠ 0)) 64, rangeFail (decide (field pl 128 8 = 0)) 128,
   rangeFail (decide (field pl 136 8 = 0)) 136, rangeFail (decide (field pl 144 8 = 0)) 144]

/-- The sum of a quota over the partitions with `n`'s record replaced. -/
def State.quotaSum (s : State) (n : Nat) (new : Partition) (f : Partition → Nat) : Nat :=
  total ((List.range 4).map (fun k => f (if k = n then new else s.part k)))

/-- R182, R484: on every flank where partition `n`'s weight was lowered its streams are castled out until its holding is within its quota. -/
def State.shareChange (s : State) (n : Nat) (old : Partition) : State :=
  (List.range 3).foldl (fun (t : State) f => if (t.part n).share f < old.share f then t.holdToQuota f n (t.quotaOrder f n) else t) s

/-- PARTITION_QUOTA_SET (R483, R484). -/
def State.partitionQuotaSet (s : State) (c : Call) (pl : Nat) : State × Reply :=
  named s (s.partOf c.port c.handle true) fun n =>
    let old := s.part n
    let new := old.withQuota pl
    let moved := (List.range 16).filter (fun t => flag new.tdmPorts t != flag old.tdmPorts t)
    checked s
      ([plainFail (!s.isPlan c.port) 0x0402] ++ quotaChecks pl ++
       [rangeFail (decide (new.memBytes < 4288 * new.nPool ∨ new.windowMib * mib < new.memBytes)) 64,
        plainFail (decide (1024 < s.quotaSum n new (·.streams) ∨ 2048 < s.quotaSum n new (·.branches) ∨ 32 < s.quotaSum n new (·.pipelines) ∨
          24 < s.quotaSum n new (·.models))) 0x0307,
        plainFail (!(moved.all s.tdmIdle)) 0x0406])
      fun _ =>
        let taken := moved.filter (fun t => flag new.tdmPorts t && (s.tdmOwner t).isSome)
        let others := (List.range 4).filter (fun k => k != n)
        let t1 := s.updPart n (fun _ => new)
        let t2 := others.foldl (fun (u : State) k => u.updPart k (fun p =>
          { p with tdmPorts := (List.range 16).foldl (fun m t => if taken.contains t && flag m t then m - 2 ^ t else m) p.tdmPorts })) t1
        let t3 := moved.foldl State.clearTdmCounters t2
        let t4 := (List.range 4).foldl (fun (u : State) k =>
          let m := quotaMask (s.part k) (t3.part k)
          if m = 0 then u else u.post k 0x800E (partHandle k) m) t3
        succeeded ((t4.shareChange n old).dispatchAll)

/-- PARTITION_HOST_LOSS_SET (R485, Table 11-4). -/
def State.partitionHostLossSet (s : State) (c : Call) (pl : Nat) : State × Reply :=
  checked s [resZero pl 4 28, resValue (decide (field pl 0 2 = 3)) 0, resValue (decide (field pl 2 2 = 3)) 2] fun _ =>
    named s (s.partOf c.port c.handle false) fun n =>
      succeeded (s.updPart n (fun p => { p with hlTdm := field pl 0 2, hlHost := field pl 2 2 }))

/-- PARTITION_TRIM_SET (R230, R486): a policy of OLDEST trims at once where too few pages are free. -/
def State.partitionTrimSet (s : State) (c : Call) (pl : Nat) : State × Reply :=
  named s (s.partOf c.port c.handle true) fun n =>
    checked s [plainFail (!s.isPlan c.port) 0x0402, resZero pl 1 31] fun _ =>
      succeeded ((s.updPart n (fun p => { p with trimNone := flag pl 0 })).trimCheck n)

/-- Table 13-5. -/
def Site.record (x : Site) : Nat :=
  pack [(2, x.planPort), (1, bit x.dedup), (5, 0), (8, x.scrubHours), (8, x.digests.length), (8, 0), (7, x.cacheQ / 4), (1, 0), (7, x.cacheC / 4), (1, 0),
        (7, x.cacheK / 4), (73, 0)]

/-- SITE_QUERY (R487). -/
def State.siteQuery (s : State) (c : Call) (pl : Nat) : State × Reply :=
  checked s (bufferChecks c pl) fun _ => s.respond c pl 16 s.site.record none

/-! ## Apertures (R488 to R490) -/

/-- APERTURE_REGISTER (R488). -/
def State.apertureRegister (s : State) (c : Call) (pl : Nat) : State × Reply :=
  let base := field pl 0 64
  let pages := field pl 64 21
  let free := Table.firstWhere none (s.port c.port).apertures (fun a => a.isNone) 0 4096
  checked s
    [resZero pl 87 41, alignFail (decide (base % 4096 ≠ 0)) 0, rangeFail (decide (pages = 0 ∨ 1048576 < pages ∨ 2 ^ 64 < base + 4096 * pages)) 64,
     rangeFail (!flag pl 85 && !flag pl 86) 85, plainFail free.isNone 0x0306]
    fun _ =>
      let i := free.getD 0
      answered (s.updPort c.port (fun p => { p with
        apertures := Table.set none p.apertures i (some { base := base, bytes := 4096 * pages, read := flag pl 85, write := flag pl 86 }) }))
        { handle := 0x02000000 + i }

/-- Whether a source is a host ring in aperture `i`. -/
def Source.inAperture (x : Source) (i : Nat) : Bool :=
  match x with
  | .ring r => r.aperture == i
  | _ => false

/-- R490: whether a ring, a host audio ring or a load in progress uses aperture `i` of port `n`. -/
def State.apertureInUse (s : State) (n i : Nat) : Bool :=
  let p := s.port n
  p.pairs.any (fun r => r.2.live && (r.2.sqAperture == i || r.2.cqAperture == i)) || (p.events.live && p.events.aperture == i) ||
    s.streams.any (fun e => e.2.part == n && e.2.state != .closed && (e.2.source.inAperture i || (e.2.nextSource.getD .none).inAperture i)) ||
    s.branches.any (fun e => e.2.part == n && e.2.state != .absent &&
      ((e.2.ring.map (fun r => r.aperture == i)).getD false || ((e.2.nextOut.bind (fun o => o.2.2)).map (fun r => r.aperture == i)).getD false)) ||
    s.loads.any (fun l => l.port == n && l.aperture == i && !l.erasing) ||
    p.accepted.any (fun e => e.started && e.call.opcode == 0x0403 && field (if e.call.ext then e.call.extBytes.getD 0 else e.call.body) 0 12 == i)

/-- APERTURE_DEREGISTER (R490, R420): it waits for what is outstanding into the aperture. -/
def State.apertureDeregister (s : State) (c : Call) : State × Reply :=
  let i := c.handle % 2 ^ 24
  let live := decide (c.handle / 2 ^ 24 = 2) && ((s.port c.port).aperture i).isSome
  if !live then answered s (Answer.fail 0x0401)
  else if s.apertureInUse c.port i then answered s (Answer.fail 0x0483)
  else
    (s.updPort c.port (fun p => { p with
      apertures := Table.set none p.apertures i ((Table.get none p.apertures i).map (fun a => { a with closing := true })) }), .wait i)

/-- Whether nothing is outstanding into aperture `i` (R420): requests, and writes held for a port that is LOST. -/
def HostPort.apertureQuiet (p : HostPort) (i : Nat) : Bool :=
  p.requests.all (fun r => r.aperture != i) && p.heldOut.all (fun (h : Held) => match h with
    | .write a _ _ _ => a != i
    | _ => true)

/-- R420: a deregistration completes once nothing is outstanding into its aperture, and the index is free. -/
def State.finishAperture (s : State) (n : Nat) (e : Accepted) : State :=
  if (s.port n).apertureQuiet e.key then
    (s.updPort n (fun p => { p with apertures := Table.set none p.apertures e.key none })).complete n e.id {}
  else s

/-! ## Models (R491 to R497) -/

/-- The lowest free model slot (R440). -/
def State.freeModel (s : State) : Option Nat := Table.firstWhere {} s.models (fun m => !m.live) 0 24

/-- Packages that count toward the device limit of 24 (R494): loaded ones and loads in progress. -/
def State.allModels (s : State) : Nat := (s.models.filter (fun e => e.2.live)).length + (s.loads.filter (fun l => !l.erasing)).length

/-- A load of a package in progress. -/
def State.addLoad (s : State) (l : ModelLoad) : State := { s with loads := s.loads ++ [l], nextLoad := s.nextLoad + 1 }

/-- MODEL_LOAD (R491 steps 1 to 5): the bytes are reserved, and the package is read through FX with the deadline of `dt`, the acceptance, plus 1 s. -/
def State.modelLoad (s : State) (c : Call) (pl id dt : Nat) : State × Reply :=
  let ap := field pl 0 12
  let off := field pl 32 32
  let pages := field pl 64 21
  let n := c.port
  checked s
    [resZero pl 12 20, resZero pl 85 11, alignFail (decide (off % 4096 ≠ 0)) 32, rangeFail (decide (pages = 0)) 64]
    fun _ =>
      match (s.port n).checkAperture ap off (4096 * pages) true false with
      | .ok =>
        checked s
          [plainFail (decide ((s.part n).models ≤ s.liveModels n)) 0x0301, plainFail (decide (24 ≤ s.allModels)) 0x0302,
           plainFail (decide ((s.part n).memBytes < s.memUsed n + 4096 * pages)) 0x0301]
          fun _ =>
            ((s.newOpDue (.package s.nextLoad) n (dt + 24576000) [{ kind := 3, bytes := 4096 * pages }]).addLoad
              { id := s.nextLoad, port := n, cmd := id, aperture := ap, offset := off, pages := pages, op := (s.newOp (.package s.nextLoad) n).2 }, .wait s.nextLoad)
      | r =>
        let v := s.apertureViolation c ap off false r
        answered v.1 v.2

/-- The load leaves. -/
def State.endLoad (s : State) (l : ModelLoad) : State :=
  ({ s with loads := s.loads.filter (fun x => x.id != l.id) } : State).endOps (fun o => o.kind == OpKind.package l.id || o.kind == OpKind.release l.id)

/-- R491: a load that leaves no model: its reserved bytes are zero-filled, and then released. -/
def State.releaseLoad (s : State) (l : ModelLoad) : State :=
  let t := s.endOps (fun o => o.kind == OpKind.package l.id)
  ({ t with loads := t.loads.map (fun x => if x.id == l.id then { x with failed := true, erasing := true } else x) } : State).newOpOwing (.release l.id) l.port
    [{ kind := 6, bytes := 4096 * l.pages }]

/-- A failed read of a package (R491). -/
def State.failLoad (s : State) (l : ModelLoad) : State := (s.releaseLoad l).complete l.port l.cmd (Answer.fail 0x0106)

/-- Failed loads end once nothing of theirs is outstanding, and leave once their bytes are zero-filled. -/
def State.sweepLoads (s : State) : State :=
  let t := (s.loads.filter (fun l => l.failed && !l.erasing && !s.opBusy l.op)).foldl State.failLoad s
  (t.loads.filter (fun l => l.erasing && !t.kindBusy (fun k => k == OpKind.release l.id))).foldl State.endLoad t

/-! ### Validation (R492, Table 13-8) -/

/-- Table 4-3's ranges (R155). -/
def requantValid (r : RequantParam) : Bool :=
  decide (0x8000 ≤ r.mult ∧ r.mult ≤ 0xFFFF ∧ r.shift ≤ 31 ∧ -2147483648 ≤ r.corr ∧ r.corr ≤ 2147483647 ∧ -2147483648 ≤ r.bias ∧ r.bias ≤ 2147483647) &&
    match r.format with
    | .int4 => decide (-8 ≤ r.zero ∧ r.zero ≤ 7)
    | .int8 => decide (-128 ≤ r.zero ∧ r.zero ≤ 127)
    | .n8f => decide (r.zero = 0)

/-- Table 4-4's ranges (R156). -/
def gaugeValid (g : GaugeParam) : Bool :=
  decide (-8 ≤ g.gmin ∧ g.gmin ≤ 0 ∧ 0 ≤ g.gmax ∧ g.gmax ≤ 7 ∧ g.gmin ≤ g.gamma0 ∧ g.gamma0 ≤ g.gmax ∧
    1 ≤ g.tSat ∧ g.tSat ≤ 255 ∧ 1 ≤ g.quietK ∧ g.quietK ≤ 63)

/-- Table 6-7's limits (R237). -/
def attnValid (a : AttnParam) : Bool :=
  decide (1 ≤ a.window ∧ a.window ≤ 64 ∧ 1 ≤ a.retrieved ∧ a.retrieved ≤ 64 ∧ 1 ≤ a.group ∧ a.group ≤ 8) &&
    (a.horizon == 0 || decide (a.window ≤ a.horizon))

/-- Table 5-1's limits (R192), an initial state for every group and channel the layers declare, its groups of 32 mantissas (R129, R162, R169), and static zero points within their formats (R163). -/
def packageStateOk (k : Package) : Bool :=
  decide (k.footprint ≤ 262144) && [1, 2, 4, 8, 16].contains k.renorm &&
    decide (k.initGroups.length = (k.layers.map Layer.s16).sum ∧ k.initChannels.length = (k.layers.map Layer.eight).sum) &&
    k.initGroups.all S16Group.shaped &&
    k.layers.all (fun l => match l.format with
      | .int4 => decide (-8 ≤ l.zero ∧ l.zero ≤ 7)
      | .int8 => decide (-128 ≤ l.zero ∧ l.zero ≤ 127)
      | .n8f => decide (l.zero = 0))

/-- The last check of Table 13-8: activation layout, periods, look-ahead, and the rows of one item at every declared period. -/
def packageLayoutOk (k : Package) : Bool :=
  decide (k.actKib ≤ 672 ∧ k.periods % 16 ≠ 0 ∧ k.laMin ≤ 3) &&
    (List.range 4).all (fun p => !flag k.periods p || decide (k.rowsPerItem.getD p 0 ≤ k.rowLimit))

/-- R492: the first failing reason of Table 13-8. -/
def packageReason (pages : Nat) (x : PackageImage) : Option Nat :=
  let k := x.info
  ([(x.formatOk, 1), (x.targetOk, 2), (x.declaredBytes == 4096 * pages, 3), (x.checksumOk, 4),
    (x.kindOk && decide (k.kind ≤ 2), 5), (k.requants.all requantValid, 6),
    (decide (k.gauges.length ≤ 32) && k.gauges.all (fun d => gaugeValid d.param), 7), (x.gaugeStoredOk, 8), (x.stateOk && packageStateOk k, 9),
    (k.attention.all (fun d => attnValid d.param) && decide (k.seqs ≤ 256 ∧ (k.seqs = 0 ∨ k.attention ≠ [])), 10), (packageLayoutOk k, 11)].find? (fun c => !c.1)).map (·.2)

/-! ### Placement (R493, R724) -/

/-- A content id not in use. -/
def State.newContent (s : State) (v : Content) : State × Nat := ({ s.setContent s.nextContent v with nextContent := s.nextContent + 1 }, s.nextContent)

/-- Bytes the shared window holds. -/
def State.sharedUsed (s : State) : Nat := total ((s.contents.filter (fun e => e.2.live && e.2.shared)).map (fun e => 4096 * e.2.pages))

/-- Whether the site lists a package's digest as shareable (R493). -/
def State.shareable (s : State) (k : Package) : Bool := s.site.dedup && s.site.digests.contains k.digest

/-- R493: where a valid package goes: the content, whether it is shared and whether it was present already. -/
def State.placePackage (s : State) (l : ModelLoad) (k : Package) : State × Nat × Bool × Bool :=
  if s.shareable k then
    match s.contents.find? (fun e => e.2.live && e.2.shared && (e.2.pkg.map (·.digest)) == some k.digest && s.models.any (fun m => m.2.live && m.2.content == e.1)) with
    | some e => (s, e.1, true, true)
    | none =>
      let fits := decide (s.sharedUsed + 4096 * l.pages ≤ s.site.sharedMib * mib)
      let r := s.newContent { live := true, pkg := some k, shared := fits, owner := l.port, pages := l.pages }
      (r.1, r.2, fits, false)
  else
    let r := s.newContent { live := true, pkg := some k, shared := false, owner := l.port, pages := l.pages }
    (r.1, r.2, false, false)

/-- MODEL_PLACEMENT: once the package has been read, it is validated and placed, and the command completes (R491 steps 6 and 7, R492, R493). -/
def State.modelPlacement (s : State) (n load : Nat) (image : PackageImage) : State :=
  match s.loads.find? (fun l => l.id == load && l.port == n) with
  | none => s
  | some l =>
    if l.erasing then s
    else if l.failed then s.failLoad l
    else if s.kindBusy (fun k => k == OpKind.package load) then s
    else match packageReason l.pages image with
      | some r =>
        (s.releaseLoad l).complete n l.cmd { status := 0x0209, detail := payloadOffset 64, result := r + 2 ^ 32 * image.badOffset }
      | none =>
        let t := s.endLoad l
        let slot := t.freeModel.getD 0
        let p := t.placePackage l image.info
        let m := p.1.model slot
        (p.1.setModel slot { m with live := true, part := n, content := p.2.1 }).complete n l.cmd
          { handle := modelHandle slot m.gen,
            result := pack [(1, bit p.2.2.1), (1, bit p.2.2.2), (30, 0), (32, if p.2.2.1 then 0 else l.pages)] }

/-- Table 13-9. -/
def packageRecord (k : Package) : Nat :=
  pack [(2, k.kind), (2, k.format), (4, k.periods), (2, k.laMin), (6, k.gauges.length), (16, k.rowLimit), (9, k.seqs), (7, 0), (16, k.actKib),
        (64, k.weightBytes), (32, k.footprint), (32, k.entryBytes), (64, 0), (256, k.digest)]

/-- MODEL_QUERY (R495). -/
def State.modelQuery (s : State) (c : Call) (pl : Nat) : State × Reply :=
  checked s (bufferChecks c pl) fun _ =>
    named s (s.modelOf c.port c.handle) fun m =>
      s.respond c pl 64 (((s.content (s.model m).content).pkg.map packageRecord).getD 0) none

/-- Whether a live pipeline names model slot `m`. -/
def State.modelNamed (s : State) (m : Nat) : Bool :=
  s.pipes.any (fun e => e.2.live && e.2.stages.any (fun st => (e.2.stage st).model == m))

/-- MODEL_UNLOAD (R496): the handle is free; content that no handle names any more is zero-filled by ZERO descriptors before the command completes. -/
def State.modelUnload (s : State) (c : Call) : State × Reply :=
  named s (s.modelOf c.port c.handle) fun m =>
    if s.modelNamed m then answered s (Answer.fail 0x0403)
    else
      let x := s.model m
      let t := s.setModel m { x with live := false, gen := bump 16 x.gen 1 }
      let still := t.models.any (fun e => e.2.live && e.2.content == x.content)
      if still then succeeded t
      else (t.newOpDue (.erase x.content) c.port t.dt [{ kind := 6, bytes := 4096 * (t.content x.content).pages }], .wait x.content)

/-- R496: an unload completes once its content is zero-filled, and its bytes are free. -/
def State.finishUnload (s : State) (n : Nat) (e : Accepted) : State :=
  if s.kindBusy (fun k => k == OpKind.erase e.key) then s
  else ((s.setContent e.key {}).endOps (fun o => o.kind == OpKind.erase e.key)).complete n e.id {}

/-- R497: a list of handles: the count, then 4 bytes each. -/
def handleList (hs : List Nat) : Nat := hs.length + 2 ^ 32 * concatRecords 32 hs

/-- MODEL_LIST (R497). -/
def State.modelList (s : State) (c : Call) (pl : Nat) : State × Reply :=
  let hs := (s.models.filter (fun e => e.2.live && e.2.part == c.port)).map (fun e => modelHandle e.1 e.2.gen)
  checked s (bufferChecks c pl) fun _ => s.respond c pl (4 + 4 * hs.length) (handleList hs) none

/-! ## Pipelines (R498 to R508) -/

/-- Chunk periods in ticks (Table 2-2). -/
def periodTicks (code : Nat) : Nat := 245760 * 2 ^ code

/-- A stage entry of the payload (Table 13-11), by stage number. -/
def stageEntry (pl k : Nat) : Nat := field pl (128 + 128 * k) 128

/-- The bit of a stage entry's field within the payload. -/
def entryBit (k lo : Nat) : Nat := 128 + 128 * k + lo

/-- Reserved fields and values of one stage entry; an absent stage's entry is all zero. -/
def entryReserved (pl k : Nat) : List (Bool × Answer) :=
  let e := stageEntry pl k
  [resZero pl (entryBit k 7) 25, resZero pl (entryBit k 96) 32, resValue (decide (field e 1 2 = 3)) (entryBit k 1), resValue (decide (field e 3 2 = 3)) (entryBit k 3),
   resValue (!flag e 0 && decide (e ≠ 0)) (entryBit k 0)]

/-- The stages a payload has. -/
def payloadStages (pl : Nat) : List Stage := [Stage.encode, Stage.translate, Stage.speak].filter (fun st => flag (stageEntry pl (stageCode st)) 0)

/-- R498 steps 1 and 2. -/
def shapeChecks (pl : Nat) : List (Bool × Answer) :=
  let present := fun k => flag (stageEntry pl k) 0
  let fanout := field pl 16 5
  [resZero pl 2 2, resValue (decide (4 < field pl 8 3)) 8, resZero pl 11 5, resZero pl 21 107] ++ entryReserved pl 0 ++ entryReserved pl 1 ++ entryReserved pl 2 ++
  [argFail (!present 0) 0x0204 (entryBit 0 0), argFail (present 2 && !present 1) 0x0204 (entryBit 2 0),
   argFail (if present 1 then decide (fanout = 0 ∨ 16 < fanout) else decide (fanout ≠ 0)) 0x0204 16,
   rangeFail (decide (8 < field pl 4 4)) 4]

/-- A failure whose DETAIL is a stage entry's MODEL field (R498). -/
def modelFail (bad : Bool) (status k : Nat) : Bool × Answer := (bad, Answer.fail status (payloadOffset (entryBit k 32)))

/-- The package a stage entry's model handle names on port `n`. -/
def State.entryPackage (s : State) (n pl k : Nat) : Option Package :=
  (s.modelOf n (field (stageEntry pl k) 32 32)).bind (fun m => (s.content (s.model m).content).pkg)

/-- R498 steps 3 to 7. -/
def State.stageChecks (s : State) (n pl : Nat) : List (Bool × Answer) :=
  let ks := (payloadStages pl).map stageCode
  let pk := fun k => s.entryPackage n pl k
  let e := fun k => stageEntry pl k
  let each := fun (bad : Nat → Package → Bool) (status : Nat) =>
    ks.map (fun k => modelFail (((pk k).map (bad k)).getD false) status k)
  ks.map (fun k => (((pk k).isNone), Answer.fail 0x0401))
    ++ each (fun k p => p.kind != k) 0x0206
    ++ each (fun _ p => !flag p.periods (field pl 0 2)) 0x0208
    ++ each (fun k p => decide (field (e k) 5 2 < p.laMin)) 0x0207
    ++ each (fun k _ => decide (field (e k) 64 32 < 6144 ∨ periodTicks (field pl 0 2) < field (e k) 64 32)) 0x0205

/-- The lowest free pipeline slot (R440). -/
def State.freePipe (s : State) : Option Nat := Table.firstWhere {} s.pipes (fun p => !p.live) 0 32

/-- A stage's configuration from its entry. -/
def State.stageCfg (s : State) (n pl k : Nat) : StageCfg :=
  let e := stageEntry pl k
  if flag e 0 then
    let m := (s.modelOf n (field e 32 32)).getD 0
    { present := true, flank := field e 1 2, lookahead := field e 5 2, model := m, content := (s.model m).content, budget := field e 64 32 }
  else {}

/-- The MODE of an entry. -/
def modeOf (e : Nat) : BindMode := if field e 3 2 = 1 then .resident else if field e 3 2 = 2 then .streamed else .auto

/-- R499, R500: the bindings of the stages in order; the first failure's status and stage. A binding newly made has a load operation (R502). -/
def State.bindStages (s : State) (n pl slot : Nat) : List Stage → (Nat × Nat) ⊕ State
  | [] => .inr s
  | st :: rest =>
    let k := stageCode st
    let c := s.stageCfg n pl k
    match s.entryPackage n pl k with
    | none => .inr s
    | some p =>
      let known := (s.bindingOn c.flank c.content).isSome
      match s.bindStage c.flank c.content st (modeOf (stageEntry pl k)) slot p with
      | .inl status => .inl (status, k)
      | .inr t => (if known then t
        else t.newOpOwing (.load c.flank) n (bindingLoads p (((t.bindingOn c.flank c.content).map (·.resident)).getD false) (t.enabledTiles c.flank))).bindStages n pl slot rest

/-- PIPELINE_CREATE (R498 to R502). -/
def State.pipelineCreate (s : State) (c : Call) (pl : Nat) : State × Reply :=
  let n := c.port
  let sts := payloadStages pl
  checked s
    (shapeChecks pl ++ s.stageChecks n pl ++
      [plainFail (decide ((s.part n).pipelines ≤ s.livePipes n)) 0x0301, plainFail s.freePipe.isNone 0x0302] ++
      sts.map (fun st => modelFail ((s.flank (s.stageCfg n pl (stageCode st)).flank).state == .outOfService) 0x0405 (stageCode st)))
    fun _ =>
      let slot := s.freePipe.getD 0
      match s.bindStages n pl slot sts with
      | .inl (status, k) =>
        answered s (Answer.fail status (payloadOffset (entryBit k (if status = 0x0407 then 3 else 32))))
      | .inr t =>
        let x := t.pipe slot
        let commit := field pl 4 4
        (t.setPipe slot
          { x with live := true, part := n, period := periodTicks (field pl 0 2), commit := if commit = 0 then 1 else commit, gambit := field pl 8 3,
                   fanout := field pl 16 5, encode := s.stageCfg n pl 0, translate := s.stageCfg n pl 1, speak := s.stageCfg n pl 2, ready := false,
                   deleting := false, prefixTokens := 0, prefixPages := [] }, .wait slot)

/-- The flanks a pipeline's stages name. -/
def Pipeline.flanks (p : Pipeline) : List Nat := (p.stages.map (fun st => (p.stage st).flank)).eraseDups

/-- The binding a pipeline's stage uses. -/
def State.stageBinding (s : State) (p : Pipeline) (st : Stage) : Option Binding := s.bindingOn (p.stage st).flank (p.stage st).content

/-- RESULT of PIPELINE_CREATE: which stages are resident. -/
def State.residentBits (s : State) (p : Pipeline) : Nat :=
  total (p.stages.map (fun st => if ((s.stageBinding p st).map (·.resident)).getD false then 2 ^ stageCode st else 0))

/-- BINDING_READY (R502): with its flanks OPERATIONAL and laid out and its loads finished, every binding of pipeline `pipe` is loaded; a create waiting for
it completes. -/
def State.bindingReady (s : State) (pipe : Nat) : State :=
  let p := s.pipe pipe
  let fit := fun f => (s.flank f).state == .operational && (s.flank f).repair == .none && !(s.flank f).relayoutWait && (s.flank f).relayout.isNone &&
    !s.kindBusy (fun k => k == OpKind.load f)
  if !p.live || !(p.flanks.all fit) then s
  else
    let t := p.stages.foldl (fun (u : State) st => u.updBinding (p.stage st).flank (p.stage st).content (fun b => { b with loaded := true })) s
    let waits := fun f => (t.flank f).bindings.any (fun b => !b.loaded)
    let u := p.flanks.foldl (fun (v : State) f => if waits f then v else v.endOps (fun o => o.kind == OpKind.load f && !o.aborted)) t
    if p.ready then u.dispatchAll
    else ((u.setPipe pipe { p with ready := true }).completeKey p.part 0x0401 pipe { handle := pipeHandle pipe p.gen, result := u.residentBits p }).dispatchAll

/-- R504's LATENCY: λ of R64 with h = 0. -/
def Pipeline.latency (p : Pipeline) : Nat :=
  (1 + total (p.stages.map (fun st => (p.stage st).lookahead))) * p.period + conditioning + total (p.stages.map (fun st => (p.stage st).budget)) +
    (if p.speak.present then 24576 else 0)

/-- A stage record of Table 13-12. -/
def State.stageRecord (s : State) (p : Pipeline) (st : Stage) : Nat :=
  let c := p.stage st
  match c.present, s.stageBinding p st with
  | true, some b =>
    let foot := s.footprint c
    let slots := if foot = 0 then 0xFFFF else 262144 / foot
    let tiles := s.enabledTiles c.flank
    pack [(1, 1), (2, c.flank), (1, bit b.resident), (1, bit (b.users.length != 1)), (11, 0), (16, if b.resident then ceilDiv b.sliceBytes 1024 else 0),
          (16, s.weightRegion c.flank (s.flank c.flank).act / 1024), (16, slots), (32, if foot = 0 then 0xFFFFFFFF else tiles * slots),
          (8, qMin b.resident s.power.divisor), (6, tiles), (18, 0)]
  | _, _ => 0

/-- Streams of pipeline `pipe` in any state but CLOSED. -/
def State.pipeStreams (s : State) (pipe : Nat) : Nat := (s.streams.filter (fun e => e.2.pipe == pipe && e.2.state != .closed)).length

/-- PIPELINE_QUERY (R504, Table 13-12). -/
def State.pipelineQuery (s : State) (c : Call) (pl : Nat) : State × Reply :=
  checked s (bufferChecks c pl) fun _ =>
    named s (s.pipeOf c.port c.handle) fun i =>
      let p := s.pipe i
      s.respond c pl 64
        (pack [(32, p.latency), (32, p.prefixTokens), (11, s.pipeStreams i), (53, 0), (128, s.stageRecord p .encode), (128, s.stageRecord p .translate),
               (128, s.stageRecord p .speak)]) none

/-- PIPELINE_LIST (R497). -/
def State.pipelineList (s : State) (c : Call) (pl : Nat) : State × Reply :=
  let hs := (s.pipes.filter (fun e => e.2.live && e.2.ready && !e.2.deleting && e.2.part == c.port)).map (fun e => pipeHandle e.1 e.2.gen)
  checked s (bufferChecks c pl) fun _ => s.respond c pl (4 + 4 * hs.length) (handleList hs) none

/-! ### Prefixes (R505, R506) -/

/-- The pages a prefix of `tokens` needs in pipeline `pipe`: one page for 16 tokens in each decoder sequence. -/
def State.prefixNeed (s : State) (pipe tokens : Nat) : Nat := ((s.stagePackage pipe .translate).map (·.seqs)).getD 0 * ceilDiv tokens 16

/-- The old prefix leaves: PINNED cleared and the pipeline's reference dropped (R506). -/
def State.dropPrefix (s : State) (pipe : Nat) : State :=
  let t := (s.pipe pipe).prefixPages.foldl (fun (u : State) ppn => u.updPage ppn (fun r => { r with pinned := false })) s
  let u := t.dropOwner (.context pipe) false
  u.setPipe pipe { u.pipe pipe with prefixTokens := 0, prefixPages := [] }

/-- `n` pages of partition `part` taken one after another. -/
def State.takePages (s : State) (part : Nat) : Nat → Option (List Nat × State)
  | 0 => some ([], s)
  | n + 1 => match s.takePage part with
    | none => none
    | some (ppn, t) => (t.takePages part n).map (fun r => (ppn :: r.1, r.2))

/-- A page of computed context with `fill` rows: their contents are what the decoder makes of the tokens, which no rule gives: a free value (log 52); the rows beyond read zero (R193). -/
def State.computedPage (s : State) (ppn fill : Nat) : State :=
  let d := drawFree s
  ((d.2.memWrite (4096 * ppn) 4096 d.1).clearRows ppn fill).updPage ppn (fun r => { r with pinned := true })

/-- One decoder sequence of a prefix: `tokens` positions in `pages`. -/
def prefixSeq (pipe idx part tokens : Nat) (pages : List Nat) : PageSeq :=
  { owner := .context pipe, idx := idx, part := part, base := 0, positions := tokens,
    entries := pages.zipIdx.map (fun e =>
      let fill := min 16 (tokens - 16 * e.2)
      { index := e.2, ppn := e.1, fill := fill, sealed := fill == 16 }) }

/-- A list cut into pieces of `k`. -/
def pieces {α : Type} (k : Nat) : Nat → List α → List (List α)
  | 0, _ => []
  | n + 1, xs => xs.take k :: pieces k n (xs.drop k)

/-- R505, R506: the new prefix stands. Its pages and entries were reserved when the command was accepted. -/
def State.setPrefix (s : State) (pipe tokens : Nat) : Option State :=
  let p := s.pipe pipe
  let need := s.prefixNeed pipe tokens
  let per := ceilDiv tokens 16
  let free := s.updPart p.part (fun q => { q with reservedPages := q.reservedPages - need })
  if (s.part p.part).freeSwept < need then none
  else match free.takePages p.part need with
    | none => none
    | some (ppns, t) =>
      let u := ppns.zipIdx.foldl (fun (v : State) e => v.computedPage e.1 (min 16 (tokens - 16 * (e.2 % max per 1)))) (t.dropPrefix pipe)
      let seqs := ((pieces per (need / max per 1) ppns).zipIdx).map (fun e => prefixSeq pipe e.2 p.part tokens e.1)
      let v := seqs.foldl (fun (w : State) q =>
        let w1 := w.setSeq q
        (q.entries.filter (·.sealed)).foldl (fun (y : State) e => y.sealEntry q.owner q.idx e) w1) u
      some (v.setPipe pipe { v.pipe pipe with prefixTokens := tokens, prefixPages := ppns })

/-- The token IDs a command's data holds. -/
def dataIds : HostData → Option (List Nat)
  | .tokens ids => some ids
  | _ => none

/-- PIPELINE_PREFIX_SET (R505). Its table entries count from its acceptance on; its pages are reserved. -/
def State.pipelinePrefixSet (s : State) (c : Call) (pl : Nat) : State × Reply :=
  let tokens := field pl 64 32
  let ap := field pl 0 12
  let off := field pl 32 32
  checked s [resZero pl 12 20, alignFail (decide (off % 4 ≠ 0)) 32, rangeFail (decide (65536 < tokens)) 64] fun _ =>
    named s (s.pipeOf c.port c.handle) fun i =>
      let p := s.pipe i
      if !p.translate.present then answered s (Answer.fail 0x0204 8)
      else if tokens = 0 then succeeded (s.dropPrefix i)
      else match (s.port c.port).checkAperture ap off (4 * tokens) true false with
        | .ok =>
          match dataIds c.data with
          | none => answered s (Answer.fail 0x0106)
          | some ids =>
            let vocab := ((s.stagePackage i .translate).map (·.vocabulary)).getD 0
            match (ids.take tokens).findIdx? (fun t => decide (vocab ≤ t)) with
            | some k => answered s { status := 0x0202, result := k, detail := payloadOffset 64 }
            | none =>
              let need := s.prefixNeed i tokens
              let q := s.part p.part
              if q.freeSwept + q.unswept < q.reservedPages + need ∨ 8 * q.nPool < q.tableEntries + need then answered s (Answer.fail 0x0308)
              else (s.updPart p.part (fun x => { x with reservedPages := x.reservedPages + need, tableEntries := x.tableEntries + need }), .wait i)
        | r =>
          let v := s.apertureViolation c ap off false r
          answered v.1 v.2

/-- R505: a prefix command that fails gives back the pages and entries it reserved. -/
def State.dropReserved (s : State) (pipe tokens : Nat) : State :=
  let need := s.prefixNeed pipe tokens
  s.updPart (s.pipe pipe).part (fun q => { q with reservedPages := q.reservedPages - need, tableEntries := q.tableEntries - need })

/-- A prefix command that waits goes on at a task boundary of an OPERATIONAL flank once its pages are swept (R505; log 52). -/
def State.finishPrefix (s : State) (n : Nat) (e : Accepted) (tokens : Nat) : State :=
  let f := (s.pipe e.key).translate.flank
  if (s.flank f).state != .operational || (s.flank f).run.isSome then s
  else match s.setPrefix e.key tokens with
    | some t => t.complete n e.id { result := s.prefixNeed e.key tokens }
    | none => s

/-! ### Deletion (R507, R508) -/

/-- PIPELINE_DELETE (R507). -/
def State.pipelineDelete (s : State) (c : Call) : State × Reply :=
  named s (s.pipeOf c.port c.handle) fun i =>
    if 0 < s.pipeStreams i then answered s (Answer.fail 0x0404)
    else
      let t := s.dropPrefix i
      (t.setPipe i { t.pipe i with deleting := true }, .wait i)

/-- R507, R508: a pipeline being deleted leaves each of its flanks at a task boundary; once none of them is owed a re-layout its handle is free. -/
def State.finishDelete (s : State) (n : Nat) (e : Accepted) : State :=
  let p := s.pipe e.key
  let t := p.flanks.foldl (fun (u : State) f =>
    if (u.flank f).run.isSome || !((u.flank f).bindings.any (fun b => b.users.contains e.key)) then u else u.unbind f e.key) s
  let bound := p.flanks.any (fun f => (t.flank f).bindings.any (fun b => b.users.contains e.key) || (t.flank f).relayoutWait || (t.flank f).relayout.isSome)
  if bound then t
  else (t.setPipe e.key { gen := bump 16 p.gen 1 }).complete n e.id {}

end Sys2Proof.Machine
end

