-- ==== Sys2Proof/Machine/Flags.lean ====
section
/-!
DEFINITION. Machine/Flags.lean: the status words and records the device computes from its state: boot status, tile status, mailbox status, query records
and telemetry words (chapters 3, 12, 14, 15 and 16).
-/
namespace Sys2Proof.Machine

/-! ## Status words -/

/-- Table 16-3's code of a boot stage. -/
def BootStage.code : BootStage → Nat
  | .rom => 1
  | .imageCheck => 2
  | .training => 3
  | .clear => 4
  | .selfTest => 5
  | .config => 6
  | .ready => 7
  | .failed => 8

/-- Table 16-5's code of a reset cause. -/
def DevCause.code : DevCause → Nat
  | .powerOn => 0
  | .sysReset => 1
  | .command => 2
  | .clockLoss => 3
  | .thermalTrip => 4
  | .fwWatchdog => 5
  | .bootTimeout => 6

/-- BOOT_STATUS (Table 16-5, R604's FALLBACK). -/
def Boot.status (b : Boot) : Nat :=
  pack [(4, b.stage.code), (4, b.cause.code), (1, b.runningSlot), (1, bit (b.runningSlot != b.preferredAtBoot)), (1, bit b.siteDefault), (1, b.siteSlot),
        (4, b.failReason), (3, b.failStack)]

/-- FW_VERSION (R3): the running image's version word while READY. -/
def State.fwVersion (s : State) (n : Nat) : Nat :=
  if (s.port n).fwState = 2 then (s.boot.flash.dir.slot s.boot.runningSlot).version else 0

/-- Table 3-7's code of a tile state. -/
def TileState.code : TileState → Nat
  | .spare => 0
  | .loading => 1
  | .enabled => 2
  | .retired => 3

/-- The tile status entry (Table 3-7). -/
def State.tileStatus (s : State) (t : Nat) : Nat :=
  let x := s.tile t
  pack [(8, coordByte t), (8, x.logical), (2, x.state.code), (2, (s.flank (t / 48)).state.code), (4, 0), (8, s.ringPos t)]

/-- A stack's temperature entry (Table 9-5). -/
def Stack.entry (x : Stack) : Nat := pack [(8, x.tempNow), (8, x.tempMax), (1, bit x.fast), (15, 0)]

/-- Table 14-8's code of a TDM port state. -/
def TdmState.code : TdmState → Nat
  | .disabled => 0
  | .acquiring => 1
  | .running => 2
  | .down => 3

/-! ## Records -/

/-- Table 14-7's parameters. -/
def TdmConfig.record (c : TdmConfig) : Nat :=
  pack [(1, bit c.rate48), (2, c.slots), (2, c.width), (1, c.fsWidth), (1, c.fsDelay), (1, c.bclkPol), (1, c.doutIdle), (1, bit c.sentInEn), (5, c.sentIn),
        (1, bit c.sentOutEn), (5, c.sentOut), (43, 0)]

/-- PORT_QUERY's record (Table 14-8). -/
def State.tdmRecord (s : State) (t : Nat) : Nat :=
  let p := s.tdm t
  pack [(64, p.cfg.record), (2, p.state.code), (1, bit p.loopback), (6, (s.mappedIn t).length), (6, (s.mappedOut t).length), (49, 0)]

/-- STREAM_QUERY's record (Table 14-4). -/
def State.streamRecord (s : State) (i : Nat) : Nat :=
  let x := s.stream i
  let bs := s.branchesOf i
  let src := match x.source with
    | .tdm p k => pack [(1, 0), (4, p), (5, k)]
    | .ring _ => 1
    | .none => 1
  pack [(3, x.state.code), (10, src), (5, bs.length), (14, 0), (32, pipeHandle x.pipe (s.pipe x.pipe).gen), (64, x.anchor), (32, x.row), (32, x.enc.row),
        (8, (x.enc.tile.map (fun t => (s.tile t).logical)).getD 255), (312, 0),
        (512, concatRecords 32 (bs.map (fun b => branchHandle b (s.branch b).gen)))]

/-- The committed tokens of a branch: its slot's, or its lifeline's where it holds no slot (R85, Table 5-2). -/
def Branch.tokens (x : Branch) : Nat := if x.translate.tile.isSome then x.translate.work.tokens else x.translate.current.tokens

/-- BRANCH_QUERY's record (Table 14-5). -/
def State.branchRecord (s : State) (b : Nat) : Nat :=
  let x := s.branch b
  pack [(3, x.state.code), (3, x.hold), (2, policyCode x.policy), (24, 0), (32, streamHandle x.stream (s.stream x.stream).gen), (16, x.language), (16, x.voice),
        (160, x.outBlock), (32, x.firstRow), (32, x.tokens), (192, 0)]

/-- DEVICE_QUERY's STAGED_STATE (R607). -/
def Boot.stagedState (b : Boot) : Nat :=
  match (b.flash.dir.slot b.spareSlot).state with
  | .staged => 1
  | .activated => 2
  | _ => 0

/-- DEVICE_QUERY's record (Table 14-12). -/
def State.deviceRecord (s : State) (n : Nat) : Nat :=
  let st := s.boot.stagedState
  let flank := fun f => s.enabledTiles f + 64 * (s.flank f).state.code
  pack [(32, s.fwVersion n), (32, if st = 0 then 0 else (s.boot.flash.dir.slot s.boot.spareSlot).version), (8, 0xB0), (1, s.boot.runningSlot), (2, st),
        (5, s.power.cap), (3, s.power.divisor), (5, 0), (8, flank 0), (8, flank 1), (8, flank 2), (16, 0), (64, s.dt), (64, 0)]

/-! ## Telemetry words (R536 to R539, R582, Table 14-9) -/

/-- A group's highest index. -/
def groupLast (g : Nat) : Option Nat :=
  match g with
  | 0x01 => some 143
  | 0x02 => some 2
  | 0x03 => some 3
  | 0x04 => some 719
  | 0x05 => some 303
  | 0x06 => some 191
  | 0x07 => some 5
  | 0x08 => some 0
  | 0x09 => some 15
  | 0x0A => some 1023
  | 0x0B => some 3071
  | 0x0C => some 0
  | 0x0D => some 0
  | 0x0E => some 1023
  | 0x0F => some 2047
  | 0x10 => some 0
  | 0x11 => some 1023
  | 0x12 => some 0
  | _ => none

/-- TILE. -/
def State.tileWords (s : State) (t : Nat) : List Nat :=
  let x := s.tile t
  [s.dispatchIdleOf t, x.castlingStall, x.pageStall, x.dataLate, x.ringWait, x.fabricStall, x.barrierStall, x.gaugeStall, x.eccCorrected, x.eccUncorrectable,
   x.residueReruns, x.accSaturations, x.requantSaturations, x.vectorSaturations, s.tileStatus t]

/-- FLANK. -/
def State.flankWords (s : State) (f : Nat) : List Nat :=
  let x := s.flank f
  [x.state.code, s.enabledTiles f, x.bindings.length, x.tasksDispatched, x.tasksAborted, x.busyTclk, x.retirements, x.relayouts]

/-- FEEDER (Table 7-10). -/
def State.feederWords (s : State) (f : Nat) : List Nat :=
  let c := (s.feeder f).cnt
  [c.descriptors, c.bytesRead, c.bytesWritten, c.tagsHigh, c.tagPoolWaits, c.sacrificed, c.gambitFaults, c.late, c.watchdog,
   ((s.feeder f).requests.filter (fun r => r.quarantined.isSome)).length, c.aborted, c.stalemates]

/-- ROUTER_PORT (Table 8-9). -/
def State.linkWords (s : State) (k : Nat) : List Nat :=
  let l := s.link k
  [l.forwarded, l.corrections, l.uncorrectable, l.retries, l.hopDuplicates, l.queue.length, l.depthMax, l.creditStalls, l.windowStalls, l.detourCount, bit l.down]

/-- NET_IF (Table 8-10). -/
def State.netWords (s : State) (k : Nat) : List Nat :=
  let n := s.netif (if k < 144 then (s.tile k).logical else k)
  [n.windowStalls, n.openWaits, n.duplicates, n.protocolErrors, n.probes, n.unreachable, n.reclaims, n.refused]

/-- PSEUDO_CHANNEL (Table 9-4). -/
def PseudoChannel.counters (c : PseudoChannel) : List Nat :=
  [c.reads, c.writes, c.corrected, c.uncorrectable, c.scrubCorrected, c.scrubUncorrectable, c.scrubPosition, c.refreshSlots, c.refreshForced, c.scrubSlots,
   c.scrubForced, c.sweepSlots, c.guardRefusals, c.controllerResets]

/-- PAGE_SERVICE (Table 6-9). -/
def Partition.pageWords (p : Partition) : List Nat :=
  [p.allocated, p.freeSwept, p.unswept, p.cowCopies, p.pagesTrimmed, p.lookups, p.cachePeer, p.cacheMemory, p.invalidates, p.crossings, p.sweepSlotsWon, p.exhausted]

/-- TDM_PORT (Table 10-8). -/
def State.tdmWords (s : State) (t : Nat) : List Nat :=
  let p := (s.countIdle t).tdm t
  [p.frames, p.sentinelInvalid, p.downEpisodes, p.gapFrames, p.heldDropped, p.lagTrimmed]

/-- SLOT (Table 10-9, first three rows). -/
def State.slotWords (s : State) (k : Nat) : List Nat :=
  let key := slotKey (k / 64) (k % 32)
  if k / 32 % 2 = 0 then [(s.inSlot key).saturations, 0, 0]
  else
    let o := s.outSlot key
    [o.saturations, o.limited, o.filled]

/-- HOST_PORT (Table 11-8). -/
def HostPort.linkCounters (p : HostPort) : List Nat :=
  [p.cnt.linkLosses, p.cnt.completionTimeouts, p.cnt.lateCompletions, p.cnt.errorCompletions, p.quarantine.length, p.cnt.linkDroppedFrames, p.cnt.violations]

/-- TRANSPORT (Table 12-10). -/
def HostPort.transport (p : HostPort) : List Nat :=
  [p.cnt.commandsAccepted, p.cnt.commandsFailed, p.cnt.eventsPosted, p.cnt.eventsDropped, p.cnt.msixMessages, p.cnt.doorbellWrites, p.cnt.fetchRetries]

/-- STREAM. -/
def Stream.words (x : Stream) : List Nat :=
  [x.state.code, x.row, x.cnt.chunksClosed, x.cnt.chunksPassed, x.cnt.castleOuts, x.cnt.castleIns, x.cnt.frogs, x.cnt.shadowChunks, x.cnt.commits]

/-- BRANCH. -/
def Branch.words (x : Branch) : List Nat :=
  [x.state.code, x.hold, x.cnt.flagFalls, x.cnt.ffEncode, x.cnt.ffTranslate, x.cnt.ffSpeak, x.cnt.holdAsSkip, x.tokens, x.cnt.silentDropped]

/-- A gauge entry (Table 4-5). -/
def Gauge.entry (g : Gauge) : Nat := pack [(4, unsigned 4 g.gamma), (6, g.quiet), (1, bit g.atBound), (5, 0), (16, g.satLast)]

/-- The gauge entries of a section: its slot's, or its lifeline's. -/
def Sect.gauges (x : Sect) : List Gauge := if x.tile.isSome then x.work.gauges else x.current.gauges

/-- GAUGE (R539). -/
def State.gaugeWords (s : State) (i : Nat) : List Nat :=
  let p := s.pipeOfStream i
  let count := fun st => ((s.stagePackage (s.stream i).pipe st).map (fun (k : Package) => k.gauges.length)).getD 0
  let bs := s.branchesOf i
  let tracked := fun st => if (p.stage st).present then count st else 0
  pack [(8, tracked .encode), (8, tracked .translate), (8, tracked .speak), (5, bs.length)] ::
    ((s.stream i).enc.gauges ++ bs.flatMap (fun b => (s.branch b).translate.gauges ++ (s.branch b).speak.gauges)).map Gauge.entry

/-- POWER (Table 15-8). -/
def State.powerWords (s : State) : List Nat :=
  let p := s.power.countTo s.dt
  let temps := fun (lo : Nat) => concatRecords 8 ((List.range 8).map (fun k => unsigned 8 (p.sensor (lo + k)).temp))
  [25 * p.cap, p.divisor, p.pace, p.ceiling, unsigned 64 p.avs.trim, p.avs.target, p.avs.readMv, p.avs.readMa, p.history.headD 0, average p.history,
   p.energy / 1000, pack [(8, unsigned 8 p.hottest.1), (4, p.hottest.2)], temps 0, temps 8, p.avs.temp, p.ticksDiv4, p.ticksDiv5, p.ticksDiv6, p.paceTicks,
   p.prochotTicks, p.prochotAssertions, p.throttleEpisodes, p.avsErrors]

/-- The words of one record as port `n` reads it; none where the scope of Table 14-9 gives no words (R537). -/
def State.groupWords (s : State) (n g k : Nat) : Option (List Nat) :=
  let mine := fun i => decide ((s.stream i).state ≠ .closed ∧ (s.stream i).part = n)
  let ours := fun b => decide ((s.branch b).state ≠ .absent ∧ (s.branch b).part = n)
  match g with
  | 0x01 => some (s.tileWords k)
  | 0x02 => some (s.flankWords k)
  | 0x03 => some (s.feederWords k)
  | 0x04 => some (s.linkWords k)
  | 0x05 => some (s.netWords k)
  | 0x06 => some (s.channel k).counters
  | 0x07 => some [(Table.get {} s.mem.stackRegs k : Stack).entry]
  | 0x08 => some (s.part n).pageWords
  | 0x09 => if s.ownsTdm n k then some (s.tdmWords k) else none
  | 0x0A => if s.ownsTdm n (k / 64) && decide (k % 32 < (s.tdm (k / 64)).cfg.count) then some (s.slotWords k) else none
  | 0x0B =>
    if k < 1024 then (if mine k then some [(s.stream k).lateFrames, (s.stream k).mismatched, 0] else none)
    else if ours (k - 1024) then some [0, 0, (s.branch (k - 1024)).outOverruns] else none
  | 0x0C => some (s.port n).linkCounters
  | 0x0D => some (s.port n).transport
  | 0x0E => if mine k then some (s.stream k).words else none
  | 0x0F => if ours k then some (s.branch k).words else none
  | 0x10 => some [(s.part n).zeroise, (s.part n).castOns, (s.part n).bindOffs, (s.part n).detaches]
  | 0x11 => if mine k then some (s.gaugeWords k) else none
  | 0x12 => some s.powerWords
  | _ => none

/-- A telemetry record: bytes and value (Table 14-10). -/
def State.groupRecord (s : State) (n g k : Nat) : Nat × Nat :=
  let ws := (s.groupWords n g k).getD []
  (16 + 8 * ws.length, pack [(8, g), (8, 0), (16, k), (16, ws.length), (16, 0), (64, s.dt)] + 2 ^ 128 * concatRecords 64 ws)

/-- Records one after another: bytes and value. -/
def joinRecords : List (Nat × Nat) → Nat × Nat
  | [] => (0, 0)
  | (len, v) :: rest =>
    let r := joinRecords rest
    (len + r.1, v + 2 ^ (8 * len) * r.2)

end Sys2Proof.Machine
end

