-- ==== Sys2Proof/Machine/Run.lean ====
section
/-!
DEFINITION. Machine/Run.lean: the effects of the stream and branch commands (chapter 14, R511 to R531), what their allocations and boundaries do, and
zeroisation (R88 to R92, R523).
-/
namespace Sys2Proof.Machine

/-! ## Input of a stream (Table 14-2, R514, R515) -/

/-- A gain code (Table 4-7, R515): 0 selects 2,048. -/
def gainOf (x : Nat) : Int := if x = 0 then 2048 else signed 16 x

/-- A notification count (R515): 0 selects 4. -/
def notifyOf (x : Nat) : Nat := if x = 0 then 4 else x

/-- What the input fields ask for. -/
structure InputSpec where
  source : Source
  gain : Int
  theta : Nat
  lmin : Nat
  hang : Nat
deriving DecidableEq, Repr

/-- The input fields of a payload, which begin at bit `o` (Table 14-2's bit 32). -/
def inputSpec (pl o : Nat) : InputSpec :=
  let dflt := flag pl (o + 10)
  { source :=
      if flag pl o then
        .ring { aperture := field pl (o + 64) 12, offset := field pl (o + 96) 32, log := field pl (o + 76) 4, rate := if flag pl (o + 80) then 48 else 16,
                vector := field pl (o + 81) 6, notify := notifyOf (field pl (o + 87) 7) }
      else .tdm (field pl (o + 1) 4) (field pl (o + 5) 5),
    gain := gainOf (field pl (o + 48) 16),
    theta := if dflt then 24 else field pl (o + 16) 8,
    lmin := if dflt then 160 else field pl (o + 24) 9,
    hang := if dflt then 8 else field pl (o + 33) 6 }

/-- Fields reserved while a condition holds (R726). -/
def resWhile (b : Bool) (pl : Nat) (fs : List (Nat × Nat)) : List (Bool × Answer) :=
  if b then fs.map (fun f => resZero pl f.1 f.2) else []

/-- R512 step 2 for the input fields. -/
def inputReserved (pl o : Nat) : List (Bool × Answer) :=
  resWhile (flag pl o) pl [(o + 1, 4), (o + 5, 5)] ++ [resZero pl (o + 11) 5, resZero pl (o + 39) 9] ++
    resWhile (!flag pl o) pl [(o + 64, 12), (o + 76, 4), (o + 80, 1), (o + 81, 6), (o + 87, 7)] ++ [resZero pl (o + 94) 2] ++
    resWhile (!flag pl o) pl [(o + 96, 32)]

/-- R514: a slot of a port the partition does not own, or beyond its format; DETAIL names PORT or SLOT. -/
def State.slotInvalid (s : State) (n port slot portBit slotBit : Nat) : List (Bool × Answer) :=
  [argFail (!s.ownsTdm n port) 0x020A portBit, argFail (decide ((s.tdm port).cfg.count ≤ slot)) 0x020A slotBit]

/-- R512 step 3 for the input fields (Table 10-6). -/
def State.inputRanges (s : State) (n pl o : Nat) : List (Bool × Answer) :=
  [rangeFail (!flag pl (o + 10) && decide (303 < field pl (o + 24) 9)) (o + 24)] ++
    (if flag pl o then
      [rangeFail (decide (field pl (o + 76) 4 < 3 ∨ 10 < field pl (o + 76) 4)) (o + 76), rangeFail (decide (64 < field pl (o + 87) 7)) (o + 87),
       alignFail (decide (field pl (o + 96) 32 % 64 ≠ 0)) (o + 96)]
     else s.slotInvalid n (field pl (o + 1) 4) (field pl (o + 5) 5) (o + 1) (o + 5))

/-- The bytes of a host audio ring (R382). -/
def HostRing.bytes (r : HostRing) : Nat := 64 + 2 ^ r.log * r.slotBytes

/-- R514: a ring lies in one aperture with READ and WRITE granted. -/
def State.ringAperture (s : State) (n : Nat) (r : Option HostRing) : ApertureCheck :=
  match r with
  | none => .ok
  | some r => (s.port n).checkAperture r.aperture r.offset r.bytes true true

/-- The ring of a source. -/
def Source.ringOf (x : Source) : Option HostRing :=
  match x with
  | .ring r => some r
  | _ => Option.none

/-- R514: an input slot that feeds a stream, is named by a switch that waits, or carries a sentinel. -/
def State.inTaken (s : State) (x : Source) : Bool :=
  match x with
  | .tdm p k =>
    (s.inSlot (slotKey p k)).stream.isSome || s.streams.any (fun e => e.2.state != .closed && e.2.nextSource == some (.tdm p k)) ||
      ((s.tdm p).cfg.sentInEn && (s.tdm p).cfg.sentIn == k)
  | _ => false

/-- With a ring's aperture in order the effect runs; else VIOLATION (R514, R436). -/
def State.withRing (s : State) (c : Call) (r : Option HostRing) (f : Unit → State × Reply) : State × Reply :=
  match s.ringAperture c.port r with
  | .ok => f ()
  | bad =>
    let v := s.apertureViolation c ((r.map (·.aperture)).getD 0) ((r.map (·.offset)).getD 0) true bad
    answered v.1 v.2

/-! ## Streams -/

/-- The lowest free stream slot (R52, Table 2-1). -/
def State.freeStream (s : State) : Option Nat := Table.firstWhere {} s.streams (fun x => x.state == .closed) 0 1024

/-- STREAM_CAST_ON (R514 to R516): the stream enters CAST_ON and takes its slot; `dt` is the DT of acceptance (R55). -/
def State.streamCastOn (s : State) (c : Call) (pl id dt : Nat) : State × Reply :=
  let n := c.port
  let q := inputSpec pl 32
  checked s (inputReserved pl 32 ++ [resZero pl 160 96] ++ s.inputRanges n pl 32) fun _ =>
    named s (s.pipeOf n (field pl 0 32)) fun p =>
      s.withRing c q.source.ringOf fun _ =>
        checked s
          [plainFail (s.inTaken q.source) 0x030A, plainFail (decide ((s.part n).streams ≤ s.openStreams n)) 0x0301, plainFail s.freeStream.isNone 0x0302]
          fun _ =>
            let i := s.freeStream.getD 0
            let x : Stream :=
              { state := .castOn, gen := bump 14 (s.stream i).gen 1, part := n, pipe := p, acceptDt := dt, cmd := id, anchor := frameBoundary dt,
                source := q.source, gain := q.gain, theta := q.theta, lmin := q.lmin, hangLen := q.hang }
            ((s.setStream i x).mapIn i q.source, .wait i)

/-- R410 for one stream: what HOST_LOSS value `v` does to it (0 CONTINUE, 1 PAUSE, 2 CLOSE). A stream in CAST_ON finishes its allocation first. -/
def State.applyLoss (s : State) (i v : Nat) : State :=
  let x := s.stream i
  match x.state with
  | .closed => s
  | .bindingOff => s
  | .castOn => s.updStream i (fun y => { y with lossAfter := some v })
  | .paused => if v = 2 then s.bindOff i false 8 else s
  | _ =>
    if v = 2 then s.bindOff i false 8
    else if v = 1 then s.updStream i (fun y => { y with pause := some (y.pause.getD .hostLoss) })
    else s

/-- A cast-on refused: the stream is CLOSED again, and no slot, generation or counter has changed (chapter 2, Collisions). A bind-off that waited names no
stream any more. -/
def State.castOnRefused (s : State) (i status : Nat) : State :=
  let x := s.stream i
  let t := (s.unmapIn i).setStream i { gen := bump 14 x.gen (2 ^ 14 - 1) }
  (t.complete x.part x.cmd (Answer.fail status)).completeKey x.part 0x0506 i (Answer.fail 0x0401)

/-- CAST_ON_ALLOCATION_DONE (R516, R55, R68, R728, Table 2-6). -/
def State.castOnDone (s : State) (i : Nat) : State :=
  let x := s.stream i
  if x.state ≠ .castOn then s
  else
    let p := s.pipe x.pipe
    if (s.part x.part).memBytes < s.memUsed x.part + s.streamBytes p (s.footprint p.encode) then s.castOnRefused i 0x0301
    else
      let enc := match s.stagePackage x.pipe .encode with
        | some k => if p.encode.present then initialSect k (2 ^ 32 - 1) else {}
        | none => {}
      let t := (s.updStream i (fun y => { y with enc := enc })).updPart x.part (fun q => { q with castOns := bump 64 q.castOns 1 })
      let u := match t.giveSlots (t.sectsOf i) with
        | some v => v.updStream i (fun y => { y with state := .resident })
        | none => t.updStream i (fun y => { y with state := .castled })
      let w := u.complete x.part x.cmd { handle := streamHandle i x.gen, result := x.anchor }
      let z := match x.lossAfter with
        | some v => (w.updStream i (fun y => { y with lossAfter := none })).applyLoss i v
        | none => w
      match x.deferBind with
      | some d => if (z.stream i).state == .bindingOff then z else z.bindOff i d 0
      | none => z

/-- States in which a stream is fed, rewired and paused. -/
def StreamState.runs (x : StreamState) : Bool := x == .resident || x == .castled || x == .frogging

/-- STREAM_FEED (R518, R383, R384): FRAMES is cumulative; a hand-over after the close counts in LATE_FRAMES. -/
def State.streamFeed (s : State) (c : Call) (pl : Nat) : State × Reply :=
  let n := c.port
  let total := field pl 0 64
  named s (s.streamOf n c.handle) fun i =>
    let x := s.stream i
    if !(x.state.runs || x.state == .paused) then answered s (Answer.fail 0x0408)
    else match x.source with
      | .ring r =>
        if total = x.handed then answered s { result := r.consumed }
        else if total < x.handed ∨ r.consumed + 2 ^ r.log < total then answered s { status := 0x0202, detail := payloadOffset 0, result := r.consumed }
        else
          let q := r.notified (total - x.handed)
          let t := s.updStream i (fun y =>
            { y with handed := total, source := .ring q.1, lateFrames := bump 32 y.lateFrames (min total x.frames - x.handed) })
          answered (t.signalTimes n r.vector q.2) { result := r.consumed }
      | _ => answered s (Answer.fail 0x0409)

/-- STREAM_PAUSE (R519, R67, R69): it takes effect at the next chunk close. -/
def State.streamPause (s : State) (c : Call) : State × Reply :=
  named s (s.streamOf c.port c.handle) fun i =>
    if (s.stream i).state.runs then (s.updStream i (fun y => { y with pause := some .command }), .wait i)
    else answered s (Answer.fail 0x0408)

/-- STREAM_RESUME (R520, R71). -/
def State.streamResume (s : State) (c : Call) : State × Reply :=
  named s (s.streamOf c.port c.handle) fun i =>
    if (s.stream i).state == .paused then (s, .wait i) else answered s (Answer.fail 0x0408)

/-- R71, R55: once every section of a paused stream has given its slot up (R69), the stream re-anchors at the frame boundary at or after the command's
acceptance and enters CASTLED; the chunks closed before the pause keep their grid, and those that still wait queue the stream (R69, R70). -/
def State.finishResume (s : State) (n : Nat) (e : Accepted) : State :=
  let i := e.key
  let x := s.stream i
  if x.state ≠ .paused then s.complete n e.id (Answer.fail 0x0408)
  else if x.loading || (s.sectsOf i).any (fun k => (s.sect k.1 k.2).tile.isSome || (s.sect k.1 k.2).commit.isSome || (s.sect k.1 k.2).lost) then s
  else
    let a := frameBoundary e.dt
    let t := s.updStream i (fun y =>
      { y with state := .castled, before := some (y.anchor, y.n0), anchor := a, n0 := y.row, pausedRow := none, clockStopped := false, castIn := none,
               ingress := { y.ingress with raw := [], frames := [] } })
    (t.queueWaiting i).complete n e.id { result := a }

/-- STREAM_REWIND (R521): every section of the stream and its branches frogs. -/
def State.streamRewind (s : State) (c : Call) : State × Reply :=
  named s (s.streamOf c.port c.handle) fun i =>
    match (s.stream i).state with
    | .resident => (s.frog i (s.sectsOf i) 0 true, .wait i)
    | .castled => (s.frog i (s.sectsOf i) 0 true, .wait i)
    | _ => answered s (Answer.fail 0x0408)

/-- STREAM_BIND_OFF (R522, R67, R87): it completes after the ZEROISED event. -/
def State.streamBindOff (s : State) (c : Call) (pl : Nat) : State × Reply :=
  checked s [resZero pl 1 31] fun _ =>
    named s (s.streamOf c.port c.handle) fun i =>
      match (s.stream i).state with
      | .castOn => (s.updStream i (fun y => { y with deferBind := some (flag pl 0) }), .wait i)
      | .bindingOff => answered s (Answer.fail 0x0408)
      | _ => (s.bindOff i (flag pl 0) 0, .wait i)

/-- STREAM_INPUT_SET (R524): checked as at cast-on, and scheduled for the next 10 ms boundary; `dt` is the DT of acceptance. -/
def State.streamInputSet (s : State) (c : Call) (pl dt : Nat) : State × Reply :=
  let q := inputSpec pl 0
  checked s (inputReserved pl 0 ++ s.inputRanges c.port pl 0) fun _ =>
    named s (s.streamOf c.port c.handle) fun i =>
      s.withRing c q.source.ringOf fun _ =>
        checked s [plainFail (!((s.stream i).state.runs || (s.stream i).state == .paused)) 0x0408, plainFail (s.inTaken q.source) 0x030A] fun _ =>
          (s.updStream i (fun y =>
            { y with nextSource := some q.source, nextGain := q.gain, nextTheta := q.theta, nextLmin := q.lmin, nextHang := q.hang,
                     switchDt := effectBoundary dt s.dt }), .wait i)

/-- STREAM_QUERY (R525). -/
def State.streamQuery (s : State) (c : Call) (pl : Nat) : State × Reply :=
  checked s (bufferChecks c pl) fun _ =>
    named s (s.streamOf c.port c.handle) fun i => s.respond c pl 128 (s.streamRecord i) none

/-- STREAM_LIST's entry of one stream (R525). -/
def State.streamEntry (s : State) (i : Nat) : Nat :=
  pack [(32, streamHandle i (s.stream i).gen), (8, (s.stream i).state.code), (8, (s.branchesOf i).length), (16, 0)]

/-- STREAM_LIST (R525). -/
def State.streamList (s : State) (c : Call) (pl : Nat) : State × Reply :=
  let is := (s.streams.filter (fun e => e.2.part == c.port && e.2.state != .closed)).map (·.1)
  checked s (bufferChecks c pl) fun _ =>
    s.respond c pl (4 + 8 * is.length) (is.length + 2 ^ 32 * concatRecords 64 (is.map s.streamEntry)) none

/-! ## Branches -/

/-- What an output block asks for (Table 14-3, bytes 8 to 27). -/
structure OutputSpec where
  block : Nat
  gain : Int
  outs : List (Nat × Nat)
  ring : Option HostRing
deriving DecidableEq, Repr

/-- The rates of an output ring in kHz (Table 14-3); 0 is TOKENS. -/
def outRate (code : Nat) : Nat := if code = 0 then 16 else if code = 1 then 24 else if code = 2 then 48 else 0

/-- Bit of OUTn within a payload whose output block begins at bit `o`. -/
def outBit (o n : Nat) : Nat := o + 32 + 10 * n

/-- The output block at bit `o` of a payload. -/
def outputSpec (pl o : Nat) : OutputSpec :=
  { block := field pl o 160,
    gain := gainOf (field pl o 16),
    outs := ((List.range 4).filter (fun n => flag pl (outBit o n))).map (fun n => (field pl (outBit o n + 1) 4, field pl (outBit o n + 5) 5)),
    ring :=
      if flag pl (o + 96) then
        some { aperture := field pl (o + 116) 12, offset := field pl (o + 128) 32, log := field pl (o + 99) 4, rate := outRate (field pl (o + 97) 2),
               vector := field pl (o + 103) 6, notify := notifyOf (field pl (o + 109) 7) }
      else none }

/-- R512 step 2 for an output block (R726). -/
def outputReserved (pl o : Nat) : List (Bool × Answer) :=
  resZero pl (o + 16) 16 ::
    (List.range 4).map (fun n => resValue (!flag pl (outBit o n) && decide (field pl (outBit o n + 1) 9 ≠ 0)) (outBit o n)) ++
    [resZero pl (o + 72) 24] ++
    resWhile (!flag pl (o + 96)) pl [(o + 97, 2), (o + 99, 4), (o + 103, 6), (o + 109, 7), (o + 116, 12), (o + 128, 32)]

/-- R512 step 3 for an output block. -/
def State.outputRanges (s : State) (n pl o : Nat) : List (Bool × Answer) :=
  (if flag pl (o + 96) then
    [rangeFail (decide (field pl (o + 99) 4 < 3 ∨ 10 < field pl (o + 99) 4)) (o + 99), rangeFail (decide (64 < field pl (o + 109) 7)) (o + 109),
     alignFail (decide (field pl (o + 128) 32 % 64 ≠ 0)) (o + 128)]
   else []) ++
  ((List.range 4).filter (fun k => flag pl (outBit o k))).flatMap (fun k =>
    s.slotInvalid n (field pl (outBit o k + 1) 4) (field pl (outBit o k + 5) 5) (outBit o k) (outBit o k))

/-- R526: output slots and a ring that carries audio need a speak stage. -/
def outputShape (p : Pipeline) (pl o : Nat) : List (Bool × Answer) :=
  (List.range 4).map (fun k => argFail (!p.speak.present && flag pl (outBit o k)) 0x0204 (outBit o k)) ++
    [argFail (!p.speak.present && flag pl (o + 96) && decide (field pl (o + 97) 2 ≠ 3)) 0x0204 (o + 97)]

/-- R526, R514: an output slot that carries another branch, is named by another branch's change that waits, or carries a sentinel. -/
def State.outTaken (s : State) (b : Option Nat) (o : Nat × Nat) : Bool :=
  let other := (s.outSlot (slotKey o.1 o.2)).branch
  (other.isSome && other != b) ||
    s.branches.any (fun e => some e.1 != b && e.2.state != .absent && ((e.2.nextOut.map (fun x => x.2.1.contains o)).getD false)) ||
    ((s.tdm o.1).cfg.sentOutEn && (s.tdm o.1).cfg.sentOut == o.2)

/-- Whether a list names something twice. -/
def hasTwice (xs : List (Nat × Nat)) : Bool := xs.eraseDups.length != xs.length

/-- The lowest free branch slot (R52, Table 2-1). -/
def State.freeBranch (s : State) : Option Nat := Table.firstWhere {} s.branches (fun x => x.state == .absent) 0 2048

/-- R526: LANGUAGE as the translate package declares, VOICE as the speak package does, or translate's where there is no speak stage. -/
def State.spoken (s : State) (pipe pl : Nat) : List (Bool × Answer) :=
  let p := s.pipe pipe
  let declared := fun (st : Stage) (f : Package → List Nat) (v : Nat) => ((s.stagePackage pipe st).map (fun k => (f k).contains v)).getD false
  if p.translate.present then
    [rangeFail (!declared .translate (·.languages) (field pl 0 16)) 0,
     rangeFail (!declared (if p.speak.present then .speak else .translate) (·.voices) (field pl 16 16)) 16]
  else []

/-- Policy codes (Table 14-3). -/
def policyOf (x : Nat) : Policy := if x = 0 then .skip else if x = 1 then .hold else .stop

/-- BRANCH_ATTACH (R526, R527): the branch enters ATTACHING and takes its slots. -/
def State.branchAttach (s : State) (c : Call) (pl id : Nat) : State × Reply :=
  let n := c.port
  let q := outputSpec pl 64
  checked s ([resValue (decide (field pl 32 2 = 3)) 32, resZero pl 34 30] ++ outputReserved pl 64 ++ s.outputRanges n pl 64) fun _ =>
    named s (s.streamOf n c.handle) fun i =>
      let x := s.stream i
      let p := s.pipe x.pipe
      checked s (s.spoken x.pipe pl ++ outputShape p pl 64) fun _ =>
        s.withRing c q.ring fun _ =>
          checked s
            [plainFail (!x.state.runs) 0x0408, plainFail (hasTwice q.outs || q.outs.any (s.outTaken none)) 0x030A,
             plainFail (!p.translate.present || decide (p.fanout ≤ (s.branchesOf i).length)) 0x030B,
             plainFail (decide ((s.part n).branches ≤ s.openBranches n)) 0x0301, plainFail s.freeBranch.isNone 0x0302]
            fun _ =>
              let b := s.freeBranch.getD 0
              let y : Branch :=
                { state := .attaching, gen := bump 13 (s.branch b).gen 1, part := n, stream := i, acceptDt := s.dt, cmd := id, language := field pl 0 16,
                  voice := field pl 16 16, policy := policyOf (field pl 32 2), orphans := (s.branch b).orphans }
              ((s.setBranch b y).setOutputs b q.block q.outs q.ring q.gain, .wait b)

/-- Whether a view has, or is still owed, the entry at `index` of sequence `idx`. -/
def State.viewHas (s : State) (b idx index : Nat) : Bool :=
  (((s.seq (.view b) idx).map (fun q => q.entries.any (fun e => e.index == index))).getD false) ||
    s.pages.wants.any (fun w => w.owner == .view b && w.idx == idx && w.entry.index == index) ||
    s.pages.copies.any (fun c => c.owner == .view b && c.idx == idx && c.index == index)

/-- R203: a branch that attaches receives an entry, and a reference, for every sealed encoder page of its stream within the horizon that is not TRIM_PENDING and that it
has not been given as that page was sealed; a page at its reference limit is copied for it (R204). -/
def State.giveViews (s : State) (b : Nat) : State :=
  let i := (s.branch b).stream
  let part := (s.branch b).part
  (s.pages.seqs.filter (fun q => q.owner == .encoder i)).foldl
    (fun (t : State) q =>
      let h := effectiveHorizon (s.attention q.owner q.idx)
      let seen := q.entries.filter (fun e => e.sealed && (s.page e.ppn).state != .trimPending && !decide (e.index + h < q.tailIndex) && !s.viewHas b q.idx e.index)
      seen.foldl (fun (u : State) e => u.wantStep { owner := .view b, idx := q.idx, part := part, entry := e }) t)
    s

/-- R205: every decoder sequence of a new branch starts with entries naming the pipeline's prefix pages; a page at its reference limit is copied for it (R204). -/
def State.giveContext (s : State) (b : Nat) : State :=
  let pipe := (s.stream (s.branch b).stream).pipe
  let part := (s.branch b).part
  (s.pages.seqs.filter (fun q => q.owner == .context pipe)).foldl
    (fun (t : State) q =>
      q.entries.foldl (fun (v : State) e => v.wantStep { owner := .decoder b, idx := q.idx, part := part, entry := e })
        (t.setSeq { q with owner := .decoder b, part := part, base := q.positions, entries := [] }))
    s

/-- A refused attach: the branch is ABSENT again; its slots, its entries and what it held are given back. -/
def State.attachRefused (s : State) (b status : Nat) : State :=
  let x := s.branch b
  let t := ((((s.dropCopies (fun o => o == .view b || o == .decoder b)).1.dropOwner (.view b) true).dropOwner (.decoder b) true).abandonOps
    (fun o => match o.kind with
      | .castIn c obj => c != 0 && obj == b
      | _ => false))
  ((t.unmapBranch b).setBranch b { gen := bump 13 x.gen (2 ^ 13 - 1), orphans := x.orphans }).complete x.part x.cmd (Answer.fail status)

/-- R728, R76: a section of a branch that becomes ACTIVE begins with chunk `first`. -/
def Sect.beginAt (x : Sect) (first : Nat) : Sect :=
  { x with row := bump 32 first (2 ^ 32 - 1), slotRow := bump 32 first (2 ^ 32 - 1), next := first, delivered := first }

/-- R527, R728, R203, R205: what an attach allocates: the lifeline sections as written, and the page-table entries of its views and its prefix. -/
def State.allocateBranch (s : State) (b : Nat) : State :=
  let pipe := (s.stream (s.branch b).stream).pipe
  let fresh : Stage → Sect := fun st => match s.stagePackage pipe st with
    | some k => if ((s.pipe pipe).stage st).present then initialSect k 0 else {}
    | none => {}
  ((s.updBranch b (fun y => { y with translate := fresh .translate, speak := fresh .speak })).giveViews b).giveContext b

/-- Slots for an attaching branch's sections (R172, R181, R183): true once it may become ACTIVE. Where streams that commit will leave room, it waits for them; where nothing
leaves room, its stream castles out, with the cause QUOTA, since Table 14-13 names none for it (DESIGN CHOICE, log 108). -/
def State.attachSlots (s : State) (b : Nat) : Bool × State :=
  let i := (s.branch b).stream
  let need := (s.sectsOf i).filter (fun k => k.1 != .encode && k.2 == b)
  match (s.stream i).state, (s.stream i).castingOut with
  | .resident, none =>
    let room := s.makeRoom i need
    (match room.giveSlots need with
     | some u => (true, u)
     | none => if (room.afterCastOuts.giveSlots need).isSome then (false, room) else (true, room.castOut i 2))
  | .frogging, _ => (match s.giveSlots need with
    | some u => (true, u)
    | none => (true, s.updStream i (fun y => { y with frog := y.frog.map (fun (f : Frog) => { f with restored := false }) })))
  | _, _ => (true, s)

/-- Table 2-7, R76: the branch becomes ACTIVE, and its attach completes with the row counter of its first chunk. -/
def State.activate (s : State) (b : Nat) : State :=
  let x := s.branch b
  let first := s.firstRowNow x.stream
  let t := s.updBranch b (fun y =>
    { y with state := .active, translate := y.translate.beginAt first, speak := y.speak.beginAt first, firstRow := first, tokRow := first, order := s.attachSeq })
  ({ t with attachSeq := t.attachSeq + 1 } : State).complete x.part x.cmd { handle := branchHandle b x.gen, result := first }

/-- ATTACH_ALLOCATION_DONE (R527, R728, R76, Table 2-7): what the attach needs is allocated; the branch stays ATTACHING, and the row comes again, while a page copy (R204) or
room in a state store is outstanding. -/
def State.attachDone (s : State) (b : Nat) : State :=
  let x := s.branch b
  let p := s.pipe (s.stream x.stream).pipe
  if x.state ≠ .attaching then s
  else if !x.translate.valid && decide ((s.part x.part).memBytes < s.memUsed x.part + s.branchBytes p (s.footprint p.translate) (s.footprint p.speak)) then
    s.attachRefused b 0x0301
  else
    let t := if x.translate.valid then s else s.allocateBranch b
    if t.wanting (.view b) none || t.wanting (.decoder b) none then t
    else
      let r := t.attachSlots b
      if r.1 then r.2.activate b else r.2

/-- BRANCH_DETACH (R529, R91). -/
def State.branchDetach (s : State) (c : Call) : State × Reply :=
  named s (s.branchOf c.port c.handle) fun b =>
    let x := s.branch b
    if x.state == .active || x.state == .stopped then
      ((s.detach b 0 false).updPart x.part (fun q => { q with detaches := bump 64 q.detaches 1 }), .wait b)
    else answered s (Answer.fail 0x0408)

/-- A section that goes on at chunk `first` after a stop: its state stays; ROW moves with it once the lifeline holds what the slot holds (R77). -/
def State.resumeSect (s : State) (st : Stage) (b first : Nat) : State :=
  let y := s.sect st b
  if !y.valid then s
  else
    let t := s.setSect st b { y with next := first, delivered := first, slotRow := bump 32 first (2 ^ 32 - 1), again := [], past := [] }
    if y.clean || y.tile.isNone then t.updSect st b (fun z => { z with row := bump 32 first (2 ^ 32 - 1) }) else t.startCommit st b .interval

/-- BRANCH_RESUME (R529, R77, R76). -/
def State.branchResume (s : State) (c : Call) : State × Reply :=
  named s (s.branchOf c.port c.handle) fun b =>
    let x := s.branch b
    if x.state != .stopped then answered s (Answer.fail 0x0408)
    else
      let first := s.firstRowNow x.stream
      let t := s.updBranch b (fun y => { y with state := .active, firstRow := first, hold := 0, tokRow := first, stopRow := none, skipped := [], skipStage := [] })
      answered ((t.resumeSect .translate b first).resumeSect .speak b first) { result := first }

/-- BRANCH_OUTPUT_SET (R530): checked as at attach, and scheduled for the next 10 ms boundary; `dt` is the DT of acceptance. -/
def State.branchOutputSet (s : State) (c : Call) (pl dt : Nat) : State × Reply :=
  let q := outputSpec pl 0
  checked s (outputReserved pl 0 ++ s.outputRanges c.port pl 0) fun _ =>
    named s (s.branchOf c.port c.handle) fun b =>
      let x := s.branch b
      checked s (outputShape (s.pipeOfStream x.stream) pl 0) fun _ =>
        s.withRing c q.ring fun _ =>
          checked s
            [plainFail (!(x.state == .active || x.state == .stopped)) 0x0408,
             plainFail (hasTwice q.outs || q.outs.any (s.outTaken (some b))) 0x030A]
            fun _ => (s.updBranch b (fun y => { y with nextOut := some (q.block, q.outs, q.ring), nextGain := q.gain, switchDt := effectBoundary dt s.dt }), .wait b)

/-- BRANCH_QUERY (R531). -/
def State.branchQuery (s : State) (c : Call) (pl : Nat) : State × Reply :=
  checked s (bufferChecks c pl) fun _ =>
    named s (s.branchOf c.port c.handle) fun b => s.respond c pl 64 (s.branchRecord b) none

/-! ## Zeroisation (R88 to R92, R523) -/

/-- Whether a section belongs to what a zeroisation clears: the branch's, or the stream's and its branches'. -/
def State.sectWithin (s : State) (ofBranch : Bool) (slot : Nat) (st : Stage) (obj : Nat) : Bool :=
  if ofBranch then st != .encode && obj == slot else s.objStream st obj == slot

/-- Whether an owner of page tables belongs to what a zeroisation clears. -/
def State.ownerWithin (s : State) (ofBranch : Bool) (slot : Nat) : SeqOwner → Bool
  | .encoder i => !ofBranch && i == slot
  | .view b => if ofBranch then b == slot else (s.branch b).stream == slot && (s.branch b).state != .absent
  | .decoder b => if ofBranch then b == slot else (s.branch b).stream == slot && (s.branch b).state != .absent
  | .context _ => false

/-- Whether a chunk of a stream or branch still runs, or a tag of its transfers is outstanding (R89). -/
def State.stillTagged (s : State) (ofBranch : Bool) (slot : Nat) : Bool :=
  let mine := s.sectWithin ofBranch slot
  (List.range 3).any (fun f => match (s.flank f).run with
    | some r => r.items.any (fun it => mine it.stage it.obj)
    | none => false) ||
  s.ops.any (fun o => s.opBusy o.id && (match o.kind with
    | .commit c obj => mine (codeStage c) obj
    | .castIn c obj => mine (codeStage c) obj
    | .copy ppn => s.pages.copies.any (fun c => c.newPpn == ppn && s.ownerWithin ofBranch slot c.owner)
    | _ => o.works.any (fun w => mine (codeStage w.1) w.2)))

/-- R523: what branch `b` plays has played on every output: on a slot that lags, once its lag has passed too; on a ring, once the frame that holds the last of it,
or the frames of chunk `last`'s tokens, have had their turn. -/
def State.playedOut (s : State) (b last : Nat) : Bool :=
  let z := s.branch b
  z.egRing.isEmpty && decide (z.playEnd ≤ s.dt) && s.audio.outputs.all (fun e => e.2.branch != some b || decide (z.playEnd + e.2.lag ≤ s.dt)) &&
    (match z.ring with
     | none => true
     | some r => !z.runs || (if r.rate = 0 then later32 z.tokRow last else decide (z.playEnd ≤ z.ringNext)))

/-- R87, R523: the drained chunks of a stream have run, and what they play has played on every output. -/
def State.drainedOut (s : State) (i : Nat) : Bool :=
  let x := s.stream i
  let past := fun (y : Sect) => !y.valid || later32 y.next x.lastDrain
  !x.drain || (past x.enc && (s.branchesOf i).all (fun b =>
    let z := s.branch b
    (!z.runs || (past z.translate && past z.speak)) && s.playedOut b x.lastDrain))

/-- A branch's own state zeroised: sections, rings, gauges, its tables and the pages no one else names (R88, R91). The pages that become free. -/
def State.wipeBranch (s : State) (b : Nat) : State × List Nat :=
  let mine := (s.pages.seqs.filter (fun q => q.owner == .view b || q.owner == .decoder b)).flatMap (fun q => q.entries.map (·.ppn))
  let c := s.dropCopies (fun o => o == .view b || o == .decoder b)
  let t := (c.1.dropOwner (.view b) true).dropOwner (.decoder b) true
  let u := t.updBranch b (fun y =>
    { y with translate := {}, speak := {}, spRing := [], egRing := [], sched := [], chunkTokens := [], dropped := [], skipped := [], skipStage := [] })
  (u, ((mine ++ c.2).eraseDups).filter (fun p => (u.page p).refs == 0))

/-- The bytes of the partition window a zeroisation clears: a branch's, or a stream's with those of branches `bs`. -/
def State.zeroBytes (s : State) (ofBranch : Bool) (slot : Nat) (bs : List Nat) : Nat :=
  let p := s.pipeOfStream (if ofBranch then (s.branch slot).stream else slot)
  let one := s.branchBytes p (s.footprint p.translate) (s.footprint p.speak)
  if ofBranch then one else s.streamBytes p (s.footprint p.encode) + bs.length * one

/-- R89: the zeroisation writes are issued as foreground requests, with the deadline 12,288,000 ticks after DT `accepted` of acceptance; what was still to be moved for the
cleared sections is not moved any more. -/
def State.beginZeroise (s : State) (ofBranch : Bool) (slot part accepted : Nat) (bs : List Nat) : State :=
  let t := s.abandonOps (fun o => match o.kind with
    | .commit c obj => s.sectWithin ofBranch slot (codeStage c) obj
    | .castIn c obj => s.sectWithin ofBranch slot (codeStage c) obj
    | .copy ppn => s.pages.copies.any (fun c => c.newPpn == ppn && s.ownerWithin ofBranch slot c.owner)
    | _ => false)
  let n := s.zeroBytes ofBranch slot bs
  t.newOpDue (.zeroise ofBranch slot) part (accepted + 12288000) (if n = 0 then [] else [{ kind := 6, bytes := n }])

/-- ZEROISATION_START (R88, R89): with every tag that targets the range returned, the zeroisation writes are issued: the slots, lifelines, gauges, rings and
tables hold zeros, the pages that no one names go to the sweeper. -/
def State.zeroisationStart (s : State) (ofBranch : Bool) (slot : Nat) : State :=
  if s.stillTagged ofBranch slot then s
  else if ofBranch then
    let x := s.branch slot
    match x.state, x.zero with
    | .detaching, some z =>
      if z.started then s
      else
        let w := (s.beginZeroise true slot x.part z.acceptDt []).wipeBranch slot
        w.1.updBranch slot (fun y => { y with zero := some { z with started := true, pages := w.2 } })
    | _, _ => s
  else
    let x := s.stream slot
    match x.state, x.zero with
    | .bindingOff, some z =>
      if z.started || !s.drainedOut slot then s
      else
        let own := (s.pages.seqs.filter (fun q => q.owner == .encoder slot)).flatMap (fun q => q.entries.map (·.ppn))
        let bs := (s.branchesOf slot).filter (fun b => !(((s.branch b).zero.map (·.started)).getD false))
        let s1 := s.beginZeroise false slot x.part z.acceptDt bs
        let c := s1.dropCopies (fun o => o == .encoder slot)
        let staged := c.1.stagedPages slot
        let t := (c.1.dropStaged slot true).dropOwner (.encoder slot) true
        let u := bs.foldl (fun (a : State × List Nat) b =>
          let w := a.1.wipeBranch b
          (w.1.updBranch b (fun y => { y with zero := y.zero.map (fun (q : Zeroise) => { q with started := true }) }), a.2 ++ w.2)) (t, [])
        let free := ((own ++ staged ++ c.2).eraseDups.filter (fun p => (u.1.page p).refs == 0)) ++ u.2
        u.1.updStream slot (fun y =>
          { y with enc := {}, encRing := [], trRing := [], encFallen := [], ingress := {}, fetched := [], arriving := [], zero := some { z with started := true, pages := z.pages ++ free } })
    | _, _ => s

/-- Whether the pages a zeroisation frees have been swept. -/
def State.pagesSwept (s : State) (ppns : List Nat) : Bool :=
  ppns.all (fun p => let r := s.page p
                     !r.freeing && !r.sweeping && (r.state == .freeSwept || decide (0 < r.refs)))

/-- The operation of a zeroisation that has no transfer left ends. -/
def State.endZeroise (s : State) (ofBranch : Bool) (slot : Nat) : State := s.endOps (fun o => o.kind == OpKind.zeroise ofBranch slot && !o.aborted)

/-- A zeroisation's transfers are over. -/
def State.zeroiseIdle (s : State) (ofBranch : Bool) (slot : Nat) : Bool :=
  !(s.kindBusy (fun k => k == OpKind.zeroise ofBranch slot))

/-- R86: the flag falls a branch that leaves has still to report, with those of branches its slot held before. -/
def Branch.left (x : Branch) : List Orphan :=
  x.orphans ++ (match x.report with
    | some r => if r.count = 0 then [] else [{ gen := x.gen, part := x.part, report := r }]
    | none => [])

/-- A branch leaves DETACHING: a detach command completes; a bind-off of its stream posts the transition (R91, R551). -/
def State.branchGone (s : State) (b : Nat) : State :=
  let x := s.branch b
  let own := (x.zero.map (·.commanded)).getD false
  let t := (s.unmapBranch b).setBranch b { gen := x.gen, orphans := x.left }
  let u := if own then t else t.post x.part 0x8006 (branchHandle b x.gen) (pack [(3, BranchState.detaching.code), (1, 0), (3, 0), (1, 0), (4, 3), (20, 0), (32, s.eventRow x.stream)])
  u.completeKey x.part 0x0512 b {}

/-- BRANCH_ZEROISED (R91). A branch of a stream in BINDING_OFF leaves with the stream (R90). -/
def State.branchZeroised (s : State) (b : Nat) : State :=
  let x := s.branch b
  match x.state, x.zero with
  | .detaching, some z =>
    if !z.started || !s.pagesSwept z.pages || !s.zeroiseIdle true b then s
    else if (s.stream x.stream).state == .bindingOff then
      (s.endZeroise true b).updBranch b (fun y => { y with zero := some { z with done := true } })
    else (s.endZeroise true b).branchGone b
  | _, _ => s

/-- ZEROISATION_DONE (R90): the counter, the ZEROISED event, then the stream and its branches leave; the bind-off command completes. -/
def State.zeroisationDone (s : State) (i : Nat) : State :=
  let x := s.stream i
  match x.state, x.zero with
  | .bindingOff, some z =>
    let ready := (s.branchesOf i).all (fun b =>
      let q := (s.branch b).zero
      ((q.map (·.started)).getD false) && s.zeroiseIdle true b && s.pagesSwept ((q.map (·.pages)).getD []))
    if !z.started || !ready || !s.pagesSwept z.pages || !s.zeroiseIdle false i then s
    else
      let n := bump 64 (s.part x.part).zeroise 1
      let t := ((s.endZeroise false i).updPart x.part (fun q => { q with zeroise := n })).post x.part 0x8009 (streamHandle i x.gen) n
      let u := (t.branchesOf i).foldl (fun (v : State) b => (v.endZeroise true b).branchGone b) t
      let w := if z.commanded then u else u.postStream i .bindingOff .closed 11
      (((w.unmapIn i).setStream i { gen := x.gen }).completeKey x.part 0x0506 i { result := n }).dispatchAll
  | _, _ => s

end Sys2Proof.Machine
end

