-- ==== Sys2Proof/Machine/Ports.lean ====
section
/-!
DEFINITION. Machine/Ports.lean: the effects of the transport commands (chapter 12) and of the audio port, telemetry, diagnostic, firmware and device
commands (chapter 14, R532 to R549).
-/
namespace Sys2Proof.Machine

/-! ## Transport commands (R445, R453, R460, R466, Table 12-7) -/

/-- The bytes of host address space a live ring of the port takes: its base and size. -/
def HostPort.span (p : HostPort) (aperture offset bytes : Nat) : Nat × Nat :=
  (((Table.get none p.apertures aperture).map (fun (a : Aperture) => a.base)).getD 0 + offset, bytes)

/-- Whether two ranges share a byte. -/
def overlaps (a b : Nat × Nat) : Bool := decide (a.1 < b.1 + b.2 ∧ b.1 < a.1 + a.2)

/-- The ranges of the port's live rings. -/
def HostPort.ringSpans (p : HostPort) : List (Nat × Nat) :=
  (p.pairs.filter (fun r => r.2.live)).flatMap (fun r =>
    [p.span r.2.sqAperture r.2.sqOffset (64 * 2 ^ r.2.sqLog), p.span r.2.cqAperture r.2.cqOffset (32 * 2 ^ r.2.cqLog)]) ++
    (if p.events.live then [p.span p.events.aperture p.events.offset (32 * p.events.size)] else [])

/-- An aperture range a transport command names, or VIOLATION (R445). -/
def State.withRange (s : State) (c : Call) (ap off bytes : Nat) (write : Bool) (f : Unit → State × Reply) : State × Reply :=
  match (s.port c.port).checkAperture ap off bytes (!write) write with
  | .ok => f ()
  | bad =>
    let v := s.apertureViolation c ap off write bad
    answered v.1 v.2

/-- RING_PAIR_CREATE (R445). The order of its checks after the ranges, and the status of an overlap, are the model's (DEDUCED, logs 19 and 28). -/
def State.ringPairCreate (s : State) (c : Call) (pl : Nat) : State × Reply :=
  let k := field pl 0 5
  let sqLog := field pl 8 8
  let cqLog := field pl 16 8
  let sqAp := field pl 32 12
  let cqAp := field pl 48 12
  let sqOff := field pl 64 32
  let cqOff := field pl 96 32
  checked s
    [resZero pl 5 3, resZero pl 30 2, resZero pl 44 4, resZero pl 60 4, rangeFail (decide (sqLog < 4 ∨ 12 < sqLog)) 8,
     rangeFail (decide (cqLog < 4 ∨ 12 < cqLog)) 16]
    fun _ => s.withRange c sqAp sqOff (64 * 2 ^ sqLog) false fun _ => s.withRange c cqAp cqOff (32 * 2 ^ cqLog) true fun _ =>
      let p := s.port c.port
      let a := p.span sqAp sqOff (64 * 2 ^ sqLog)
      let b := p.span cqAp cqOff (32 * 2 ^ cqLog)
      checked s
        [alignFail (decide (sqOff % 256 ≠ 0)) 64, alignFail (decide (cqOff % 256 ≠ 0)) 96, plainFail (p.pair k).live 0x0480,
         rangeFail (overlaps a b || p.ringSpans.any (fun x => overlaps a x || overlaps b x)) 64]
        fun _ =>
          succeeded (s.updPort c.port (fun q => q.setPair k
            { live := true, sqLog := sqLog, cqLog := cqLog, vector := field pl 24 6, sqAperture := sqAp, sqOffset := sqOff, cqAperture := cqAp,
              cqOffset := cqOff, capAtLoss := 2 ^ cqLog - 1 }))

/-- Entry reads of pair `k` still outstanding are of no use any more. -/
def HostPort.dropReads (p : HostPort) (k : Nat) : HostPort :=
  { p with requests := p.requests.map (fun r => match r.purpose with
      | .entries j _ _ _ => if j = k then { r with purpose := .discard } else r
      | _ => r) }

/-- RING_PAIR_DELETE (R453): reading stops and unread entries are discarded; the pair goes once its accepted commands have completed. -/
def State.ringPairDelete (s : State) (c : Call) (pl : Nat) : State × Reply :=
  let k := field pl 0 5
  checked s [resZero pl 5 27, plainFail (!((s.port c.port).pair k).live) 0x0481] fun _ =>
    (s.updPort c.port (fun p => (p.dropReads k).setPair k { p.pair k with deleting := true, sqHead := (p.pair k).sqTail, reading := 0, got := [], failed := [] }),
      .wait k)

/-- R453: a deletion completes once no accepted command of the pair is left and every completion is written. -/
def State.finishPair (s : State) (n : Nat) (e : Accepted) : State :=
  let p := s.port n
  if p.accepted.any (fun x => x.call.chan == .pair e.key && !x.discarded) || decide (0 < p.completionsHeld e.key) then s
  else (s.updPort n (fun q => q.setPair e.key {})).complete n e.id {}

/-- The events of a list delivered one after another; how many were written or held (R461). -/
def HostPort.deliverHeld (dt : Nat) : List Event → HostPort × Nat → HostPort × Nat
  | [], a => a
  | e :: es, a =>
    let q := a.1.deliver dt e
    HostPort.deliverHeld dt es (q, a.2 + bit (q.cnt.eventsDropped == a.1.cnt.eventsDropped))

/-- EVENT_RING_SET (R460, R461): the ring takes the PORT_RESET event, the held events, then EVENTS_LOST where any was dropped. -/
def State.eventRingSet (s : State) (c : Call) (pl : Nat) : State × Reply :=
  let log := field pl 0 8
  let ap := field pl 8 12
  let off := field pl 32 32
  checked s [resZero pl 20 12, rangeFail (decide (log < 4 ∨ 14 < log)) 0] fun _ => s.withRange c ap off (32 * 2 ^ log) true fun _ =>
    checked s [alignFail (decide (off % 256 ≠ 0)) 32, plainFail (s.port c.port).events.live 0x0482] fun _ =>
      let p := s.port c.port
      let ring := { p.events with live := true, log := log, aperture := ap, offset := off, head := 0, tail := 0, phase := true, capAtLoss := 2 ^ log - 1 }
      let r := HostPort.deliverHeld s.dt (p.resetEvent.toList ++ p.heldEvents) ({ p with events := ring, heldEvents := [], resetEvent := none }, 0)
      answered (s.setPort c.port (r.1.postLost s.dt)) { result := r.2 }

/-- COALESCE_SET (R466). -/
def State.coalesceSet (s : State) (c : Call) (pl : Nat) : State × Reply :=
  checked s [resZero pl 6 2, resZero pl 16 16, rangeFail (decide (245760 < field pl 32 32)) 32] fun _ =>
    let v := field pl 0 6
    succeeded (s.updPort c.port (fun p => p.setVector v { p.vector v with aggCount := field pl 8 8, aggTime := field pl 32 32 }))

/-! ## Audio ports (R532 to R535, R542) -/

/-- The parameters of a PORT_CONFIGURE payload (Table 14-7). -/
def tdmConfigOf (pl : Nat) : TdmConfig :=
  { rate48 := flag pl 0, slots := field pl 1 2, width := field pl 3 2, fsWidth := field pl 5 1, fsDelay := field pl 6 1, bclkPol := field pl 7 1,
    doutIdle := field pl 8 1, sentInEn := flag pl 9, sentIn := field pl 10 5, sentOutEn := flag pl 15, sentOut := field pl 16 5 }

/-- Whether a slot of port `t` is mapped to a stream or branch (R356, R359). -/
def State.tdmMapped (s : State) (t : Nat) : Bool := !(s.mappedIn t).isEmpty || !(s.mappedOut t).isEmpty

/-- PORT_CONFIGURE (R533). -/
def State.portConfigure (s : State) (c : Call) (pl : Nat) : State × Reply :=
  let g := tdmConfigOf pl
  checked s
    [resValue (decide (g.slots = 3)) 1, resValue (decide (g.width = 3)) 3, resZero pl 21 43, argFail (!g.supported) 0x020B 1,
     argFail (g.sentInEn && decide (g.count ≤ g.sentIn)) 0x020A 10, argFail (g.sentOutEn && decide (g.count ≤ g.sentOut)) 0x020A 16]
    fun _ =>
      named s (s.tdmOf c.port c.handle) fun t =>
        checked s [plainFail ((s.tdm t).state != .disabled || (s.tdm t).enableAt.isSome || s.tdmMapped t) 0x0406] fun _ =>
          succeeded (s.updTdm t (fun p => { p with cfg := g }))

/-- PORT_ENABLE (R534): scheduled for the next 10 ms boundary; `dt` is the DT of acceptance. -/
def State.portEnable (s : State) (c : Call) (pl dt : Nat) : State × Reply :=
  checked s [resZero pl 1 31] fun _ =>
    named s (s.tdmOf c.port c.handle) fun t =>
      let on := flag pl 0
      let stands := (s.tdm t).enableAt.isNone && ((s.tdm t).state != .disabled) == on
      if stands then answered s { result := dt }
      else if !on && s.tdmMapped t then answered s (Answer.fail 0x0406)
      else (s.updTdm t (fun p => { p with enableAt := some (effectBoundary dt s.dt, on) }), .wait t)

/-- PORT_QUERY (R535). -/
def State.portQuery (s : State) (c : Call) (pl : Nat) : State × Reply :=
  checked s (bufferChecks c pl) fun _ => named s (s.tdmOf c.port c.handle) fun t => s.respond c pl 16 (s.tdmRecord t) none

/-- DIAG_TDM_LOOPBACK (R542): scheduled for the next 10 ms boundary; `dt` is the DT of acceptance. -/
def State.tdmLoopback (s : State) (c : Call) (pl dt : Nat) : State × Reply :=
  checked s [resZero pl 1 31] fun _ =>
    named s (s.tdmOf c.port c.handle) fun t => (s.updTdm t (fun p => { p with loopAt := some (effectBoundary dt s.dt, flag pl 0) }), .wait t)

/-! ## Telemetry and diagnostics (R536 to R541) -/

/-- Whether a group has an index (Table 14-9): NET_IF leaves 144 to 255 out. -/
def groupHas (g k : Nat) : Bool :=
  match groupLast g with
  | some m => decide (k ≤ m) && !(g == 0x05 && decide (144 ≤ k ∧ k < 256))
  | none => false

/-- TELEMETRY_READ (R536 to R538). -/
def State.telemetryRead (s : State) (c : Call) (pl : Nat) : State × Reply :=
  let g := field pl 96 8
  let first := field pl 128 16
  let count := field pl 144 16
  checked s
    ([resZero pl 12 20, resZero pl 104 24] ++ bufferChecks c pl ++
      [rangeFail (groupLast g).isNone 96, rangeFail (!(List.range' first count).all (groupHas g)) 128, rangeFail (decide (count = 0 ∨ 1024 < count)) 144])
    fun _ =>
      let r := joinRecords ((List.range' first count).map (s.groupRecord c.port g))
      s.respond c pl r.1 r.2 none

/-- The journal entries port `n` may read from sequence `first` on, oldest first (R540, R631). -/
def State.journalFor (s : State) (n first : Nat) : List JEntry :=
  (s.journal.entries.filter (fun e => decide (first ≤ e.seq) && (e.part == n || e.part == 7))).reverse

/-- DIAG_JOURNAL_READ (R540). With the journal empty the newest sequence is stated by no rule: a free value (log 21). -/
def State.journalRead (s : State) (c : Call) (pl : Nat) : State × Reply :=
  checked s (bufferChecks c pl) fun _ =>
    let es := (s.journalFor c.port (field pl 96 32)).take (field pl 128 32)
    let v := concatRecords 256 (es.map JEntry.bytes)
    match s.journal.entries with
    | [] => let d := drawFree s
            d.2.respond c pl 0 0 (some (d.1 % 2 ^ 32))
    | e :: _ => s.respond c pl (32 * es.length) v (some e.seq)

/-- R541: one byte of a stored burst inverted, of its 34 one that is not wrong already; which one is the device's choice (Config.injectPosition). -/
def BurstErr.invert (e : BurstErr) (b : Nat) : BurstErr :=
  let order := (List.range 34).map (fun k => (Config.injectPosition b e.injected + k) % 34)
  match order.find? (fun o => !(e.bytes.any (fun x => x.1 == o))) with
  | some o => { e with bytes := e.bytes ++ [(o, 255)], injected := e.injected + 1 }
  | none => e

/-- The error record of a burst changed. -/
def State.updErr (s : State) (b : Nat) (g : BurstErr → BurstErr) : State :=
  { s with mem := { s.mem with errs := Table.upd {} s.mem.errs b g } }

/-- Fields a KIND does not use are reserved (R726, Table 14-11). -/
def injectReserved (pl : Nat) : List (Bool × Answer) :=
  let k := field pl 0 4
  let tile := decide (k = 1 ∨ k = 2 ∨ k = 5)
  let mem := decide (k = 3 ∨ k = 4)
  [resValue (decide (k = 0 ∨ 6 ≤ k)) 0, resZero pl 4 4] ++ resWhile (!tile) pl [(8, 8)] ++
    [resValue (if k = 5 then decide (field pl 16 3 = 0 ∨ 5 ≤ field pl 16 3) else decide (field pl 16 3 ≠ 0)) 16] ++
    resWhile (decide (k ≠ 5)) pl [(19, 4)] ++ [resZero pl 23 41] ++ resWhile (!mem) pl [(64, 64)]

/-- A refusal of an address named by a command (R341, R342, R633, R541): counted, and recorded in the violation log and the fault journal. -/
def State.addressRefused (s : State) (c : Call) (x : Nat) : State :=
  ((s.countRefusal x).violate c.port 7 .command true (memWord x) c.opcode c.tag).journalWrite
    { JEntry.blank 0x02 with part := s.holderOf x, endpoint := (wordEndpoint (memWord x)).getD 1023, address := memWord x }

/-- DIAG_INJECT (R541, Table 14-11): one fault armed. -/
def State.diagInject (s : State) (c : Call) (pl : Nat) : State × Reply :=
  let k := field pl 0 4
  let coord := field pl 8 8
  let t := coordTile coord
  let x := field pl 64 64
  let onTile := decide (k = 1 ∨ k = 2 ∨ k = 5)
  let own := match s.windowAt x with
    | .part n => n == c.port && decide (x < memEnd)
    | _ => false
  checked s
    (injectReserved pl ++
      [rangeFail (onTile && decide (11 < coord / 16 ∨ 11 < coord % 16)) 8,
       rangeFail (decide (k = 5) && decide (field pl 19 4 = 0 ∨ 8 < field pl 19 4)) 19, alignFail (decide (x % 32 ≠ 0)) 64])
    fun _ =>
      if !onTile && !own then answered (s.addressRefused c x) (Answer.fail 0x0501)
      else if k = 2 ∧ ((s.flank (t / 48)).state = .repairing ∨ s.enabledTiles (t / 48) = 40) then answered s (Answer.fail 0x0408)
      else if k = 1 then succeeded (s.updTile t (fun y => { y with residue := .once }))
      else if k = 2 then succeeded (s.updTile t (fun y => { y with residue := .twice }))
      else if k = 3 then succeeded (s.updErr (x / 32) (fun e => { e.invert (x / 32) with single := true, reported := false }))
      else if k = 4 then succeeded (s.updErr (x / 32) (fun e => (e.invert (x / 32)).invert (x / 32)))
      else succeeded (s.updLink (linkKey t (field pl 16 3)) (fun l => { l with inject := field pl 19 4 }))

/-! ## Device and firmware (R543 to R549) -/

/-- DEVICE_QUERY (R543). -/
def State.deviceQuery (s : State) (c : Call) (pl : Nat) : State × Reply :=
  checked s (bufferChecks c pl) fun _ => s.respond c pl 32 (s.deviceRecord c.port) (some (s.fwVersion c.port))

/-- POWER_CAP_SET (R544, R570). -/
def State.powerCapSet (s : State) (c : Call) (pl : Nat) : State × Reply :=
  let _ := c
  let cap := field pl 0 5
  checked s [resZero pl 5 27, rangeFail (decide (cap ≠ 0 ∧ (cap < 14 ∨ 28 < cap))) 0] fun _ =>
    succeeded (s.setCap (if cap = 0 then s.site.cap else cap) 0)

/-- R546, R545: a spare slot whose image was STAGED or ACTIVATED holds no staged image any more. -/
def State.unstage (s : State) : State :=
  let k := s.boot.spareSlot
  let x := (s.boot.flash.dir.slot k).state
  if x == .staged || x == .activated then s.updDir (fun d => d.updSlot k (fun _ => {})) else s

/-- Table 13-7's payload of the staging commands: reserved bits, alignment, PAGES between 1 and `most`. -/
def stagingChecks (pl most : Nat) : List (Bool × Answer) :=
  [resZero pl 12 20, resZero pl 85 11, alignFail (decide (field pl 32 32 % 4096 ≠ 0)) 32,
   rangeFail (decide (field pl 64 21 = 0 ∨ most < field pl 64 21)) 64]

/-- FIRMWARE_STAGE (R545, R549): what the device read is the command's data. -/
def State.firmwareStage (s : State) (c : Call) (pl id : Nat) : State × Reply :=
  checked s (stagingChecks pl 8192) fun _ => s.withRange c (field pl 0 12) (field pl 32 32) (4096 * field pl 64 21) false fun _ =>
    checked s [plainFail s.flashBusy 0x040A] fun _ =>
      match c.data with
      | .image sig target version len =>
        if sig && target then (s.startImage c.port id version len, .wait 0) else answered s (Answer.fail 0x020C (payloadOffset 0))
      | _ => answered s.unstage (Answer.fail 0x0106)

/-- FIRMWARE_ACTIVATE (R546, R549, R604). -/
def State.firmwareActivate (s : State) (c : Call) : State × Reply :=
  let _ := c
  let k := s.boot.spareSlot
  let x := s.boot.flash.dir.slot k
  checked s [plainFail s.flashBusy 0x040A, plainFail (x.state != .staged) 0x040B] fun _ =>
    answered (s.updDir (fun d => { d.updSlot k (fun y => { y with state := .activated }) with preferred := k })) { result := x.version }

/-- DEVICE_RESET (R547, R549); `dt` is the DT of acceptance. -/
def State.deviceReset (s : State) (c : Call) (pl dt : Nat) : State × Reply :=
  let _ := c
  let delay := field pl 32 16
  checked s
    [resZero pl 48 16, rangeFail (decide (field pl 0 32 ≠ 0x5A5A1440)) 0, rangeFail (decide (delay ≠ 0 ∧ (delay < 100 ∨ 10000 < delay))) 32,
     plainFail s.boot.writing.isSome 0x040A]
    fun _ =>
      match s.boot.resetDt with
      | some t => answered s { result := t }
      | none =>
        let t := dt + 24576 * (if delay = 0 then 1000 else delay)
        answered ((s.updBoot (fun b => { b with resetDt := some t })).postAll 0x8016 t) { result := t }

/-- SITE_CONFIG_STAGE (R548, R549, R611). -/
def State.siteConfigStage (s : State) (c : Call) (pl id : Nat) : State × Reply :=
  checked s (stagingChecks pl 1048576) fun _ => s.withRange c (field pl 0 12) (field pl 32 32) (4096 * field pl 64 21) false fun _ =>
    checked s [plainFail s.flashBusy 0x040A] fun _ =>
      match c.data with
      | .site img => if siteValid img then (s.startSite c.port id img, .wait 0) else answered s (Answer.fail 0x020C (payloadOffset 0))
      | _ => answered s (Answer.fail 0x0106)

end Sys2Proof.Machine
end

