-- ==== Sys2Proof/Machine/Watch.lean ====
section
/-!
DEFINITION. Machine/Watch.lean: the management sensors: their readings, thresholds, states and availability, and the platform events (R659 to R666, R670, Tables 18-5
to 18-7).
-/
namespace Sys2Proof.Machine

/-! ## Sensors -/

/-- The numeric sensors of Table 18-5 and the state sensors of Table 18-6. -/
def sensorIds : List Nat := List.range' 1 35 ++ List.range' 64 28

/-- The operational states a sensor reports (R662), DSP0248's names. -/
inductive Operational where
  | enabled | unavailable | failed | initializing
deriving DecidableEq, Repr

/-- DSP0248's codes of the operational states (PRESUMED, log 90). -/
def Operational.code : Operational → Nat
  | .enabled => 0
  | .unavailable => 2
  | .failed => 4
  | .initializing => 5

/-- The classes of Table 18-7. -/
inductive SensorClass where
  | a | b | c | d
deriving DecidableEq, Repr

/-- The class of a sensor. -/
def sensorClass (k : Nat) : SensorClass :=
  if k = 64 ∨ k = 65 then .a
  else if (1 ≤ k ∧ k ≤ 17) ∨ (26 ≤ k ∧ k ≤ 28) ∨ (66 ≤ k ∧ k ≤ 68) then .b
  else if 18 ≤ k ∧ k ≤ 23 then .c
  else .d

/-- Table 18-7 while no reset, trip or ROM stage holds. Boot fails before TRAINING ends (Table 16-5), so a class C sensor has failed in FAILED. -/
def classOperational (x : SensorClass) (g : BootStage) : Operational :=
  match x, g with
  | .a, _ => .enabled
  | .b, _ => .enabled
  | _, .ready => .enabled
  | _, .failed => .failed
  | .c, .clear => .enabled
  | .c, .selfTest => .enabled
  | .c, .config => .enabled
  | _, _ => .initializing

/-- R662, R670: a sensor's operational state. -/
def State.operational (s : State) (k : Nat) : Operational :=
  if k = 64 then .enabled
  else if s.power.tripped then (if k = 65 then .enabled else .unavailable)
  else if s.boot.inReset then .unavailable
  else if s.boot.stage = .rom then .initializing
  else classOperational (sensorClass k) s.boot.stage

/-- R313: the fabric links DOWN, each counted once. -/
def State.linksDown (s : State) : Nat :=
  (s.fabric.links.filter (fun e =>
    let far := farKey (e.1 / 5) (e.1 % 5)
    decide (e.1 < 720) && e.2.down && decide (1024 ≤ far ∨ e.1 < far))).length

/-- A count sensor saturates (R663). -/
def count32 (n : Nat) : Int := (min n 4294967295 : Nat)

/-- Table 18-5: the latest value of a numeric sensor's source. -/
def State.reading (s : State) (k : Nat) : Int :=
  if k = 1 then s.power.hottest.1
  else if k ≤ 17 then (s.power.sensor (k - 2)).temp
  else if k ≤ 23 then ((Table.get {} s.mem.stackRegs (k - 18)).tempNow : Nat)
  else if k = 24 then (average (s.power.history.take 10) / 1000 : Nat)
  else if k = 25 then (25 * s.power.cap : Nat)
  else if k = 26 then (s.power.avs.readMv : Nat)
  else if k = 27 then (s.power.avs.readMa / 1000 : Nat)
  else if k = 28 then (s.power.avs.temp : Nat)
  else if k ≤ 31 then (s.enabledTiles (k - 29) : Nat)
  else if k = 32 then count32 s.journal.written
  else if k = 33 then count32 (s.mem.channels.foldl (fun n e => n + e.2.uncorrectable + e.2.scrubUncorrectable) 0)
  else if k = 34 then (s.linksDown : Nat)
  else count32 ((List.range 3).foldl (fun n f => n + (s.flank f).retirements) 0)

/-- A numeric sensor's thresholds: their side, the warning, critical and fatal thresholds, and the hysteresis. -/
structure Thresholds where
  upper : Bool := true
  warning : Option Int := none
  critical : Option Int := none
  fatal : Option Int := none
  hysteresis : Int := 0
deriving DecidableEq, Repr

/-- Table 18-5's thresholds; that of PACKAGE_POWER follows the cap in force. -/
def State.thresholds (s : State) (k : Nat) : Thresholds :=
  if k ≤ 17 then { warning := some 100, critical := some 105, fatal := some 115, hysteresis := 2 }
  else if k ≤ 23 then { warning := some 85, critical := some 95, hysteresis := 3 }
  else if k = 24 then { warning := some (25 * s.power.cap : Nat), critical := some 700, hysteresis := 25 }
  else if k = 27 then { critical := some 850, hysteresis := 10 }
  else if 29 ≤ k ∧ k ≤ 31 then { upper := false, warning := some 43, critical := some 40, fatal := some 39 }
  else if k = 34 ∨ k = 35 then { warning := some 1 }
  else {}

/-- The severity of a reading: 0 normal, 1 warning, 2 critical, 3 fatal (R661). -/
def Thresholds.severity (t : Thresholds) (r : Int) : Nat :=
  let hit := fun (x : Option Int) => match x with
    | none => false
    | some v => if t.upper then decide (v ≤ r) else decide (r ≤ v)
  if hit t.fatal then 3 else if hit t.critical then 2 else if hit t.warning then 1 else 0

/-- The threshold of a severity. -/
def Thresholds.at (t : Thresholds) (sev : Nat) : Option Int := if sev = 3 then t.fatal else if sev = 2 then t.critical else if sev = 1 then t.warning else none

/-- Whether a reading has moved past a threshold by at least the hysteresis. -/
def Thresholds.cleared (t : Thresholds) (sev : Nat) (r : Int) : Bool :=
  match t.at sev with
  | none => true
  | some v => if t.upper then decide (r ≤ v - t.hysteresis) else decide (v + t.hysteresis ≤ r)

/-- DSP0248's codes of the event states (PRESUMED, log 90): 1 normal, 5 to 7 lower and 8 to 10 upper warning, critical, fatal. -/
def Thresholds.eventCode (t : Thresholds) (sev : Nat) : Nat := if sev = 0 then 1 else if t.upper then 7 + sev else 4 + sev

/-- The severity an event state's code stands for. -/
def codeSeverity (c : Nat) : Nat := if c ≤ 4 then 0 else if c ≤ 7 then c - 4 else c - 7

/-- R661: a numeric sensor's event state from its reading and the state before. -/
def Thresholds.next (t : Thresholds) (before : Nat) (r : Int) : Nat :=
  let now := t.severity r
  let old := codeSeverity before
  if now < old && !t.cleared old r then before else t.eventCode now

/-- Table 18-6: DEVICE_STATE. -/
def State.deviceState (s : State) : Nat :=
  if s.power.tripped then 6
  else if s.boot.inReset then 1
  else if s.boot.fatal.isSome then 5
  else match s.boot.stage with
    | .failed => 4
    | .ready => 3
    | _ => 2

/-- Table 18-6: a state sensor's state. -/
def State.sensorState (s : State) (k : Nat) : Nat :=
  if k = 64 then s.deviceState
  else if k = 65 then s.boot.cause.code + 1
  else if k = 66 then (if s.power.prochot then 3 else if s.power.throttled then 2 else 1)
  else if k = 67 then (if s.power.tripped || s.boot.inReset then 4 else s.power.divisor - 3)
  else if k = 68 then (if s.power.avs.faulted then 2 else 1)
  else if k ≤ 71 then (s.flank (k - 69)).state.code + 1
  else if k ≤ 75 then (match (s.port (k - 72)).link with
    | .downReset => 1
    | .training => 2
    | .up => 3
    | .lost => 4)
  else (s.tdm (k - 76)).state.code + 1

/-! ## Platform events (R665, R666) -/

/-- What the endpoint keeps of a sensor. -/
def State.watch (s : State) (k : Nat) : SensorState := Table.get {} s.mgmt.sensors k

/-- What the endpoint keeps of a sensor, changed. -/
def State.updWatch (s : State) (k : Nat) (g : SensorState → SensorState) : State :=
  { s with mgmt := { s.mgmt with sensors := Table.set {} s.mgmt.sensors k (g (s.watch k)) } }

/-- R665: less than 1 s, 24,576,000 ticks, since the sensor's last message. -/
def SensorState.limited (x : SensorState) (dt : Nat) : Bool :=
  match x.sentDt with
  | none => false
  | some t => !decide (t + 24576000 ≤ dt)

/-- A PlatformEventMessage goes to the receiver, and waits for its acknowledgement. -/
def State.platformEvent (s : State) (k new previous : Nat) : State :=
  match s.mgmt.receiver with
  | none => s
  | some (m, e) =>
    let t := (s.sendMgmt (.platformEvent m e k new previous)).updWatch k (fun x => { x with sent := new, sentDt := some s.dt, waiting := false })
    { t with mgmt := { t.mgmt with unacked := t.mgmt.unacked ++ [{ sensor := k, state := new, previous := previous, tries := 1 }] } }

/-- A sensor is evaluated: its state changes, and a message follows where R665 asks for one. -/
def State.evalSensor (s : State) (k : Nat) : State :=
  if s.operational k ≠ .enabled ∧ k ≠ 67 then s
  else
    let x := s.watch k
    let new := if k < 64 then (s.thresholds k).next x.current (s.reading k) else s.sensorState k
    if new = x.current then s
    else
      let t := s.updWatch k (fun y => { y with current := new })
      if s.mgmt.receiver.isNone ∨ x.current = 0 ∨ 76 ≤ k ∨ (k = 64 ∧ new = 2) then t
      else if x.limited s.dt && !(k == 64 && new == 6) then t.updWatch k (fun y => { y with waiting := true })
      else t.platformEvent k new x.current

/-- Every sensor is evaluated, while the endpoint runs. -/
def State.watchSensors (s : State) : State := if s.endpointRuns then sensorIds.foldl State.evalSensor s else s

/-- EVENT_RATE_INTERVAL_END (R665): a change within the second is sent at its end. -/
def State.rateIntervalEnd (s : State) (k : Nat) : State :=
  let x := s.watch k
  match x.sentDt with
  | none => s
  | some t =>
    if !s.endpointRuns ∨ (t ≤ s.dt ∧ s.dt < t + 24576000) then s
    else if x.waiting then s.platformEvent k x.current x.sent
    else s.updWatch k (fun y => { y with sentDt := none })

/-- PLATFORM_EVENT_ACK (R666): the receiver acknowledges the oldest message for the sensor. -/
def State.eventAcked (s : State) (m : Medium) (k : Nat) : State :=
  if (s.mgmt.receiver.map (·.1)) ≠ some m ∨ s.mediumUp m = false then s
  else match s.mgmt.unacked.find? (fun e => e.sensor == k) with
    | none => s
    | some e => { s with mgmt := { s.mgmt with unacked := s.mgmt.unacked.erase e } }

/-- One more sending of the oldest of the messages equal to `e`. -/
def triedAgain (e : PendingEvent) : List PendingEvent → List PendingEvent
  | [] => []
  | y :: ys => if y = e then { y with tries := y.tries + 1 } :: ys else y :: triedAgain e ys

/-- PLATFORM_EVENT_RETRY (R666): the oldest message for the sensor is sent again, at most 3 times in all, then discarded. -/
def State.eventRetry (s : State) (k : Nat) : State :=
  match s.mgmt.receiver, s.mgmt.unacked.find? (fun e => e.sensor == k) with
  | some (m, eid), some e =>
    if !s.mediumUp m then s
    else if e.tries < 3 then
      let t := s.sendMgmt (.platformEvent m eid k e.state e.previous)
      { t with mgmt := { t.mgmt with unacked := triedAgain e t.mgmt.unacked } }
    else { s with mgmt := { s.mgmt with unacked := s.mgmt.unacked.erase e } }
  | _, _ => s

end Sys2Proof.Machine
end

