-- ==== Sys2Proof/Machine/Lerad.lean ====
section
/-!
DEFINITION. Machine/Lerad.lean: acceptance of Lerad commands, their order and fences, the opcode table, commands that wait, time limits (chapter 12, R434, R444,
R448 to R450, R457, R458, R468).
-/
namespace Sys2Proof.Machine

/-! ## Maximum times (Tables 12-6, 13-1, 14-1, R468) -/

/-- Table 11-7: the completion timeout in ticks for a Completion Timeout Value. -/
def timeoutTicks (v : Nat) : Nat :=
  if v = 1 then 1966
  else if v = 2 then 196608
  else if v = 6 then 3932160
  else if v = 9 then 15728640
  else if v = 10 then 62914560
  else 983040

/-- The payload of a call whose pointer, if any, could be read. -/
def callPayload (c : Call) : Nat := if c.ext then c.extBytes.getD 0 % 2 ^ (8 * c.length) else c.body % 2 ^ (8 * c.length)

/-- The part of a command's maximum time that its operands set. -/
def State.extraTicks (s : State) (c : Call) : Nat :=
  let pl := callPayload c
  match c.opcode with
  | 0x0911 =>
    (((s.port c.port).accepted.filter (fun e => e.call.chan == .pair (field pl 0 5))).map (fun (e : Accepted) => e.maxTicks)).foldl max 0
  | 0x0202 => timeoutTicks (s.port c.port).cfg.completionTimeout
  | 0x0301 => ceilDiv (122880 * field pl 64 21) 256
  | 0x0403 => ceilDiv (49152 * field pl 64 32) 100
  | 0x0506 => if flag pl 0 then 14 * (s.pipeOfStream (field c.handle 0 10)).period else 0
  | _ => 0

/-- A command's maximum time in ticks; 1 s where no definition states one (R468). -/
def State.maxTicks (s : State) (c : Call) : Nat :=
  match cmdSpec c.opcode with
  | some d => d.maxTicks + s.extraTicks c
  | none => 24576000

/-! ## Acceptance -/

/-- R434, R436, R444: what refuses a call at once; with a FATAL fault in force every command ends with DEVICE_FAULT (R628). -/
def State.screen (s : State) (c : Call) : State × Option Answer :=
  match headerCheck c with
  | some a => (s, some a)
  | none =>
    let r := s.payload c
    match r.2 with
    | .inl a => (r.1, some a)
    | .inr _ => (r.1, if s.boot.fatal.isSome then some (Answer.fail 0x0601) else none)

/-- R450: the call is accepted: it is counted and takes an identity; a refused one completes at once. -/
def State.accept (s : State) (c : Call) : State :=
  let p := s.port c.port
  let e : Accepted := { id := p.nextId, call := c, dt := s.dt, maxTicks := s.maxTicks c, started := false, discarded := false, key := 0 }
  let t := s.setPort c.port { p with
    accepted := p.accepted ++ [e], nextId := p.nextId + 1, cnt := { p.cnt with commandsAccepted := bump 64 p.cnt.commandsAccepted 1 } }
  let r := t.screen c
  match r.2 with
  | some a => r.1.complete c.port e.id a
  | none => r.1

/-! ## The opcode table -/

/-- Transport commands (Table 12-6). -/
def State.runTransport (s : State) (e : Accepted) (pl : Nat) : State × Reply :=
  let c := e.call
  match c.opcode with
  | 0x0910 => s.ringPairCreate c pl
  | 0x0911 => s.ringPairDelete c pl
  | 0x0912 => s.eventRingSet c pl
  | 0x0913 => s.coalesceSet c pl
  | _ => answered s { result := e.dt }

/-- Set-up commands (Table 13-1). -/
def State.runSetup (s : State) (e : Accepted) (pl : Nat) : State × Reply :=
  let c := e.call
  match c.opcode with
  | 0x0101 => s.partitionQuery c pl
  | 0x0102 => s.partitionQuotaSet c pl
  | 0x0103 => s.partitionHostLossSet c pl
  | 0x0104 => s.partitionTrimSet c pl
  | 0x0105 => s.siteQuery c pl
  | 0x0201 => s.apertureRegister c pl
  | 0x0202 => s.apertureDeregister c
  | 0x0301 => s.modelLoad c pl e.id e.dt
  | 0x0302 => s.modelQuery c pl
  | 0x0303 => s.modelUnload c
  | 0x0304 => s.modelList c pl
  | 0x0401 => s.pipelineCreate c pl
  | 0x0402 => s.pipelineQuery c pl
  | 0x0403 => s.pipelinePrefixSet c pl
  | 0x0404 => s.pipelineDelete c
  | _ => s.pipelineList c pl

/-- Stream and branch commands (Table 14-1). -/
def State.runStreams (s : State) (e : Accepted) (pl : Nat) : State × Reply :=
  let c := e.call
  match c.opcode with
  | 0x0501 => s.streamCastOn c pl e.id e.dt
  | 0x0502 => s.streamFeed c pl
  | 0x0503 => s.streamPause c
  | 0x0504 => s.streamResume c
  | 0x0505 => s.streamRewind c
  | 0x0506 => s.streamBindOff c pl
  | 0x0507 => s.streamInputSet c pl e.dt
  | 0x0508 => s.streamQuery c pl
  | 0x0509 => s.streamList c pl
  | 0x0511 => s.branchAttach c pl e.id
  | 0x0512 => s.branchDetach c
  | 0x0513 => s.branchResume c
  | 0x0514 => s.branchOutputSet c pl e.dt
  | _ => s.branchQuery c pl

/-- Port, telemetry, diagnostic and device commands (Table 14-1); those marked PA need the plan authority first (R512). -/
def State.runDevice (s : State) (e : Accepted) (pl : Nat) : State × Reply :=
  let c := e.call
  if ((runSpec c.opcode).map (·.plan)).getD false && !s.isPlan c.port then answered s (Answer.fail 0x0402)
  else match c.opcode with
  | 0x0601 => s.portConfigure c pl
  | 0x0602 => s.portEnable c pl e.dt
  | 0x0603 => s.portQuery c pl
  | 0x0701 => s.telemetryRead c pl
  | 0x0801 => s.journalRead c pl
  | 0x0802 => s.diagInject c pl
  | 0x0803 => s.tdmLoopback c pl e.dt
  | 0x0901 => s.deviceQuery c pl
  | 0x0902 => s.powerCapSet c pl
  | 0x0903 => s.firmwareStage c pl e.id
  | 0x0904 => s.firmwareActivate c
  | 0x0905 => s.deviceReset c pl e.dt
  | _ => s.siteConfigStage c pl e.id

/-- The effect of an accepted command. -/
def State.runCall (s : State) (e : Accepted) : State × Reply :=
  let pl := (callPayload e.call)
  let op := e.call.opcode
  if (transportSpec op).isSome then s.runTransport e pl
  else if (setupSpec op).isSome then s.runSetup e pl
  else if op < 0x0601 then s.runStreams e pl
  else s.runDevice e pl

/-! ## Order, fences and waiting commands -/

/-- Whether an entry of the port's list, with `before` accepted earlier, may start (R457, R458). -/
def mayRun (before : List Accepted) (e : Accepted) : Bool :=
  let pair := fun (x : Accepted) => match e.call.chan with
    | .pair _ => x.call.chan == e.call.chan && !x.discarded
    | .mailbox => false
  !e.started && !(before.any (fun x => (!x.started && e.call.handle != 0 && x.call.handle == e.call.handle) || (pair x && (e.call.fence || x.call.fence))))

/-- The first command of port `n` that may start. -/
def nextToRun : List Accepted → List Accepted → Option Accepted
  | _, [] => none
  | before, e :: es => if mayRun before e then some e else nextToRun (before ++ [e]) es

/-- A command starts: it completes, or waits for the object its key names. -/
def State.startCall (s : State) (n : Nat) (e : Accepted) : State :=
  let r := s.runCall e
  match r.2 with
  | .done a => r.1.complete n e.id a
  | .wait k => r.1.updPort n (fun p => { p with accepted := p.accepted.map (fun x => if x.id == e.id then { x with started := true, key := k } else x) })

/-- A command that waits goes on where what it waits for has come about. -/
def State.finishCall (s : State) (n : Nat) (e : Accepted) : State :=
  match e.call.opcode with
  | 0x0202 => s.finishAperture n e
  | 0x0303 => s.finishUnload n e
  | 0x0403 => s.finishPrefix n e (field (callPayload e.call) 64 32)
  | 0x0404 => s.finishDelete n e
  | 0x0504 => s.finishResume n e
  | 0x0911 => s.finishPair n e
  | _ => s

/-- One round over port `n`: every waiting command, then the first that may start. -/
def State.settlePort (s : State) (n : Nat) : State :=
  let t := ((s.port n).accepted.filter (·.started)).foldl (fun (u : State) e => u.finishCall n e) s
  match nextToRun [] (t.port n).accepted with
  | some e => t.startCall n e
  | none => t

/-- As many rounds over the four ports as there are accepted commands. -/
def State.settleRounds (s : State) : Nat → State
  | 0 => s
  | k + 1 => State.settleRounds ((List.range 4).foldl State.settlePort s) k

/-- Accepted commands of every port. -/
def State.acceptedCount (s : State) : Nat := (List.range 4).foldl (fun n p => n + (s.port p).accepted.length) 0

/-- What follows any change: failed package reads end (R491), owed page-table entries are given (R203, R204), restores and repairs go on (R117, R189), retirements are
reported (R634), commands finish and start, the sensors are evaluated (R665). -/
def State.settle (s : State) : State :=
  let u := s.sweepLoads.serveWants.serveRepairs.serveOpens.reportRetires
  (u.settleRounds u.acceptedCount).watchSensors

/-! ## Channels -/

/-- Whether the host reaches BAR0 of the port: its link is UP, not in D3hot (R401), its configuration space ready (R413). -/
def HostPort.reachable (p : HostPort) : Bool := p.link == .up && !p.cfg.d3hot && p.configReady

/-- U + O of R448, with the entries being read. -/
def HostPort.committed (p : HostPort) (k : Nat) : Nat :=
  let r := p.pair k
  r.unconsumed + (p.accepted.filter (fun e => e.call.chan == .pair k && !e.discarded)).length + r.reading

/-- Whether the device may read one more entry of pair `k` (R448, R449, R454, R472). -/
def HostPort.mayRead (p : HostPort) (k : Nat) : Bool :=
  let r := p.pair k
  r.live && !r.faulted && !r.deleting && p.canWrite && decide (0 < r.pendingEntries - r.reading) && decide (p.committed k + 2 ≤ 2 ^ r.cqLog) &&
    decide (p.accepted.length + total (p.pairs.map (fun e => e.2.reading)) < 512)

/-- A message in the inbound area (Table 12-1). -/
def callMessage (c : Call) : Nat :=
  pack [(16, c.opcode), (1, bit c.ext), (1, bit c.fence), (6, c.resFlags), (8, c.version), (16, c.tag), (16, c.length), (32, c.handle), (32, 0), (1920, c.body)]

/-- GO with the message in the inbound area (R441 to R443). -/
def State.goMailbox (s : State) (n : Nat) (extBytes : Option Nat) (data : HostData) : State :=
  let p := s.port n
  if !p.reachable || p.fwState != 2 then s
  else if p.mbx.busy || p.mbx.done then s.violate n 8 .mmio true 0x1200 0 0
  else
    let t := s.updPort n (fun q => { q with mbx := { q.mbx with busy := true } })
    t.accept (Call.ofBytes n .mailbox p.mbx.inbound extBytes data)

/-- The next pending entry of pair `k` is read, and is the message `c` (R448, R450). -/
def State.takeEntry (s : State) (n k : Nat) (c : Call) : State :=
  let p := s.port n
  if p.fwState != 2 || !p.mayRead k || decide (0 < (p.pair k).reading) then s
  else
    let r := p.pair k
    (s.setPort n (p.setPair k { r with sqHead := (r.sqHead + 1) % 2 ^ r.sqLog })).accept { c with port := n, chan := .pair k }

/-- A Lerad command of opcode `op` arrives on its channel: written into the mailbox and submitted with GO, or as the pair's next entry. -/
def State.lerad (s : State) (c : Call) (op : Nat) : State :=
  let m := { c with opcode := op }
  match c.chan with
  | .mailbox =>
    let p := s.port c.port
    let t := if p.reachable && !p.mbx.busy && !p.mbx.done then s.updPort c.port (fun q => { q with mbx := { q.mbx with inbound := callMessage m } }) else s
    (t.goMailbox c.port c.extBytes c.data).settle
  | .pair k => (s.takeEntry c.port k m).settle

end Sys2Proof.Machine
end

