-- ==== Sys2Proof/Machine/Tasks.lean ====
section
/-!
DEFINITION. Machine/Tasks.lean: ends of commits, flag falls at their deadlines, the merged flag-fall report, castling in once its transfers end, a command's time
limit (R78, R86, R174, R185, R189, R468).
-/
namespace Sys2Proof.Machine

/-! ## Commits (R174, R175) -/

/-- Table 5-3: the commit's contents stand in the half that was not current, and the entry names it. -/
def Sect.committed (x : Sect) (c : Commit) : Sect :=
  let y := if x.seq % 2 = 0 then { x with half1 := c.data } else { x with half0 := c.data }
  { y with seq := bump 32 x.seq 1, row := c.row, dirIdle := c.idle, commit := none, sinceCommit := sub32 x.slotRow c.row,
           dirty := x.dirty && x.work != c.data, past := x.pastAfter c.row }

/-- COMMIT_COMPLETE: with every write of the commit made and every write tag returned, the directory entry flips; what waited for the committed row goes on, and a commit
that fell due meanwhile begins (R174, R176, R200, R207). -/
def State.commitComplete (s : State) (st : Stage) (obj : Nat) : State :=
  let x := s.sect st obj
  let mine := fun (k : OpKind) => k == OpKind.commit (stageCode st) obj
  match x.commit with
  | none => s
  | some c =>
    if s.kindBusy mine then s
    else
      let i := s.objStream st obj
      let t := (s.setSect st obj (x.committed c)).updStream i (fun y => { y with cnt := { y.cnt with commits := bump 64 y.cnt.commits 1 } })
      let w := ((t.releaseEntries i).pagesAdvance).endOps (fun o => mine o.kind)
      let u := match x.nextCommit with
        | some n => w.beginCommit st obj n
        | none => w.commitDue st obj
      (u.advance i).dispatchAll

/-! ## Flag falls (R78, R80, R86) -/

/-- Whether a stage's work for chunk `row` is still owed: not complete there, and no shadow chunk (R190). -/
def State.owed (s : State) (st : Stage) (obj row : Nat) : Bool :=
  let x := s.sect st obj
  x.valid && !earlier32 row x.next && !x.shadow row && ((s.pipeOfStream (s.objStream st obj)).stage st).present

/-- FLAG_FALL (R78): at D_k(n) + h × P the work of branch `b` for chunk `row` at stage `st` is not complete. One at encode concerns every ACTIVE branch, once. -/
def State.flagFall (s : State) (b : Nat) (st : Stage) (row : Nat) : State :=
  let i := (s.branch b).stream
  let obj := match st with
    | .encode => i
    | _ => b
  if (s.branch b).state ≠ .active ∨ s.owed st obj row = false ∨ s.dt < s.heldDeadline st obj row then s
  else ((s.fallAt st obj row).advance i).dispatchAll

/-- The event of flag falls merged for the branch of slot `b` and generation `gen` (R86). -/
def State.postMerged (s : State) (part b gen : Nat) (r : FlagReport) : State :=
  s.post part 0x8008 (branchHandle b gen) (pack [(2, stageCode r.stage), (2, policyCode r.policy), (28, 0), (32, r.first), (32, r.count)])

/-- Whether a flag-fall report's interval of 24,576,000 ticks has passed at `dt` (R86). -/
def FlagReport.due (r : FlagReport) (dt : Nat) : Bool := decide (r.start + 24576000 ≤ dt)

/-- FLAG_FALL_INTERVAL_END (R86): 24,576,000 ticks after a branch's first flag fall, the further ones are reported in one event; those of branches that have left the slot
meanwhile too. -/
def State.flagIntervalEnd (s : State) (b : Nat) : State :=
  let x := s.branch b
  let gone := x.orphans.filter (fun o => o.report.due s.dt)
  let t := gone.foldl (fun (u : State) o => u.postMerged o.part b o.gen o.report)
    (if gone.isEmpty then s else s.updBranch b (fun y => { y with orphans := y.orphans.filter (fun o => !o.report.due s.dt) }))
  match x.report with
  | none => t
  | some r =>
    if !r.due s.dt then t
    else
      let u := t.updBranch b (fun y => { y with report := none })
      if r.count = 0 then u else u.postMerged x.part b x.gen r

/-! ## Castling in and restores -/

/-- Whether a load of a stream's sections still moves data. -/
def State.loadsBusy (s : State) (i : Nat) : Bool :=
  s.kindBusy (fun k => match k with
    | .castIn c obj => s.objStream (codeStage c) obj == i
    | _ => false)

/-- CASTLING_IN_DONE (R185). -/
def State.castingInEnds (s : State) (i : Nat) : State := if s.loadsBusy i then s else s.castInDone i

/-- FROG_RESTORE_DONE (R189). -/
def State.restoreEnds (s : State) (i : Nat) : State := if s.loadsBusy i then s else s.frogRestore i

/-! ## Time limits (R468) -/

/-- COMMAND_TIME_LIMIT: an accepted command past its maximum time completes with DEVICE_FAULT; an object that was being created is not. -/
def State.timeLimit (s : State) (n id : Nat) : State :=
  match (s.port n).accepted.find? (fun e => e.id == id) with
  | none => s
  | some e =>
    if s.dt < e.dt + e.maxTicks then s
    else match e.call.opcode with
      | 0x0501 =>
        match s.streams.find? (fun x => x.2.state == .castOn && x.2.part == n && x.2.cmd == id) with
        | some x => s.castOnRefused x.1 0x0601
        | none => s.complete n id (Answer.fail 0x0601)
      | 0x0511 =>
        match s.branches.find? (fun x => x.2.state == .attaching && x.2.part == n && x.2.cmd == id) with
        | some x => s.attachRefused x.1 0x0601
        | none => s.complete n id (Answer.fail 0x0601)
      | 0x0301 =>
        match s.loads.find? (fun l => l.port == n && l.cmd == id && !l.erasing) with
        | some l => (s.releaseLoad l).complete n id (Answer.fail 0x0601)
        | none => s.complete n id (Answer.fail 0x0601)
      | 0x0403 => (if e.started then s.dropReserved e.key (field (callPayload e.call) 64 32) else s).complete n id (Answer.fail 0x0601)
      | _ => s.complete n id (Answer.fail 0x0601)

/-! ## A tile's work -/

/-- TASK (R104): tile `t`, ENABLED, works on the task its flank runs. -/
def State.taskAt (s : State) (t : Nat) (work : List TileOp) : State :=
  if t < 144 ∧ (s.tile t).state = .enabled then s.tileWork t (t / 48) work else s

/-- DISPATCH_TIMER (R111): a timer the dispatcher set has expired. -/
def State.timerExpires (s : State) (f : Nat) : State :=
  match (s.flank f).timer with
  | some t => if s.dt < t then s else (s.updFlank f (fun x => { x with timer := none })).dispatch f
  | none => s

end Sys2Proof.Machine
end

