-- ==== Sys2Proof/Machine/AudioRows.lean ====
section
/-!
DEFINITION. Machine/AudioRows.lean: the meanings of the events of streams, branches, audio ports and set-up work (chapters 2, 10, 13 and 14).
-/
namespace Sys2Proof.Machine

/-- MODEL_PLACEMENT (R491 to R493, R724): the package read is validated and placed. -/
def execModelPlacement (port load : Nat) (image : PackageImage) (s : State) : Host.Outcome State Fault Refusal := .next (s.modelPlacement port load image).settle

/-- BINDING_READY (R502): every binding of the pipeline is loaded and its creation completes. -/
def execBindingReady (pipe : Nat) (s : State) : Host.Outcome State Fault Refusal := .next (s.bindingReady pipe).settle

/-- CAST_ON_ALLOCATION_DONE (R55, R68, R516): the stream anchors and enters RESIDENT or CASTLED, or returns to CLOSED. -/
def execCastOnAllocationDone (stream : Nat) (s : State) : Host.Outcome State Fault Refusal := .next (s.castOnDone stream).settle

/-- ATTACH_ALLOCATION_DONE (R76, R527): the branch enters ACTIVE, or returns to ABSENT. -/
def execAttachAllocationDone (branch : Nat) (s : State) : Host.Outcome State Fault Refusal := .next (s.attachDone branch).settle

/-- STREAM_INPUT_SET_EFFECT (R524): the new source supplies frames. -/
def execStreamInputSetEffect (stream : Nat) (s : State) : Host.Outcome State Fault Refusal := .next (s.inputSwitch stream).settle

/-- BRANCH_OUTPUT_SET_EFFECT (R530): the new outputs stand. -/
def execBranchOutputSetEffect (branch : Nat) (s : State) : Host.Outcome State Fault Refusal := .next (s.outputSwitch branch).settle

/-- PORT_ENABLE_EFFECT (R356): the TDM port starts or stops. -/
def execPortEnableEffect (tdm : Nat) (s : State) : Host.Outcome State Fault Refusal := .next (s.enableEffect tdm).settle

/-- LOOPBACK_EFFECT (R542): the receiver takes DOUT, or DIN again. -/
def execLoopbackEffect (tdm : Nat) (s : State) : Host.Outcome State Fault Refusal := .next (s.loopEffect tdm).settle

/-- COMMAND_TIME_LIMIT (R468): a command past its maximum time completes with a device fault status. -/
def execCommandTimeLimit (port id : Nat) (s : State) : Host.Outcome State Fault Refusal := .next (s.timeLimit port id).settle

/-- CHUNK_CLOSE (R58, R69): at C(n) a chunk closes. -/
def execChunkClose (stream : Nat) (s : State) : Host.Outcome State Fault Refusal := .next (s.chunkClose stream).settle

/-- FRAME_CLOSE (R363 to R365, R184): a 10 ms frame ends. -/
def execFrameClose (stream : Nat) (s : State) : Host.Outcome State Fault Refusal := .next (s.frameClose stream).settle

/-- INGRESS_CONDITIONING_DONE (R60, R178): the ingress entry of a chunk is written. -/
def execIngressConditioningDone (stream : Nat) (s : State) : Host.Outcome State Fault Refusal := .next (s.conditioned stream).settle

/-- ZEROISATION_START (R88, R89): with every tag returned the zeroisation writes are issued. -/
def execZeroisationStart (ofBranch : Bool) (slot : Nat) (s : State) : Host.Outcome State Fault Refusal := .next (s.zeroisationStart ofBranch slot).settle

/-- ZEROISATION_DONE (R90): ZEROISED is posted and the stream closes. -/
def execZeroisationDone (stream : Nat) (s : State) : Host.Outcome State Fault Refusal := .next (s.zeroisationDone stream).settle

/-- BRANCH_ZEROISED (R91): a detaching branch moves to ABSENT. -/
def execBranchZeroised (branch : Nat) (s : State) : Host.Outcome State Fault Refusal := .next (s.branchZeroised branch).settle

/-- OUTPUT_CHUNK_START (R83, R368): a chunk of speech starts playing. -/
def execOutputChunkStart (branch : Nat) (s : State) : Host.Outcome State Fault Refusal := .next (s.chunkStart branch).settle

/-- TDM_FRAME (R374 to R381): one frame of a TDM port. -/
def execTdmFrame (tdm : Nat) (words : List Nat) (s : State) : Host.Outcome State Fault Refusal := .next (s.tdmFrame tdm words).settle

/-- HOST_FRAME_FETCH (R384): FX starts reading a host-fed frame. -/
def execHostFrameFetch (stream : Nat) (s : State) : Host.Outcome State Fault Refusal := .next (s.fetchFrame stream).settle

/-- OUTPUT_RING_FRAME_WRITE (R385, R528): an output frame, or a chunk's tokens, is written. -/
def execOutputRingFrameWrite (branch consumed : Nat) (s : State) : Host.Outcome State Fault Refusal := .next (s.ringFrameWrite branch consumed).settle

end Sys2Proof.Machine
end

