-- ==== Sys2Proof/Machine/FabricRows.lean ====
section
/-!
DEFINITION. Machine/FabricRows.lean: the meanings of the stitch fabric's rows (chapter 8).
-/
namespace Sys2Proof.Machine

/-- HOP_RECEIVE (R293 to R300, R313): one sideband word, with the stitch it may carry, at port `port` of router `tile`. -/
def execHopReceive (tile port : Nat) (word : HopWord) (s : State) : Host.Outcome State Fault Refusal := .next (s.hopReceive tile port word).settle

/-- NAK (R296): the sender at a router's port replays what follows ACK_SEQ. -/
def execNak (tile port ackSeq : Nat) (s : State) : Host.Outcome State Fault Refusal := .next (s.nakArrives tile port ackSeq).settle

/-- HOP_ACK_TIMEOUT (R296): 32 FCLK without an acknowledgement: everything unacknowledged is replayed. -/
def execHopAckTimeout (tile port : Nat) (s : State) : Host.Outcome State Fault Refusal := .next (s.hopAckTimeout tile port).settle

/-- LINK_GIVE_UP (R297): after 6 replays without progress the link goes DOWN. -/
def execLinkGiveUp (tile port : Nat) (s : State) : Host.Outcome State Fault Refusal := .next (s.linkGiveUp tile port).settle

/-- INVALID_SIDEBAND_LIMIT (R313): 64 consecutive invalid words take the link DOWN. -/
def execInvalidSidebandLimit (tile port : Nat) (s : State) : Host.Outcome State Fault Refusal := .next (s.sidebandLimit tile port).settle

/-- E2E_STITCH_ARRIVAL (R305 to R307, R319): a REQ or RSP stitch reaches its destination. -/
def execE2eStitchArrival (endpoint : Nat) (st : Stitch) (s : State) : Host.Outcome State Fault Refusal := .next (s.stitchArrives endpoint st).settle

/-- CREDIT (R304, R308, R309): a cumulative credit at the source; with the multicast flag it credits multicast stitches. -/
def execCredit (src dst value : Nat) (multicast : Bool) (s : State) : Host.Outcome State Fault Refusal := .next (s.creditReceived src dst value multicast).settle

/-- CREDIT_TIMER (R307): an uncredited advance of 64 FCLK is credited. -/
def execCreditTimer (src dst : Nat) (s : State) : Host.Outcome State Fault Refusal := .next (s.creditTimer src dst).settle

/-- OPEN (R303): a source asks for a reorder context; it carries the source's next sequence. -/
def execOpenCtx (src dst : Nat) (s : State) : Host.Outcome State Fault Refusal := .next (s.openReceived src dst).settle

/-- CLOSE (R303): the holder answers CLOSE_ACK once it has no unacknowledged stitch, and must OPEN again. -/
def execCloseCtx (src dst : Nat) (s : State) : Host.Outcome State Fault Refusal := .next (s.closeReceived src dst).settle

/-- CLOSE_ACK (R303): the context is free again, and a waiting OPEN takes it. -/
def execCloseAck (src dst : Nat) (s : State) : Host.Outcome State Fault Refusal := .next (s.closeAckReceived src dst).settle

/-- PROBE (R307): the destination answers with a CREDIT. -/
def execProbe (src dst : Nat) (s : State) : Host.Outcome State Fault Refusal := .next (s.probeReceived src dst).settle

/-- PROBE_TIMER (R308): 2,048 FCLK without credit progress: a PROBE; the first starts a credit recovery. -/
def execProbeTimer (src dst : Nat) (s : State) : Host.Outcome State Fault Refusal := .next (s.probeTimer src dst).settle

/-- PROBE_GIVE_UP (R308): 8,192 FCLK after the first PROBE: FABRIC_UNRECOVERABLE and the context is closed. -/
def execProbeGiveUp (src dst : Nat) (s : State) : Host.Outcome State Fault Refusal := .next (s.probeGiveUp src dst).settle

/-- UNREACHABLE (R315): the source learns that a stitch was discarded, and gives the destination up at once. -/
def execUnreachable (src dst sequence : Nat) (s : State) : Host.Outcome State Fault Refusal := .next (s.unreachableReceived src dst sequence).settle

/-- MULTICAST_STITCH (R310 to R312): a router on the path delivers the stitch to its tile, forwards it, or returns the multicast CREDIT at LAST. -/
def execMulticastStitch (tile : Nat) (st : Stitch) (s : State) : Host.Outcome State Fault Refusal := .next (s.multicastAt tile st).settle

/-- NOTICE (R317, R319): an endpoint receives a notice; a fenced one is covered by a CREDIT at once (R307). -/
def execNotice (endpoint : Nat) (st : Stitch) (s : State) : Host.Outcome State Fault Refusal := .next (s.noticeReceived endpoint st).settle

end Sys2Proof.Machine
end

