-- ==== Sys2Proof/Machine/FeedRows.lean ====
section
/-!
DEFINITION. Machine/FeedRows.lean: the meanings of the feeders' and barrier units' rows (chapter 7).
-/
namespace Sys2Proof.Machine

/-- FEEDER_RING_DOORBELL (R243): a producer hands descriptors to a ring. -/
def execFeederRingDoorbell (feeder ring tail deadline : Nat) (descs : List Nat) (s : State) : Host.Outcome State Fault Refusal := .next (s.ringDoorbell feeder ring tail deadline descs).settle

/-- SKEIN (R244): eight descriptors are read at the ring's head. -/
def execSkein (feeder ring : Nat) (s : State) : Host.Outcome State Fault Refusal := .next (s.fetchSkein feeder ring).settle

/-- DESCRIPTOR_START (R245, R249): the head descriptor of earliest deadline that may start starts. -/
def execDescriptorStart (feeder : Nat) (s : State) : Host.Outcome State Fault Refusal := .next (s.startDesc feeder).settle

/-- REQUEST_ISSUE (R246): the feeder issues the request of earliest deadline. -/
def execRequestIssue (feeder : Nat) (s : State) : Host.Outcome State Fault Refusal := .next (s.issueRequest feeder).settle

/-- DONE (R240): the tag of a request that has been stored returns. -/
def execDone (feeder tag : Nat) (s : State) : Host.Outcome State Fault Refusal := .next (s.tagDone feeder tag).settle

/-- DATA (R255): read data arrives. -/
def execData (feeder tag : Nat) (s : State) : Host.Outcome State Fault Refusal := .next (s.dataArrives feeder tag).settle

/-- SWAP (R256): a tile program swaps the halves of a needle pair. -/
def execSwap (tile pair : Nat) (s : State) : Host.Outcome State Fault Refusal := .next (s.swapNeedle tile pair).settle

/-- ARRIVE (R263): operation `op` arrives at a barrier by its task's program. -/
def execArrive (flank index op : Nat) (s : State) : Host.Outcome State Fault Refusal := .next (s.arriveBarrier flank index op (.task op) 7).settle

/-- STALEMATE_CHECK (R265): a barrier without arrival for 6,144 ticks is checked for a deadlock. -/
def execStalemateCheck (flank index : Nat) (s : State) : Host.Outcome State Fault Refusal := .next (s.stalemateCheck flank index).settle

/-- MEM_TIMEOUT (R274): a request's watchdog expires. -/
def execMemTimeout (feeder tag : Nat) (s : State) : Host.Outcome State Fault Refusal := .next (s.memTimeout feeder tag).settle

end Sys2Proof.Machine
end

