-- ==== Sys2Proof/Machine/LeradRows.lean ====
section
/-!
DEFINITION. Machine/LeradRows.lean: the meanings of the Lerad commands (Tables 12-6, 13-1 and 14-1): each is the command of its opcode arriving on its channel.
-/
namespace Sys2Proof.Machine

/-- RING_PAIR_CREATE (R445). -/
def execRingPairCreate (c : Call) (s : State) : Host.Outcome State Fault Refusal := .next (s.lerad c 0x0910)

/-- RING_PAIR_DELETE (R453). -/
def execRingPairDelete (c : Call) (s : State) : Host.Outcome State Fault Refusal := .next (s.lerad c 0x0911)

/-- EVENT_RING_SET (R460, R461). -/
def execEventRingSet (c : Call) (s : State) : Host.Outcome State Fault Refusal := .next (s.lerad c 0x0912)

/-- COALESCE_SET (R466). -/
def execCoalesceSet (c : Call) (s : State) : Host.Outcome State Fault Refusal := .next (s.lerad c 0x0913)

/-- NOP (Table 12-6). -/
def execNop (c : Call) (s : State) : Host.Outcome State Fault Refusal := .next (s.lerad c 0x0914)

/-- PARTITION_QUERY (R482). -/
def execPartitionQuery (c : Call) (s : State) : Host.Outcome State Fault Refusal := .next (s.lerad c 0x0101)

/-- PARTITION_QUOTA_SET (R483, R484). -/
def execPartitionQuotaSet (c : Call) (s : State) : Host.Outcome State Fault Refusal := .next (s.lerad c 0x0102)

/-- PARTITION_HOST_LOSS_SET (R485). -/
def execPartitionHostLossSet (c : Call) (s : State) : Host.Outcome State Fault Refusal := .next (s.lerad c 0x0103)

/-- PARTITION_TRIM_SET (R486). -/
def execPartitionTrimSet (c : Call) (s : State) : Host.Outcome State Fault Refusal := .next (s.lerad c 0x0104)

/-- SITE_QUERY (Table 13-5). -/
def execSiteQuery (c : Call) (s : State) : Host.Outcome State Fault Refusal := .next (s.lerad c 0x0105)

/-- APERTURE_REGISTER (R416). -/
def execApertureRegister (c : Call) (s : State) : Host.Outcome State Fault Refusal := .next (s.lerad c 0x0201)

/-- APERTURE_DEREGISTER (R490, R420). -/
def execApertureDeregister (c : Call) (s : State) : Host.Outcome State Fault Refusal := .next (s.lerad c 0x0202)

/-- MODEL_LOAD (R491). -/
def execModelLoad (c : Call) (s : State) : Host.Outcome State Fault Refusal := .next (s.lerad c 0x0301)

/-- MODEL_QUERY (R495). -/
def execModelQuery (c : Call) (s : State) : Host.Outcome State Fault Refusal := .next (s.lerad c 0x0302)

/-- MODEL_UNLOAD (R496). -/
def execModelUnload (c : Call) (s : State) : Host.Outcome State Fault Refusal := .next (s.lerad c 0x0303)

/-- MODEL_LIST (R497). -/
def execModelList (c : Call) (s : State) : Host.Outcome State Fault Refusal := .next (s.lerad c 0x0304)

/-- PIPELINE_CREATE (R498). -/
def execPipelineCreate (c : Call) (s : State) : Host.Outcome State Fault Refusal := .next (s.lerad c 0x0401)

/-- PIPELINE_QUERY (R504). -/
def execPipelineQuery (c : Call) (s : State) : Host.Outcome State Fault Refusal := .next (s.lerad c 0x0402)

/-- PIPELINE_PREFIX_SET (R505). -/
def execPipelinePrefixSet (c : Call) (s : State) : Host.Outcome State Fault Refusal := .next (s.lerad c 0x0403)

/-- PIPELINE_DELETE (R507). -/
def execPipelineDelete (c : Call) (s : State) : Host.Outcome State Fault Refusal := .next (s.lerad c 0x0404)

/-- PIPELINE_LIST (R497). -/
def execPipelineList (c : Call) (s : State) : Host.Outcome State Fault Refusal := .next (s.lerad c 0x0405)

/-- STREAM_CAST_ON (R514 to R516). -/
def execStreamCastOn (c : Call) (s : State) : Host.Outcome State Fault Refusal := .next (s.lerad c 0x0501)

/-- STREAM_FEED (R518). -/
def execStreamFeed (c : Call) (s : State) : Host.Outcome State Fault Refusal := .next (s.lerad c 0x0502)

/-- STREAM_PAUSE (R519). -/
def execStreamPause (c : Call) (s : State) : Host.Outcome State Fault Refusal := .next (s.lerad c 0x0503)

/-- STREAM_RESUME (R520). -/
def execStreamResume (c : Call) (s : State) : Host.Outcome State Fault Refusal := .next (s.lerad c 0x0504)

/-- STREAM_REWIND (R521). -/
def execStreamRewind (c : Call) (s : State) : Host.Outcome State Fault Refusal := .next (s.lerad c 0x0505)

/-- STREAM_BIND_OFF (R522). -/
def execStreamBindOff (c : Call) (s : State) : Host.Outcome State Fault Refusal := .next (s.lerad c 0x0506)

/-- STREAM_INPUT_SET (R524). -/
def execStreamInputSet (c : Call) (s : State) : Host.Outcome State Fault Refusal := .next (s.lerad c 0x0507)

/-- STREAM_QUERY (R525). -/
def execStreamQuery (c : Call) (s : State) : Host.Outcome State Fault Refusal := .next (s.lerad c 0x0508)

/-- STREAM_LIST (R525). -/
def execStreamList (c : Call) (s : State) : Host.Outcome State Fault Refusal := .next (s.lerad c 0x0509)

/-- BRANCH_ATTACH (R526, R527). -/
def execBranchAttach (c : Call) (s : State) : Host.Outcome State Fault Refusal := .next (s.lerad c 0x0511)

/-- BRANCH_DETACH (R529). -/
def execBranchDetach (c : Call) (s : State) : Host.Outcome State Fault Refusal := .next (s.lerad c 0x0512)

/-- BRANCH_RESUME (R529). -/
def execBranchResume (c : Call) (s : State) : Host.Outcome State Fault Refusal := .next (s.lerad c 0x0513)

/-- BRANCH_OUTPUT_SET (R530). -/
def execBranchOutputSet (c : Call) (s : State) : Host.Outcome State Fault Refusal := .next (s.lerad c 0x0514)

/-- BRANCH_QUERY (R531). -/
def execBranchQuery (c : Call) (s : State) : Host.Outcome State Fault Refusal := .next (s.lerad c 0x0515)

/-- PORT_CONFIGURE (R533). -/
def execPortConfigure (c : Call) (s : State) : Host.Outcome State Fault Refusal := .next (s.lerad c 0x0601)

/-- PORT_ENABLE (R534). -/
def execPortEnable (c : Call) (s : State) : Host.Outcome State Fault Refusal := .next (s.lerad c 0x0602)

/-- PORT_QUERY (R535). -/
def execPortQuery (c : Call) (s : State) : Host.Outcome State Fault Refusal := .next (s.lerad c 0x0603)

/-- TELEMETRY_READ (R536). -/
def execTelemetryRead (c : Call) (s : State) : Host.Outcome State Fault Refusal := .next (s.lerad c 0x0701)

/-- DIAG_JOURNAL_READ (R540). -/
def execDiagJournalRead (c : Call) (s : State) : Host.Outcome State Fault Refusal := .next (s.lerad c 0x0801)

/-- DIAG_INJECT (R541). -/
def execDiagInject (c : Call) (s : State) : Host.Outcome State Fault Refusal := .next (s.lerad c 0x0802)

/-- DIAG_TDM_LOOPBACK (R542). -/
def execDiagTdmLoopback (c : Call) (s : State) : Host.Outcome State Fault Refusal := .next (s.lerad c 0x0803)

/-- DEVICE_QUERY (R543). -/
def execDeviceQuery (c : Call) (s : State) : Host.Outcome State Fault Refusal := .next (s.lerad c 0x0901)

/-- POWER_CAP_SET (R544). -/
def execPowerCapSet (c : Call) (s : State) : Host.Outcome State Fault Refusal := .next (s.lerad c 0x0902)

/-- FIRMWARE_STAGE (R545). -/
def execFirmwareStage (c : Call) (s : State) : Host.Outcome State Fault Refusal := .next (s.lerad c 0x0903)

/-- FIRMWARE_ACTIVATE (R546). -/
def execFirmwareActivate (c : Call) (s : State) : Host.Outcome State Fault Refusal := .next (s.lerad c 0x0904)

/-- DEVICE_RESET (R547). -/
def execDeviceReset (c : Call) (s : State) : Host.Outcome State Fault Refusal := .next (s.lerad c 0x0905)

/-- SITE_CONFIG_STAGE (R548). -/
def execSiteConfigStage (c : Call) (s : State) : Host.Outcome State Fault Refusal := .next (s.lerad c 0x0906)

end Sys2Proof.Machine
end

