-- ==== Sys2Proof/Machine/MemoryRows.lean ====
section
/-!
DEFINITION. Machine/MemoryRows.lean: the meanings of the device memory's rows (chapter 9) and the page cache's (chapter 6).
-/
namespace Sys2Proof.Machine

/-- READ (R331, R332, R341): the channel answers a read request. -/
def execRead (feeder tag : Nat) (upset : List (Nat × Nat)) (s : State) : Host.Outcome State Fault Refusal := .next (s.readRequest feeder tag upset).settle

/-- WRITE (R333, R341): the channel performs a write request. -/
def execWrite (feeder tag : Nat) (s : State) : Host.Outcome State Fault Refusal := .next (s.writeRequest feeder tag).settle

/-- PUT16 (R333): the channel writes sixteen bytes of a burst. -/
def execPut16 (feeder tag : Nat) (upset : List (Nat × Nat)) (s : State) : Host.Outcome State Fault Refusal := .next (s.put16Request feeder tag upset).settle

/-- ZERO (R252): the channel writes zeros. -/
def execZero (feeder tag : Nat) (s : State) : Host.Outcome State Fault Refusal := .next (s.zeroRequest feeder tag).settle

/-- REFRESH_FORCED (R334): a refresh within 2 µs of its deadline takes one slot. -/
def execRefreshForced (channel : Nat) (s : State) : Host.Outcome State Fault Refusal := .next (s.refreshForced channel).settle

/-- PER_BANK_REFRESH (R334): a refresh in a slot no foreground request can use. -/
def execPerBankRefresh (channel : Nat) (s : State) : Host.Outcome State Fault Refusal := .next (s.perBankRefresh channel).settle

/-- SCRUB_READ (R335, R336): the scrub position is read and corrected. -/
def execScrubRead (channel : Nat) (upset : List (Nat × Nat)) (s : State) : Host.Outcome State Fault Refusal := .next (s.scrubRead channel upset).settle

/-- STACK_TEMPERATURE_READOUT (R337, R338, Table 9-5): the readings, and fast refresh from 85 °C until below 82 °C. -/
def execStackTemperatureReadout (stack temp : Nat) (s : State) : Host.Outcome State Fault Refusal := .next (s.stackReadout stack temp).settle

/-- CONTROLLER_RESET (R345): the controller resets. -/
def execControllerReset (channel : Nat) (s : State) : Host.Outcome State Fault Refusal := .next (s.controllerReset channel).settle

/-- CONTROLLER_RESET_DONE (R345, R622): the controller is back and its requests go on. -/
def execControllerResetDone (channel : Nat) (s : State) : Host.Outcome State Fault Refusal := .next (s.controllerResetDone channel).settle

/-- LOOKUP (R218, R222): a tile asks the page service for a holder. -/
def execLookup (tile ppn : Nat) (s : State) : Host.Outcome State Fault Refusal := .next (s.lookup tile ppn).settle

/-- HOLDER (R218): the answer that names a holder. -/
def execHolder (tile ppn holder : Nat) (s : State) : Host.Outcome State Fault Refusal := .next (s.holderAnswer tile ppn holder).settle

/-- NONE (R218, R219): the answer that no tile of the flank holds the page. -/
def execNoneAnswer (tile ppn : Nat) (s : State) : Host.Outcome State Fault Refusal := .next (s.noneAnswer tile ppn).settle

/-- PEER_READ (R218, R219): the holder is read. -/
def execPeerRead (holder ppn requester : Nat) (s : State) : Host.Outcome State Fault Refusal := .next (s.peerRead holder ppn requester).settle

/-- EVICT (R219, R221): a tile drops a page from its frames. -/
def execEvict (tile ppn : Nat) (s : State) : Host.Outcome State Fault Refusal := .next (s.evict tile ppn).settle

/-- INVALIDATE (R220, R221): a holder drops the page. -/
def execInvalidate (tile ppn : Nat) (s : State) : Host.Outcome State Fault Refusal := .next (s.invalidateAt tile ppn).settle

/-- DROPPED (R220): a holder has dropped the page. -/
def execDropped (tile ppn : Nat) (s : State) : Host.Outcome State Fault Refusal := .next (s.droppedAnswer tile ppn).settle

/-- NOT_HELD (R220): the tile held no such page. -/
def execNotHeld (tile ppn : Nat) (s : State) : Host.Outcome State Fault Refusal := .next (s.notHeldAnswer tile ppn).settle

/-- SWEEP_START (R225, R227): the sweep of a free page begins. -/
def execSweepStart (ppn : Nat) (s : State) : Host.Outcome State Fault Refusal := .next (s.sweepStart ppn).settle

/-- SWEEP_COMPLETE (R227): the page is swept. -/
def execSweepComplete (ppn : Nat) (s : State) : Host.Outcome State Fault Refusal := .next (s.sweepComplete ppn).settle

/-- COPY_ON_WRITE_DONE (R206): the copy is complete. -/
def execCopyOnWriteDone (ppn : Nat) (s : State) : Host.Outcome State Fault Refusal := .next (s.copyDone ppn).settle

end Sys2Proof.Machine
end

