-- ==== Sys2Proof/Machine/Mgmt.lean ====
section
/-!
DEFINITION. Machine/Mgmt.lean: management packets and requests (chapter 18). The wire encodings of DSP0236, DSP0240 and DSP0248 are not in the manual: a response is the
list of its fields (log 90).
-/
namespace Sys2Proof.Machine

/-! ## Completion codes (R649, R652, R655; their numbers are PRESUMED from the DSP standards, log 90) -/

/-- SUCCESS. -/
def mgmtOk : Nat := 0
/-- ERROR_INVALID_DATA. -/
def mgmtInvalid : Nat := 2
/-- ERROR_UNSUPPORTED_CMD and ERROR_UNSUPPORTED_PLDM_CMD. -/
def mgmtUnsupported : Nat := 5
/-- ERROR_INVALID_PLDM_TYPE. -/
def mgmtPldmType : Nat := 32
/-- A command's own first code: an unknown sensor, an unsupported message type. -/
def mgmtUnknown : Nat := 128

/-! ## Responses (R648, R651) -/

/-- R13: MCTP and PLDM fields are big-endian: the bytes of a field of `w` bits, the most significant first. -/
def bigEndian (w v : Nat) : List Nat := ((List.range ((w + 7) / 8)).map (fun j => v / 2 ^ (8 * j) % 256)).reverse

/-- The bytes of a response from its completion code on. -/
def responseBytes (code : Nat) (fields : List (Nat × Nat)) : List Nat := code :: fields.flatMap (fun f => bigEndian f.1 f.2)

/-- A response on a medium. -/
def State.sendResponse (s : State) (m : Medium) (dst inst code : Nat) (fields : List (Nat × Nat)) : State :=
  s.sendMgmt (.response { medium := m, dstEid := dst, inst := inst, code := code, fields := fields, bytes := responseBytes code fields })

/-- A message's byte. -/
def Message.byte (x : Message) (i : Nat) : Nat := (x.bytes[i]?).getD 0

/-- The error a waiting message is answered with, none for a command that Tables 18-3 and 18-4 list. -/
def Message.error (x : Message) : Option Nat :=
  if x.byte 0 % 128 = 0 then
    if [1, 2, 3, 4, 5, 6, 11, 12, 14].contains (x.byte 2) then none else some mgmtUnsupported
  else if x.byte 2 % 64 = 0 then (if 1 ≤ x.byte 3 ∧ x.byte 3 ≤ 5 then none else some mgmtUnsupported)
  else if x.byte 2 % 64 = 2 then
    (if [0x04, 0x05, 0x11, 0x12, 0x21, 0x50, 0x51].contains (x.byte 3) then none else some mgmtUnsupported)
  else some mgmtPldmType

/-- Unlisted commands at the head of a medium's messages are answered, in order of arrival (R651, R652, R655). -/
def State.refuseHeads (s : State) (m : Medium) : Nat → State
  | 0 => s
  | fuel + 1 =>
    match (s.medium m).messages with
    | [] => s
    | x :: rest => match x.error with
      | none => s
      | some e => ((s.updMedium m (fun y => { y with messages := rest })).sendResponse m x.srcEid (x.byte 1 % 32) e []).refuseHeads m fuel

/-- Whether the device answers a message addressed to `eid` on a medium (R649). -/
def State.addressed (s : State) (m : Medium) (eid : Nat) : Bool := s.mediumUp m && (eid == 0 || eid == (s.medium m).eid)

/-- A request is handled: the message that carried it, where packets brought one, leaves the queue; the effect and the response follow. -/
def State.serveRequest (s : State) (r : MgmtReq) (f : State → State × Nat × List (Nat × Nat)) : State :=
  if !s.addressed r.medium r.dstEid then s
  else
    let t := s.updMedium r.medium (fun y => { y with messages := y.messages.drop 1 })
    let a := f t
    let u := a.1.sendResponse r.medium r.srcEid r.inst a.2.1 a.2.2
    u.refuseHeads r.medium (u.medium r.medium).messages.length

/-- A request that changes nothing. -/
def State.answerRequest (s : State) (r : MgmtReq) (f : State → Nat × List (Nat × Nat)) : State := s.serveRequest r (fun t => (t, f t))

/-! ## Packets (R646, R647, R649, R654) -/

/-- Whether two keys of a reassembly agree. -/
def Reassembly.matches (x : Reassembly) (p : MctpPacket) : Bool := x.srcEid == p.srcEid && x.msgTag == p.msgTag

/-- A complete message: MCTP control and PLDM requests wait; a message of another type, and a response, is discarded (R654). -/
def State.messageDone (s : State) (m : Medium) (x : Message) : State :=
  let control := x.bytes.length ≠ 0 ∧ x.byte 0 % 128 = 0
  let pldm := x.byte 0 % 128 = 1
  if (control ∨ pldm) ∧ 128 ≤ x.byte 1 then
    let t := s.updMedium m (fun y => { y with messages := y.messages ++ [x] })
    t.refuseHeads m (t.medium m).messages.length
  else s

/-- R640, Table 18-1: the device's 7-bit SMBus address, from GPIO7 (bit 1) and GPIO6 (bit 0) as sampled at the cold reset. -/
def State.smbusAddress (s : State) : Nat :=
  match s.boot.straps with
  | 0 => 0x3A
  | 1 => 0x3B
  | 2 => 0x38
  | _ => 0x39

/-- MCTP_PACKET. On SMBus the device takes a packet sent to its slave address (R640) whose PEC checks (R647). -/
def State.packetArrives (s : State) (m : Medium) (p : MctpPacket) : State :=
  if !s.addressed m p.dstEid || (m == .smbus && (!p.pecOk || p.slave != s.smbusAddress)) || decide (64 < p.payload.length) then s
  else
    let md := s.medium m
    let others := md.parts.filter (fun x => !x.matches p)
    let dropped := s.updMedium m (fun y => { y with parts := others })
    let part := if p.som then (if others.length < 4 then some { srcEid := p.srcEid, msgTag := p.msgTag, nextSeq := p.pktSeq, bytes := [] } else none)
      else md.parts.find? (fun x => x.matches p)
    match part with
    | none => if p.som then dropped else s
    | some x =>
      let bytes := x.bytes ++ p.payload.map (· % 256)
      if x.nextSeq % 4 ≠ p.pktSeq % 4 ∨ 1024 < bytes.length then dropped
      else if p.eom then dropped.messageDone m { srcEid := p.srcEid, bytes := bytes }
      else s.updMedium m (fun y => { y with parts := others ++ [{ x with nextSeq := (p.pktSeq + 1) % 4, bytes := bytes }] })

/-- Whether a message was sent on SMBus. -/
def MgmtSent.onSmbus : MgmtSent → Bool
  | .response r => r.medium == .smbus
  | .discoveryNotify _ => false
  | .platformEvent m _ _ _ _ => m == .smbus

/-- The newest SMBus message removed. -/
def dropNewest (xs : List MgmtSent) : List MgmtSent :=
  match xs.reverse.find? MgmtSent.onSmbus with
  | none => xs
  | some x => (xs.reverse.erase x).reverse

/-- SMBUS_RETRY (R647): a packet that lost arbitration or drew a NACK is sent again; the third sending that fails discards its message. -/
def State.smbusRetry (s : State) (lost : Bool) : State :=
  if !s.endpointRuns || !s.mgmt.sent.any MgmtSent.onSmbus then s
  else if !lost then s.updMedium .smbus (fun y => { y with retries := 0 })
  else if (s.medium .smbus).retries = 0 then s.updMedium .smbus (fun y => { y with retries := 1 })
  else
    let t := s.updMedium .smbus (fun y => { y with retries := 0 })
    { t with mgmt := { t.mgmt with sent := dropNewest t.mgmt.sent } }

/-- SMBUS_BUS_TIMEOUT (R711, Table 20-8): SCL low for 25 to 35 ms: the device releases the bus, and the transfer in progress is over. Between commands the device holds
neither line (DEDUCED, log 95). -/
def State.smbusTimeout (s : State) : State := if s.endpointRuns then s.updMedium .smbus (fun y => { y with retries := 0 }) else s

/-! ## MCTP control commands (R649, R650, R669, Table 18-3) -/

/-- The two MCTP versions of Table 18-3 as (major, minor). -/
def mctpVersion (type : Nat) : Option (Nat × Nat) :=
  if type = 255 ∨ type = 0 then some (1, 3) else if type = 1 then some (1, 0) else none

/-- SET_ENDPOINT_ID: an EID from 0x08 to 0xFE is taken; one that differs from the medium's own clears a receiver on it (R664). -/
def State.setEid (s : State) (m : Medium) (op eid : Nat) : State × Nat × List (Nat × Nat) :=
  if 1 < op ∨ eid < 8 ∨ 254 < eid then (s, mgmtInvalid, [])
  else
    let t := s.updMedium m (fun y => { y with eid := eid })
    let u : State :=
      if (s.medium m).eid ≠ eid ∧ (s.mgmt.receiver.map (·.1)) = some m then { t with mgmt := t.mgmt.clearReceiver } else t
    (u, mgmtOk, [(2, 0), (2, 0), (8, eid), (8, 0)])

/-- GET_ENDPOINT_ID: the current EID, simple endpoint, dynamic EID. -/
def State.getEid (s : State) (m : Medium) : Nat × List (Nat × Nat) := (mgmtOk, [(8, (s.medium m).eid), (2, 0), (2, 0)])

/-- A command on host-port media only. -/
def hostOnly (m : Medium) : Nat :=
  match m with
  | .smbus => mgmtUnsupported
  | .host _ => mgmtOk

/-! ## PLDM for Base (R655, R656, Table 18-4) -/

/-- SET_TID. -/
def State.setTidTo (s : State) (tid : Nat) : State × Nat × List (Nat × Nat) :=
  if tid < 1 ∨ 254 < tid then (s, mgmtInvalid, []) else ({ s with mgmt := { s.mgmt with tid := tid } }, mgmtOk, [])

/-- The PLDM version of a type as (major, minor). -/
def pldmVersion (type : Nat) : Option (Nat × Nat) := if type = 0 then some (1, 1) else if type = 2 then some (1, 2) else none

/-- A type request's error for a type other than 0 and 2 (DSP0240's 0x83, PRESUMED, log 90). -/
def mgmtTypeAbsent : Nat := 131

/-- The command codes of a PLDM type as a bit map. -/
def pldmCommands (type : Nat) : List Nat := if type = 0 then [1, 2, 3, 4, 5] else [0x04, 0x05, 0x0A, 0x11, 0x12, 0x21, 0x50, 0x51]

/-- A bit map of codes. -/
def bitMap (xs : List Nat) : Nat := xs.foldl (fun n k => n + 2 ^ k) 0

/-! ## Event receiver (R664) -/

/-- SET_EVENT_RECEIVER: enable 0 clears the receiver, 1 names one on the medium of the command; another value is not supported (DSP0248's 0x81, PRESUMED, log 90). -/
def State.setReceiver (s : State) (m : Medium) (enable eid : Nat) : State × Nat × List (Nat × Nat) :=
  if enable = 0 then ({ s with mgmt := s.mgmt.clearReceiver }, mgmtOk, [])
  else if enable ≠ 1 then (s, 129, [])
  else if s.mgmt.receiver = some (m, eid) then (s, mgmtOk, [])
  else ({ s with mgmt := { s.mgmt.clearReceiver with receiver := some (m, eid) } }, mgmtOk, [])

/-! ## Sensors (R659 to R662) -/

/-- Table 18-5's IDs. -/
def isNumeric (k : Nat) : Bool := decide (1 ≤ k ∧ k ≤ 35)

/-- Table 18-6's IDs. -/
def isStateSensor (k : Nat) : Bool := decide (64 ≤ k ∧ k ≤ 91)

/-- A signed reading as 32 bits. -/
def reading32 (r : Int) : Nat := unsigned 32 r

/-- GET_SENSOR_READING: the operational state, and while enabled the event state and the reading. -/
def State.sensorReading (s : State) (k : Nat) : Nat × List (Nat × Nat) :=
  if !isNumeric k then (mgmtUnknown, [])
  else
    let o := s.operational k
    (mgmtOk, (8, o.code) :: (if o = .enabled then [(8, (s.thresholds k).next (s.watch k).current (s.reading k)), (32, reading32 (s.reading k))] else []))

/-- A threshold as a field: whether the sensor has it, and its value. -/
def thresholdField (x : Option Int) : List (Nat × Nat) := [(1, bit x.isSome), (32, reading32 (x.getD 0))]

/-- GET_SENSOR_THRESHOLDS: the side, then warning, critical and fatal. -/
def State.sensorThresholds (s : State) (k : Nat) : Nat × List (Nat × Nat) :=
  if !isNumeric k then (mgmtUnknown, [])
  else
    let t := s.thresholds k
    (mgmtOk, (1, bit t.upper) :: (thresholdField t.warning ++ thresholdField t.critical ++ thresholdField t.fatal))

/-- GET_STATE_SENSOR_READINGS: one composite: the operational state, and the state while enabled. TCLK_DIVISOR reads STOPPED in a reset and after a trip. -/
def State.stateReadings (s : State) (k : Nat) : Nat × List (Nat × Nat) :=
  if !isStateSensor k then (mgmtUnknown, [])
  else
    let o := s.operational k
    (mgmtOk, [(8, 1), (8, o.code)] ++ (if o = .enabled ∨ (k = 67 ∧ o = .unavailable) then [(8, s.sensorState k)] else []))

/-! ## The PDR repository (R658) -/

/-- Table 18-6's state set of a state sensor, and how many states it has. -/
def stateSet (k : Nat) : Nat × Nat :=
  if k = 64 then (32769, 6)
  else if k = 65 then (32770, 7)
  else if k = 66 then (32771, 3)
  else if k = 67 then (32772, 4)
  else if k = 68 then (32773, 2)
  else if k ≤ 71 then (32774, 3)
  else if k ≤ 75 then (32775, 4)
  else (32776, 4)

/-- The records: 1 the Terminus Locator PDR, 2 to 36 the numeric sensors, 37 to 64 the state sensors (the handles are the model's: DESIGN CHOICE, log 91). -/
def pdrCount : Nat := 64

/-- GET_PDR_REPOSITORY_INFO: count, size, largest record, update time zero. -/
def pdrInfo : Nat × List (Nat × Nat) := (mgmtOk, [(32, pdrCount), (32, Config.pdrSizes.1), (32, Config.pdrSizes.2), (104, 0)])

/-- Table 18-5: a numeric sensor's unit, by DSP0248's codes (PRESUMED, log 90: 2 °C, 5 V, 6 A, 7 W; a count as 1, unspecified), and its resolution in thousandths of the
unit. -/
def sensorUnit (k : Nat) : Nat × Nat :=
  if k ≤ 23 ∨ k = 28 then (2, 1000)
  else if k = 24 then (7, 1000)
  else if k = 25 then (7, 25000)
  else if k = 26 then (5, 1)
  else if k = 27 then (6, 1000)
  else (1, 1000)

/-- A numeric sensor's thresholds as its PDR holds them: the supported ones and the hysteresis; the values are read with GetSensorThresholds. -/
def Thresholds.pdr (t : Thresholds) : List (Nat × Nat) :=
  [(1, bit t.upper), (1, bit t.warning.isSome), (1, bit t.critical.isSome), (1, bit t.fatal.isSome), (32, reading32 t.hysteresis)]

/-- GET_PDR: the next record's handle and the record; record 0 asks for the first. -/
def State.pdr (s : State) (m : Medium) (record : Nat) : Nat × List (Nat × Nat) :=
  let h := if record = 0 then 1 else record
  if pdrCount < h then (130, [])
  else
    let next := (32, if h = pdrCount then 0 else h + 1)
    if h = 1 then (mgmtOk, [next, (8, 1), (8, s.mgmt.tid), (8, (s.medium m).eid)])
    else if h ≤ 36 then (mgmtOk, [next, (8, 2), (16, h - 1), (8, (sensorUnit (h - 1)).1), (16, (sensorUnit (h - 1)).2)] ++ (s.thresholds (h - 1)).pdr)
    else
      let k := h - 37 + 64
      (mgmtOk, [next, (8, 4), (16, k), (16, (stateSet k).1), (8, (stateSet k).2)])

end Sys2Proof.Machine
end

