-- ==== Sys2Proof/Machine/MgmtRows.lean ====
section
/-!
DEFINITION. Machine/MgmtRows.lean: the meanings of the rows of out-of-band management (chapter 18).
-/
namespace Sys2Proof.Machine

/-- MCTP_PACKET (R646, R647, R649, R654). -/
def execMctpPacket (medium : Medium) (packet : MctpPacket) (s : State) : Host.Outcome State Fault Refusal := .next (s.packetArrives medium packet).settle

/-- SET_ENDPOINT_ID (R649, R650, R664). -/
def execSetEndpointId (r : MgmtReq) (operation eid : Nat) (s : State) : Host.Outcome State Fault Refusal := .next (s.serveRequest r (fun t => t.setEid r.medium operation eid)).settle

/-- GET_ENDPOINT_ID (R669). -/
def execGetEndpointId (r : MgmtReq) (s : State) : Host.Outcome State Fault Refusal := .next (s.answerRequest r (fun t => t.getEid r.medium)).settle

/-- GET_ENDPOINT_UUID (R653): refused in every condition. -/
def execGetEndpointUuid (r : MgmtReq) (s : State) : Host.Outcome State Fault Refusal := .next (s.answerRequest r (fun _ => (mgmtUnsupported, []))).settle

/-- GET_MCTP_VERSION_SUPPORT (R669): base and control 1.3, PLDM messages 1.0. -/
def execGetMctpVersionSupport (r : MgmtReq) (type : Nat) (s : State) : Host.Outcome State Fault Refusal := .next (s.answerRequest r (fun _ => match mctpVersion type with
    | some v => (mgmtOk, [(8, 1), (8, v.1), (8, v.2)])
    | none => (mgmtUnknown, []))).settle

/-- GET_MESSAGE_TYPE_SUPPORT (R654): two types, 0x00 and 0x01. -/
def execGetMessageTypeSupport (r : MgmtReq) (s : State) : Host.Outcome State Fault Refusal := .next (s.answerRequest r (fun _ => (mgmtOk, [(8, 2), (8, 0), (8, 1)]))).settle

/-- GET_VENDOR_DEFINED_MESSAGE_SUPPORT (R669): refused. -/
def execGetVendorDefinedMessageSupport (r : MgmtReq) (s : State) : Host.Outcome State Fault Refusal := .next (s.answerRequest r (fun _ => (mgmtUnsupported, []))).settle

/-- PREPARE_FOR_ENDPOINT_DISCOVERY (R669): host-port media only. -/
def execPrepareForEndpointDiscovery (r : MgmtReq) (s : State) : Host.Outcome State Fault Refusal := .next (s.answerRequest r (fun _ => (hostOnly r.medium, []))).settle

/-- ENDPOINT_DISCOVERY (R669): host-port media only. -/
def execEndpointDiscovery (r : MgmtReq) (s : State) : Host.Outcome State Fault Refusal := .next (s.answerRequest r (fun _ => (hostOnly r.medium, []))).settle

/-- GET_NETWORK_ID (R653): refused in every condition. -/
def execGetNetworkId (r : MgmtReq) (s : State) : Host.Outcome State Fault Refusal := .next (s.answerRequest r (fun _ => (mgmtUnsupported, []))).settle

/-- SET_TID (R656). -/
def execSetTid (r : MgmtReq) (tid : Nat) (s : State) : Host.Outcome State Fault Refusal := .next (s.serveRequest r (fun t => t.setTidTo tid)).settle

/-- GET_TID (R656). -/
def execGetTid (r : MgmtReq) (s : State) : Host.Outcome State Fault Refusal := .next (s.answerRequest r (fun t => (mgmtOk, [(8, t.mgmt.tid)]))).settle

/-- GET_PLDM_VERSION (Table 18-4). -/
def execGetPldmVersion (r : MgmtReq) (type : Nat) (s : State) : Host.Outcome State Fault Refusal := .next (s.answerRequest r (fun _ => match pldmVersion type with
    | some v => (mgmtOk, [(8, v.1), (8, v.2)])
    | none => (mgmtTypeAbsent, []))).settle

/-- GET_PLDM_TYPES (R655): types 0 and 2. -/
def execGetPldmTypes (r : MgmtReq) (s : State) : Host.Outcome State Fault Refusal := .next (s.answerRequest r (fun _ => (mgmtOk, [(64, bitMap [0, 2])]))).settle

/-- GET_PLDM_COMMANDS (Table 18-4). -/
def execGetPldmCommands (r : MgmtReq) (type : Nat) (s : State) : Host.Outcome State Fault Refusal := .next (s.answerRequest r (fun _ =>
    if (pldmVersion type).isNone then (mgmtTypeAbsent, []) else (mgmtOk, [(256, bitMap (pldmCommands type))]))).settle

/-- SET_EVENT_RECEIVER (R664). -/
def execSetEventReceiver (r : MgmtReq) (enable eid : Nat) (s : State) : Host.Outcome State Fault Refusal := .next (s.serveRequest r (fun t => t.setReceiver r.medium enable eid)).settle

/-- GET_EVENT_RECEIVER (Table 18-4). -/
def execGetEventReceiver (r : MgmtReq) (s : State) : Host.Outcome State Fault Refusal := .next (s.answerRequest r (fun t => (mgmtOk, [(1, bit t.mgmt.receiver.isSome), (8, (t.mgmt.receiver.map (·.2)).getD 0)]))).settle

/-- GET_SENSOR_READING (R660 to R662). -/
def execGetSensorReading (r : MgmtReq) (sensor : Nat) (s : State) : Host.Outcome State Fault Refusal := .next (s.answerRequest r (fun t => t.sensorReading sensor)).settle

/-- GET_SENSOR_THRESHOLDS (R659). -/
def execGetSensorThresholds (r : MgmtReq) (sensor : Nat) (s : State) : Host.Outcome State Fault Refusal := .next (s.answerRequest r (fun t => t.sensorThresholds sensor)).settle

/-- GET_STATE_SENSOR_READINGS (R660, R662). -/
def execGetStateSensorReadings (r : MgmtReq) (sensor : Nat) (s : State) : Host.Outcome State Fault Refusal := .next (s.answerRequest r (fun t => t.stateReadings sensor)).settle

/-- GET_PDR_REPOSITORY_INFO (R658). -/
def execGetPdrRepositoryInfo (r : MgmtReq) (s : State) : Host.Outcome State Fault Refusal := .next (s.answerRequest r (fun _ => pdrInfo)).settle

/-- GET_PDR (R658). -/
def execGetPdr (r : MgmtReq) (record : Nat) (s : State) : Host.Outcome State Fault Refusal := .next (s.answerRequest r (fun t => t.pdr r.medium record)).settle

/-- PLATFORM_EVENT_ACK (R666). -/
def execPlatformEventAck (medium : Medium) (sensor : Nat) (s : State) : Host.Outcome State Fault Refusal := .next (s.eventAcked medium sensor).settle

/-- PLATFORM_EVENT_RETRY (R666). -/
def execPlatformEventRetry (sensor : Nat) (s : State) : Host.Outcome State Fault Refusal := .next (s.eventRetry sensor).settle

/-- EVENT_RATE_INTERVAL_END (R665). -/
def execEventRateIntervalEnd (sensor : Nat) (s : State) : Host.Outcome State Fault Refusal := .next (s.rateIntervalEnd sensor).settle

/-- SMBUS_RETRY (R647). -/
def execSmbusRetry (lost : Bool) (s : State) : Host.Outcome State Fault Refusal := .next (s.smbusRetry lost).settle

/-- SMBUS_BUS_TIMEOUT (R711, Table 20-8). -/
def execSmbusBusTimeout (s : State) : Host.Outcome State Fault Refusal := .next s.smbusTimeout.settle

end Sys2Proof.Machine
end

