-- ==== Sys2Proof/Machine/Links.lean ====
section
/-!
DEFINITION. Machine/Links.lean: host links, port resets and HOST_LOSS, requests to host memory and their ends, reading submission entries (chapters 11 and 12).
-/
namespace Sys2Proof.Machine

/-! ## Requests that fail (R405, R423, R425, R454, R471) -/

/-- The address word of a request to host memory (Table 7-3). -/
def State.hostRequestWord (s : State) (n : Nat) (r : HostRequest) : Nat :=
  match r.purpose with
  | .entries k first _ _ => hostWord n r.aperture (((s.port n).pair k).sqOffset + 64 * first)
  | .feedFrame i f first _ => match (s.stream i).source with
    | .ring q => hostWord n r.aperture (q.slotOffset f + first)
    | _ => hostWord n r.aperture 0
  | .discard => hostWord n r.aperture 0
  | .other => match s.request 3 r.fxTag with
    | some q => q.other
    | none => hostWord n r.aperture 0

/-- An entry read that has failed while the port is UP is tried again twice; the third failure makes the pair FAULTED (R454). One that a link loss ended is made
again after the return, and its failures do not count (R471). -/
def State.readFailed (s : State) (n k first count attempts : Nat) (lost : Bool) : State :=
  let r := (s.port n).pair k
  if !r.live || r.deleting || r.faulted then s
  else if lost then s.updPort n (fun p => p.setPair k { r with failed := r.failed ++ [(first, count, attempts, 0)] })
  else if attempts < 2 then s.updPort n (fun p => p.setPair k { r with failed := r.failed ++ [(first, count, attempts + 1, s.dt + 24576)] })
  else
    (s.updPort n (fun p => (p.dropReads k).setPair k { r with faulted := true, reading := 0, got := [], failed := [] })).post n 0x8002 0 (pack [(5, k)])

/-- A request of port `n`, already off the port's list, fails with kind `kind` (4 HOST_TIMEOUT, 5 HOST_ERROR); its FX tag returns now, or with the quarantine. -/
def State.hostFails (s : State) (n : Nat) (r : HostRequest) (kind : Nat) (keepTag lost : Bool) : State :=
  let i : FaultInfo := { kind := kind, feeder := 3, endpoint := 272 + n, detail := if r.fxTag = 65535 then 0 else r.fxTag, address := s.hostRequestWord n r }
  let t := if kind = 4 then s.updFeeder 3 (fun x => { x with cnt := { x.cnt with watchdog := bump 32 x.cnt.watchdog 1 } }) else s
  match r.purpose with
  | .entries k first count attempts => (t.abortOp r.op i).readFailed n k first count attempts lost
  | .other => match t.request 3 r.fxTag with
    | none => t
    | some q =>
      let u := t.requestFault 3 q i
      if keepTag then u.updRequest 3 r.fxTag (fun y => { y with failed := true, quarantined := some s.dt })
      else match u.request 3 r.fxTag with
        | some z => u.returnTag 3 z
        | none => u
  | _ => t.abortOp r.op i

/-- A request taken off a port's list. -/
def HostPort.without (p : HostPort) (r : HostRequest) : HostPort := { p with requests := p.requests.filter (fun x => x.pcieTag != r.pcieTag) }

/-- Apertures that a port reset closed leave once nothing is outstanding into them (R420, Table 11-6). -/
def HostPort.closeQuiet (p : HostPort) : HostPort :=
  { p with apertures := p.apertures.filter (fun e => match e.2 with
      | some a => !(a.closing && p.apertureQuiet e.1 && !p.accepted.any (fun x => x.call.opcode == 0x0202 && x.key == e.1))
      | none => false) }

/-- R405: every outstanding request of the port fails and its tags return; transfers toward the host abort. -/
def State.failPort (s : State) (n : Nat) : State :=
  let rs := (s.port n).requests
  let t := s.updPort n (fun p => { p with requests := [] })
  let u := rs.foldl (fun (v : State) r => v.hostFails n r 4 false true) t
  let posted := (u.feeder 3).requests.filter (fun (q : Request) => q.kind == 4 && field q.other 56 2 == n && !q.failed)
  posted.foldl (fun (v : State) q =>
    v.requestFault 3 q { kind := 4, feeder := 3, endpoint := 272 + n, detail := q.tag, address := q.other }) u

/-! ## Link states (Table 11-5) -/

/-- The configuration-ready bound of 80 ms (R412). -/
def HostPort.train (p : HostPort) (dt : Nat) : HostPort := { p with link := .training, readyBound := some (dt + 1966080) }

/-- PERST# released and Hot Reset exited: DOWN_RESET ends, unless a reset of the device holds (R412, R593). -/
def State.leaveReset (s : State) (n : Nat) : State :=
  let p := s.port n
  if p.link = .downReset ∧ p.perst = false ∧ p.hotReset = false ∧ s.boot.inReset = false then s.setPort n (p.train s.dt) else s

/-- DL_UP (R408): a LOST port writes what it held, sends what is pending and posts LINK_RETURN. -/
def State.dlUp (s : State) (n : Nat) : State :=
  let p := s.port n
  match p.link with
  | .training => (s.setPort n { p with link := .up }).notifyDiscovery n
  | .lost =>
    let q := { p with link := .up, lossDropped := 0 }
    ((s.setPort n (if q.canWrite then q.release s.dt else q)).post n 0x8003 (partHandle n)
      (pack [(2, 0), (14, 0), (48, p.lossDt), (32, p.lossDropped)])).notifyDiscovery n
  | _ => s

/-- DL_DOWN (R405 to R407): the port enters LOST. -/
def State.dlDown (s : State) (n : Nat) : State :=
  let p := s.port n
  if p.link ≠ .up then s
  else
    let q := if p.canWrite then p.noteCapacity else p
    ((s.setPort n { q with link := .lost, lossDropped := 0, lossDt := s.dt,
                           cnt := { q.cnt with linkLosses := bump 32 q.cnt.linkLosses 1 } }).dropMedium n false).failPort n

/-- D3HOT (R401): held entries fill up to the capacity of this moment; requests already issued go on (DEDUCED, log 37). -/
def State.enterD3 (s : State) (n : Nat) : State :=
  let p := s.port n
  if !p.reachable then s else s.setPort n { (if p.canWrite then p.noteCapacity else p) with cfg := { p.cfg with d3hot := true } }

/-- The configuration changed so that the port may, or may no longer, issue memory requests. -/
def State.withConfig (s : State) (n : Nat) (g : PortConfig → PortConfig) : State :=
  let p := s.port n
  let q := { p with cfg := g p.cfg }
  s.setPort n (if q.canWrite && !p.canWrite then q.release s.dt else if p.canWrite && !q.canWrite then { p.noteCapacity with cfg := g p.cfg } else q)

/-- D0_RETURN (R401): the state stands as before; held entries go out, and no HOST_LINK event is posted. -/
def State.leaveD3 (s : State) (n : Nat) : State :=
  let p := s.port n
  if p.link = .up ∧ p.cfg.d3hot = true then s.withConfig n (fun c => { c with d3hot := false }) else s

/-- BUS_MASTER_ENABLE (R421): a configuration write of the host. -/
def State.setBusMaster (s : State) (n : Nat) (on : Bool) : State :=
  let p := s.port n
  if p.link = .up ∧ p.configReady = true then s.withConfig n (fun c => { c with busMaster := on }) else s

/-! ## Port resets (R409 to R414, R473, Table 11-6) -/

/-- Host rings leave the streams and branches of partition `n`. -/
def State.removeRings (s : State) (n : Nat) : State :=
  let strip := fun (x : Source) => match x with
    | .ring _ => Source.none
    | y => y
  { s with
    streams := Table.mapVals {} (fun _ (x : Stream) =>
      if x.part = n ∧ x.state ≠ .closed ∧ x.source.ringOf ≠ none ∨ x.part = n ∧ x.state ≠ .closed ∧ (x.nextSource.bind Source.ringOf) ≠ none then
        { x with source := strip x.source, nextSource := x.nextSource.map strip, fetched := if x.source.ringOf = none then x.fetched else [],
                 arriving := if x.source.ringOf = none then x.arriving else [] }
      else x) s.streams,
    branches := Table.mapVals {} (fun _ (x : Branch) =>
      if x.part = n ∧ x.state ≠ .absent then
        { x with ring := none, outBlock := if x.ring = none then x.outBlock else x.outBlock % 2 ^ 96,
                 nextOut := x.nextOut.map (fun (o : Nat × List (Nat × Nat) × Option HostRing) => (if o.2.2 = none then o.1 else o.1 % 2 ^ 96, o.2.1, none)) }
      else x) s.branches }

/-- The loads of a port fail: their package lies behind apertures that are gone. -/
def State.failLoads (s : State) (n : Nat) : State :=
  let mine := s.loads.filter (fun l => l.port == n)
  let t : State := { s with loads := s.loads.map (fun (l : ModelLoad) => if l.port = n then { l with failed := true } else l) }
  mine.foldl (fun (u : State) l => u.dropRequests l.op) t

/-- What a port holds after its reset: what Table 11-6 keeps, and nothing else. The DT of the last VIOLATION event stays, for R430's limit of one in 24,576 ticks. -/
def HostPort.cleared (p : HostPort) (dt : Nat) (cause : ResetCause) : HostPort :=
  let served := p.fwState == 2 || p.fwState == 3
  HostPort.closeQuiet
    { perst := p.perst, hotReset := p.hotReset, link := p.link, fwState := if served then 3 else p.fwState, eventSeq := p.eventSeq,
      accepted := p.accepted.map (fun e => { e with discarded := true }), nextId := p.nextId,
      apertures := Table.mapVals none (fun _ (a : Option Aperture) => a.map (fun x => { x with closing := true })) p.apertures,
      vlog := { lastEvent := p.vlog.lastEvent },
      requests := p.requests.map (fun r => match r.purpose with
        | .other => r
        | _ => { r with purpose := .discard }),
      quarantine := p.quarantine, pendingReset := if served then some { cause := cause, dt := dt } else none, snap := p.snap, sent := p.sent }

/-- R409: a port reset: outstanding requests of a link that goes down fail, rings leave their streams, loads fail, the port is cleared. -/
def State.portReset (s : State) (n : Nat) (cause : ResetCause) : State :=
  let t := if (s.port n).link = .up ∧ cause ≠ .flr then s.failPort n else s
  (((t.removeRings n).failLoads n).dropMedium n true).updPort n (fun p => p.cleared s.dt cause)

/-- PERST_ASSERTED. -/
def State.perstOn (s : State) (n : Nat) : State :=
  if 4 ≤ n ∨ (s.port n).perst = true then s
  else (s.portReset n .perst).updPort n (fun p => { p with perst := true, hotReset := false, link := .downReset })

/-- PERST_RELEASED. -/
def State.perstOff (s : State) (n : Nat) : State :=
  if 4 ≤ n then s else (s.updPort n (fun p => { p with perst := false })).leaveReset n

/-- HOT_RESET. -/
def State.hotReset (s : State) (n : Nat) : State :=
  if (s.port n).link = .downReset then s
  else (s.portReset n .hotReset).updPort n (fun p => { p with hotReset := true, link := .downReset })

/-- HOT_RESET_EXIT (R412). -/
def State.hotResetExit (s : State) (n : Nat) : State :=
  if (s.port n).hotReset = false then s else (s.updPort n (fun p => { p with hotReset := false })).leaveReset n

/-- FLR (R409, R412): the link stays UP; configuration space answers again within 100 ms. -/
def State.flr (s : State) (n : Nat) : State :=
  let p := s.port n
  if p.link = .up ∧ p.configReady = true then (s.portReset n .flr).updPort n (fun q => { q with readyBound := some (s.dt + 2457600) }) else s

/-- CONFIG_SPACE_READY (R412, R413). -/
def State.configSpaceReady (s : State) (n : Nat) : State :=
  let p := s.port n
  if p.link = .downReset ∨ p.readyBound = none then s else s.setPort n { p with configReady := true, readyBound := none }

/-- Table 11-4's value for a stream: HL_TDM for a stream fed from a TDM slot, HL_HOST for any other; the reserved value 3 changes nothing. -/
def State.lossOf (s : State) (i : Nat) : Nat :=
  let x := s.stream i
  let q := s.part x.part
  let v := match x.source with
    | .tdm _ _ => q.hlTdm
    | _ => q.hlHost
  if v = 3 then 0 else v

/-- HOST_LOSS_APPLY (R410, R413, R414, R725): HOST_LOSS meets every open stream not in BINDING_OFF, the port reads READY, and PORT_RESET is the first entry of the
event ring to come. -/
def State.hostLossApply (s : State) (n : Nat) : State :=
  let p := s.port n
  match p.pendingReset with
  | none => s
  | some r =>
    if !p.configReady || !s.serving then s
    else
      let open' := (s.streams.filter (fun e => e.2.part == n && e.2.state != .closed && e.2.state != .bindingOff)).map (·.1)
      let acts := open'.map (fun i => (i, s.lossOf i))
      let count := fun (v : Nat) => (acts.filter (fun a => a.2 == v)).length
      let e : Event := { code := 0x8003, seq := p.eventSeq, handle := partHandle n, dt := s.dt,
                         data := pack [(2, 1), (2, match r.cause with
                           | .perst => 0
                           | .hotReset => 1
                           | .flr => 2), (11, count 0), (1, 0), (48, r.dt), (11, count 1), (11, count 2)] }
      let t := s.setPort n { p with pendingReset := none, fwState := 2, resetEvent := some e, eventSeq := bump 16 p.eventSeq 1 }
      acts.foldl (fun (u : State) a => u.applyLoss a.1 a.2) t

/-! ## Reading submission entries (R448 to R450, R454) -/

/-- A read of `count` entries from `first` of pair `k` goes out, with the deadline of R448. -/
def State.issueRead (s : State) (n k first count attempts : Nat) : State :=
  match (s.port n).freePcieTag with
  | none => s
  | some pt =>
    let o := s.newOp (.host n) n
    o.1.updPort n (fun p => { p with requests := p.requests ++
      [{ pcieTag := pt, fxTag := 65535, aperture := (p.pair k).sqAperture, op := o.2, purpose := .entries k first count attempts, issued := s.dt,
         deadline := low32 ((p.pair k).doorbellDt + 24576) }] })

/-- How many entries one read of pair `k` takes: at most 4 and what Max_Read_Request_Size allows (R418), none across a 256-byte boundary, none beyond R448's and R449's limits. -/
def HostPort.readCount (p : HostPort) (k : Nat) : Nat :=
  let r := p.pair k
  let start := (r.sqHead + r.reading) % 2 ^ r.sqLog
  min (min (min (4 - start % 4) (max 1 (p.cfg.maxReadRequest / 64))) (r.pendingEntries - r.reading))
    (min (2 ^ r.cqLog - 1 - p.committed k) (512 - p.accepted.length - total (p.pairs.map (fun e => e.2.reading))))

/-- ENTRY_FETCH: the next pair in turn that may be read. -/
def State.entryFetch (s : State) (n : Nat) : State :=
  let p := s.port n
  if p.fwState ≠ 2 then s
  else match ((List.range 32).map (fun j => (p.nextPair + j) % 32)).find? (fun k => p.mayRead k) with
    | none => s
    | some k =>
      if p.freePcieTag.isNone then s
      else
        let r := p.pair k
        let c := p.readCount k
        (s.issueRead n k ((r.sqHead + r.reading) % 2 ^ r.sqLog) c 0).updPort n (fun q =>
          { q.setPair k { q.pair k with reading := r.reading + c } with nextPair := (k + 1) % 32 })

/-- ENTRY_FETCH_RETRY (R454, R471): a failed read of pair `k` whose time has come is made again. -/
def State.fetchRetry (s : State) (n k : Nat) : State :=
  let p := s.port n
  let r := p.pair k
  match r.failed.find? (fun f => decide (f.2.2.2 ≤ s.dt)) with
  | none => s
  | some f =>
    if !p.canWrite || p.fwState != 2 || p.freePcieTag.isNone then s
    else
      let t := s.updPort n (fun q => { q.setPair k { r with failed := r.failed.erase f } with
        cnt := { q.cnt with fetchRetries := bump 32 q.cnt.fetchRetries 1 } })
      t.issueRead n k f.1 f.2.1 f.2.2.1

/-- Entries accepted one after another, in ring order (R450, R457). -/
def State.acceptEntries (s : State) (n k : Nat) : List SqEntry → State
  | [] => s
  | e :: es =>
    let t := s.updPort n (fun p =>
      let r := p.pair k
      p.setPair k { r with sqHead := (r.sqHead + 1) % 2 ^ r.sqLog, reading := r.reading - 1 })
    (t.accept (Call.ofBytes n (.pair k) e.bytes e.extBytes e.data)).acceptEntries n k es

/-- Reads that have ended, from SQ_HEAD on, are accepted. -/
def State.drainReads (s : State) (n k : Nat) : Nat → State
  | 0 => s
  | fuel + 1 =>
    let r := (s.port n).pair k
    match r.got.find? (fun g => g.1 == r.sqHead) with
    | none => s
    | some g =>
      ((s.updPort n (fun p => p.setPair k { r with got := r.got.erase g })).acceptEntries n k g.2).drainReads n k fuel

/-- An entry read has ended. -/
def State.entriesArrive (s : State) (n k first : Nat) (es : List SqEntry) : State :=
  let r := (s.port n).pair k
  if !r.live || r.deleting || r.faulted then s
  else
    (s.updPort n (fun p => p.setPair k { r with got := r.got ++ [(first, es)] })).drainReads n k (r.got.length + 1)

/-! ## Completions (R422 to R425) -/

/-- Data of an FX read arrives: it goes on as a write toward its stack, or is discarded where its work no longer counts (R267, R272). -/
def State.hostData (s : State) (tag value : Nat) : State :=
  match s.request 3 tag with
  | none => s
  | some r =>
    if s.requestDead 3 r then
      (s.updFeeder 3 (fun x => { x with cnt := { x.cnt with sacrificed := bump 64 x.cnt.sacrificed (if r.gambit then r.bytes else 0) } })).returnTag 3 r
    else
      ((s.updFeeder 3 (fun x => { x with cnt := { x.cnt with bytesRead := bump 64 x.cnt.bytesRead r.bytes } })).updRequest 3 tag
        (fun y => { y with read := false, fetched := false, data := value % 2 ^ (8 * r.bytes), issued := s.dt })).inject
          303 (256 + channelOf r.addr / 32) r.op (requestStitches 1 false r.bytes)

/-- What a good completion brings. -/
def State.hostBrings (s : State) (r : HostRequest) (n : Nat) (data : CplData) : State :=
  let done := if (s.port n).requests.any (fun q => q.fxTag == 65535 && q.op == r.op) then s else s.endOps (fun o => o.id == r.op && o.kind == OpKind.host n)
  match r.purpose, data with
  | .entries k first count _, .entries es => done.entriesArrive n k first (es.take count)
  | .feedFrame i f first bytes, .raw v => done.frameArrives i f first bytes v
  | .other, .raw v => s.hostData r.fxTag v
  | _, _ => done

/-- Whether a completion carries what the request asked for. -/
def carriesFor (d : CplData) (r : HostRequest) : Bool :=
  match r.purpose, d with
  | .entries _ _ count _, .entries es => decide (es.length = count)
  | .feedFrame _ _ _ _, .raw _ => true
  | .other, .raw _ => true
  | .discard, _ => true
  | _, _ => false

/-- HOST_COMPLETION: the request succeeds or fails with HOST_ERROR; a completion that no request waits for is unexpected (R424). -/
def State.hostCompletion (s : State) (n tag : Nat) (status : CplStatus) (poisoned : Bool) (data : CplData) : State :=
  let p := s.port n
  if p.link ≠ .up then s
  else match p.requests.find? (fun r => r.pcieTag == tag) with
    | none =>
      let late := bit (p.quarantine.any (fun q => q.pcieTag == tag))
      (s.setPort n { p with cfg := { p.cfg with aerUnexpectedCompletion := true },
                            cnt := { p.cnt with lateCompletions := bump 32 p.cnt.lateCompletions late } }).updFeeder 3
        (fun x => { x with cnt := { x.cnt with late := bump 64 x.cnt.late late } })
    | some r =>
      if status = .ok ∧ poisoned = false then
        if carriesFor data r then ((s.setPort n (p.without r)).hostBrings r n data).updPort n HostPort.closeQuiet else s
      else
        let q := p.without r
        ((s.setPort n { q with cfg := { q.cfg with aerPoisonedTlp := q.cfg.aerPoisonedTlp || poisoned },
                               cnt := { q.cnt with errorCompletions := bump 32 q.cnt.errorCompletions 1 } }).hostFails n r 5 false false).updPort n
          HostPort.closeQuiet

/-- COMPLETION_TIMEOUT (R423): HOST_TIMEOUT, the AER report, and the tag's quarantine of twice the timeout. -/
def State.completionTimeout (s : State) (n tag : Nat) : State :=
  let p := s.port n
  let limit := timeoutTicks p.cfg.completionTimeout
  match p.requests.find? (fun r => r.pcieTag == tag) with
  | none => s
  | some r =>
    if s.dt < r.issued + limit then s
    else
      let q := p.without r
      ((s.setPort n { q with cfg := { q.cfg with aerCompletionTimeout := true },
                             quarantine := q.quarantine ++ [{ pcieTag := tag, fxTag := r.fxTag, ends := s.dt + 2 * limit }],
                             cnt := { q.cnt with completionTimeouts := bump 32 q.cnt.completionTimeouts 1 } }).hostFails n r 4 true false).updPort n
        HostPort.closeQuiet

/-- QUARANTINE_END (R423). -/
def State.quarantineEnd (s : State) (n tag : Nat) : State :=
  let p := s.port n
  match p.quarantine.find? (fun q => q.pcieTag == tag && decide (q.ends ≤ s.dt)) with
  | none => s
  | some q =>
    let t := s.setPort n { p with quarantine := p.quarantine.erase q }
    match t.request 3 q.fxTag with
    | some r => if r.quarantined.isSome && r.kind == 3 then t.returnTag 3 r else t
    | none => t

/-! ## Coalescing (R466) -/

/-- AGG_TIME_EXPIRY: AGG_TIME after the first signal counted the message falls due. -/
def State.aggExpires (s : State) (n v : Nat) : State :=
  let e := (s.port n).vector v
  if e.count = 0 ∨ e.aggTime = 0 ∨ s.dt < e.firstDt + e.aggTime then s else s.updPort n (fun p => p.message v)

end Sys2Proof.Machine
end

