-- ==== Sys2Proof/Machine/Bar0.lean ====
section
/-!
DEFINITION. Machine/Bar0.lean: the BAR0 window of a host port: what each offset reads as, what writes do, doorbells, the mailbox, the MSI-X table, device time and the
telemetry snapshot (chapter 19, R398, R428, R441 to R443, R447, R452, R455, R460).
-/
namespace Sys2Proof.Machine

/-! ## The map (Table 19-1) -/

/-- Whether a byte of BAR0 lies at a reserved offset (R671). -/
def bar0Reserved (x : Nat) : Bool :=
  !(decide (x < 0x2C) || decide (0x1000 ≤ x ∧ x < 0x1208) || decide (0x2000 ≤ x ∧ x < 0x2104) || decide (0x3000 ≤ x ∧ x < 0x3208) ||
    decide (0x4000 ≤ x ∧ x < 0x4008) || decide (0x10000 ≤ x ∧ x < 0x10400) || decide (0x11000 ≤ x ∧ x < 0x11008) || decide (0x20000 ≤ x ∧ x < 0x30000))

/-- R672: whether an access touches a reserved offset. -/
def touchesReserved (off size : Nat) : Bool := (List.range size).any (fun j => bar0Reserved (off + j))

/-- R398: naturally aligned accesses of 4 or 8 bytes. -/
def sizeOk (off size : Nat) : Bool := (size == 4 && off % 4 == 0) || (size == 8 && off % 8 == 0)

/-- The pending-bit array (R687). -/
def HostPort.pendingBits (p : HostPort) : Nat := pack ((List.range 64).map (fun v => (1, bit (p.vector v).pending)))

/-- The four words of an MSI-X table entry (Table 19-6). -/
def Vector64.word (e : Vector64) : Nat → Nat
  | 0 => e.addr
  | 1 => e.upper
  | 2 => e.msgData
  | _ => bit e.mask

/-- A violation log entry's 32 bytes (Table 19-4). -/
def Violation.record (v : Violation) : Nat :=
  pack [(64, v.address), (64, v.dt), (8, v.kind), (2, v.source), (1, bit v.write), (5, 0), (16, v.opcode), (16, v.data), (16, 0), (32, v.seq), (32, 0)]

/-- MBX_STATUS (Table 12-5). -/
def Mailbox.status (m : Mailbox) : Nat := pack [(1, bit m.busy), (1, bit m.done), (1, bit m.irqEn)]

/-- The identity and status block (Table 19-2). -/
def State.identity (s : State) (n off : Nat) : Nat :=
  let ready := (s.port n).fwState = 2
  match off / 4 with
  | 0 => 0x14401EC6
  | 1 => 0x120000B0
  | 2 => s.fwVersion n
  | 3 => (s.port n).fwState
  | 4 => s.boot.status
  | 5 => n + 256 * bit (decide ready && s.isPlan n)
  | 6 => if ready then 0x010104 else 0
  | 7 => pack [(8, 32), (8, 64), (8, 16), (8, 12)]
  | 8 => pack [(8, 12), (8, 14), (12, 512)]
  | 9 => pack [(16, 4096), (16, 240)]
  | _ => 1

/-- The 4 bytes a read at an aligned offset returns; none at a reserved one (R428). -/
def State.bar0Read (s : State) (n off : Nat) : Option Nat :=
  let p := s.port n
  if touchesReserved off 4 then none
  else if off < 0x1000 then some (s.identity n off)
  else if off < 0x1100 then some (field p.mbx.inbound (8 * (off - 0x1000)) 32)
  else if off < 0x1200 then some (field p.mbx.outbound (8 * (off - 0x1100)) 32)
  else if off < 0x1204 then some 0
  else if off < 0x1208 then some p.mbx.status
  else if off < 0x2080 then some (p.pair ((off - 0x2000) / 4)).sqTail
  else if off < 0x2100 then some (p.pair ((off - 0x2080) / 4)).cqHead
  else if off < 0x2104 then some p.events.head
  else if off < 0x3200 then some (field (Table.get {} p.vlog.entries ((off - 0x3000) / 32)).record (8 * (off % 32)) 32)
  else if off < 0x3204 then some (pack [(4, p.vlog.seq % 16), (1, bit p.vlog.wrapped)])
  else if off < 0x3208 then some p.vlog.seq
  else if off < 0x4004 then some (low32 s.dt)
  else if off < 0x4008 then some p.dtLatch
  else if off < 0x10400 then some ((p.vector ((off - 0x10000) / 16)).word (off / 4 % 4))
  else if off < 0x11008 then some (field p.pendingBits (8 * (off - 0x11000)) 32)
  else if off = 0x20000 then some (field p.snap.seq 0 32)
  else if off = 0x20004 then some (field p.snap.seq 32 32)
  else if off = 0x20008 then some (field p.snap.dt 0 32)
  else if off = 0x2000C then some (field p.snap.dt 32 32)
  else some (field (Table.get 0 p.snap.words ((off - 0x20000) / 8)) (8 * (off % 8)) 32)

/-! ## The mailbox (R441 to R443, R680) -/

/-- `size` bytes of an area replaced at byte `off`. -/
def putBytes (area off size value : Nat) : Nat :=
  area % 2 ^ (8 * off) + 2 ^ (8 * off) * (value % 2 ^ (8 * size) + 2 ^ (8 * size) * (area / 2 ^ (8 * (off + size))))

/-- INBOUND_WRITE: the write is stored, or dropped with MBX_BUSY while BUSY or DONE is 1. -/
def State.inboundWrite (s : State) (n off size value : Nat) : State :=
  let p := s.port n
  if p.mbx.busy || p.mbx.done then s.violate n 8 .mmio true off 0 0
  else s.setPort n { p with mbx := { p.mbx with inbound := putBytes p.mbx.inbound (off - 0x1000) size value } }

/-- A write to MBX_STATUS: 1 in DONE hands the mailbox back, IRQ_EN takes the value written. -/
def State.statusWrite (s : State) (n value : Nat) : State :=
  s.updPort n (fun p => { p with mbx := { p.mbx with done := p.mbx.done && !flag value 1, irqEn := flag value 2 } })

/-! ## Doorbells (R447, R452, R455, R460, R681) -/

/-- A doorbell write refused: its violation's DATA is the INDEX written. -/
def State.doorbellRefused (s : State) (n kind off value : Nat) : State := s.violate n kind .mmio true off 0 (value % 65536)

/-- A doorbell write accepted. -/
def HostPort.rang (p : HostPort) : HostPort := { p with cnt := { p.cnt with doorbellWrites := bump 64 p.cnt.doorbellWrites 1 } }

/-- SUBMISSION_TAIL_DOORBELL. -/
def State.sqDoorbell (s : State) (n k value : Nat) : State :=
  let p := s.port n
  let r := p.pair k
  let off := 0x2000 + 4 * k
  if p.fwState ≠ 2 then s
  else if r.live = false then s.doorbellRefused n 9 off value
  else if 2 ^ r.sqLog ≤ value then s.doorbellRefused n 0xA off value
  else if (value + 2 ^ r.sqLog - r.sqHead) % 2 ^ r.sqLog < r.pendingEntries then s.doorbellRefused n 0xB off value
  else s.setPort n (p.setPair k { r with sqTail := value, doorbellDt := s.dt }).rang

/-- COMPLETION_HEAD_DOORBELL. -/
def State.cqDoorbell (s : State) (n k value : Nat) : State :=
  let p := s.port n
  let r := p.pair k
  let off := 0x2080 + 4 * k
  if p.fwState ≠ 2 then s
  else if r.live = false then s.doorbellRefused n 9 off value
  else if 2 ^ r.cqLog ≤ value then s.doorbellRefused n 0xA off value
  else if r.unconsumed < (value + 2 ^ r.cqLog - r.cqHead) % 2 ^ r.cqLog then s.doorbellRefused n 0xB off value
  else s.setPort n (p.setPair k { r with cqHead := value }).rang

/-- EVENT_RING_HEAD_DOORBELL: with an entry handed back, events dropped before are reported (R463). -/
def State.eventDoorbell (s : State) (n value : Nat) : State :=
  let p := s.port n
  let r := p.events
  if p.fwState ≠ 2 then s
  else if r.live = false then s.doorbellRefused n 9 0x2100 value
  else if r.size ≤ value then s.doorbellRefused n 0xA 0x2100 value
  else if r.used < (value + r.size - r.head) % r.size then s.doorbellRefused n 0xB 0x2100 value
  else
    let q := { p with events := { r with head := value } }.rang
    s.setPort n (if value = r.head then q else q.postLost s.dt)

/-! ## MSI-X (R400, R686) -/

/-- A vector that is pending and may send sends its one message. -/
def HostPort.unmask (p : HostPort) (v : Nat) : HostPort := if (p.vector v).pending && p.unmasked v then p.message v else p

/-- A word of an MSI-X table entry written; reserved bits keep reading zero. -/
def HostPort.tableWrite (p : HostPort) (off value : Nat) : HostPort :=
  let v := (off - 0x10000) / 16
  let e := p.vector v
  let w := value % 2 ^ 32
  (p.setVector v (match off / 4 % 4 with
    | 0 => { e with addr := w / 4 * 4 }
    | 1 => { e with upper := w }
    | 2 => { e with msgData := w }
    | _ => { e with mask := flag w 0 })).unmask v

/-- VECTOR_UNMASK (R400): MSI-X enabled, or a function or vector mask cleared. -/
def State.vectorUnmask (s : State) (n : Nat) (what : Unmask) : State :=
  let p := s.port n
  if p.link ≠ .up ∨ p.configReady = false then s
  else match what with
    | .enable => s.setPort n { p with cfg := { p.cfg with msixEnable := true } }.sendPending
    | .functionMask => s.setPort n { p with cfg := { p.cfg with functionMask := false } }.sendPending
    | .vector v => if p.cfg.d3hot || decide (64 ≤ v) then s else s.setPort n ((p.setVector v { p.vector v with mask := false }).unmask v)

/-! ## Accesses -/

/-- One aligned 4-byte write; GO takes what the message's pointer and command read. -/
def State.dwordWrite (s : State) (n off value : Nat) (ext : Option Nat) (data : HostData) : State :=
  if 0x1000 ≤ off ∧ off < 0x1100 then s.inboundWrite n off 4 value
  else if off = 0x1200 then (if flag value 0 then s.goMailbox n ext data else s)
  else if off = 0x1204 then s.statusWrite n value
  else if 0x2000 ≤ off ∧ off < 0x2080 then s.sqDoorbell n ((off - 0x2000) / 4) value
  else if 0x2080 ≤ off ∧ off < 0x2100 then s.cqDoorbell n ((off - 0x2080) / 4) value
  else if off = 0x2100 then s.eventDoorbell n value
  else if 0x10000 ≤ off ∧ off < 0x10400 then s.updPort n (fun p => p.tableWrite off value)
  else s

/-- A write to BAR0 (R398, R428, R455, R672 to R674): an 8-byte one acts as two, lower offset first; the inbound area takes it whole. -/
def State.bar0Write (s : State) (n off size value : Nat) (ext : Option Nat) (data : HostData) : State :=
  if !(s.port n).reachable then s
  else if !sizeOk off size then s.violate n 2 .mmio true off 0 size
  else if touchesReserved off size then s.violate n 1 .mmio true off 0 0
  else if 0x1000 ≤ off ∧ off < 0x1100 then s.inboundWrite n off size value
  else if size = 4 then s.dwordWrite n off (value % 2 ^ 32) ext data
  else (s.dwordWrite n off (value % 2 ^ 32) ext data).dwordWrite n (off + 4) (value / 2 ^ 32 % 2 ^ 32) ext data

/-- A read of BAR0: only DT_LO, read alone, changes anything (R685). -/
def State.bar0Access (s : State) (n off size : Nat) : State :=
  if !(s.port n).reachable then s
  else if !sizeOk off size then s.violate n 2 .mmio false off 0 size
  else if touchesReserved off size then s.violate n 1 .mmio false off 0 0
  else if off = 0x4000 ∧ size = 4 then s.updPort n (fun p => { p with dtLatch := s.dt / 2 ^ 32 % 2 ^ 32 })
  else s

/-- RESERVED_OFFSET_ACCESS (R428, R672). -/
def State.reservedAccess (s : State) (n : Nat) (write : Bool) (off size : Nat) : State :=
  if (s.port n).reachable && touchesReserved off size && sizeOk off size then s.violate n 1 .mmio write off 0 0 else s

/-- MMIO_SIZE (R398). -/
def State.sizeAccess (s : State) (n : Nat) (write : Bool) (off size : Nat) : State :=
  if (s.port n).reachable && !sizeOk off size then s.violate n 2 .mmio write off 0 size else s

/-- MMIO_POISONED (R428): dropped, and reported as a Poisoned TLP Received error. -/
def State.poisonedWrite (s : State) (n off : Nat) : State :=
  if (s.port n).reachable then
    (s.updPort n (fun p => { p with cfg := { p.cfg with aerPoisonedTlp := true } })).violate n 3 .mmio true off 0 0
  else s

/-! ## The snapshot (R688 to R691, Table 19-7) -/

/-- Words from window offset `off` on, keyed by their 8-byte index. -/
def snapRow (off : Nat) (ws : List Nat) : List (Nat × Nat) := (List.range ws.length).map (fun j => (off / 8 + j, ws.getD j 0 % 2 ^ 64))

/-- The window's words as port `n` reads them, lowest offset first. -/
def State.snapWords (s : State) (n : Nat) : List (Nat × Nat) :=
  let p := s.port n
  snapRow 0x10 [1 + 2 ^ 32 * 24576] ++ snapRow 0x40 (s.powerWords.take 23) ++
    (List.range 3).flatMap (fun f => snapRow (0x100 + 64 * f) (s.flankWords f)) ++
    (List.range 6).flatMap (fun k => snapRow (0x200 + 8 * k) [(Table.get {} s.mem.stackRegs k : Stack).entry]) ++
    snapRow 0x240 p.linkCounters ++ snapRow 0x280 p.transport ++
    (List.range 4).flatMap (fun f => snapRow (0x300 + 128 * f) (s.feederWords f)) ++
    (List.range 72).flatMap (fun t => snapRow (0x800 + 8 * t) [s.tileStatus (2 * t) + 2 ^ 32 * s.tileStatus (2 * t + 1)]) ++
    (List.range 144).flatMap (fun t => snapRow (0x1000 + 64 * t) ((s.tileWords t).take 8))

/-- SNAPSHOT_REFRESH (R689): at a whole multiple of 24,576 ticks, while the firmware serves. -/
def State.snapshotRefresh (s : State) : State :=
  if !s.serving || decide (s.dt % 24576 ≠ 0) then s
  else
    (List.range 4).foldl (fun (t : State) n => t.updPort n (fun p =>
      { p with snap := { seq := bump 64 p.snap.seq 2, dt := s.dt, words := (s.snapWords n).filter (fun w => decide (w.2 ≠ 0)) } })) s

end Sys2Proof.Machine
end

