-- ==== Sys2Proof/Machine/PortRows.lean ====
section
/-!
DEFINITION. Machine/PortRows.lean: the meanings of the host ports' rows (chapters 11, 12 and 19).
-/
namespace Sys2Proof.Machine

/-- GO (R441 to R443): the host writes 1 to GO. -/
def execGo (port : Nat) (extBytes : Option Nat) (data : HostData) (s : State) : Host.Outcome State Fault Refusal := .next (s.bar0Write port 0x1200 4 1 extBytes data).settle

/-- DONE_CLEAR (R441): the host writes 1 to DONE, with a value for IRQ_EN. -/
def execDoneClear (port : Nat) (irqEn : Bool) (s : State) : Host.Outcome State Fault Refusal := .next (s.bar0Write port 0x1204 4 (2 + 4 * bit irqEn) none .nothing).settle

/-- INBOUND_WRITE (R442, R680): the host writes the inbound area; `offset` is the BAR0 offset. -/
def execInboundWrite (port offset size value : Nat) (s : State) : Host.Outcome State Fault Refusal := .next (s.bar0Write port offset size value none .nothing).settle

/-- SUBMISSION_TAIL_DOORBELL (R447, R455). -/
def execSubmissionTailDoorbell (port pair value : Nat) (s : State) : Host.Outcome State Fault Refusal := .next (s.bar0Write port (0x2000 + 4 * (pair % 32)) 4 value none .nothing).settle

/-- COMPLETION_HEAD_DOORBELL (R452, R455). -/
def execCompletionHeadDoorbell (port pair value : Nat) (s : State) : Host.Outcome State Fault Refusal := .next (s.bar0Write port (0x2080 + 4 * (pair % 32)) 4 value none .nothing).settle

/-- EVENT_RING_HEAD_DOORBELL (R455, R460, R463). -/
def execEventRingHeadDoorbell (port value : Nat) (s : State) : Host.Outcome State Fault Refusal := .next (s.bar0Write port 0x2100 4 value none .nothing).settle

/-- DT_LO_READ (R685). -/
def execDtLoRead (port : Nat) (s : State) : Host.Outcome State Fault Refusal := .next (s.bar0Access port 0x4000 4).settle

/-- RESERVED_OFFSET_ACCESS (R428, R672). -/
def execReservedOffsetAccess (port : Nat) (write : Bool) (offset size : Nat) (s : State) : Host.Outcome State Fault Refusal := .next (s.reservedAccess port write offset size).settle

/-- MMIO_SIZE (R398). -/
def execMmioSize (port : Nat) (write : Bool) (offset size : Nat) (s : State) : Host.Outcome State Fault Refusal := .next (s.sizeAccess port write offset size).settle

/-- MMIO_POISONED (R428). -/
def execMmioPoisoned (port offset size : Nat) (s : State) : Host.Outcome State Fault Refusal := .next (s.poisonedWrite port offset).settle

/-- REGISTER_WRITE (R673, R674, R688): RW fields take the value, RO fields stay; `offset` is the BAR0 offset. -/
def execRegisterWrite (port offset size value : Nat) (s : State) : Host.Outcome State Fault Refusal := .next (s.bar0Write port offset size value none .nothing).settle

/-- VECTOR_UNMASK (R400): one message per pending vector. -/
def execVectorUnmask (port : Nat) (what : Unmask) (s : State) : Host.Outcome State Fault Refusal := .next (s.vectorUnmask port what).settle

/-- PERST_ASSERTED (R409, Table 11-5). -/
def execPerstAsserted (port : Nat) (s : State) : Host.Outcome State Fault Refusal := .next (s.perstOn port).settle

/-- PERST_RELEASED (R412, R593). -/
def execPerstReleased (port : Nat) (s : State) : Host.Outcome State Fault Refusal := .next (s.perstOff port).settle

/-- HOT_RESET (R409). -/
def execHotReset (port : Nat) (s : State) : Host.Outcome State Fault Refusal := .next (s.hotReset port).settle

/-- HOT_RESET_EXIT (R412). -/
def execHotResetExit (port : Nat) (s : State) : Host.Outcome State Fault Refusal := .next (s.hotResetExit port).settle

/-- FLR (R409, R412). -/
def execFlr (port : Nat) (s : State) : Host.Outcome State Fault Refusal := .next (s.flr port).settle

/-- CONFIG_SPACE_READY (R412, R413). -/
def execConfigSpaceReady (port : Nat) (s : State) : Host.Outcome State Fault Refusal := .next (s.configSpaceReady port).settle

/-- HOST_LOSS_APPLY (R410, R413, R414, R725). -/
def execHostLossApply (port : Nat) (s : State) : Host.Outcome State Fault Refusal := .next (s.hostLossApply port).settle

/-- DL_UP (R408). -/
def execDlUp (port : Nat) (s : State) : Host.Outcome State Fault Refusal := .next (s.dlUp port).settle

/-- DL_DOWN (R405 to R407). -/
def execDlDown (port : Nat) (s : State) : Host.Outcome State Fault Refusal := .next (s.dlDown port).settle

/-- D3HOT (R401). -/
def execD3hot (port : Nat) (s : State) : Host.Outcome State Fault Refusal := .next (s.enterD3 port).settle

/-- D0_RETURN (R401). -/
def execD0Return (port : Nat) (s : State) : Host.Outcome State Fault Refusal := .next (s.leaveD3 port).settle

/-- BUS_MASTER_ENABLE (R421). -/
def execBusMasterEnable (port : Nat) (on : Bool) (s : State) : Host.Outcome State Fault Refusal := .next (s.setBusMaster port on).settle

/-- ENTRY_FETCH (R448, R449). -/
def execEntryFetch (port : Nat) (s : State) : Host.Outcome State Fault Refusal := .next (s.entryFetch port).settle

/-- ENTRY_FETCH_RETRY (R454, R471). -/
def execEntryFetchRetry (port pair : Nat) (s : State) : Host.Outcome State Fault Refusal := .next (s.fetchRetry port pair).settle

/-- AGG_TIME_EXPIRY (R466). -/
def execAggTimeExpiry (port vector : Nat) (s : State) : Host.Outcome State Fault Refusal := .next (s.aggExpires port vector).settle

/-- HOST_COMPLETION (R424, R425). -/
def execHostCompletion (port tag : Nat) (status : CplStatus) (poisoned : Bool) (data : CplData) (s : State) : Host.Outcome State Fault Refusal :=
  .next (s.hostCompletion port tag status poisoned data).settle

/-- COMPLETION_TIMEOUT (R422, R423). -/
def execCompletionTimeout (port tag : Nat) (s : State) : Host.Outcome State Fault Refusal := .next (s.completionTimeout port tag).settle

/-- QUARANTINE_END (R423). -/
def execQuarantineEnd (port tag : Nat) (s : State) : Host.Outcome State Fault Refusal := .next (s.quarantineEnd port tag).settle

/-- SNAPSHOT_REFRESH (R689, R691). -/
def execSnapshotRefresh (s : State) : Host.Outcome State Fault Refusal := .next (s.snapshotRefresh).settle

end Sys2Proof.Machine
end

