-- ==== Sys2Proof/Machine/Supplies.lean ====
section
/-!
DEFINITION. Machine/Supplies.lean: supplies that leave and return, and the host ports at the end of a reset (chapters 16 and 20).
-/
namespace Sys2Proof.Machine

/-- Once a reset of the device has ended, every port whose PERST# is released leaves DOWN_RESET (R593). -/
def State.portsTrain (s : State) : State := (List.range 4).foldl State.leaveReset s

/-- RESET_END (R583, R593). -/
def State.resetEnds (s : State) : State := if s.boot.inReset then s.resetEnd.portsTrain else s

/-- LOCK_REGAINED (R557, R593). -/
def State.lockReturns (s : State) : State := s.lockRegained.portsTrain

/-- POWER_REMOVAL (R577, R699): without VDD_AON nothing but the flash and the levels on the pins remains, and a thermal trip is over; without VDD_IO the low-speed
pins are high-impedance and management does not answer. -/
def State.powerRemoval (s : State) (aon : Bool) : State :=
  if aon then
    { pending := s.pending, free := s.free, ports := Table.mapVals {} (fun _ (p : HostPort) => { perst := p.perst }) s.ports,
      boot := { aonIn := false, ioIn := s.boot.ioIn, inReset := true, flash := s.boot.flash } }
  else s.updBoot (fun b => { b with ioIn := false })

/-- VDD_IO_RETURN (R699): with VDD_AON present throughout, the pins take their states again. -/
def State.ioReturns (s : State) : State := if s.boot.aonIn then s.updBoot (fun b => { b with ioIn := true }) else s

/-- What THERM_TRIP_N shows: asserted from a trip until VDD_AON is removed (R577), and not while VDD_IO is out of range (R699). -/
def State.thermTripAsserted (s : State) : Bool := s.power.tripped && s.boot.aonIn && s.boot.ioIn

end Sys2Proof.Machine
end

