-- ==== Sys2Proof/Machine/PowerRows.lean ====
section
/-!
DEFINITION. Machine/PowerRows.lean: the meanings of the rows of clocks, power, heat, reset and boot (chapters 15 and 16).
-/
namespace Sys2Proof.Machine

/-- GOVERNOR_WINDOW (R565 to R570, R573): the end of a 1 ms window. -/
def execGovernorWindow (m : Measurement) (s : State) : Host.Outcome State Fault Refusal := .next (s.governorWindow m).settle

/-- TRIM_UPDATE (R562). -/
def execTrimUpdate (trim : Int) (s : State) : Host.Outcome State Fault Refusal := .next (s.trimUpdate trim).settle

/-- AVS_TARGET_REACHED (R563). -/
def execAvsTargetReached (s : State) : Host.Outcome State Fault Refusal := .next (s.targetReached).settle

/-- VOLTAGE_WAIT_TIMEOUT (R563). -/
def execVoltageWaitTimeout (s : State) : Host.Outcome State Fault Refusal := .next (s.voltageTimeout).settle

/-- AVS_TRANSACTION_FAIL (R564). -/
def execAvsTransactionFail (s : State) : Host.Outcome State Fault Refusal := .next (s.avsFail).settle

/-- REGULATOR_FAULT (R564). -/
def execRegulatorFault (s : State) : Host.Outcome State Fault Refusal := .next (s.regulatorFault).settle

/-- PROCHOT_ASSERTED (R571, R574). -/
def execProchotAsserted (s : State) : Host.Outcome State Fault Refusal := .next (s.prochotOn).settle

/-- PROCHOT_DEASSERTED (R571, R574). -/
def execProchotDeasserted (s : State) : Host.Outcome State Fault Refusal := .next (s.prochotOff).settle

/-- SENSOR_RECALIBRATION (R576). -/
def execSensorRecalibration (sensor : Nat) (s : State) : Host.Outcome State Fault Refusal := .next (s.recalibrate sensor).settle

/-- THERMAL_TRIP (R577, R608). -/
def execThermalTrip (s : State) : Host.Outcome State Fault Refusal := .next (s.thermalTrip).settle

/-- LOSS_OF_LOCK (R557). -/
def execLossOfLock (s : State) : Host.Outcome State Fault Refusal := .next (s.lossOfLock).settle

/-- LOCK_REGAINED (R557). -/
def execLockRegained (s : State) : Host.Outcome State Fault Refusal := .next (s.lockReturns).settle

/-- COLD_RESET (R583, R614). -/
def execColdReset (straps : Nat) (s : State) : Host.Outcome State Fault Refusal := .next (s.coldReset straps).settle

/-- SYS_RESET (R583, R584). -/
def execSysReset (nanoseconds : Nat) (s : State) : Host.Outcome State Fault Refusal := .next (s.sysReset nanoseconds).settle

/-- RESET_END (R20, R583, R593). -/
def execResetEnd (s : State) : Host.Outcome State Fault Refusal := .next (s.resetEnds).settle

/-- ROM (R592, R602, R604, R609, R610). -/
def execRom (flashReadable : Bool) (s : State) : Host.Outcome State Fault Refusal := .next (s.romDone flashReadable).settle

/-- IMAGE_CHECK (R604). -/
def execImageCheck (passed : Bool) (s : State) : Host.Outcome State Fault Refusal := .next (s.imageCheck passed).settle

/-- TRAINING (R595). -/
def execTraining (failing : Option Nat) (s : State) : Host.Outcome State Fault Refusal := .next (s.training failing).settle

/-- CLEAR (R592). -/
def execClear (s : State) : Host.Outcome State Fault Refusal := .next (s.clearDone).settle

/-- SELF_TEST (R122, R596). -/
def execSelfTest (failing : List Nat) (s : State) : Host.Outcome State Fault Refusal := .next (s.selfTest failing).settle

/-- CONFIG (R592, R605, R609, R573): FW_STATE reads READY. -/
def execConfig (rings : List RingSetup) (s : State) : Host.Outcome State Fault Refusal := .next (s.configDone rings).settle

/-- FW_WATCHDOG (R585). -/
def execFwWatchdog (s : State) : Host.Outcome State Fault Refusal := .next (s.fwWatchdog).settle

/-- BOOT_TIMEOUT (R606). -/
def execBootTimeout (s : State) : Host.Outcome State Fault Refusal := .next (s.bootTimeout).settle

/-- WATCHDOG_REFRESH_STOP (R628). -/
def execWatchdogRefreshStop (s : State) : Host.Outcome State Fault Refusal := .next (s.refreshStop).settle

/-- RESET_DT_REACHED (R547). -/
def execResetDtReached (s : State) : Host.Outcome State Fault Refusal := .next (s.resetDtReached).settle

/-- FLASH_WRITE_DONE (R545, R548, R602, R610). -/
def execFlashWriteDone (ok : Bool) (s : State) : Host.Outcome State Fault Refusal := .next (s.flashWriteDone ok).settle

/-- POWER_REMOVAL (R577, R699). -/
def execPowerRemoval (aon : Bool) (s : State) : Host.Outcome State Fault Refusal := .next (s.powerRemoval aon).settle

/-- VDD_IO_RETURN (R699). -/
def execVddIoReturn (s : State) : Host.Outcome State Fault Refusal := .next (s.ioReturns).settle

end Sys2Proof.Machine
end

