-- ==== Sys2Proof/Machine/Signals.lean ====
section
/-!
DEFINITION. Machine/Signals.lean: the JTAG port and the low-speed pins (R612, R698, R699, R713 to R715, Tables 16-7, 20-1 and 20-2).
-/
namespace Sys2Proof.Machine

/-! ## The test access port (R713 to R715) -/

/-- R713: the instruction an opcode selects; every unlisted one selects BYPASS. -/
def jtagOf (code : Nat) : Jtag :=
  if code = 0 then .extest
  else if code = 1 then .sample
  else if code = 2 then .highz
  else if code = 3 then .clamp
  else .bypass

/-- INSTRUCTION_UPDATE (R715): the instruction of the 8-bit register takes effect; `cells` is what the 156 cells of the boundary register hold (R714). -/
def State.instructionUpdated (s : State) (code cells : Nat) : State :=
  if s.endpointRuns then { s with pins := { instr := jtagOf (code % 256), cells := cells % 2 ^ 156 } } else s

/-- TEST_LOGIC_RESET (R713, R715): BYPASS; the pins are free. -/
def State.testLogicReset (s : State) : State := { s with pins := { s.pins with instr := .bypass } }

/-! ## Pins -/

/-- What the device does at a pin. `active` is a pin that carries its protocol's traffic, its level being none of the model's. -/
inductive PinDrive where
  | highZ | released | input | low | high | active
deriving DecidableEq, Repr

/-- The signals with boundary cells that the device may drive (Table 20-1), and the inputs as one kind. -/
inductive Pin where
  | perst (n : Nat)
  | tdmBclk (t : Nat)
  | tdmFs (t : Nat)
  | tdmDin (t : Nat)
  | tdmDout (t : Nat)
  | qspiClk
  | qspiCs
  | qspiIo (i : Nat)
  | smbScl
  | smbSda
  | avsClk
  | avsMdata
  | avsSdata
  | refclk
  | sysReset
  | prochot
  | thermTrip
  | gpio (i : Nat)
deriving DecidableEq, Repr

/-- The first cell of a signal (R714): the cells follow the rows of Table 20-1, within a row the signals in the order named, then port or bit. -/
def Pin.cell : Pin → Nat
  | .perst n => n
  | .tdmBclk t => 4 + 2 * t
  | .tdmFs t => 36 + 2 * t
  | .tdmDin t => 68 + t
  | .tdmDout t => 84 + 2 * t
  | .qspiClk => 116
  | .qspiCs => 118
  | .qspiIo i => 120 + 3 * i
  | .smbScl => 132
  | .smbSda => 135
  | .avsClk => 138
  | .avsMdata => 140
  | .avsSdata => 142
  | .refclk => 143
  | .sysReset => 144
  | .prochot => 145
  | .thermTrip => 146
  | .gpio i => 148 + i

/-- Where a signal's output cell stands from its first cell: none for an input, 0 for an output, 1 for a bidirectional signal. -/
def Pin.outputCell : Pin → Option Nat
  | .perst _ => none
  | .tdmDin _ => none
  | .avsSdata => none
  | .refclk => none
  | .sysReset => none
  | .prochot => none
  | .gpio _ => none
  | .qspiIo _ => some 1
  | .smbScl => some 1
  | .smbSda => some 1
  | _ => some 0

/-- Whether a signal is of class OD. -/
def Pin.openDrain : Pin → Bool
  | .smbScl => true
  | .smbSda => true
  | .thermTrip => true
  | _ => false

/-- What the boundary register makes of a signal: an enable cell of 1 drives it; an OD pin is only ever pulled low (R714). -/
def Pins.drive (p : Pins) (x : Pin) : PinDrive :=
  match x.outputCell with
  | none => .input
  | some k =>
    let out := flag p.cells (x.cell + k)
    let en := flag p.cells (x.cell + k + 1)
    if x.openDrain then (if en && !out then .low else .released)
    else if en then (if out then .high else .low) else .highZ

/-- THERM_TRIP_N: driven low from a trip until VDD_AON is removed (R577). -/
def State.thermTripPin (s : State) : PinDrive := if s.power.tripped then .low else .released

/-- The functional state of a signal while the device is powered (Tables 16-7 and 20-2): in a reset, from its end until READY, and after. -/
def State.functional (s : State) (x : Pin) : PinDrive :=
  let service := s.boot.stage == .ready && !s.boot.inReset
  match x with
  | .tdmBclk t => if service && (s.tdm t).state != .disabled then .active else .low
  | .tdmFs t => if service && (s.tdm t).state != .disabled then .active else .low
  | .tdmDout t => if service && (s.tdm t).state != .disabled then .active else .low
  | .qspiClk => if s.power.tripped then .low else if s.boot.inReset then .highZ else .active
  | .qspiCs => if s.power.tripped then .high else if s.boot.inReset then .highZ else if s.boot.writing.isSome then .active else .high
  | .qspiIo _ => if s.boot.inReset then .highZ else .released
  | .smbScl => .active
  | .smbSda => .active
  | .avsClk => if s.boot.inReset then .low else .active
  | .avsMdata => if s.boot.inReset then .high else .active
  | .thermTrip => s.thermTripPin
  | _ => .input

/-- What the device does at a signal: nothing without VDD_AON and VDD_IO (R699); what JTAG asks for (R715); else its function. -/
def State.pin (s : State) (x : Pin) : PinDrive :=
  if !s.endpointRuns then .highZ
  else match s.pins.instr with
    | .extest => s.pins.drive x
    | .clamp => s.pins.drive x
    | .highz => if x.outputCell.isSome then .highZ else .input
    | .sample => s.functional x
    | .bypass => s.functional x

/-! ## The ball map (R692, R693, R718, Tables 20-1, 20-13 and 20-14) -/

/-- The power rails that reach balls. -/
inductive Rail where
  | core | sram | fab | mphy | hbmQ | hbm | hbmPp | pcie | pcieA | pll | io | aon
deriving DecidableEq, Repr

/-- The test access port's signals. -/
inductive JtagBall where
  | tck | tms | tdi | tdo | trst
deriving DecidableEq, Repr

/-- What a ball carries. -/
inductive Ball where
  /-- Ground. -/
  | vss
  | power (r : Rail)
  /-- A low-speed signal, or a port's PERST#. -/
  | signal (x : Pin)
  /-- A lane's transmit (HPn_TX) or receive half, its P or N wire. -/
  | lane (port k : Nat) (tx p : Bool)
  | hostClock (port : Nat) (p : Bool)
  | jtag (x : JtagBall)
  /-- VDD_CORE_SENSE. -/
  | sense (p : Bool)
deriving DecidableEq, Repr

/-- Region C: the fabric bands, the storage bands and the core area with its two sense pins. -/
def ballC (c l : Nat) : Ball :=
  let even := (c + l) % 2 == 0
  if c ≤ 16 ∨ 62 ≤ c then (if even then .vss else .power .fab)
  else if l ≤ 22 ∨ 56 ≤ l then (if even then .vss else .power .sram)
  else if c = 39 ∧ l = 40 then .sense true
  else if c = 39 ∧ l = 38 then .sense false
  else if (c + l) % 3 = 0 then .vss else .power .core

/-- Regions N and S: the rail of a line, counted from the die outward. -/
def lineRail (l : Nat) : Rail :=
  let out := if 60 ≤ l then l - 60 else 18 - l
  if out < 4 then .mphy else if out < 10 then .hbmQ else if out < 16 then .hbm else .hbmPp

/-- Region W: host port n on lines 19n + 1 to 19n + 19. -/
def ballW (c l : Nat) : Ball :=
  let n := (l - 1) / 19
  let j := (l - 1) % 19
  if l = 77 ∨ j % 2 = 0 then .vss
  else if c = 9 then .power .pcie
  else if c = 10 then (if j = 3 ∨ j = 9 ∨ j = 15 then .power .pcieA else .vss)
  else if j = 17 then
    (if c = 2 then .hostClock n true else if c = 3 then .hostClock n false else if c = 6 then .signal (.perst n) else .vss)
  else if c = 2 ∨ c = 3 then .lane n (j / 2) true (c == 2)
  else if c = 6 ∨ c = 7 then .lane n (j / 2) false (c == 6)
  else .vss

/-- Table 20-14: region E's balls in columns 73 to 77 of a line other than a TDM port's. -/
def lineE (l : Nat) : List Ball :=
  match l with
  | 1 => [.power .pll, .signal (.gpio 4), .signal (.gpio 5), .vss, .signal .refclk]
  | 3 => [.power .pll, .signal (.gpio 0), .signal (.gpio 1), .signal (.gpio 2), .signal (.gpio 3)]
  | 69 => [.vss, .signal .qspiClk, .signal .qspiCs, .signal (.qspiIo 0), .signal (.qspiIo 1)]
  | 71 => [.vss, .signal (.qspiIo 2), .signal (.qspiIo 3), .signal .smbScl, .signal .smbSda]
  | 73 => [.vss, .signal .avsClk, .signal .avsMdata, .signal .avsSdata, .signal .thermTrip]
  | 75 => [.vss, .signal .sysReset, .signal .prochot, .signal (.gpio 6), .signal (.gpio 7)]
  | 77 => [.jtag .tck, .jtag .tms, .jtag .tdi, .jtag .tdo, .jtag .trst]
  | _ => []

/-- Region E: the TDM ports on lines 4n + 5, the rails of columns 71 and 72, and Table 20-14. -/
def ballE (c l : Nat) : Ball :=
  let n := (l - 5) / 4
  if 5 ≤ l ∧ (l - 5) % 4 = 0 ∧ n < 16 ∧ 74 ≤ c then
    .signal (if c = 74 then .tdmBclk n else if c = 75 then .tdmFs n else if c = 76 then .tdmDin n else .tdmDout n)
  else if c = 72 ∧ 7 ≤ l ∧ l ≤ 63 ∧ (l - 7) % 8 = 0 then .power .io
  else if c = 72 ∧ (l = 1 ∨ l = 3) then .power .pll
  else if c = 71 ∧ 71 ≤ l ∧ l % 2 = 1 then .power .aon
  else if 73 ≤ c then ((lineE l)[c - 73]?).getD .vss
  else .vss

/-- R718: what ball (c, l) carries, column c from the west edge and line l from the south, each 1 to 77. -/
def ball (c l : Nat) : Ball :=
  if c ≤ 10 then ballW c l
  else if 68 ≤ c then ballE c l
  else if 19 ≤ l ∧ l ≤ 59 then ballC c l
  else if (c + l) % 2 = 0 then .vss else .power (lineRail l)

/-- How many of the package's 5,929 balls carry what a test accepts (Table 20-13). -/
def ballCount (p : Ball → Bool) : Nat :=
  (List.range' 1 77).foldl (fun n c => n + ((List.range' 1 77).filter (fun l => p (ball c l))).length) 0

end Sys2Proof.Machine
end

