-- ==== Sys2Proof/Machine/SignalRows.lean ====
section
/-!
DEFINITION. Machine/SignalRows.lean: the meanings of the rows of the test access port (chapter 20).
-/
namespace Sys2Proof.Machine

/-- INSTRUCTION_UPDATE (R713 to R715). -/
def execInstructionUpdate (code cells : Nat) (s : State) : Host.Outcome State Fault Refusal := .next (s.instructionUpdated code cells).settle

/-- TEST_LOGIC_RESET (R713, R715). -/
def execTestLogicReset (s : State) : Host.Outcome State Fault Refusal := .next s.testLogicReset.settle

end Sys2Proof.Machine
end

