-- ==== Sys2Proof/Machine/TaskRows.lean ====
section
/-!
DEFINITION. Machine/TaskRows.lean: the meanings of dispatch, tasks, repair, castling, frogging and commits (chapters 2, 3 and 5).
-/
namespace Sys2Proof.Machine

/-- ITEM_ELIGIBLE (R61, R62, R109 to R111): a chunk becomes an item and the dispatcher acts. -/
def execItemEligible (stage : Stage) (obj row rows attended : Nat) (s : State) : Host.Outcome State Fault Refusal :=
  .next (s.admitItem stage obj row rows attended).settle

/-- DISPATCH_TIMER (R111): a timer the dispatcher set expires. -/
def execDispatchTimer (flank : Nat) (s : State) : Host.Outcome State Fault Refusal := .next (s.timerExpires flank).settle

/-- TASK (R104, R201): a tile runs its part of the task, allocating pages as it needs them. -/
def execTask (tile : Nat) (work : List TileOp) (s : State) : Host.Outcome State Fault Refusal := .next (s.taskAt tile work).settle

/-- BLOCK_PRODUCT (R114 to R116, R123, R133): a block product is residue-checked before accumulation; the first of a reduction begins it at zero. -/
def execBlockProduct (tile : Nat) (head : BlockHead) (x w first rerun : List (List Int)) (s : State) : Host.Outcome State Fault Refusal :=
  .next (s.blockStep tile head.fmt head.begins x w first rerun).settle

/-- DRAIN_COMPLETE (R117, R317, R320): with no stitch in flight the tables are rewritten and the spare loads. -/
def execDrainComplete (flank : Nat) (s : State) : Host.Outcome State Fault Refusal := .next (s.drainComplete flank).settle

/-- DRAIN_TIMEOUT (R318): contexts still busy are closed and their operations abort. -/
def execDrainTimeout (flank : Nat) (s : State) : Host.Outcome State Fault Refusal := .next (s.drainTimeout flank).settle

/-- SPARE_LOADED (R117): the spare becomes ENABLED and dispatch resumes. -/
def execSpareLoaded (flank : Nat) (s : State) : Host.Outcome State Fault Refusal := .next (s.spareLoaded flank).settle

/-- RESLICE_LOADED (R119): the re-sliced bindings are loaded and dispatch resumes. -/
def execResliceLoaded (flank : Nat) (s : State) : Host.Outcome State Fault Refusal := .next (s.resliceLoaded flank).settle

/-- TASK_END (R111, R148, R165, R177): a task completes; gauges, state, handoff entries, commits, then the dispatcher. -/
def execTaskEnd (flank : Nat) (result : TaskResult) (s : State) : Host.Outcome State Fault Refusal := .next (s.taskEnd flank result).settle

/-- TASK_WATCHDOG (R621 to R623): a task whose watchdog expires aborts. -/
def execTaskWatchdog (flank : Nat) (s : State) : Host.Outcome State Fault Refusal := .next (s.taskWatchdog flank).settle

/-- FLAG_FALL (R78 to R82): a branch's work misses its deadline and its policy applies. -/
def execFlagFall (branch : Nat) (stage : Stage) (row : Nat) (s : State) : Host.Outcome State Fault Refusal := .next (s.flagFall branch stage row).settle

/-- FLAG_FALL_INTERVAL_END (R86): the merged report. -/
def execFlagFallIntervalEnd (branch : Nat) (s : State) : Host.Outcome State Fault Refusal := .next (s.flagIntervalEnd branch).settle

/-- CASTLING_IN_START (R181, R185): the queued stream of earliest deadline takes its slots. -/
def execCastlingInStart (flank : Nat) (s : State) : Host.Outcome State Fault Refusal := .next (s.castInStart flank).settle

/-- CASTLING_IN_DONE (R185): every section is loaded and the stream enters RESIDENT. -/
def execCastlingInDone (stream : Nat) (s : State) : Host.Outcome State Fault Refusal := .next (s.castingInEnds stream).settle

/-- COMMIT_COMPLETE (R174): the directory entry flips to the half just written. -/
def execCommitComplete (stage : Stage) (obj : Nat) (s : State) : Host.Outcome State Fault Refusal := .next (s.commitComplete stage obj).settle

/-- FROG_RESTORE_DONE (R189): the affected sections are restored and chunks after ROW run again. -/
def execFrogRestoreDone (stream : Nat) (s : State) : Host.Outcome State Fault Refusal := .next (s.restoreEnds stream).settle

/-- RELAYOUT (R501): the flank's tile stores are laid out anew. -/
def execRelayout (flank : Nat) (s : State) : Host.Outcome State Fault Refusal := .next (s.relayoutStart flank).settle

/-- RELAYOUT_DONE (R501): the new layout stands and dispatch resumes. -/
def execRelayoutDone (flank : Nat) (s : State) : Host.Outcome State Fault Refusal := .next (s.relayoutDone flank).settle

end Sys2Proof.Machine
end

