-- ==== Sys2Proof/Machine/Dispatch.lean ====
section
/-!
DEFINITION. Machine/Dispatch.lean: one arm per row of the table, each the direct call of that row's meaning.
-/
namespace Sys2Proof.Machine

def exec (i : Instr) (s : State) : Host.Outcome State Fault Refusal :=
  match i with
  | .ringPairCreate c => Sys2Proof.Machine.execRingPairCreate c s
  | .ringPairDelete c => Sys2Proof.Machine.execRingPairDelete c s
  | .eventRingSet c => Sys2Proof.Machine.execEventRingSet c s
  | .coalesceSet c => Sys2Proof.Machine.execCoalesceSet c s
  | .nop c => Sys2Proof.Machine.execNop c s
  | .partitionQuery c => Sys2Proof.Machine.execPartitionQuery c s
  | .partitionQuotaSet c => Sys2Proof.Machine.execPartitionQuotaSet c s
  | .partitionHostLossSet c => Sys2Proof.Machine.execPartitionHostLossSet c s
  | .partitionTrimSet c => Sys2Proof.Machine.execPartitionTrimSet c s
  | .siteQuery c => Sys2Proof.Machine.execSiteQuery c s
  | .apertureRegister c => Sys2Proof.Machine.execApertureRegister c s
  | .apertureDeregister c => Sys2Proof.Machine.execApertureDeregister c s
  | .modelLoad c => Sys2Proof.Machine.execModelLoad c s
  | .modelPlacement port load image => Sys2Proof.Machine.execModelPlacement port load image s
  | .modelQuery c => Sys2Proof.Machine.execModelQuery c s
  | .modelUnload c => Sys2Proof.Machine.execModelUnload c s
  | .modelList c => Sys2Proof.Machine.execModelList c s
  | .pipelineCreate c => Sys2Proof.Machine.execPipelineCreate c s
  | .bindingReady pipe => Sys2Proof.Machine.execBindingReady pipe s
  | .relayout flank => Sys2Proof.Machine.execRelayout flank s
  | .pipelineQuery c => Sys2Proof.Machine.execPipelineQuery c s
  | .pipelinePrefixSet c => Sys2Proof.Machine.execPipelinePrefixSet c s
  | .pipelineDelete c => Sys2Proof.Machine.execPipelineDelete c s
  | .pipelineList c => Sys2Proof.Machine.execPipelineList c s
  | .streamCastOn c => Sys2Proof.Machine.execStreamCastOn c s
  | .castOnAllocationDone stream => Sys2Proof.Machine.execCastOnAllocationDone stream s
  | .streamFeed c => Sys2Proof.Machine.execStreamFeed c s
  | .streamPause c => Sys2Proof.Machine.execStreamPause c s
  | .streamResume c => Sys2Proof.Machine.execStreamResume c s
  | .streamRewind c => Sys2Proof.Machine.execStreamRewind c s
  | .streamBindOff c => Sys2Proof.Machine.execStreamBindOff c s
  | .streamInputSet c => Sys2Proof.Machine.execStreamInputSet c s
  | .streamInputSetEffect stream => Sys2Proof.Machine.execStreamInputSetEffect stream s
  | .streamQuery c => Sys2Proof.Machine.execStreamQuery c s
  | .streamList c => Sys2Proof.Machine.execStreamList c s
  | .branchAttach c => Sys2Proof.Machine.execBranchAttach c s
  | .attachAllocationDone branch => Sys2Proof.Machine.execAttachAllocationDone branch s
  | .branchDetach c => Sys2Proof.Machine.execBranchDetach c s
  | .branchResume c => Sys2Proof.Machine.execBranchResume c s
  | .branchOutputSet c => Sys2Proof.Machine.execBranchOutputSet c s
  | .branchOutputSetEffect branch => Sys2Proof.Machine.execBranchOutputSetEffect branch s
  | .branchQuery c => Sys2Proof.Machine.execBranchQuery c s
  | .portConfigure c => Sys2Proof.Machine.execPortConfigure c s
  | .portEnable c => Sys2Proof.Machine.execPortEnable c s
  | .portEnableEffect tdm => Sys2Proof.Machine.execPortEnableEffect tdm s
  | .portQuery c => Sys2Proof.Machine.execPortQuery c s
  | .telemetryRead c => Sys2Proof.Machine.execTelemetryRead c s
  | .diagJournalRead c => Sys2Proof.Machine.execDiagJournalRead c s
  | .diagInject c => Sys2Proof.Machine.execDiagInject c s
  | .diagTdmLoopback c => Sys2Proof.Machine.execDiagTdmLoopback c s
  | .loopbackEffect tdm => Sys2Proof.Machine.execLoopbackEffect tdm s
  | .deviceQuery c => Sys2Proof.Machine.execDeviceQuery c s
  | .powerCapSet c => Sys2Proof.Machine.execPowerCapSet c s
  | .firmwareStage c => Sys2Proof.Machine.execFirmwareStage c s
  | .flashWriteDone ok => Sys2Proof.Machine.execFlashWriteDone ok s
  | .firmwareActivate c => Sys2Proof.Machine.execFirmwareActivate c s
  | .deviceReset c => Sys2Proof.Machine.execDeviceReset c s
  | .resetDtReached => Sys2Proof.Machine.execResetDtReached s
  | .siteConfigStage c => Sys2Proof.Machine.execSiteConfigStage c s
  | .commandTimeLimit port id => Sys2Proof.Machine.execCommandTimeLimit port id s
  | .go port extBytes data => Sys2Proof.Machine.execGo port extBytes data s
  | .doneClear port irqEn => Sys2Proof.Machine.execDoneClear port irqEn s
  | .inboundWrite port offset size value => Sys2Proof.Machine.execInboundWrite port offset size value s
  | .submissionTailDoorbell port pair value => Sys2Proof.Machine.execSubmissionTailDoorbell port pair value s
  | .completionHeadDoorbell port pair value => Sys2Proof.Machine.execCompletionHeadDoorbell port pair value s
  | .eventRingHeadDoorbell port value => Sys2Proof.Machine.execEventRingHeadDoorbell port value s
  | .dtLoRead port => Sys2Proof.Machine.execDtLoRead port s
  | .reservedOffsetAccess port write offset size => Sys2Proof.Machine.execReservedOffsetAccess port write offset size s
  | .mmioSize port write offset size => Sys2Proof.Machine.execMmioSize port write offset size s
  | .mmioPoisoned port offset size => Sys2Proof.Machine.execMmioPoisoned port offset size s
  | .registerWrite port offset size value => Sys2Proof.Machine.execRegisterWrite port offset size value s
  | .vectorUnmask port what => Sys2Proof.Machine.execVectorUnmask port what s
  | .perstAsserted port => Sys2Proof.Machine.execPerstAsserted port s
  | .perstReleased port => Sys2Proof.Machine.execPerstReleased port s
  | .hotReset port => Sys2Proof.Machine.execHotReset port s
  | .flr port => Sys2Proof.Machine.execFlr port s
  | .configSpaceReady port => Sys2Proof.Machine.execConfigSpaceReady port s
  | .hostLossApply port => Sys2Proof.Machine.execHostLossApply port s
  | .dlUp port => Sys2Proof.Machine.execDlUp port s
  | .dlDown port => Sys2Proof.Machine.execDlDown port s
  | .d3hot port => Sys2Proof.Machine.execD3hot port s
  | .d0Return port => Sys2Proof.Machine.execD0Return port s
  | .busMasterEnable port on => Sys2Proof.Machine.execBusMasterEnable port on s
  | .entryFetch port => Sys2Proof.Machine.execEntryFetch port s
  | .entryFetchRetry port pair => Sys2Proof.Machine.execEntryFetchRetry port pair s
  | .aggTimeExpiry port vector => Sys2Proof.Machine.execAggTimeExpiry port vector s
  | .hostCompletion port tag status poisoned data => Sys2Proof.Machine.execHostCompletion port tag status poisoned data s
  | .completionTimeout port tag => Sys2Proof.Machine.execCompletionTimeout port tag s
  | .quarantineEnd port tag => Sys2Proof.Machine.execQuarantineEnd port tag s
  | .feederRingDoorbell feeder ring tail deadline descs => Sys2Proof.Machine.execFeederRingDoorbell feeder ring tail deadline descs s
  | .skein feeder ring => Sys2Proof.Machine.execSkein feeder ring s
  | .descriptorStart feeder => Sys2Proof.Machine.execDescriptorStart feeder s
  | .requestIssue feeder => Sys2Proof.Machine.execRequestIssue feeder s
  | .done feeder tag => Sys2Proof.Machine.execDone feeder tag s
  | .data feeder tag => Sys2Proof.Machine.execData feeder tag s
  | .swap tile pair => Sys2Proof.Machine.execSwap tile pair s
  | .arrive flank index op => Sys2Proof.Machine.execArrive flank index op s
  | .stalemateCheck flank index => Sys2Proof.Machine.execStalemateCheck flank index s
  | .memTimeout feeder tag => Sys2Proof.Machine.execMemTimeout feeder tag s
  | .read feeder tag upset => Sys2Proof.Machine.execRead feeder tag upset s
  | .write feeder tag => Sys2Proof.Machine.execWrite feeder tag s
  | .put16 feeder tag upset => Sys2Proof.Machine.execPut16 feeder tag upset s
  | .zero feeder tag => Sys2Proof.Machine.execZero feeder tag s
  | .refreshForced channel => Sys2Proof.Machine.execRefreshForced channel s
  | .scrubRead channel upset => Sys2Proof.Machine.execScrubRead channel upset s
  | .stackTemperatureReadout stack temp => Sys2Proof.Machine.execStackTemperatureReadout stack temp s
  | .controllerReset channel => Sys2Proof.Machine.execControllerReset channel s
  | .controllerResetDone channel => Sys2Proof.Machine.execControllerResetDone channel s
  | .hopReceive tile port word => Sys2Proof.Machine.execHopReceive tile port word s
  | .nak tile port ackSeq => Sys2Proof.Machine.execNak tile port ackSeq s
  | .hopAckTimeout tile port => Sys2Proof.Machine.execHopAckTimeout tile port s
  | .linkGiveUp tile port => Sys2Proof.Machine.execLinkGiveUp tile port s
  | .invalidSidebandLimit tile port => Sys2Proof.Machine.execInvalidSidebandLimit tile port s
  | .e2eStitchArrival endpoint st => Sys2Proof.Machine.execE2eStitchArrival endpoint st s
  | .credit src dst value multicast => Sys2Proof.Machine.execCredit src dst value multicast s
  | .creditTimer src dst => Sys2Proof.Machine.execCreditTimer src dst s
  | .openCtx src dst => Sys2Proof.Machine.execOpenCtx src dst s
  | .closeCtx src dst => Sys2Proof.Machine.execCloseCtx src dst s
  | .closeAck src dst => Sys2Proof.Machine.execCloseAck src dst s
  | .probe src dst => Sys2Proof.Machine.execProbe src dst s
  | .probeTimer src dst => Sys2Proof.Machine.execProbeTimer src dst s
  | .probeGiveUp src dst => Sys2Proof.Machine.execProbeGiveUp src dst s
  | .unreachable src dst sequence => Sys2Proof.Machine.execUnreachable src dst sequence s
  | .multicastStitch tile st => Sys2Proof.Machine.execMulticastStitch tile st s
  | .notice endpoint st => Sys2Proof.Machine.execNotice endpoint st s
  | .lookup tile ppn => Sys2Proof.Machine.execLookup tile ppn s
  | .holder tile ppn holder => Sys2Proof.Machine.execHolder tile ppn holder s
  | .noneAnswer tile ppn => Sys2Proof.Machine.execNoneAnswer tile ppn s
  | .peerRead holder ppn requester => Sys2Proof.Machine.execPeerRead holder ppn requester s
  | .evict tile ppn => Sys2Proof.Machine.execEvict tile ppn s
  | .invalidate tile ppn => Sys2Proof.Machine.execInvalidate tile ppn s
  | .dropped tile ppn => Sys2Proof.Machine.execDropped tile ppn s
  | .notHeld tile ppn => Sys2Proof.Machine.execNotHeld tile ppn s
  | .sweepStart ppn => Sys2Proof.Machine.execSweepStart ppn s
  | .sweepComplete ppn => Sys2Proof.Machine.execSweepComplete ppn s
  | .copyOnWriteDone ppn => Sys2Proof.Machine.execCopyOnWriteDone ppn s
  | .itemEligible stage obj row rows attended => Sys2Proof.Machine.execItemEligible stage obj row rows attended s
  | .dispatchTimer flank => Sys2Proof.Machine.execDispatchTimer flank s
  | .task tile work => Sys2Proof.Machine.execTask tile work s
  | .blockProduct tile head x w first rerun => Sys2Proof.Machine.execBlockProduct tile head x w first rerun s
  | .drainComplete flank => Sys2Proof.Machine.execDrainComplete flank s
  | .spareLoaded flank => Sys2Proof.Machine.execSpareLoaded flank s
  | .resliceLoaded flank => Sys2Proof.Machine.execResliceLoaded flank s
  | .taskEnd flank result => Sys2Proof.Machine.execTaskEnd flank result s
  | .taskWatchdog flank => Sys2Proof.Machine.execTaskWatchdog flank s
  | .flagFall branch stage row => Sys2Proof.Machine.execFlagFall branch stage row s
  | .flagFallIntervalEnd branch => Sys2Proof.Machine.execFlagFallIntervalEnd branch s
  | .chunkClose stream => Sys2Proof.Machine.execChunkClose stream s
  | .frameClose stream => Sys2Proof.Machine.execFrameClose stream s
  | .ingressConditioningDone stream => Sys2Proof.Machine.execIngressConditioningDone stream s
  | .castlingInStart flank => Sys2Proof.Machine.execCastlingInStart flank s
  | .castlingInDone stream => Sys2Proof.Machine.execCastlingInDone stream s
  | .commitComplete stage obj => Sys2Proof.Machine.execCommitComplete stage obj s
  | .frogRestoreDone stream => Sys2Proof.Machine.execFrogRestoreDone stream s
  | .zeroisationStart ofBranch slot => Sys2Proof.Machine.execZeroisationStart ofBranch slot s
  | .zeroisationDone stream => Sys2Proof.Machine.execZeroisationDone stream s
  | .branchZeroised branch => Sys2Proof.Machine.execBranchZeroised branch s
  | .outputChunkStart branch => Sys2Proof.Machine.execOutputChunkStart branch s
  | .tdmFrame tdm words => Sys2Proof.Machine.execTdmFrame tdm words s
  | .hostFrameFetch stream => Sys2Proof.Machine.execHostFrameFetch stream s
  | .outputRingFrameWrite branch consumed => Sys2Proof.Machine.execOutputRingFrameWrite branch consumed s
  | .governorWindow m => Sys2Proof.Machine.execGovernorWindow m s
  | .trimUpdate trim => Sys2Proof.Machine.execTrimUpdate trim s
  | .avsTargetReached => Sys2Proof.Machine.execAvsTargetReached s
  | .voltageWaitTimeout => Sys2Proof.Machine.execVoltageWaitTimeout s
  | .avsTransactionFail => Sys2Proof.Machine.execAvsTransactionFail s
  | .regulatorFault => Sys2Proof.Machine.execRegulatorFault s
  | .prochotAsserted => Sys2Proof.Machine.execProchotAsserted s
  | .prochotDeasserted => Sys2Proof.Machine.execProchotDeasserted s
  | .sensorRecalibration sensor => Sys2Proof.Machine.execSensorRecalibration sensor s
  | .thermalTrip => Sys2Proof.Machine.execThermalTrip s
  | .lossOfLock => Sys2Proof.Machine.execLossOfLock s
  | .lockRegained => Sys2Proof.Machine.execLockRegained s
  | .coldReset straps => Sys2Proof.Machine.execColdReset straps s
  | .sysReset nanoseconds => Sys2Proof.Machine.execSysReset nanoseconds s
  | .resetEnd => Sys2Proof.Machine.execResetEnd s
  | .rom flashReadable => Sys2Proof.Machine.execRom flashReadable s
  | .imageCheck passed => Sys2Proof.Machine.execImageCheck passed s
  | .training failing => Sys2Proof.Machine.execTraining failing s
  | .clear => Sys2Proof.Machine.execClear s
  | .selfTest failing => Sys2Proof.Machine.execSelfTest failing s
  | .config rings => Sys2Proof.Machine.execConfig rings s
  | .fwWatchdog => Sys2Proof.Machine.execFwWatchdog s
  | .bootTimeout => Sys2Proof.Machine.execBootTimeout s
  | .watchdogRefreshStop => Sys2Proof.Machine.execWatchdogRefreshStop s
  | .snapshotRefresh => Sys2Proof.Machine.execSnapshotRefresh s
  | .mctpPacket medium packet => Sys2Proof.Machine.execMctpPacket medium packet s
  | .setEndpointId r operation eid => Sys2Proof.Machine.execSetEndpointId r operation eid s
  | .getEndpointId r => Sys2Proof.Machine.execGetEndpointId r s
  | .getEndpointUuid r => Sys2Proof.Machine.execGetEndpointUuid r s
  | .getMctpVersionSupport r type => Sys2Proof.Machine.execGetMctpVersionSupport r type s
  | .getMessageTypeSupport r => Sys2Proof.Machine.execGetMessageTypeSupport r s
  | .getVendorDefinedMessageSupport r => Sys2Proof.Machine.execGetVendorDefinedMessageSupport r s
  | .prepareForEndpointDiscovery r => Sys2Proof.Machine.execPrepareForEndpointDiscovery r s
  | .endpointDiscovery r => Sys2Proof.Machine.execEndpointDiscovery r s
  | .getNetworkId r => Sys2Proof.Machine.execGetNetworkId r s
  | .setTid r tid => Sys2Proof.Machine.execSetTid r tid s
  | .getTid r => Sys2Proof.Machine.execGetTid r s
  | .getPldmVersion r type => Sys2Proof.Machine.execGetPldmVersion r type s
  | .getPldmTypes r => Sys2Proof.Machine.execGetPldmTypes r s
  | .getPldmCommands r type => Sys2Proof.Machine.execGetPldmCommands r type s
  | .setEventReceiver r enable eid => Sys2Proof.Machine.execSetEventReceiver r enable eid s
  | .getEventReceiver r => Sys2Proof.Machine.execGetEventReceiver r s
  | .getSensorReading r sensor => Sys2Proof.Machine.execGetSensorReading r sensor s
  | .getSensorThresholds r sensor => Sys2Proof.Machine.execGetSensorThresholds r sensor s
  | .getStateSensorReadings r sensor => Sys2Proof.Machine.execGetStateSensorReadings r sensor s
  | .getPdrRepositoryInfo r => Sys2Proof.Machine.execGetPdrRepositoryInfo r s
  | .getPdr r record => Sys2Proof.Machine.execGetPdr r record s
  | .platformEventAck medium sensor => Sys2Proof.Machine.execPlatformEventAck medium sensor s
  | .platformEventRetry sensor => Sys2Proof.Machine.execPlatformEventRetry sensor s
  | .eventRateIntervalEnd sensor => Sys2Proof.Machine.execEventRateIntervalEnd sensor s
  | .smbusRetry lost => Sys2Proof.Machine.execSmbusRetry lost s
  | .instructionUpdate code cells => Sys2Proof.Machine.execInstructionUpdate code cells s
  | .testLogicReset => Sys2Proof.Machine.execTestLogicReset s
  | .powerRemoval aon => Sys2Proof.Machine.execPowerRemoval aon s
  | .vddIoReturn => Sys2Proof.Machine.execVddIoReturn s
  | .hotResetExit port => Sys2Proof.Machine.execHotResetExit port s
  | .drainTimeout flank => Sys2Proof.Machine.execDrainTimeout flank s
  | .perBankRefresh channel => Sys2Proof.Machine.execPerBankRefresh channel s
  | .relayoutDone flank => Sys2Proof.Machine.execRelayoutDone flank s
  | .smbusBusTimeout => Sys2Proof.Machine.execSmbusBusTimeout s

end Sys2Proof.Machine
end

