-- ==== Sys2Proof/WellFormed.lean ====
section
/-!
DEFINITION. WellFormed.lean: the ranges of a command's operands. exec is total and does not read it; a claim may assume it.
-/
namespace Sys2Proof

/-- A Lerad message: port 0 to 3, ring pair 0 to 31 (R445), header fields of Table 12-1's widths, at most 240 inline bytes. -/
def Call.wellFormed (c : Call) : Bool :=
  decide (c.port < 4) && (match c.chan with
    | .mailbox => true
    | .pair k => decide (k < 32)) &&
  decide (c.opcode < 2 ^ 16 ∧ c.resFlags < 2 ^ 6 ∧ c.version < 2 ^ 8 ∧ c.tag < 2 ^ 16 ∧ c.length < 2 ^ 16 ∧ c.handle < 2 ^ 32 ∧ c.body < 2 ^ 1920)

/-- A host port, HP0 to HP3 (Model of chapter 11). -/
def portOk (n : Nat) : Bool := decide (n < 4)

/-- A flank (Model of chapter 3). -/
def flankOk (n : Nat) : Bool := decide (n < 3)

/-- A tile, by physical coordinate 12 × file + rank − 1 (chapter 3). -/
def tileOk (n : Nat) : Bool := decide (n < 144)

/-- A TDM port, 0 to 15 (R692). -/
def tdmOk (n : Nat) : Bool := decide (n < 16)

/-- A feeder, and a tag of the 15 bits of Table 8-2. -/
def tagOk (feeder tag : Nat) : Bool := decide (feeder < 4 ∧ tag < 32768)

/-- A pseudo-channel, one of 192 (R325). -/
def channelOk (n : Nat) : Bool := decide (n < 192)

/-- An endpoint ID has 10 bits (Table 8-2). -/
def endpointOk (n : Nat) : Bool := decide (n < 1024)

/-- A physical page number has 25 bits (Table 6-2). -/
def ppnOk (n : Nat) : Bool := decide (n < 2 ^ 25)

/-- A stream slot (chapter 1, Collisions). -/
def streamOk (n : Nat) : Bool := decide (n < 1024)

/-- A branch slot (chapter 1, Collisions). -/
def branchOk (n : Nat) : Bool := decide (n < 2048)

/-- A slot of a stage's item: a branch has the larger range. -/
def stageSlotOk (stage : Stage) (obj : Nat) : Bool := if stage = .encode then streamOk obj else branchOk obj

/-- The upset of a burst of 32 bytes: offsets, and differences other than zero. -/
def upsetOk (u : List (Nat × Nat)) : Bool := u.all (fun e => decide (e.2 < 256 ∧ 0 < e.2))

/-- A stitch (Table 8-2). -/
def Stitch.wellFormed (x : Stitch) : Bool :=
  decide (x.dest < 1024 ∧ x.source < 1024 ∧ x.seq < 4096 ∧ x.cls < 4 ∧ x.kind < 64 ∧ x.length ≤ 32 ∧ x.tag < 32768 ∧ x.payload < 2 ^ 256)

/-- What a receiver finds (Table 8-6). -/
def HopWord.wellFormed (w : HopWord) : Bool :=
  decide (w.hopSeq < 256 ∧ w.ackSeq < 256 ∧ w.detours < 8 ∧ w.credits < 4096) && (match w.stitch with
    | none => true
    | some x => x.wellFormed)

/-- An access to BAR0, 1 MiB (R397). -/
def bar0Ok (port offset : Nat) : Bool := portOk port && decide (offset < 1048576)

/-- A management medium. -/
def Medium.wellFormed : Medium → Bool
  | .smbus => true
  | .host n => portOk n

/-- A management request: EIDs of 8 bits (R649), an instance of 5 bits. -/
def MgmtReq.wellFormed (r : MgmtReq) : Bool := r.medium.wellFormed && decide (r.dstEid < 256 ∧ r.srcEid < 256 ∧ r.inst < 32)

/-- A management packet (R646): at most 64 payload bytes. -/
def MctpPacket.wellFormed (p : MctpPacket) : Bool :=
  decide (p.dstEid < 256 ∧ p.srcEid < 256 ∧ p.pktSeq < 4 ∧ p.msgTag < 16 ∧ p.slave < 128 ∧ p.payload.length ≤ 64) && p.payload.all (fun b => decide (b < 256))

/-- What the vector unit does to a group. -/
def LaneStep.wellFormed : LaneStep → Bool
  | .mul coefs _ => coefs.length == 32
  | .add g => g.shaped
  | .put g => g.shaped

/-- One thing a tile does: an operand group is an S16 group (R129), a needle pair one of 1 to 15 with halves of a multiple of 256 bytes, 256 bytes to
256 KiB (R253), a group of query heads 1 to 8 (R208). -/
def TileOp.wellFormed : TileOp → Bool
  | .combine a b => a.shaped && b.shaped
  | .scan _ _ _ steps context => (steps ++ context).all (fun p => p.all LaneStep.wellFormed)
  | .backward _ _ steps => steps.all (fun p => p.all LaneStep.wellFormed)
  | .attend _ _ _ _ _ queries => decide (1 ≤ queries.length ∧ queries.length ≤ 8)
  | .needle pair _ size _ => decide (1 ≤ pair ∧ pair ≤ 15 ∧ size % 256 = 0 ∧ 256 ≤ size ∧ size ≤ 262144)
  | _ => true

/-- The ranges of every command's operands. -/
def Instr.wellFormed : Instr → Bool
  | .ringPairCreate c => c.wellFormed
  | .ringPairDelete c => c.wellFormed
  | .eventRingSet c => c.wellFormed
  | .coalesceSet c => c.wellFormed
  | .nop c => c.wellFormed
  | .partitionQuery c => c.wellFormed
  | .partitionQuotaSet c => c.wellFormed
  | .partitionHostLossSet c => c.wellFormed
  | .partitionTrimSet c => c.wellFormed
  | .siteQuery c => c.wellFormed
  | .apertureRegister c => c.wellFormed
  | .apertureDeregister c => c.wellFormed
  | .modelLoad c => c.wellFormed
  | .modelPlacement port _ _ => portOk port
  | .modelQuery c => c.wellFormed
  | .modelUnload c => c.wellFormed
  | .modelList c => c.wellFormed
  | .pipelineCreate c => c.wellFormed
  | .bindingReady pipe => decide (pipe < 32)
  | .relayout flank => flankOk flank
  | .pipelineQuery c => c.wellFormed
  | .pipelinePrefixSet c => c.wellFormed
  | .pipelineDelete c => c.wellFormed
  | .pipelineList c => c.wellFormed
  | .streamCastOn c => c.wellFormed
  | .castOnAllocationDone stream => streamOk stream
  | .streamFeed c => c.wellFormed
  | .streamPause c => c.wellFormed
  | .streamResume c => c.wellFormed
  | .streamRewind c => c.wellFormed
  | .streamBindOff c => c.wellFormed
  | .streamInputSet c => c.wellFormed
  | .streamInputSetEffect stream => streamOk stream
  | .streamQuery c => c.wellFormed
  | .streamList c => c.wellFormed
  | .branchAttach c => c.wellFormed
  | .attachAllocationDone branch => branchOk branch
  | .branchDetach c => c.wellFormed
  | .branchResume c => c.wellFormed
  | .branchOutputSet c => c.wellFormed
  | .branchOutputSetEffect branch => branchOk branch
  | .branchQuery c => c.wellFormed
  | .portConfigure c => c.wellFormed
  | .portEnable c => c.wellFormed
  | .portEnableEffect tdm => tdmOk tdm
  | .portQuery c => c.wellFormed
  | .telemetryRead c => c.wellFormed
  | .diagJournalRead c => c.wellFormed
  | .diagInject c => c.wellFormed
  | .diagTdmLoopback c => c.wellFormed
  | .loopbackEffect tdm => tdmOk tdm
  | .deviceQuery c => c.wellFormed
  | .powerCapSet c => c.wellFormed
  | .firmwareStage c => c.wellFormed
  | .flashWriteDone _ => true
  | .firmwareActivate c => c.wellFormed
  | .deviceReset c => c.wellFormed
  | .resetDtReached => true
  | .siteConfigStage c => c.wellFormed
  | .commandTimeLimit port _ => portOk port
  | .go port _ _ => portOk port
  | .doneClear port _ => portOk port
  | .inboundWrite port offset size value => bar0Ok port offset && decide (1 ≤ size ∧ size ≤ 8) && decide (value < 256 ^ size)
  | .submissionTailDoorbell port pair value => portOk port && decide (pair < 32) && decide (value < 2 ^ 32)
  | .completionHeadDoorbell port pair value => portOk port && decide (pair < 32) && decide (value < 2 ^ 32)
  | .eventRingHeadDoorbell port value => portOk port && decide (value < 2 ^ 32)
  | .dtLoRead port => portOk port
  | .reservedOffsetAccess port _ offset size => bar0Ok port offset && decide (1 ≤ size ∧ size ≤ 8)
  | .mmioSize port _ offset _ => bar0Ok port offset
  | .mmioPoisoned port offset size => bar0Ok port offset && decide (1 ≤ size ∧ size ≤ 8)
  | .registerWrite port offset size value => bar0Ok port offset && decide (1 ≤ size ∧ size ≤ 8) && decide (value < 256 ^ size)
  | .vectorUnmask port _ => portOk port
  | .perstAsserted port => portOk port
  | .perstReleased port => portOk port
  | .hotReset port => portOk port
  | .flr port => portOk port
  | .configSpaceReady port => portOk port
  | .hostLossApply port => portOk port
  | .dlUp port => portOk port
  | .dlDown port => portOk port
  | .d3hot port => portOk port
  | .d0Return port => portOk port
  | .busMasterEnable port _ => portOk port
  | .entryFetch port => portOk port
  | .entryFetchRetry port pair => portOk port && decide (pair < 32)
  | .aggTimeExpiry port vector => portOk port && decide (vector < 64)
  | .hostCompletion port tag _ _ _ => portOk port && decide (tag < 1024)
  | .completionTimeout port tag => portOk port && decide (tag < 1024)
  | .quarantineEnd port tag => portOk port && decide (tag < 1024)
  | .feederRingDoorbell feeder ring tail deadline _ => decide (feeder < 4) && decide (ring < 256) && decide (tail < 65536 ∧ deadline < 2 ^ 32)
  | .skein feeder ring => decide (feeder < 4) && decide (ring < 256)
  | .descriptorStart feeder => decide (feeder < 4)
  | .requestIssue feeder => decide (feeder < 4)
  | .done feeder tag => tagOk feeder tag
  | .data feeder tag => tagOk feeder tag
  | .swap tile pair => tileOk tile && decide (pair < 64)
  | .arrive flank index _ => flankOk flank && decide (index < 256)
  | .stalemateCheck flank index => flankOk flank && decide (index < 256)
  | .memTimeout feeder tag => tagOk feeder tag
  | .read feeder tag upset => tagOk feeder tag && upsetOk upset
  | .write feeder tag => tagOk feeder tag
  | .put16 feeder tag upset => tagOk feeder tag && upsetOk upset
  | .zero feeder tag => tagOk feeder tag
  | .refreshForced channel => channelOk channel
  | .scrubRead channel upset => channelOk channel && upsetOk upset
  | .stackTemperatureReadout stack temp => decide (stack < 6 ∧ temp < 256)
  | .controllerReset channel => channelOk channel
  | .controllerResetDone channel => channelOk channel
  | .hopReceive tile port word => decide (port < 5) && tileOk tile && word.wellFormed
  | .nak tile port ackSeq => decide (port < 5) && tileOk tile && decide (ackSeq < 256)
  | .hopAckTimeout tile port => decide (port < 5) && tileOk tile
  | .linkGiveUp tile port => decide (port < 5) && tileOk tile
  | .invalidSidebandLimit tile port => decide (port < 5) && tileOk tile
  | .e2eStitchArrival endpoint st => endpointOk endpoint && st.wellFormed
  | .credit src dst value _ => endpointOk src && endpointOk dst && decide (value < 4096)
  | .creditTimer src dst => endpointOk src && endpointOk dst
  | .openCtx src dst => endpointOk src && endpointOk dst
  | .closeCtx src dst => endpointOk src && endpointOk dst
  | .closeAck src dst => endpointOk src && endpointOk dst
  | .probe src dst => endpointOk src && endpointOk dst
  | .probeTimer src dst => endpointOk src && endpointOk dst
  | .probeGiveUp src dst => endpointOk src && endpointOk dst
  | .unreachable src dst sequence => endpointOk src && endpointOk dst && decide (sequence < 4096)
  | .multicastStitch tile st => tileOk tile && st.wellFormed
  | .notice endpoint st => endpointOk endpoint && st.wellFormed
  | .lookup tile ppn => tileOk tile && ppnOk ppn
  | .holder tile ppn keeper => tileOk tile && decide (keeper < 256) && ppnOk ppn
  | .noneAnswer tile ppn => tileOk tile && ppnOk ppn
  | .peerRead keeper ppn requester => tileOk keeper && tileOk requester && ppnOk ppn
  | .evict tile ppn => tileOk tile && ppnOk ppn
  | .invalidate tile ppn => tileOk tile && ppnOk ppn
  | .dropped tile ppn => tileOk tile && ppnOk ppn
  | .notHeld tile ppn => tileOk tile && ppnOk ppn
  | .sweepStart ppn => ppnOk ppn
  | .sweepComplete ppn => ppnOk ppn
  | .copyOnWriteDone ppn => ppnOk ppn
  | .itemEligible stage obj _ _ _ => stageSlotOk stage obj
  | .dispatchTimer flank => flankOk flank
  | .task tile work => tileOk tile && work.all TileOp.wellFormed
  | .blockProduct tile _ _ _ _ _ => tileOk tile
  | .drainComplete flank => flankOk flank
  | .spareLoaded flank => flankOk flank
  | .resliceLoaded flank => flankOk flank
  | .taskEnd flank _ => flankOk flank
  | .taskWatchdog flank => flankOk flank
  | .flagFall branch _ _ => branchOk branch
  | .flagFallIntervalEnd branch => branchOk branch
  | .chunkClose stream => streamOk stream
  | .frameClose stream => streamOk stream
  | .ingressConditioningDone stream => streamOk stream
  | .castlingInStart flank => flankOk flank
  | .castlingInDone stream => streamOk stream
  | .commitComplete stage obj => stageSlotOk stage obj
  | .frogRestoreDone stream => streamOk stream
  | .zeroisationStart ofBranch slot => (if ofBranch then branchOk slot else streamOk slot)
  | .zeroisationDone stream => streamOk stream
  | .branchZeroised branch => branchOk branch
  | .outputChunkStart branch => branchOk branch
  | .tdmFrame tdm _ => tdmOk tdm
  | .hostFrameFetch stream => streamOk stream
  | .outputRingFrameWrite branch _ => branchOk branch
  | .governorWindow _ => true
  | .trimUpdate trim => decide (-25 ≤ trim ∧ trim ≤ 50)
  | .avsTargetReached => true
  | .voltageWaitTimeout => true
  | .avsTransactionFail => true
  | .regulatorFault => true
  | .prochotAsserted => true
  | .prochotDeasserted => true
  | .sensorRecalibration sensor => decide (sensor < 16)
  | .thermalTrip => true
  | .lossOfLock => true
  | .lockRegained => true
  | .coldReset straps => decide (straps < 4)
  | .sysReset _ => true
  | .resetEnd => true
  | .rom _ => true
  | .imageCheck _ => true
  | .training failing => decide ((failing.getD 0) < 6)
  | .clear => true
  | .selfTest failing => failing.all tileOk
  | .config _ => true
  | .fwWatchdog => true
  | .bootTimeout => true
  | .watchdogRefreshStop => true
  | .snapshotRefresh => true
  | .mctpPacket medium packet => medium.wellFormed && packet.wellFormed
  | .setEndpointId r operation eid => r.wellFormed && decide (operation < 4 ∧ eid < 256)
  | .getEndpointId r => r.wellFormed
  | .getEndpointUuid r => r.wellFormed
  | .getMctpVersionSupport r type => r.wellFormed && decide (type < 256)
  | .getMessageTypeSupport r => r.wellFormed
  | .getVendorDefinedMessageSupport r => r.wellFormed
  | .prepareForEndpointDiscovery r => r.wellFormed
  | .endpointDiscovery r => r.wellFormed
  | .getNetworkId r => r.wellFormed
  | .setTid r tid => r.wellFormed && decide (tid < 256)
  | .getTid r => r.wellFormed
  | .getPldmVersion r type => r.wellFormed && decide (type < 256)
  | .getPldmTypes r => r.wellFormed
  | .getPldmCommands r type => r.wellFormed && decide (type < 256)
  | .setEventReceiver r enable eid => r.wellFormed && decide (enable < 256 ∧ eid < 256)
  | .getEventReceiver r => r.wellFormed
  | .getSensorReading r sensor => r.wellFormed && decide (sensor < 65536)
  | .getSensorThresholds r sensor => r.wellFormed && decide (sensor < 65536)
  | .getStateSensorReadings r sensor => r.wellFormed && decide (sensor < 65536)
  | .getPdrRepositoryInfo r => r.wellFormed
  | .getPdr r record => r.wellFormed && decide (record < 2 ^ 32)
  | .platformEventAck medium sensor => medium.wellFormed && decide (sensor < 65536)
  | .platformEventRetry sensor => decide (sensor < 65536)
  | .eventRateIntervalEnd sensor => decide (sensor < 65536)
  | .smbusRetry _ => true
  | .instructionUpdate code cells => decide (code < 256 ∧ cells < 2 ^ 156)
  | .testLogicReset => true
  | .powerRemoval _ => true
  | .vddIoReturn => true
  | .hotResetExit port => portOk port
  | .drainTimeout flank => flankOk flank
  | .perBankRefresh channel => channelOk channel
  | .relayoutDone flank => flankOk flank
  | .smbusBusTimeout => true

end Sys2Proof
end

