-- ==== Sys2Proof/Safety.lean ====
section
/-!
DEFINITION. Safety.lean: what a good state is. Every part is meant to hold at reset and to be kept by every step.
-/
namespace Sys2Proof.Safety

open Sys2Proof.Machine

/-- The operating point of R567: divisor 4 to 6 and never below the ceiling, pace 0 to 7 and non-zero only at root/6 with no faster divider on its way (R563), and the
regulator's target within R562's clamp. -/
def GovernorOk (p : Power) : Prop :=
  4 ≤ p.divisor ∧ p.divisor ≤ 6 ∧ p.ceiling ≤ p.divisor ∧ p.pace ≤ 7 ∧ (0 < p.pace → p.divisor = 6 ∧ p.avs.raise = none) ∧
    (∀ t d, p.avs.raise = some (t, d) → p.ceiling ≤ d ∧ d < p.divisor) ∧ 600 ≤ p.avs.target ∧ p.avs.target ≤ 800

/-- Device memory, the tile stores and the burst errors in canonical form (Machine/Memory.lean). -/
def StoresOk (s : State) : Prop := s.mem.wf = true ∧ Table.wf 0#8 s.store = true

/-- The fault journal holds at most its 4,096 entries (R630), the power history at most 1,000 windows, the boundary register 156 cells (R714), DT 64 bits (R19). -/
def BoundsOk (s : State) : Prop :=
  s.journal.entries.length ≤ 4096 ∧ s.power.history.length ≤ 1000 ∧ s.pins.cells < 2 ^ 156 ∧ s.dt < 2 ^ 64

/-- Every table of the state in canonical form, so that equal tables are equal data: keys rise, and no entry equals what an unlisted key reads as. -/
structure TablesOk (s : State) : Prop where
  ports : Table.wf {} s.ports = true
  parts : Table.wf {} s.parts = true
  contents : Table.wf {} s.contents = true
  models : Table.wf {} s.models = true
  pipes : Table.wf {} s.pipes = true
  streams : Table.wf {} s.streams = true
  branches : Table.wf {} s.branches = true
  tiles : Table.sortedFrom 0 s.tiles = true
  flanks : Table.wf {} s.flanks = true
  feeders : Table.wf {} s.feeders = true
  barriers : Table.wf {} s.barriers = true
  pages : Table.wf {} s.pages.pages = true
  dir : Table.wf {} s.pages.dir = true
  links : Table.wf {} s.fabric.links = true
  routes : Table.wf {} s.fabric.routes = true
  windows : Table.wf {} s.fabric.windows = true
  netifs : Table.wf {} s.fabric.netifs = true
  channels : Table.wf {} s.mem.channels = true
  stackRegs : Table.wf {} s.mem.stackRegs = true
  tdm : Table.wf {} s.audio.ports = true
  inputs : Table.wf {} s.audio.inputs = true
  outputs : Table.wf {} s.audio.outputs = true
  sensors : Table.wf {} s.power.sensors = true
  media : Table.wf {} s.mgmt.media = true
  watches : Table.wf {} s.mgmt.sensors = true

/-- No unit owes a step: no page-table entry is owed, no lost section waits for a slot, no flank restores, no OPEN waits for a context. -/
def Still (s : State) : Prop :=
  s.pages.wants = [] ∧ s.restoresWait = [] ∧ (∀ f, f < 3 → (s.flank f).repair ≠ .restoring) ∧ s.opensWait = []

/-- Nothing waits inside the block: no accepted command, no model load, no retirement report, no unit's step. What follows a command then is the sensors' evaluation
alone. -/
def Quiet (s : State) : Prop :=
  (∀ n, n < 4 → (s.port n).accepted = []) ∧ s.loads = [] ∧ (∀ f, f < 3 → (s.flank f).reports = []) ∧ Still s

/-- The invariant of the machine. -/
def Inv (s : State) : Prop := GovernorOk s.power ∧ StoresOk s ∧ BoundsOk s ∧ TablesOk s

/-! ## A Lerad command that is taken at once -/

/-- A command of opcode `op` as its accepted-list entry (R450). -/
def entryOf (s : State) (c : Call) (op : Nat) : Accepted :=
  { id := (s.port c.port).nextId, call := { c with opcode := op }, dt := s.dt, maxTicks := s.maxTicks { c with opcode := op }, started := false,
    discarded := false, key := 0 }

/-- The state once the mailbox has taken the command: the inbound area holds it, BUSY is set, it is accepted and counted (R441, R450). -/
def taken (s : State) (c : Call) (op : Nat) : State :=
  s.updPort c.port (fun p =>
    { p with mbx := { p.mbx with inbound := callMessage { c with opcode := op }, busy := true }, accepted := [entryOf s c op], nextId := p.nextId + 1,
             cnt := { p.cnt with commandsAccepted := bump 64 p.cnt.commandsAccepted 1 } })

/-- A command of opcode `op` that a free mailbox of a quiet device takes at once: the port reaches its host and is READY, the header passes R434's checks and the
payload can be read. -/
def MailboxFree (s : State) (c : Call) (op : Nat) : Prop :=
  ({ c with opcode := op } : Call).wellFormed = true ∧ c.chan = .mailbox ∧ (s.port c.port).reachable = true ∧ (s.port c.port).fwState = 2 ∧
    (s.port c.port).mbx.busy = false ∧ (s.port c.port).mbx.done = false ∧ s.boot.fatal = none ∧ Quiet s ∧ Table.sortedFrom 0 s.ports = true ∧
    headerCheck { c with opcode := op } = none ∧ s.payload { c with opcode := op } = (s, .inr (callPayload { c with opcode := op }))

/-- The mailbox shows the command's one response: BUSY clear, DONE set, and the message of Table 12-1 in the outbound area (R441). -/
def Answered (t : State) (c : Call) (op : Nat) (a : Answer) : Prop :=
  (t.port c.port).mbx.busy = false ∧ (t.port c.port).mbx.done = true ∧ (t.port c.port).accepted = [] ∧
    (t.port c.port).mbx.outbound = mailboxResponse { c with opcode := op } a (if a.handle = 0 then c.handle else a.handle)

/-- The command is taken, starts, its effect leaves `u`, and its one response `a` is written; the sensors are evaluated, and nothing else happens. -/
def Replies (i : Instr) (s : State) (c : Call) (op : Nat) (u : State) (a : Answer) : Prop :=
  exec i s = .next (u.updPort c.port (fun p => p.finish u.dt (entryOf s c op) a)).watchSensors

/-- The command is taken, starts, its effect leaves `u`, and it waits for the object `key`, its response still to come; the sensors are evaluated. -/
def Waits (i : Instr) (s : State) (c : Call) (op : Nat) (u : State) (key : Nat) : Prop :=
  exec i s = .next (u.updPort c.port (fun p => { p with accepted := [{ entryOf s c op with started := true, key := key }] })).watchSensors

/-- The command is taken and starts in the round that follows: its effect leaves `u` and answers `r`. -/
def Starts (i : Instr) (s : State) (c : Call) (op : Nat) (u : State) (r : Reply) : Prop :=
  exec i s = .next (taken s c op).settle ∧ (taken s c op).runCall (entryOf s c op) = (u, r)

/-- A response of `len` bytes (R478, R479, R437): inline where the descriptor's LENGTH is 0, else through the buffer, which has to lie in a registered aperture with
WRITE granted; where it does not fit, BUFFER_TOO_SMALL with the bytes needed and nothing written. `u` is what the effect leaves besides. -/
def Responds (i : Instr) (s : State) (c : Call) (op : Nat) (u : State) (len value : Nat) (result : Option Nat) : Prop :=
  (field (callPayload c) 64 32 = 0 → len ≤ 232 → Replies i s c op u { result := result.getD len, extra := value, extraBytes := len }) ∧
  (field (callPayload c) 64 32 = 0 → 232 < len → Replies i s c op u { status := 0x0309, result := len }) ∧
  (field (callPayload c) 64 32 ≠ 0 →
    (s.port c.port).checkAperture (field (callPayload c) 0 12) (field (callPayload c) 32 32) (field (callPayload c) 64 32) false true = .ok →
    (len ≤ field (callPayload c) 64 32 →
      Replies i s c op (u.updPort c.port (fun p => p.hostWrite (field (callPayload c) 0 12) (field (callPayload c) 32 32) len value)) { result := result.getD len }) ∧
    (field (callPayload c) 64 32 < len → Replies i s c op u { status := 0x0309, result := len }))

/-- The buffer descriptor of a query passes R478's checks: reserved bits zero, OFFSET a multiple of 64, LENGTH a multiple of 64 up to 65,536. -/
def BufferOk (c : Call) : Prop :=
  field (callPayload c) 12 20 = 0 ∧ field (callPayload c) 32 32 % 64 = 0 ∧ field (callPayload c) 64 32 % 64 = 0 ∧ field (callPayload c) 64 32 ≤ 65536

/-- A row whose effect leaves `t`, after which the sensors are evaluated and nothing else happens. -/
def Leaves (i : Instr) (s t : State) : Prop := exec i s = .next t.watchSensors

/-- A row whose effect leaves `t`, after which the block settles: failed loads end, retirements are reported, commands finish and start, the sensors are evaluated. -/
def Becomes (i : Instr) (s t : State) : Prop := exec i s = .next t.settle

/-- The state once the request at the head of a medium's waiting messages is taken, where packets brought one (R651). -/
def headTaken (s : State) (m : Medium) : State := s.updMedium m (fun y => { y with messages := y.messages.drop 1 })

/-- A management request the endpoint answers: `u` is what its effect leaves, `code` and `fields` its response; waiting requests that no table lists are then answered
with their errors, in order (R651, R652, R655), and the block settles. -/
def Manages (i : Instr) (s : State) (r : MgmtReq) (u : State) (code : Nat) (fields : List (Nat × Nat)) : Prop :=
  Becomes i s ((u.sendResponse r.medium r.srcEid r.inst code fields).refuseHeads r.medium (u.medium r.medium).messages.length)

/-- A step that answers a next state: what a run of the block is made of. No row of the table ends in a fault or a refusal. -/
def Runs (i : Instr) (s : State) : Prop := ∃ t, exec i s = .next t

/-- The message in the inbound area, submitted with GO, ends at once with `a`: it is accepted and counted, its one response is written, and it has no other effect
(R434, R450); the sensors are evaluated. -/
def EndsAtOnce (s : State) (n : Nat) (ext : Option Nat) (data : HostData) (c : Call) (a : Answer) : Prop :=
  exec (.go n ext data) s = .next (s.updPort n (fun p =>
    ({ p with mbx := { p.mbx with busy := true }, nextId := p.nextId + 1,
              accepted := [{ id := p.nextId, call := c, dt := s.dt, maxTicks := s.maxTicks c, started := false, discarded := false, key := 0 }],
              cnt := { p.cnt with commandsAccepted := bump 64 p.cnt.commandsAccepted 1 } } : HostPort).finish s.dt
      { id := p.nextId, call := c, dt := s.dt, maxTicks := s.maxTicks c, started := false, discarded := false, key := 0 } a)).watchSensors

/-- The Lerad commands of Tables 12-6, 13-1 and 14-1: a row's message and its opcode. -/
def leradRow : Instr → Option (Call × Nat)
  | .ringPairCreate c => some (c, 0x0910)
  | .ringPairDelete c => some (c, 0x0911)
  | .eventRingSet c => some (c, 0x0912)
  | .coalesceSet c => some (c, 0x0913)
  | .nop c => some (c, 0x0914)
  | .partitionQuery c => some (c, 0x0101)
  | .partitionQuotaSet c => some (c, 0x0102)
  | .partitionHostLossSet c => some (c, 0x0103)
  | .partitionTrimSet c => some (c, 0x0104)
  | .siteQuery c => some (c, 0x0105)
  | .apertureRegister c => some (c, 0x0201)
  | .apertureDeregister c => some (c, 0x0202)
  | .modelLoad c => some (c, 0x0301)
  | .modelQuery c => some (c, 0x0302)
  | .modelUnload c => some (c, 0x0303)
  | .modelList c => some (c, 0x0304)
  | .pipelineCreate c => some (c, 0x0401)
  | .pipelineQuery c => some (c, 0x0402)
  | .pipelinePrefixSet c => some (c, 0x0403)
  | .pipelineDelete c => some (c, 0x0404)
  | .pipelineList c => some (c, 0x0405)
  | .streamCastOn c => some (c, 0x0501)
  | .streamFeed c => some (c, 0x0502)
  | .streamPause c => some (c, 0x0503)
  | .streamResume c => some (c, 0x0504)
  | .streamRewind c => some (c, 0x0505)
  | .streamBindOff c => some (c, 0x0506)
  | .streamInputSet c => some (c, 0x0507)
  | .streamQuery c => some (c, 0x0508)
  | .streamList c => some (c, 0x0509)
  | .branchAttach c => some (c, 0x0511)
  | .branchDetach c => some (c, 0x0512)
  | .branchResume c => some (c, 0x0513)
  | .branchOutputSet c => some (c, 0x0514)
  | .branchQuery c => some (c, 0x0515)
  | .portConfigure c => some (c, 0x0601)
  | .portEnable c => some (c, 0x0602)
  | .portQuery c => some (c, 0x0603)
  | .telemetryRead c => some (c, 0x0701)
  | .diagJournalRead c => some (c, 0x0801)
  | .diagInject c => some (c, 0x0802)
  | .diagTdmLoopback c => some (c, 0x0803)
  | .deviceQuery c => some (c, 0x0901)
  | .powerCapSet c => some (c, 0x0902)
  | .firmwareStage c => some (c, 0x0903)
  | .firmwareActivate c => some (c, 0x0904)
  | .deviceReset c => some (c, 0x0905)
  | .siteConfigStage c => some (c, 0x0906)
  | _ => none

/-- The rows of chapter 18: what reaches the management endpoint, and its timers. -/
def managementRow : Instr → Bool
  | .mctpPacket _ _ => true
  | .setEndpointId _ _ _ => true
  | .getEndpointId _ => true
  | .getEndpointUuid _ => true
  | .getMctpVersionSupport _ _ => true
  | .getMessageTypeSupport _ => true
  | .getVendorDefinedMessageSupport _ => true
  | .prepareForEndpointDiscovery _ => true
  | .endpointDiscovery _ => true
  | .getNetworkId _ => true
  | .setTid _ _ => true
  | .getTid _ => true
  | .getPldmVersion _ _ => true
  | .getPldmTypes _ => true
  | .getPldmCommands _ _ => true
  | .setEventReceiver _ _ _ => true
  | .getEventReceiver _ => true
  | .getSensorReading _ _ => true
  | .getSensorThresholds _ _ => true
  | .getStateSensorReadings _ _ => true
  | .getPdrRepositoryInfo _ => true
  | .getPdr _ _ => true
  | .platformEventAck _ _ => true
  | .platformEventRetry _ => true
  | .eventRateIntervalEnd _ => true
  | .smbusRetry _ => true
  | .smbusBusTimeout => true
  | _ => false

end Sys2Proof.Safety
end

