-- ==== Sys2Proof/Certificates/Slice0/Obligations.lean ====
section
/-!
DEFINITION. Certificates/Slice0/Obligations.lean: the statements for the provers.
-/
open Sys2Proof Sys2Proof.Machine Sys2Proof.Safety

/-- In a quiet device whose mailbox is free: NOP answers the DT of its acceptance and changes nothing else; COALESCE_SET within its range sets the two aggregation fields of its vector and nothing else; RING_PAIR_CREATE that passes every check creates exactly the pair named, empty, and leaves every other pair; EVENT_RING_SET that passes its checks creates the ring, delivers the PORT_RESET event and the held events in order, reports the dropped ones, and answers how many entries it wrote. Every field not named stays, but for the response, the acceptance and the sensors. -/
def Obligations.TransportCommandsReply : Prop :=
  ∀ (s : State) (c : Call) (x : Nat), x = callPayload c →
    (MailboxFree s c 0x0914 → Replies (.nop c) s c 0x0914 (taken s c 0x0914) { result := s.dt }) ∧
    (MailboxFree s c 0x0913 → field x 6 2 = 0 → field x 16 16 = 0 → field x 32 32 ≤ 245760 →
      Replies (.coalesceSet c) s c 0x0913
        ((taken s c 0x0913).updPort c.port (fun p => p.setVector (field x 0 6) { p.vector (field x 0 6) with aggCount := field x 8 8, aggTime := field x 32 32 })) {}) ∧
    (MailboxFree s c 0x0910 → field x 5 3 = 0 → field x 30 2 = 0 → field x 44 4 = 0 → field x 60 4 = 0 → 4 ≤ field x 8 8 → field x 8 8 ≤ 12 →
      4 ≤ field x 16 8 → field x 16 8 ≤ 12 →
      (s.port c.port).checkAperture (field x 32 12) (field x 64 32) (64 * 2 ^ field x 8 8) true false = .ok →
      (s.port c.port).checkAperture (field x 48 12) (field x 96 32) (32 * 2 ^ field x 16 8) false true = .ok →
      field x 64 32 % 256 = 0 → field x 96 32 % 256 = 0 → ((s.port c.port).pair (field x 0 5)).live = false →
      overlaps ((s.port c.port).span (field x 32 12) (field x 64 32) (64 * 2 ^ field x 8 8))
        ((s.port c.port).span (field x 48 12) (field x 96 32) (32 * 2 ^ field x 16 8)) = false →
      (∀ r ∈ (s.port c.port).ringSpans,
        overlaps ((s.port c.port).span (field x 32 12) (field x 64 32) (64 * 2 ^ field x 8 8)) r = false ∧
        overlaps ((s.port c.port).span (field x 48 12) (field x 96 32) (32 * 2 ^ field x 16 8)) r = false) →
      Replies (.ringPairCreate c) s c 0x0910
        ((taken s c 0x0910).updPort c.port (fun p => p.setPair (field x 0 5)
          { live := true, sqLog := field x 8 8, cqLog := field x 16 8, vector := field x 24 6, sqAperture := field x 32 12, sqOffset := field x 64 32,
            cqAperture := field x 48 12, cqOffset := field x 96 32, capAtLoss := 2 ^ field x 16 8 - 1 })) {}) ∧
    (MailboxFree s c 0x0912 → field x 20 12 = 0 → 4 ≤ field x 0 8 → field x 0 8 ≤ 14 →
      (s.port c.port).checkAperture (field x 8 12) (field x 32 32) (32 * 2 ^ field x 0 8) false true = .ok → field x 32 32 % 256 = 0 →
      (s.port c.port).events.live = false →
      ∀ r, r = HostPort.deliverHeld s.dt ((s.port c.port).resetEvent.toList ++ (s.port c.port).heldEvents)
        ({ (taken s c 0x0912).port c.port with
            events := { (s.port c.port).events with live := true, log := field x 0 8, aperture := field x 8 12, offset := field x 32 32, head := 0, tail := 0,
                                                    phase := true, capAtLoss := 2 ^ field x 0 8 - 1 },
            heldEvents := [], resetEvent := none }, 0) →
      Replies (.eventRingSet c) s c 0x0912 ((taken s c 0x0912).setPort c.port (r.1.postLost s.dt)) { result := r.2 })

/-- In a quiet device with a free mailbox, each query whose descriptor passes R478 and whose object is live writes the record of its table, computed in the state the accepted command leaves, inline or through the response buffer, or answers BUFFER_TOO_SMALL with the bytes needed; nothing else changes. PARTITION_QUERY draws one free value, for the TDM_PORTS field of USAGE, which no rule gives (log 33). -/
def Obligations.QueriesRespond : Prop :=
  ∀ (s : State) (c : Call), BufferOk c →
    (∀ n, MailboxFree s c 0x0101 → s.partOf c.port c.handle true = some n →
      Responds (.partitionQuery c) s c 0x0101 { taken s c 0x0101 with free := s.free + 1 } 80
        (({ taken s c 0x0101 with free := s.free + 1 } : State).partitionRecord n (Config.freeValue s.free)) none) ∧
    (MailboxFree s c 0x0105 → Responds (.siteQuery c) s c 0x0105 (taken s c 0x0105) 16 s.site.record none) ∧
    (∀ m, MailboxFree s c 0x0302 → s.modelOf c.port c.handle = some m →
      Responds (.modelQuery c) s c 0x0302 (taken s c 0x0302) 64 (((s.content (s.model m).content).pkg.map packageRecord).getD 0) none) ∧
    (∀ hs, MailboxFree s c 0x0304 → hs = (s.models.filter (fun e => e.2.live && e.2.part == c.port)).map (fun e => modelHandle e.1 e.2.gen) →
      Responds (.modelList c) s c 0x0304 (taken s c 0x0304) (4 + 4 * hs.length) (handleList hs) none) ∧
    (∀ i, MailboxFree s c 0x0402 → s.pipeOf c.port c.handle = some i →
      Responds (.pipelineQuery c) s c 0x0402 (taken s c 0x0402) 64
        (pack [(32, (s.pipe i).latency), (32, (s.pipe i).prefixTokens), (11, s.pipeStreams i), (53, 0), (128, s.stageRecord (s.pipe i) .encode),
               (128, s.stageRecord (s.pipe i) .translate), (128, s.stageRecord (s.pipe i) .speak)]) none) ∧
    (∀ hs, MailboxFree s c 0x0405 →
      hs = (s.pipes.filter (fun e => e.2.live && e.2.ready && !e.2.deleting && e.2.part == c.port)).map (fun e => pipeHandle e.1 e.2.gen) →
      Responds (.pipelineList c) s c 0x0405 (taken s c 0x0405) (4 + 4 * hs.length) (handleList hs) none) ∧
    (∀ i, MailboxFree s c 0x0508 → s.streamOf c.port c.handle = some i →
      Responds (.streamQuery c) s c 0x0508 (taken s c 0x0508) 128 ((taken s c 0x0508).streamRecord i) none) ∧
    (∀ is, MailboxFree s c 0x0509 → is = (s.streams.filter (fun e => e.2.part == c.port && e.2.state != .closed)).map (·.1) →
      Responds (.streamList c) s c 0x0509 (taken s c 0x0509) (4 + 8 * is.length) (is.length + 2 ^ 32 * concatRecords 64 (is.map s.streamEntry)) none) ∧
    (∀ b, MailboxFree s c 0x0515 → s.branchOf c.port c.handle = some b →
      Responds (.branchQuery c) s c 0x0515 (taken s c 0x0515) 64 ((taken s c 0x0515).branchRecord b) none) ∧
    (∀ t, MailboxFree s c 0x0603 → s.tdmOf c.port c.handle = some t →
      Responds (.portQuery c) s c 0x0603 (taken s c 0x0603) 16 ((taken s c 0x0603).tdmRecord t) none) ∧
    (MailboxFree s c 0x0901 →
      Responds (.deviceQuery c) s c 0x0901 (taken s c 0x0901) 32 ((taken s c 0x0901).deviceRecord c.port)
        (some ((taken s c 0x0901).fwVersion c.port)))

/-- In a quiet device with a free mailbox: TELEMETRY_READ of a group that exists, for COUNT indices from FIRST on that the group has, writes their records one after another; DIAG_JOURNAL_READ writes, oldest first, at most COUNT entries from FIRST_SEQ on that belong to the port or to no partition, and answers the newest sequence. With an empty journal that sequence is stated by no rule: RESULT is a free value (log 21). -/
def Obligations.TelemetryAndJournalRespond : Prop :=
  ∀ (s : State) (c : Call) (x : Nat), x = callPayload c → BufferOk c →
    (∀ r, MailboxFree s c 0x0701 → field x 104 24 = 0 → (groupLast (field x 96 8)).isSome = true →
      (List.range' (field x 128 16) (field x 144 16)).all (groupHas (field x 96 8)) = true → 0 < field x 144 16 → field x 144 16 ≤ 1024 →
      r = joinRecords ((List.range' (field x 128 16) (field x 144 16)).map ((taken s c 0x0701).groupRecord c.port (field x 96 8))) →
      Responds (.telemetryRead c) s c 0x0701 (taken s c 0x0701) r.1 r.2 none) ∧
    (∀ e es rs, MailboxFree s c 0x0801 → s.journal.entries = e :: es → rs = (s.journalFor c.port (field x 96 32)).take (field x 128 32) →
      Responds (.diagJournalRead c) s c 0x0801 (taken s c 0x0801) (32 * rs.length) (concatRecords 256 (rs.map JEntry.bytes)) (some e.seq)) ∧
    (MailboxFree s c 0x0801 → s.journal.entries = [] →
      Responds (.diagJournalRead c) s c 0x0801 { taken s c 0x0801 with free := s.free + 1 } 0 0 (some (Config.freeValue s.free % 2 ^ 32)))

/-- In a quiet device with a free mailbox: PARTITION_HOST_LOSS_SET of the own partition stores the two values of Table 11-4; PARTITION_TRIM_SET by the plan authority stores TRIM_NONE, and where it clears it a trim pass follows (log 109); POWER_CAP_SET by the plan authority sets the cap, or with 0 returns to the site cap; PORT_CONFIGURE of an owned DISABLED port with no pending enable and no mapped slot stores its configuration. Everything not named stays, but for the response, the acceptance and the sensors. -/
def Obligations.PartitionCommandsReply : Prop :=
  ∀ (s : State) (c : Call) (x : Nat), x = callPayload c →
    (∀ n, MailboxFree s c 0x0103 → field x 4 28 = 0 → field x 0 2 ≠ 3 → field x 2 2 ≠ 3 → s.partOf c.port c.handle false = some n →
      Replies (.partitionHostLossSet c) s c 0x0103
        ((taken s c 0x0103).updPart n (fun p => { p with hlTdm := field x 0 2, hlHost := field x 2 2 })) {}) ∧
    (∀ n, MailboxFree s c 0x0104 → s.partOf c.port c.handle true = some n → s.isPlan c.port = true → field x 1 31 = 0 →
      Starts (.partitionTrimSet c) s c 0x0104 (((taken s c 0x0104).updPart n (fun p => { p with trimNone := flag x 0 })).trimCheck n) (.done {}) ∧
      (flag x 0 = true → Table.sortedFrom 0 s.parts = true →
        Replies (.partitionTrimSet c) s c 0x0104 ((taken s c 0x0104).updPart n (fun p => { p with trimNone := true })) {})) ∧
    (MailboxFree s c 0x0902 → s.isPlan c.port = true → field x 5 27 = 0 → (field x 0 5 = 0 ∨ 14 ≤ field x 0 5 ∧ field x 0 5 ≤ 28) →
      Starts (.powerCapSet c) s c 0x0902 ((taken s c 0x0902).setCap (if field x 0 5 = 0 then s.site.cap else field x 0 5) 0) (.done {})) ∧
    (∀ t, MailboxFree s c 0x0601 → (tdmConfigOf x).slots ≠ 3 → (tdmConfigOf x).width ≠ 3 → field x 21 43 = 0 → (tdmConfigOf x).supported = true →
      ((tdmConfigOf x).sentInEn = true → (tdmConfigOf x).sentIn < (tdmConfigOf x).count) →
      ((tdmConfigOf x).sentOutEn = true → (tdmConfigOf x).sentOut < (tdmConfigOf x).count) →
      s.tdmOf c.port c.handle = some t → (s.tdm t).state = .disabled → (s.tdm t).enableAt = none → s.tdmMapped t = false →
      Replies (.portConfigure c) s c 0x0601 ((taken s c 0x0601).updTdm t (fun p => { p with cfg := tdmConfigOf x })) {})

/-- In a quiet device with a free mailbox: APERTURE_REGISTER takes the lowest free index and answers its handle; MODEL_UNLOAD of a model no pipeline names frees the slot and steps its generation; where no other model has the content it opens the operation that zero-fills its pages and waits for it, else it answers; STREAM_FEED of frames up to the room of the ring moves the produced index and notifies, of as many as were handed over before answers alone; BRANCH_RESUME of a STOPPED branch makes it ACTIVE from the next chunk to be formed and answers that chunk; FIRMWARE_ACTIVATE of a STAGED spare slot makes it ACTIVATED and preferred and answers its version; DIAG_INJECT arms exactly the fault it names. -/
def Obligations.ApertureAndModelCommandsReply : Prop :=
  ∀ (s : State) (c : Call) (x : Nat), x = callPayload c →
    (∀ i, MailboxFree s c 0x0201 → field x 87 41 = 0 → field x 0 64 % 4096 = 0 → 0 < field x 64 21 → field x 64 21 ≤ 1048576 →
      field x 0 64 + 4096 * field x 64 21 ≤ 2 ^ 64 → (flag x 85 || flag x 86) = true →
      Table.firstWhere none (s.port c.port).apertures (fun a => a.isNone) 0 4096 = some i →
      Replies (.apertureRegister c) s c 0x0201
        ((taken s c 0x0201).updPort c.port (fun p => { p with
          apertures := Table.set none p.apertures i (some { base := field x 0 64, bytes := 4096 * field x 64 21, read := flag x 85, write := flag x 86 }) }))
        { handle := 0x02000000 + i }) ∧
    (∀ m t, MailboxFree s c 0x0303 → s.modelOf c.port c.handle = some m → s.modelNamed m = false →
      t = (taken s c 0x0303).setModel m { s.model m with live := false, gen := bump 16 (s.model m).gen 1 } →
      (t.models.any (fun e => e.2.live && e.2.content == (s.model m).content) = true → Replies (.modelUnload c) s c 0x0303 t {}) ∧
      (t.models.any (fun e => e.2.live && e.2.content == (s.model m).content) = false →
        Waits (.modelUnload c) s c 0x0303
          (t.newOpDue (.erase (s.model m).content) c.port s.dt [{ kind := 6, bytes := 4096 * (s.content (s.model m).content).pages }]) (s.model m).content)) ∧
    (∀ i r, MailboxFree s c 0x0502 → s.streamOf c.port c.handle = some i → ((s.stream i).state.runs = true ∨ (s.stream i).state = .paused) →
      (s.stream i).source = .ring r →
      (field x 0 64 = (s.stream i).handed → Replies (.streamFeed c) s c 0x0502 (taken s c 0x0502) { result := r.consumed }) ∧
      ((s.stream i).handed < field x 0 64 → field x 0 64 ≤ r.consumed + 2 ^ r.log →
        Starts (.streamFeed c) s c 0x0502
          (((taken s c 0x0502).updStream i (fun y => { y with
            handed := field x 0 64, source := .ring (r.notified (field x 0 64 - (s.stream i).handed)).1,
            lateFrames := bump 32 y.lateFrames (min (field x 0 64) (s.stream i).frames - (s.stream i).handed) })).signalTimes c.port r.vector
              (r.notified (field x 0 64 - (s.stream i).handed)).2)
          (.done { result := r.consumed }))) ∧
    (∀ b, MailboxFree s c 0x0513 → s.branchOf c.port c.handle = some b → (s.branch b).state = .stopped →
      Starts (.branchResume c) s c 0x0513
        ((((taken s c 0x0513).updBranch b (fun y => { y with
          state := .active, firstRow := s.firstRowNow (s.branch b).stream, hold := 0, tokRow := s.firstRowNow (s.branch b).stream, stopRow := none, skipped := [], skipStage := [] })).resumeSect
            .translate b (s.firstRowNow (s.branch b).stream)).resumeSect .speak b (s.firstRowNow (s.branch b).stream))
        (.done { result := s.firstRowNow (s.branch b).stream })) ∧
    (MailboxFree s c 0x0904 → s.isPlan c.port = true → s.flashBusy = false → (s.boot.flash.dir.slot s.boot.spareSlot).state = .staged →
      Replies (.firmwareActivate c) s c 0x0904
        ((taken s c 0x0904).updDir (fun d => { d.updSlot s.boot.spareSlot (fun y => { y with state := .activated }) with preferred := s.boot.spareSlot }))
        { result := (s.boot.flash.dir.slot s.boot.spareSlot).version }) ∧
    (MailboxFree s c 0x0802 → s.isPlan c.port = true → firstFail (injectReserved x) = none →
      (field x 0 4 = 1 → field x 8 8 / 16 ≤ 11 → field x 8 8 % 16 ≤ 11 → field x 64 64 % 32 = 0 →
        Replies (.diagInject c) s c 0x0802 ((taken s c 0x0802).updTile (coordTile (field x 8 8)) (fun y => { y with residue := .once })) {}) ∧
      (field x 0 4 = 2 → field x 8 8 / 16 ≤ 11 → field x 8 8 % 16 ≤ 11 → field x 64 64 % 32 = 0 →
        (s.flank (coordTile (field x 8 8) / 48)).state ≠ .repairing → s.enabledTiles (coordTile (field x 8 8) / 48) ≠ 40 →
        Replies (.diagInject c) s c 0x0802 ((taken s c 0x0802).updTile (coordTile (field x 8 8)) (fun y => { y with residue := .twice })) {}) ∧
      (field x 0 4 = 3 → field x 64 64 % 32 = 0 → field x 64 64 < memEnd → s.windowAt (field x 64 64) = .part c.port →
        Replies (.diagInject c) s c 0x0802
          ((taken s c 0x0802).updErr (field x 64 64 / 32) (fun e => { e.invert (field x 64 64 / 32) with single := true, reported := false })) {}) ∧
      (field x 0 4 = 4 → field x 64 64 % 32 = 0 → field x 64 64 < memEnd → s.windowAt (field x 64 64) = .part c.port →
        Replies (.diagInject c) s c 0x0802
          ((taken s c 0x0802).updErr (field x 64 64 / 32) (fun e => (e.invert (field x 64 64 / 32)).invert (field x 64 64 / 32))) {}) ∧
      (field x 0 4 = 5 → field x 8 8 / 16 ≤ 11 → field x 8 8 % 16 ≤ 11 → 1 ≤ field x 19 4 → field x 19 4 ≤ 8 → field x 64 64 % 32 = 0 →
        Replies (.diagInject c) s c 0x0802
          ((taken s c 0x0802).updLink (linkKey (coordTile (field x 8 8)) (field x 16 3)) (fun l => { l with inject := field x 19 4 })) {}))

/-- In a quiet device with a free mailbox: RING_PAIR_DELETE stops reading and discards unread entries; APERTURE_DEREGISTER of an aperture nothing uses closes it; MODEL_LOAD within quota and limits starts one package operation, which owes the reading of its pages within 1 s of the acceptance; PIPELINE_PREFIX_SET reserves its pages and entries; PIPELINE_DELETE of a pipeline without streams drops its prefix and closes its handle; FIRMWARE_STAGE and SITE_CONFIG_STAGE of good data start one flash write. Each then waits, its response still to come, and nothing else changes. -/
def Obligations.WaitingSetupCommandsWait : Prop :=
  ∀ (s : State) (c : Call) (x : Nat), x = callPayload c →
    (MailboxFree s c 0x0911 → field x 5 27 = 0 → ((s.port c.port).pair (field x 0 5)).live = true →
      Waits (.ringPairDelete c) s c 0x0911
        ((taken s c 0x0911).updPort c.port (fun p => (p.dropReads (field x 0 5)).setPair (field x 0 5)
          { p.pair (field x 0 5) with deleting := true, sqHead := (p.pair (field x 0 5)).sqTail, reading := 0, got := [], failed := [] }))
        (field x 0 5)) ∧
    (∀ i a, MailboxFree s c 0x0202 → c.handle / 2 ^ 24 = 2 → i = c.handle % 2 ^ 24 → (s.port c.port).aperture i = some a →
      (taken s c 0x0202).apertureInUse c.port i = false →
      Waits (.apertureDeregister c) s c 0x0202
        ((taken s c 0x0202).updPort c.port (fun p => { p with
          apertures := Table.set none p.apertures i ((Table.get none p.apertures i).map (fun a => { a with closing := true })) })) i) ∧
    (∀ ap off pages, MailboxFree s c 0x0301 → ap = field x 0 12 → off = field x 32 32 → pages = field x 64 21 → field x 12 20 = 0 → field x 85 11 = 0 →
      off % 4096 = 0 → pages ≠ 0 → (s.port c.port).checkAperture ap off (4096 * pages) true false = .ok → s.liveModels c.port < (s.part c.port).models →
      s.allModels < 24 → s.memUsed c.port + 4096 * pages ≤ (s.part c.port).memBytes →
      Starts (.modelLoad c) s c 0x0301
        (((taken s c 0x0301).newOpDue (.package s.nextLoad) c.port (s.dt + 24576000) [{ kind := 3, bytes := 4096 * pages }]).addLoad
          { id := s.nextLoad, port := c.port, cmd := (s.port c.port).nextId, aperture := ap, offset := off, pages := pages,
            op := (s.newOp (.package s.nextLoad) c.port).2 })
        (.wait s.nextLoad)) ∧
    (∀ i tokens ids need, MailboxFree s c 0x0403 → tokens = field x 64 32 → field x 12 20 = 0 → field x 32 32 % 4 = 0 → tokens ≤ 65536 → tokens ≠ 0 →
      s.pipeOf c.port c.handle = some i → (s.pipe i).translate.present = true →
      (s.port c.port).checkAperture (field x 0 12) (field x 32 32) (4 * tokens) true false = .ok → c.data = .tokens ids →
      (∀ t ∈ ids.take tokens, t < ((s.stagePackage i .translate).map (·.vocabulary)).getD 0) → need = s.prefixNeed i tokens →
      (s.part (s.pipe i).part).reservedPages + need ≤ (s.part (s.pipe i).part).freeSwept + (s.part (s.pipe i).part).unswept →
      (s.part (s.pipe i).part).tableEntries + need ≤ 8 * (s.part (s.pipe i).part).nPool →
      Waits (.pipelinePrefixSet c) s c 0x0403
        ((taken s c 0x0403).updPart (s.pipe i).part (fun y => { y with reservedPages := y.reservedPages + need, tableEntries := y.tableEntries + need })) i) ∧
    (∀ i t, MailboxFree s c 0x0404 → s.pipeOf c.port c.handle = some i → s.pipeStreams i = 0 → t = (taken s c 0x0404).dropPrefix i →
      Starts (.pipelineDelete c) s c 0x0404 (t.setPipe i { t.pipe i with deleting := true }) (.wait i)) ∧
    (∀ ver len, MailboxFree s c 0x0903 → s.isPlan c.port = true → firstFail (stagingChecks x 8192) = none →
      (s.port c.port).checkAperture (field x 0 12) (field x 32 32) (4096 * field x 64 21) true false = .ok → s.flashBusy = false →
      c.data = .image true true ver len →
      Starts (.firmwareStage c) s c 0x0903 ((taken s c 0x0903).startImage c.port (s.port c.port).nextId ver len) (.wait 0)) ∧
    (∀ img, MailboxFree s c 0x0906 → s.isPlan c.port = true → firstFail (stagingChecks x 1048576) = none →
      (s.port c.port).checkAperture (field x 0 12) (field x 32 32) (4096 * field x 64 21) true false = .ok → s.flashBusy = false →
      c.data = .site img → siteValid img = true →
      Starts (.siteConfigStage c) s c 0x0906 ((taken s c 0x0906).startSite c.port (s.port c.port).nextId img) (.wait 0))

/-- In a quiet device with a free mailbox: PARTITION_QUOTA_SET by the plan authority, within every limit of R483 and moving idle TDM ports only, gives the partition exactly the quota of the payload, takes the ports from their owners, clears their counters, posts one QUOTA_CHANGED to each partition whose record changed, and lets castling and dispatch follow; PIPELINE_CREATE of a legal shape takes the lowest free slot, makes its bindings and waits for them; PIPELINE_PREFIX_SET of 0 tokens drops the prefix; DEVICE_RESET with its key fixes RESET_DT and tells every partition, or answers the one already fixed. -/
def Obligations.PipelineAndQuotaCommandsStart : Prop :=
  ∀ (s : State) (c : Call) (x : Nat), x = callPayload c →
    (∀ n new moved t3, MailboxFree s c 0x0102 → s.partOf c.port c.handle true = some n → new = (s.part n).withQuota x → s.isPlan c.port = true →
      firstFail (quotaChecks x) = none → 4288 * new.nPool ≤ new.memBytes → new.memBytes ≤ new.windowMib * mib →
      s.quotaSum n new (·.streams) ≤ 1024 → s.quotaSum n new (·.branches) ≤ 2048 → s.quotaSum n new (·.pipelines) ≤ 32 → s.quotaSum n new (·.models) ≤ 24 →
      moved = (List.range 16).filter (fun t => flag new.tdmPorts t != flag (s.part n).tdmPorts t) → moved.all s.tdmIdle = true →
      t3 = moved.foldl State.clearTdmCounters
        (((List.range 4).filter (fun k => k != n)).foldl (fun (u : State) k => u.updPart k (fun p =>
          { p with
            tdmPorts := (List.range 16).foldl
              (fun m t => if (moved.filter (fun y => flag new.tdmPorts y && (s.tdmOwner y).isSome)).contains t && flag m t then m - 2 ^ t else m) p.tdmPorts }))
          ((taken s c 0x0102).updPart n (fun _ => new))) →
      Starts (.partitionQuotaSet c) s c 0x0102
        ((((List.range 4).foldl (fun (u : State) k =>
          if quotaMask (s.part k) (t3.part k) = 0 then u else u.post k 0x800E (partHandle k) (quotaMask (s.part k) (t3.part k))) t3).shareChange n (s.part n)).dispatchAll)
        (.done {})) ∧
    (∀ slot t, MailboxFree s c 0x0401 → firstFail (shapeChecks x ++ s.stageChecks c.port x) = none → s.livePipes c.port < (s.part c.port).pipelines →
      s.freePipe = some slot →
      (∀ st ∈ payloadStages x, (s.flank (s.stageCfg c.port x (stageCode st)).flank).state ≠ .outOfService) →
      (taken s c 0x0401).bindStages c.port x slot (payloadStages x) = .inr t →
      Starts (.pipelineCreate c) s c 0x0401
        (t.setPipe slot
          { t.pipe slot with
              live := true, part := c.port, period := periodTicks (field x 0 2), commit := if field x 4 4 = 0 then 1 else field x 4 4, gambit := field x 8 3,
              fanout := field x 16 5, encode := s.stageCfg c.port x 0, translate := s.stageCfg c.port x 1, speak := s.stageCfg c.port x 2, ready := false,
              deleting := false, prefixTokens := 0, prefixPages := [] })
        (.wait slot)) ∧
    (∀ i, MailboxFree s c 0x0403 → field x 12 20 = 0 → field x 32 32 % 4 = 0 → field x 64 32 = 0 → s.pipeOf c.port c.handle = some i →
      (s.pipe i).translate.present = true → Starts (.pipelinePrefixSet c) s c 0x0403 ((taken s c 0x0403).dropPrefix i) (.done {})) ∧
    (MailboxFree s c 0x0905 → s.isPlan c.port = true → field x 48 16 = 0 → field x 0 32 = 0x5A5A1440 →
      (field x 32 16 = 0 ∨ 100 ≤ field x 32 16 ∧ field x 32 16 ≤ 10000) → s.boot.writing = none →
      (∀ t, s.boot.resetDt = some t → Replies (.deviceReset c) s c 0x0905 (taken s c 0x0905) { result := t }) ∧
      (∀ t, s.boot.resetDt = none → t = s.dt + 24576 * (if field x 32 16 = 0 then 1000 else field x 32 16) →
        Starts (.deviceReset c) s c 0x0905 (((taken s c 0x0905).updBoot (fun b => { b with resetDt := some t })).postAll 0x8016 t) (.done { result := t })))

/-- In a quiet device with a free mailbox: STREAM_CAST_ON opens the lowest free slot in CAST_ON with the input asked for, anchored at the frame boundary at or after acceptance, and maps its input slot; STREAM_PAUSE of a running stream marks the pause for the next chunk close; STREAM_RESUME of a PAUSED stream waits; STREAM_REWIND of a RESIDENT or CASTLED stream frogs all its sections; STREAM_BIND_OFF of an open stream starts its bind-off, of one in CAST_ON is kept for later; STREAM_INPUT_SET is scheduled for the next 10 ms boundary. Each waits, and what is not named stays. -/
def Obligations.StreamCommandsWait : Prop :=
  ∀ (s : State) (c : Call) (x : Nat), x = callPayload c →
    (∀ p i q, MailboxFree s c 0x0501 → q = inputSpec x 32 → firstFail (inputReserved x 32 ++ [resZero x 160 96] ++ s.inputRanges c.port x 32) = none →
      s.pipeOf c.port (field x 0 32) = some p → s.ringAperture c.port q.source.ringOf = .ok → s.inTaken q.source = false →
      s.openStreams c.port < (s.part c.port).streams → s.freeStream = some i →
      Waits (.streamCastOn c) s c 0x0501
        (((taken s c 0x0501).setStream i
          { state := .castOn, gen := bump 14 (s.stream i).gen 1, part := c.port, pipe := p, acceptDt := s.dt, cmd := (s.port c.port).nextId,
            anchor := frameBoundary s.dt, source := q.source, gain := q.gain, theta := q.theta, lmin := q.lmin, hangLen := q.hang }).mapIn i q.source) i) ∧
    (∀ i, MailboxFree s c 0x0503 → s.streamOf c.port c.handle = some i → (s.stream i).state.runs = true →
      Waits (.streamPause c) s c 0x0503 ((taken s c 0x0503).updStream i (fun y => { y with pause := some .command })) i) ∧
    (∀ i, MailboxFree s c 0x0504 → s.streamOf c.port c.handle = some i → (s.stream i).state = .paused →
      Waits (.streamResume c) s c 0x0504 (taken s c 0x0504) i) ∧
    (∀ i, MailboxFree s c 0x0505 → s.streamOf c.port c.handle = some i → ((s.stream i).state = .resident ∨ (s.stream i).state = .castled) →
      Starts (.streamRewind c) s c 0x0505 ((taken s c 0x0505).frog i (s.sectsOf i) 0 true) (.wait i)) ∧
    (∀ i, MailboxFree s c 0x0506 → field x 1 31 = 0 → s.streamOf c.port c.handle = some i →
      ((s.stream i).state = .castOn →
        Waits (.streamBindOff c) s c 0x0506 ((taken s c 0x0506).updStream i (fun y => { y with deferBind := some (flag x 0) })) i) ∧
      ((s.stream i).state ≠ .castOn → (s.stream i).state ≠ .bindingOff →
        Starts (.streamBindOff c) s c 0x0506 ((taken s c 0x0506).bindOff i (flag x 0) 0) (.wait i))) ∧
    (∀ i q, MailboxFree s c 0x0507 → q = inputSpec x 0 → firstFail (inputReserved x 0 ++ s.inputRanges c.port x 0) = none →
      s.streamOf c.port c.handle = some i → s.ringAperture c.port q.source.ringOf = .ok →
      ((s.stream i).state.runs = true ∨ (s.stream i).state = .paused) → s.inTaken q.source = false →
      Waits (.streamInputSet c) s c 0x0507
        ((taken s c 0x0507).updStream i (fun y =>
          { y with nextSource := some q.source, nextGain := q.gain, nextTheta := q.theta, nextLmin := q.lmin, nextHang := q.hang, switchDt := nextBoundary s.dt })) i)

/-- In a quiet device with a free mailbox: BRANCH_ATTACH to a running stream with room takes the lowest free branch slot in ATTACHING and its outputs; BRANCH_DETACH of an ACTIVE or STOPPED branch starts its detach and counts it; BRANCH_OUTPUT_SET is scheduled for the next 10 ms boundary; PORT_ENABLE to the value that stands answers the DT of its acceptance, to the other one is scheduled for the next 10 ms boundary; DIAG_TDM_LOOPBACK is scheduled for it too. Each that waits has its response still to come, and what is not named stays. -/
def Obligations.BranchAndPortCommandsWait : Prop :=
  ∀ (s : State) (c : Call) (x : Nat), x = callPayload c →
    (∀ i b q, MailboxFree s c 0x0511 → q = outputSpec x 64 → field x 32 2 ≠ 3 → field x 34 30 = 0 →
      firstFail (outputReserved x 64 ++ s.outputRanges c.port x 64) = none → s.streamOf c.port c.handle = some i →
      firstFail (s.spoken (s.stream i).pipe x ++ outputShape (s.pipe (s.stream i).pipe) x 64) = none → s.ringAperture c.port q.ring = .ok →
      (s.stream i).state.runs = true → hasTwice q.outs = false → q.outs.any (s.outTaken none) = false → (s.pipe (s.stream i).pipe).translate.present = true →
      (s.branchesOf i).length < (s.pipe (s.stream i).pipe).fanout → s.openBranches c.port < (s.part c.port).branches → s.freeBranch = some b →
      Waits (.branchAttach c) s c 0x0511
        (((taken s c 0x0511).setBranch b
          { state := .attaching, gen := bump 13 (s.branch b).gen 1, part := c.port, stream := i, acceptDt := s.dt, cmd := (s.port c.port).nextId,
            language := field x 0 16, voice := field x 16 16, policy := policyOf (field x 32 2), orphans := (s.branch b).orphans }).setOutputs b q.block q.outs q.ring q.gain) b) ∧
    (∀ b, MailboxFree s c 0x0512 → s.branchOf c.port c.handle = some b → ((s.branch b).state = .active ∨ (s.branch b).state = .stopped) →
      Starts (.branchDetach c) s c 0x0512
        (((taken s c 0x0512).detach b 0 false).updPart (s.branch b).part (fun q => { q with detaches := bump 64 q.detaches 1 })) (.wait b)) ∧
    (∀ b q, MailboxFree s c 0x0514 → q = outputSpec x 0 → firstFail (outputReserved x 0 ++ s.outputRanges c.port x 0) = none →
      s.branchOf c.port c.handle = some b → firstFail (outputShape (s.pipeOfStream (s.branch b).stream) x 0) = none → s.ringAperture c.port q.ring = .ok →
      ((s.branch b).state = .active ∨ (s.branch b).state = .stopped) → hasTwice q.outs = false → q.outs.any (s.outTaken (some b)) = false →
      Waits (.branchOutputSet c) s c 0x0514
        ((taken s c 0x0514).updBranch b (fun y => { y with nextOut := some (q.block, q.outs, q.ring), nextGain := q.gain, switchDt := nextBoundary s.dt })) b) ∧
    (∀ t on, MailboxFree s c 0x0602 → field x 1 31 = 0 → s.tdmOf c.port c.handle = some t → on = flag x 0 →
      ((s.tdm t).enableAt = none → ((s.tdm t).state != .disabled) = on → Replies (.portEnable c) s c 0x0602 (taken s c 0x0602) { result := s.dt }) ∧
      (¬ ((s.tdm t).enableAt = none ∧ ((s.tdm t).state != .disabled) = on) → (on = true ∨ s.tdmMapped t = false) →
        Waits (.portEnable c) s c 0x0602 ((taken s c 0x0602).updTdm t (fun p => { p with enableAt := some (nextBoundary s.dt, on) })) t)) ∧
    (∀ t, MailboxFree s c 0x0803 → field x 1 31 = 0 → s.tdmOf c.port c.handle = some t →
      Waits (.diagTdmLoopback c) s c 0x0803 ((taken s c 0x0803).updTdm t (fun p => { p with loopAt := some (nextBoundary s.dt, flag x 0) })) t)

/-- In a quiet device, at a port its host reaches: a write to the inbound area of a free mailbox stores its bytes, of a busy or done one records MBX_BUSY and stores nothing; GO is ignored until FW_STATE reads READY, records MBX_BUSY at a mailbox that is not free, and otherwise sets BUSY and accepts the message in the inbound area; a write of 1 to DONE clears it and stores IRQ_EN. Nothing else changes. -/
def Obligations.MailboxRegistersAct : Prop :=
  ∀ (s : State) (n : Nat), Quiet s → Table.sortedFrom 0 s.ports = true → (s.port n).reachable = true →
    (∀ off size value, sizeOk off size = true → 0x1000 ≤ off → off < 0x1100 →
      ((s.port n).mbx.busy = false → (s.port n).mbx.done = false →
        Leaves (.inboundWrite n off size value) s
          (s.updPort n (fun p => { p with mbx := { p.mbx with inbound := putBytes p.mbx.inbound (off - 0x1000) size value } }))) ∧
      ((s.port n).mbx.busy = true ∨ (s.port n).mbx.done = true → Leaves (.inboundWrite n off size value) s (s.violate n 8 .mmio true off 0 0))) ∧
    (∀ ext data,
      ((s.port n).fwState ≠ 2 → Leaves (.go n ext data) s s) ∧
      ((s.port n).fwState = 2 → (s.port n).mbx.busy = true ∨ (s.port n).mbx.done = true →
        Leaves (.go n ext data) s (s.violate n 8 .mmio true 0x1200 0 0)) ∧
      ((s.port n).fwState = 2 → (s.port n).mbx.busy = false → (s.port n).mbx.done = false →
        Becomes (.go n ext data) s
          ((s.updPort n (fun p => { p with mbx := { p.mbx with busy := true } })).accept (Call.ofBytes n .mailbox (s.port n).mbx.inbound ext data)))) ∧
    (∀ irq, Leaves (.doneClear n irq) s (s.updPort n (fun p => { p with mbx := { p.mbx with done := false, irqEn := irq } })))

/-- In a quiet device, at a READY port its host reaches, for every doorbell and value: a ring that does not exist gives DOORBELL_ABSENT; an INDEX of at least the size, reserved bits included, DOORBELL_INDEX; a submission tail that would leave fewer pending entries than before, and a head outside the entries written and not handed back, DOORBELL_RETREAT; each of these changes nothing but the violation log and its event. Any other write moves the index and counts. An 8-byte write acts as two 4-byte writes, the lower offset first. -/
def Obligations.DoorbellChecks : Prop :=
  ∀ (s : State) (n value : Nat), Quiet s → Table.sortedFrom 0 s.ports = true → (s.port n).reachable = true → (s.port n).fwState = 2 → value < 2 ^ 32 →
    (∀ k r, k < 32 → r = (s.port n).pair k →
      (r.live = false → Leaves (.submissionTailDoorbell n k value) s (s.violate n 9 .mmio true (0x2000 + 4 * k) 0 (value % 65536))) ∧
      (r.live = true → 2 ^ r.sqLog ≤ value →
        Leaves (.submissionTailDoorbell n k value) s (s.violate n 0xA .mmio true (0x2000 + 4 * k) 0 (value % 65536))) ∧
      (r.live = true → value < 2 ^ r.sqLog → (value + 2 ^ r.sqLog - r.sqHead) % 2 ^ r.sqLog < r.pendingEntries →
        Leaves (.submissionTailDoorbell n k value) s (s.violate n 0xB .mmio true (0x2000 + 4 * k) 0 (value % 65536))) ∧
      (r.live = true → value < 2 ^ r.sqLog → r.pendingEntries ≤ (value + 2 ^ r.sqLog - r.sqHead) % 2 ^ r.sqLog →
        Leaves (.submissionTailDoorbell n k value) s
          (s.updPort n (fun p => (p.setPair k { r with sqTail := value, doorbellDt := s.dt }).rang))) ∧
      (r.live = false → Leaves (.completionHeadDoorbell n k value) s (s.violate n 9 .mmio true (0x2080 + 4 * k) 0 (value % 65536))) ∧
      (r.live = true → 2 ^ r.cqLog ≤ value →
        Leaves (.completionHeadDoorbell n k value) s (s.violate n 0xA .mmio true (0x2080 + 4 * k) 0 (value % 65536))) ∧
      (r.live = true → value < 2 ^ r.cqLog → r.unconsumed < (value + 2 ^ r.cqLog - r.cqHead) % 2 ^ r.cqLog →
        Leaves (.completionHeadDoorbell n k value) s (s.violate n 0xB .mmio true (0x2080 + 4 * k) 0 (value % 65536))) ∧
      (r.live = true → value < 2 ^ r.cqLog → (value + 2 ^ r.cqLog - r.cqHead) % 2 ^ r.cqLog ≤ r.unconsumed →
        Leaves (.completionHeadDoorbell n k value) s (s.updPort n (fun p => (p.setPair k { r with cqHead := value }).rang)))) ∧
    (∀ r, r = (s.port n).events →
      (r.live = false → Leaves (.eventRingHeadDoorbell n value) s (s.violate n 9 .mmio true 0x2100 0 (value % 65536))) ∧
      (r.live = true → r.size ≤ value → Leaves (.eventRingHeadDoorbell n value) s (s.violate n 0xA .mmio true 0x2100 0 (value % 65536))) ∧
      (r.live = true → value < r.size → r.used < (value + r.size - r.head) % r.size →
        Leaves (.eventRingHeadDoorbell n value) s (s.violate n 0xB .mmio true 0x2100 0 (value % 65536))) ∧
      (r.live = true → value < r.size → (value + r.size - r.head) % r.size ≤ r.used →
        Leaves (.eventRingHeadDoorbell n value) s
          (s.updPort n (fun p => if value = r.head then { p with events := { r with head := value } }.rang
            else { p with events := { r with head := value } }.rang.postLost s.dt)))) ∧
    (∀ off high, off % 8 = 0 → 0x2000 ≤ off → off < 0x2100 → high < 2 ^ 32 →
      s.bar0Write n off 8 (value + 2 ^ 32 * high) none .nothing = (s.bar0Write n off 4 value none .nothing).bar0Write n (off + 4) 4 high none .nothing)

/-- In a quiet device, at a port its host reaches: an access that touches a reserved offset records one MMIO_RESERVED at its lowest offset; an access of a bad size or alignment records one MMIO_SIZE; a poisoned write sets the AER bit and records one MMIO_POISONED; a write to read-only registers changes nothing and records nothing; a 4-byte write to the MSI-X table changes its one word; a 4-byte read of DT_LO latches the high half of DT. Nothing else changes. -/
def Obligations.AccessRefusalsRecord : Prop :=
  ∀ (s : State) (n off size value : Nat), Quiet s → Table.sortedFrom 0 s.ports = true → (s.port n).reachable = true →
    (∀ write, sizeOk off size = true → touchesReserved off size = true →
      Leaves (.reservedOffsetAccess n write off size) s (s.violate n 1 .mmio write off 0 0)) ∧
    (∀ write, sizeOk off size = false → Leaves (.mmioSize n write off size) s (s.violate n 2 .mmio write off 0 size)) ∧
    Leaves (.mmioPoisoned n off size) s
      ((s.updPort n (fun p => { p with cfg := { p.cfg with aerPoisonedTlp := true } })).violate n 3 .mmio true off 0 0) ∧
    (sizeOk off size = true → touchesReserved off size = false →
      (off + size ≤ 0x2C ∨ 0x1100 ≤ off ∧ off + size ≤ 0x1200 ∨ 0x3000 ≤ off ∧ off < 0x10000 ∨ 0x11000 ≤ off) →
      Leaves (.registerWrite n off size value) s s) ∧
    (off % 4 = 0 → 0x10000 ≤ off → off < 0x10400 → Leaves (.registerWrite n off 4 value) s (s.updPort n (fun p => p.tableWrite off (value % 2 ^ 32)))) ∧
    Leaves (.dtLoRead n) s (s.updPort n (fun p => { p with dtLatch := s.dt / 2 ^ 32 % 2 ^ 32 }))

/-- For every port and vector: while MSI-X Enable is clear, the Function Mask set, or the mask bit of the vector set, a message that falls due is not sent and the pending bit is set; when a pending vector may send again, exactly one message goes out with the address and data its entry holds, and its pending bit is clear. VECTOR_UNMASK of each kind is that change of the port, in a quiet device with the link UP, the configuration space ready and, for a table write, not in D3hot. -/
def Obligations.MaskedVectorsPend : Prop :=
  (∀ (p : HostPort) (v : Nat), Table.sortedFrom 0 p.vectors = true →
    ((p.cfg.msixEnable = false ∨ p.cfg.functionMask = true ∨ (p.vector v).mask = true) →
      (p.message v).sent = p.sent ∧ ((p.message v).vector v).pending = true) ∧
    (p.canWrite = true → p.cfg.msixEnable = true → p.cfg.functionMask = false → (p.vector v).mask = false → (p.vector v).pending = true →
      (p.unmask v).sent = p.sent ++ [.msix v ((p.vector v).addr + 2 ^ 32 * (p.vector v).upper) (p.vector v).msgData] ∧
      ((p.unmask v).vector v).pending = false)) ∧
  (∀ (s : State) (n : Nat), Quiet s → Table.sortedFrom 0 s.ports = true → (s.port n).link = .up → (s.port n).configReady = true →
    Leaves (.vectorUnmask n .enable) s (s.updPort n (fun p => { p with cfg := { p.cfg with msixEnable := true } }.sendPending)) ∧
    Leaves (.vectorUnmask n .functionMask) s (s.updPort n (fun p => { p with cfg := { p.cfg with functionMask := false } }.sendPending)) ∧
    (∀ v, v < 64 → (s.port n).cfg.d3hot = false →
      Leaves (.vectorUnmask n (.vector v)) s (s.updPort n (fun p => (p.setVector v { p.vector v with mask := false }).unmask v))))

/-- In a quiet device: D3HOT of a reachable port sets D3hot and notes the free capacity if it could write; D0_RETURN and BUS_MASTER_ENABLE store the bit and, where the port may then write again, release what it held in order, where it may no longer, note the free capacity; AGG_TIME_EXPIRY at or after the time since the first signal sends or pends the one message. Nothing but the port changes. -/
def Obligations.PowerAndBusMasterRows : Prop :=
  ∀ (s : State) (n : Nat), Quiet s → Table.sortedFrom 0 s.ports = true →
    ((s.port n).reachable = true →
      Leaves (.d3hot n) s (s.updPort n (fun p => { (if p.canWrite then p.noteCapacity else p) with cfg := { p.cfg with d3hot := true } }))) ∧
    ((s.port n).link = .up → (s.port n).cfg.d3hot = true →
      Leaves (.d0Return n) s (s.updPort n (fun p =>
        if p.cfg.busMaster then { p with cfg := { p.cfg with d3hot := false } }.release s.dt else { p with cfg := { p.cfg with d3hot := false } }))) ∧
    ((s.port n).link = .up → (s.port n).configReady = true → (s.port n).cfg.d3hot = false → (s.port n).cfg.busMaster = false →
      Leaves (.busMasterEnable n true) s (s.updPort n (fun p => { p with cfg := { p.cfg with busMaster := true } }.release s.dt))) ∧
    ((s.port n).link = .up → (s.port n).configReady = true → (s.port n).cfg.d3hot = false → (s.port n).cfg.busMaster = true →
      Leaves (.busMasterEnable n false) s (s.updPort n (fun p => { p.noteCapacity with cfg := { p.cfg with busMaster := false } }))) ∧
    ((s.port n).link = .up → (s.port n).configReady = true → (s.port n).cfg.d3hot = true →
      ∀ on, Leaves (.busMasterEnable n on) s (s.updPort n (fun p => { p with cfg := { p.cfg with busMaster := on } }))) ∧
    (∀ v, 0 < ((s.port n).vector v).count → 0 < ((s.port n).vector v).aggTime → ((s.port n).vector v).firstDt + ((s.port n).vector v).aggTime ≤ s.dt →
      Leaves (.aggTimeExpiry n v) s (s.updPort n (fun p => p.message v)))

/-- DL_UP of a TRAINING port makes it UP, of a LOST one also writes what it held and posts LINK_RETURN; DL_DOWN of an UP port makes it LOST, notes the free capacity, counts the loss and fails its requests; PERST#, Hot Reset and FLR reset the port, the first two into DOWN_RESET; releasing PERST# or leaving Hot Reset with nothing else holding starts training with the 80 ms bound; CONFIG_SPACE_READY opens BAR0; HOST_LOSS_APPLY of a served port reads READY, keeps the PORT_RESET event for the ring to come and applies HOST_LOSS to every open stream not in BINDING_OFF. The block then settles. -/
def Obligations.LinkAndResetRows : Prop :=
  ∀ (s : State) (n : Nat), n < 4 →
    ((s.port n).link = .training → Becomes (.dlUp n) s ((s.setPort n { s.port n with link := .up }).notifyDiscovery n)) ∧
    ((s.port n).link = .lost →
      ∀ q, q = { s.port n with link := .up, lossDropped := 0 } →
      Becomes (.dlUp n) s
        (((s.setPort n (if q.canWrite then q.release s.dt else q)).post n 0x8003 (partHandle n)
          (pack [(2, 0), (14, 0), (48, (s.port n).lossDt), (32, (s.port n).lossDropped)])).notifyDiscovery n)) ∧
    ((s.port n).link = .up →
      ∀ q, q = (if (s.port n).canWrite then (s.port n).noteCapacity else s.port n) →
      Becomes (.dlDown n) s
        (((s.setPort n { q with link := .lost, lossDropped := 0, lossDt := s.dt, cnt := { q.cnt with linkLosses := bump 32 q.cnt.linkLosses 1 } }).dropMedium
          n false).failPort n)) ∧
    ((s.port n).perst = false →
      Becomes (.perstAsserted n) s ((s.portReset n .perst).updPort n (fun p => { p with perst := true, hotReset := false, link := .downReset }))) ∧
    (Becomes (.perstReleased n) s ((s.updPort n (fun p => { p with perst := false })).leaveReset n)) ∧
    ((s.port n).link ≠ .downReset →
      Becomes (.hotReset n) s ((s.portReset n .hotReset).updPort n (fun p => { p with hotReset := true, link := .downReset }))) ∧
    ((s.port n).hotReset = true → Becomes (.hotResetExit n) s ((s.updPort n (fun p => { p with hotReset := false })).leaveReset n)) ∧
    ((s.port n).link = .downReset → (s.port n).perst = false → (s.port n).hotReset = false → s.boot.inReset = false →
      s.leaveReset n = s.setPort n { s.port n with link := .training, readyBound := some (s.dt + 1966080) }) ∧
    ((s.port n).link = .up → (s.port n).configReady = true →
      Becomes (.flr n) s ((s.portReset n .flr).updPort n (fun q => { q with readyBound := some (s.dt + 2457600) }))) ∧
    ((s.port n).link ≠ .downReset → (s.port n).readyBound ≠ none →
      Becomes (.configSpaceReady n) s (s.setPort n { s.port n with configReady := true, readyBound := none })) ∧
    (∀ r acts e, (s.port n).pendingReset = some r → (s.port n).configReady = true → s.serving = true →
      acts = ((s.streams.filter (fun x => x.2.part == n && x.2.state != .closed && x.2.state != .bindingOff)).map (fun x => (x.1, s.lossOf x.1))) →
      e = { code := 0x8003, seq := (s.port n).eventSeq, handle := partHandle n, dt := s.dt,
            data := pack [(2, 1), (2, match r.cause with
              | .perst => 0
              | .hotReset => 1
              | .flr => 2), (11, (acts.filter (fun a => a.2 == 0)).length), (1, 0), (48, r.dt), (11, (acts.filter (fun a => a.2 == 1)).length),
                (11, (acts.filter (fun a => a.2 == 2)).length)] } →
      Becomes (.hostLossApply n) s
        (acts.foldl (fun (u : State) a => u.applyLoss a.1 a.2)
          (s.setPort n { s.port n with pendingReset := none, fwState := 2, resetEvent := some e, eventSeq := bump 16 (s.port n).eventSeq 1 })))

/-- ENTRY_FETCH reads entries of the next pair in turn that may be read, never beyond R448 and R449; ENTRY_FETCH_RETRY makes a due failed read again and counts it; a good completion that carries what was asked leaves the request list and brings its data, an error fails the request with HOST_ERROR, a completion no request waits for only reports and counts; a timeout fails its request with HOST_TIMEOUT and quarantines its tag for twice the limit; QUARANTINE_END gives the tag back; SNAPSHOT_REFRESH at a whole millisecond publishes one sample to the four ports, SEQ stepping by 2. The block then settles. -/
def Obligations.HostRequestRows : Prop :=
  ∀ (s : State) (n tag : Nat),
    (∀ k, (s.port n).fwState = 2 → ((List.range 32).map (fun j => ((s.port n).nextPair + j) % 32)).find? (fun k => (s.port n).mayRead k) = some k →
      (s.port n).freePcieTag.isSome = true →
      Becomes (.entryFetch n) s
        ((s.issueRead n k ((((s.port n).pair k).sqHead + ((s.port n).pair k).reading) % 2 ^ ((s.port n).pair k).sqLog) ((s.port n).readCount k) 0).updPort n
          (fun q => { q.setPair k { q.pair k with reading := ((s.port n).pair k).reading + (s.port n).readCount k } with nextPair := (k + 1) % 32 }))) ∧
    (∀ k f, ((s.port n).pair k).failed.find? (fun f => decide (f.2.2.2 ≤ s.dt)) = some f → (s.port n).canWrite = true → (s.port n).fwState = 2 →
      (s.port n).freePcieTag.isSome = true →
      Becomes (.entryFetchRetry n k) s
        ((s.updPort n (fun q => { q.setPair k { (s.port n).pair k with failed := ((s.port n).pair k).failed.erase f } with
          cnt := { q.cnt with fetchRetries := bump 32 q.cnt.fetchRetries 1 } })).issueRead n k f.1 f.2.1 f.2.2.1)) ∧
    (∀ r status poisoned data, (s.port n).link = .up → (s.port n).requests.find? (fun r => r.pcieTag == tag) = some r →
      (carriesFor data r = true →
        Becomes (.hostCompletion n tag .ok false data) s
          (((s.setPort n ((s.port n).without r)).hostBrings r n data).updPort n HostPort.closeQuiet)) ∧
      ((status ≠ .ok ∨ poisoned = true) →
        ∀ q, q = (s.port n).without r →
        Becomes (.hostCompletion n tag status poisoned data) s
          (((s.setPort n { q with cfg := { q.cfg with aerPoisonedTlp := q.cfg.aerPoisonedTlp || poisoned },
                                  cnt := { q.cnt with errorCompletions := bump 32 q.cnt.errorCompletions 1 } }).hostFails n r 5 false false).updPort n
            HostPort.closeQuiet))) ∧
    (∀ status poisoned data, (s.port n).link = .up → (s.port n).requests.find? (fun r => r.pcieTag == tag) = none →
      Becomes (.hostCompletion n tag status poisoned data) s
        ((s.setPort n { s.port n with
            cfg := { (s.port n).cfg with aerUnexpectedCompletion := true },
            cnt := { (s.port n).cnt with lateCompletions := bump 32 (s.port n).cnt.lateCompletions (bit ((s.port n).quarantine.any (fun q => q.pcieTag == tag))) } }).updFeeder 3
          (fun x => { x with cnt := { x.cnt with late := bump 64 x.cnt.late (bit ((s.port n).quarantine.any (fun q => q.pcieTag == tag))) } }))) ∧
    (∀ r limit q, (s.port n).requests.find? (fun r => r.pcieTag == tag) = some r → limit = timeoutTicks (s.port n).cfg.completionTimeout →
      r.issued + limit ≤ s.dt → q = (s.port n).without r →
      Becomes (.completionTimeout n tag) s
        (((s.setPort n { q with cfg := { q.cfg with aerCompletionTimeout := true },
                                quarantine := q.quarantine ++ [{ pcieTag := tag, fxTag := r.fxTag, ends := s.dt + 2 * limit }],
                                cnt := { q.cnt with completionTimeouts := bump 32 q.cnt.completionTimeouts 1 } }).hostFails n r 4 true false).updPort n
          HostPort.closeQuiet)) ∧
    (∀ q t, (s.port n).quarantine.find? (fun q => q.pcieTag == tag && decide (q.ends ≤ s.dt)) = some q →
      t = s.setPort n { s.port n with quarantine := (s.port n).quarantine.erase q } →
      (t.request 3 q.fxTag = none → Becomes (.quarantineEnd n tag) s t) ∧
      (∀ r, t.request 3 q.fxTag = some r → r.quarantined.isSome = true → r.kind = 3 → Becomes (.quarantineEnd n tag) s (t.returnTag 3 r))) ∧
    (s.serving = true → s.dt % 24576 = 0 →
      Becomes .snapshotRefresh s
        ((List.range 4).foldl (fun (t : State) k => t.updPort k (fun p =>
          { p with snap := { seq := bump 64 p.snap.seq 2, dt := s.dt, words := (s.snapWords k).filter (fun w => decide (w.2 ≠ 0)) } })) s))

/-- FEEDER_RING_DOORBELL of a live ring that may hold its descriptors writes them from the old tail on, each with the deadline of its operation, sets tail and the earliest of their deadlines and forgets a skein that held the old tail; of a ring that is not live, or where a descriptor belongs to another FX ring, it does nothing. SKEIN of a ring with entries and no skein reads the eight descriptors of the head's aligned group in the turn R258 gives it, when no burst of them is uncorrectable, and waits out of turn. DESCRIPTOR_START starts the head descriptor that R245 chooses: it moves the head, drops a used-up skein, and puts the descriptor in progress, complete at once where it moves no byte; one of an aborted operation is passed over, and the operation forgotten once nothing of it is left; one that R248 or R249 forbids is a DESCRIPTOR fault. The block then settles. -/
def Obligations.RingRowsAct : Prop :=
  ∀ (s : State) (f r : Nat), 
    (∀ tail deadline descs, ((s.feeder f).ring r).live = false → Becomes (.feederRingDoorbell f r tail deadline descs) s s) ∧
    (∀ tail deadline descs x ds, x = (s.feeder f).ring r → ds = descs.map s.stampDesc → x.live = true →
      (ds.all (fun w => (Desc.ofBytes w).fitsRing f r) = true →
        Becomes (.feederRingDoorbell f r tail deadline descs) s
          ((s.writeRing x x.tail ds).updRing f r (fun y =>
            { y with tail := tail % 2 ^ y.log, deadline := earliestDeadline deadline ds, skein := y.skein.filter (fun k => k.1 / 8 != x.tail / 8) }))) ∧
      (ds.all (fun w => (Desc.ofBytes w).fitsRing f r) = false → Becomes (.feederRingDoorbell f r tail deadline descs) s s)) ∧
    (∀ x d ds, s.writeRing x r (d :: ds) = (s.memWrite (x.base + 32 * (r % 2 ^ x.log)) 32 d).writeRing x (r + 1) ds) ∧
    (∀ x a, x = (s.feeder f).ring r → a = x.base + 32 * (x.head / 8 * 8) → x.live = true → x.head ≠ x.tail → x.skein = none →
      (s.firstAt (channelOf a) f x.deadline = true → (∀ b ∈ burstsOf a 256, eccOf b (s.mem.err b) ≠ .uncorrectable) →
        Becomes (.skein f r) s
          ((s.servedAt (channelOf a) f).updRing f r (fun y =>
            { y with skein := some (x.head / 8 * 8, (List.range 8).map (fun j => s.memRead (a + 32 * j) 32)) }))) ∧
      (s.firstAt (channelOf a) f x.deadline = false → Becomes (.skein f r) s s)) ∧
    (∀ d x t, s.nextRing f = some (r, d) → x = (s.feeder f).ring r →
      t = (s.updRing f r (fun y => { y with
            head := (x.head + 1) % 2 ^ x.log, skein := if (x.head + 1) % 2 ^ x.log % 8 = 0 then none else y.skein })).updFeeder f (fun y => { y with lastRing := r }) →
      ((s.ops.any (fun o => o.id == d.task && o.aborted)) = true → Becomes (.descriptorStart f) s t.reapOps) ∧
      ((s.ops.any (fun o => o.id == d.task && o.aborted)) = false → d.ok f = false →
        Becomes (.descriptorStart f) s (t.transferFault f d 0 { kind := 0x06, endpoint := 300 + f, address := d.src })) ∧
      (∀ p u, (s.ops.any (fun o => o.id == d.task && o.aborted)) = false → d.ok f = true → d.needle = false →
        p = ({ id := (s.feeder f).nextProg, ring := r, index := x.head, desc := d, copies := s.copiesOf d, unicast := s.asUnicast d } : Progress) →
        u = t.updFeeder f (fun y => { y with progress := y.progress ++ [p], nextProg := y.nextProg + 1 }) →
        Becomes (.descriptorStart f) s (if p.total = 0 then u.descDone f p else u)))

/-- REQUEST_ISSUE of the descriptor R246 chooses waits at the tag limits of R240; otherwise, with an open window with room, it records the request under a free tag and sends its message, and without room it waits on the window. DATA of a live fill lands in its place and counts its bytes; data of aborted or sacrificed work is discarded and its tag returns; late data of a quarantined tag counts and returns it. DONE of a completed write counts its bytes and returns the tag. MEM_TIMEOUT of a request issued 81,920 FCLK ago (200 FCLK in 3 ticks), not held up by a credit recovery, fails it with MEM_TIMEOUT and quarantines the tag. -/
def Obligations.RequestsIssueAndReturn : Prop :=
  ∀ (s : State) (f tag : Nat),
    (s.nextIssue f = none → Becomes (.requestIssue f) s s) ∧
    (∀ p, s.nextIssue f = some p → (2048 ≤ (s.feeder f).requests.length ∨ 6144 ≤ s.allTags) →
      Becomes (.requestIssue f) s (s.updFeeder f (fun y => { y with waitFrom := some (y.waitFrom.getD s.dt) }))) ∧
    (∀ p u x read dst n v, s.nextIssue f = some p → x = s.feeder f → x.requests.length < 2048 → s.allTags < 6144 →
      p.desc.kind ≠ 3 → p.desc.kind ≠ 4 → p.desc.kind ≠ 1 →
      u = s.updFeeder f (fun y => { y with waitFrom := none, cnt := { y.cnt with
        tagPoolWaits := bump 64 y.cnt.tagPoolWaits ((x.waitFrom.map (fun w => (s.dt - w) * 200 / 3)).getD 0) } }) →
      read = (p.desc.kind != 6 && p.desc.kind != 8) → dst = 256 + channelOf p.piece.1 / 32 → n = requestStitches p.desc.kind read p.piece.2.2 →
      v = (if p.desc.kind = 8 then p.desc.dst else 0) → u.canInject dst = true → u.nearRoute f p.desc p.piece.2.1 = true → (u.window (300 + f) dst).isOpen = true →
      ((u.window (300 + f) dst).room n = true →
        Becomes (.requestIssue f) s
          ((u.addRequest f p
            { tag := x.freeTag, prog := p.id, op := p.desc.task, part := p.desc.part, deadline := p.desc.deadline, kind := if p.copyOf.isSome then 0 else p.desc.kind,
              read := read, gambit := p.desc.gambit, addr := p.piece.1, other := p.piece.2.1, bytes := p.piece.2.2, issued := s.dt, data := v,
              buffered := decide (0 < s.bufferNeed p p.piece.2.2) }).sendMessage (300 + f) dst p.desc.task 0 (requestKind p.desc.kind read) x.freeTag n
            (pack [(37, p.piece.1), (64, p.piece.2.1), (32, p.desc.deadline), (9, p.piece.2.2), (2, p.desc.part), (1, bit p.desc.gambit)] + 2 ^ 145 * v))) ∧
      ((u.window (300 + f) dst).room n = false → Becomes (.requestIssue f) s (u.windowWaits (300 + f) dst))) ∧
    (∀ r, s.request f tag = some r → r.fetched = true →
      (r.quarantined.isSome = true → r.read = true →
        Becomes (.data f tag) s ((s.updFeeder f (fun x => { x with cnt := { x.cnt with late := bump 64 x.cnt.late 1 } })).returnTag f r)) ∧
      (r.quarantined = none → r.read = true → s.requestDead f r = true →
        Becomes (.data f tag) s
          ((s.updFeeder f (fun x => { x with cnt := { x.cnt with sacrificed := bump 64 x.cnt.sacrificed (if r.gambit then r.bytes else 0) } })).returnTag f r)) ∧
      (∀ p t, r.quarantined = none → r.read = true → s.requestDead f r = false → s.progressOf f r = some p → r.kind ≠ 2 → r.buffered = false →
        t = s.updFeeder f (fun x => { x with cnt := { x.cnt with bytesRead := bump 64 x.cnt.bytesRead r.bytes } }) →
        Becomes (.data f tag) s ((t.landData p.desc p.half r).updRequest f tag (fun y => { y with read := false }))) ∧
      (∀ p, r.quarantined = none → r.read = false → r.buffered = false → s.progressOf f r = some p →
        Becomes (.done f tag) s
          ((s.updFeeder f (fun x => { x with cnt := { x.cnt with
            bytesWritten := bump 64 x.cnt.bytesWritten
              (if r.failed then 0 else if r.kind = 1 ∨ r.kind = 2 ∨ r.kind = 3 ∨ r.kind = 6 ∨ r.kind = 8 then r.bytes else 0) } })).returnTag f r)) ∧
      (r.quarantined.isSome = true →
        Becomes (.done f tag) s ((s.updFeeder f (fun x => { x with cnt := { x.cnt with late := bump 64 x.cnt.late 1 } })).returnTag f r))) ∧
    (∀ r p, s.request f tag = some r → r.fetched = false → r.failed = false → r.quarantined = none → (r.kind = 3 → r.read = false) →
      (s.window (300 + f) (256 + channelOf r.addr / 32)).probeFrom = none → 3 * 81920 ≤ 200 * (s.dt - r.issued) → s.progressOf f r = some p →
      Becomes (.memTimeout f tag) s
        (((s.updRequest f tag (fun y => { y with failed := true, quarantined := some s.dt })).updFeeder f
          (fun x => { x with cnt := { x.cnt with watchdog := bump 32 x.cnt.watchdog 1 } })).transferFault f p.desc p.id
            { kind := 0x03, endpoint := 256 + channelOf r.addr / 32, detail := tag, address := r.addr })) ∧
    (∀ r, s.request f tag = some r → 200 * (s.dt - r.issued) < 3 * 81920 → Becomes (.memTimeout f tag) s s)

/-- SWAP of a declared IN pair whose other half is FULL makes that half WORKING and the working half EMPTY (when no fill waits for it); of an OUT pair whose other half is EMPTY the working half FULL and the other WORKING; else the tile waits, its data-late cycles counting until the swap is made. ARRIVE at an ARMED barrier below its expected count adds one arrival, and the last one makes it COMPLETE and releases every waiter; at a barrier not ARMED, or already full, it is a BARRIER fault that aborts the operation. STALEMATE_CHECK does nothing before 6,144 ticks without an arrival or without a waiter; where the barrier is in no stalemate set the next check is 6,144 ticks away. -/
def Obligations.NeedlesAndBarriersAct : Prop :=
  ∀ (s : State) (t p f index op : Nat),
    (∀ n, n = (s.tile t).needle p → n.declared = true →
      (n.outbound = false → n.half (!n.current) = .full → n.half n.current = .working →
        (s.feeder (t / 48)).progress.any (fun q => q.desc.needle && q.desc.pair == p && q.half == some n.current && s.wordTile q.desc.dst == some t) = false →
        ∀ u, u = s.updNeedle t p (fun _ =>
          { (n.setHalf n.current .empty).setHalf (!n.current) .working with current := !n.current, waiting := false, used := false }) →
        Becomes (.swap t p) s (if n.waiting then u.stallEnds t else u)) ∧
      (n.outbound = true → n.half (!n.current) = .empty → n.half n.current = .working →
        ∀ u, u = s.updNeedle t p (fun _ => { (n.setHalf n.current .full).setHalf (!n.current) .working with current := !n.current, waiting := false }) →
        Becomes (.swap t p) s (if n.waiting then u.stallEnds t else u)) ∧
      (n.half (!n.current) ≠ (if n.outbound then .empty else .full) →
        Becomes (.swap t p) s ((s.updNeedle t p (fun _ => { n with waiting := true })).stalls t .dataLate))) ∧
    (∀ b, b = s.barrier f index →
      (b.state = .armed → b.arrived + 1 < b.expect →
        Becomes (.arrive f index op) s
          (s.updBarrier f index (fun _ => { b with arrived := b.arrived + 1, owing := b.owing.erase (.task op), lastArrival := s.dt }))) ∧
      (b.state = .armed → b.arrived + 1 = b.expect →
        Becomes (.arrive f index op) s
          (s.updBarrier f index (fun _ => { b with arrived := b.arrived + 1, state := .complete, waiters := [], owing := [], lastArrival := s.dt }))) ∧
      ((b.state ≠ .armed ∨ b.expect ≤ b.arrived) →
        Becomes (.arrive f index op) s (s.abortOp op { kind := 0x07, feeder := 7, endpoint := 288 }))) ∧
    (s.dt < (s.barrier f index).lastArrival + 6144 → Becomes (.stalemateCheck f index) s s) ∧
    ((s.barrier f index).state = .armed → (s.barrier f index).waiters ≠ [] → (s.barrier f index).lastArrival + 6144 ≤ s.dt →
      (∀ armed, armed = (s.barriers.filter (fun e => e.2.state == .armed)).map (·.1) →
        (s.stalemateSet armed.length armed).contains (256 * f + index) = false) →
      Becomes (.stalemateCheck f index) s (s.updBarrier f index (fun x => { x with lastArrival := s.dt })))

/-- In a quiet device, of a request waiting at a controller in the turn R258 gives it that the region guard admits: READ of bursts without a wrong byte answers the bytes of memory and counts the bursts, and where an MCAST asked for it sends the multicast on; WRITE stores its bytes, ZERO zeros, PUT16 sixteen bytes, each marks the burst free of error, counts its bursts and drops a waiting scrub write-back; nothing else changes. Every byte of device memory outside the written range reads as before. A request the guard does not admit changes no byte: it is refused. -/
def Obligations.ControllerServesRequests : Prop :=
  ∀ (s : State) (f tag : Nat) (r : Request) (v : State), Quiet s → s.mem.wf = true → s.atController f tag = some r → v = s.servedAt (channelOf r.addr) f →
    (∀ q, r.read = true → s.admits (s.originOf r.op) r.part false r.addr r.bytes = true → (∀ b ∈ burstsOf r.addr r.bytes, (s.mem.err b).bytes = []) →
      (∀ b ∈ burstsOf r.addr r.bytes, (s.mem.err b).single = false) →
      q = v.updChannel (channelOf r.addr) (fun c => { c with
        reads := bump 64 c.reads (burstsOf r.addr r.bytes).length, corrected := bump 64 c.corrected 0, uncorrectable := bump 32 c.uncorrectable 0 }) →
      (r.kind ≠ 5 → Leaves (.read f tag []) s (q.updRequest f tag (fun y => { y with data := s.memRead r.addr r.bytes, fetched := true }))) ∧
      (∀ d, r.kind = 5 → d = ((s.progressOf f r).map (·.desc.span)).getD 0 →
        (∀ u, q.sendMulticast (channelOf r.addr / 32) (field d 8 4) (field d 0 4) (field d 4 4) tag (1 + ceilDiv r.bytes 32) (s.memRead r.addr r.bytes) = some u →
          Becomes (.read f tag []) s (u.updRequest f tag (fun y => { y with data := s.memRead r.addr r.bytes, fetched := true }))) ∧
        (q.sendMulticast (channelOf r.addr / 32) (field d 8 4) (field d 0 4) (field d 4 4) tag (1 + ceilDiv r.bytes 32) (s.memRead r.addr r.bytes) = none →
          Leaves (.read f tag []) s v))) ∧
    (r.read = false → r.kind ≠ 6 → r.kind ≠ 8 → s.admits (s.originOf r.op) r.part true r.addr r.bytes = true →
      Leaves (.write f tag) s (((v.memWrite r.addr r.bytes r.data).channelWrote r.addr r.bytes).updRequest f tag (fun y => { y with fetched := true }))) ∧
    (r.read = false → r.kind = 6 → s.admits (s.originOf r.op) r.part true r.addr r.bytes = true →
      Leaves (.zero f tag) s (((v.memZero r.addr r.bytes).channelWrote r.addr r.bytes).updRequest f tag (fun y => { y with fetched := true }))) ∧
    (∀ w, r.read = false → r.kind = 8 → s.admits (s.originOf r.op) r.part true r.addr 16 = true → (s.mem.err (r.addr / 32)).bytes = [] →
      (s.mem.err (r.addr / 32)).single = false → w = s.memRead (32 * (r.addr / 32)) 32 →
      Leaves (.put16 f tag []) s
        (((((v.updChannel (channelOf (32 * (r.addr / 32))) (fun c => { c with
          reads := bump 64 c.reads 1, corrected := bump 64 c.corrected 0, uncorrectable := bump 32 c.uncorrectable 0 })).memWrite (32 * (r.addr / 32)) 32 w).memWrite
            r.addr 16 r.data).channelWrote (32 * (r.addr / 32)) 32).updRequest f tag (fun y => { y with fetched := true }))) ∧
    (∀ a w, (s.memWrite r.addr r.bytes w).mem.byte a =
      if r.addr ≤ a ∧ a < r.addr + r.bytes then BitVec.ofNat 8 (w / 2 ^ (8 * (a - r.addr))) else s.mem.byte a) ∧
    (∀ a, (s.memZero r.addr r.bytes).mem.byte a = if r.addr ≤ a ∧ a < r.addr + r.bytes then 0#8 else s.mem.byte a) ∧
    (r.read = false → r.kind ≠ 6 → r.kind ≠ 8 → s.admits (s.originOf r.op) r.part true r.addr r.bytes = false →
      Becomes (.write f tag) s (v.guardRefuses f r)) ∧
    (r.read = true → s.admits (s.originOf r.op) r.part false r.addr r.bytes = false → Becomes (.read f tag []) s (v.guardRefuses f r))

/-- In a quiet device: REFRESH_FORCED and PER_BANK_REFRESH of a pseudo-channel count their slot; SCRUB_READ of a burst without error, with no write-back waiting, moves the position on by one burst and counts its slot; STACK_TEMPERATURE_READOUT stores the reading and the maximum, fast refresh from 85 °C until below 82 °C; CONTROLLER_RESET_DONE ends the reset and leaves its time out of the tasks that waited; CONTROLLER_RESET that is due at a pseudo-channel fails and returns the tags there and writes one journal entry; one that is not due does nothing. -/
def Obligations.MemoryBackgroundActs : Prop :=
  ∀ (s : State) (c : Nat), Quiet s → c < 192 →
    Leaves (.refreshForced c) s
      (s.updChannel c (fun x => { x with refreshSlots := bump 64 x.refreshSlots 1, refreshForced := bump 32 x.refreshForced 1 })) ∧
    Leaves (.perBankRefresh c) s (s.updChannel c (fun x => { x with refreshSlots := bump 64 x.refreshSlots 1 })) ∧
    (∀ pos, pos = (s.channel c).scrubPosition → (s.channel c).inReset = false → (s.channel c).writeBack = none → pos + 1 < 16777216 →
      (s.mem.err (scrubAddress c pos / 32)).bytes = [] →
      Leaves (.scrubRead c []) s
        (s.updChannel c (fun x => { x with
          scrubPosition := pos + 1, scrubSlots := bump 64 x.scrubSlots 1, scrubForced := bump 32 x.scrubForced (bit (s.scrubBehind c)) }))) ∧
    (∀ pos, pos < 16777216 → channelOf (scrubAddress c pos) = c ∧ scrubAddress c pos < memEnd) ∧
    (∀ k temp (x y : Stack), k < 6 → temp < 256 → x = Table.get {} s.mem.stackRegs k →
      y = { tempNow := temp, tempMax := max x.tempMax temp, fast := decide (85 ≤ temp ∨ 82 ≤ temp ∧ x.fast = true) } →
      Leaves (.stackTemperatureReadout k temp) s { s with mem := { s.mem with stackRegs := Table.set {} s.mem.stackRegs k y } }) ∧
    ((s.channel c).inReset = true →
      Becomes (.controllerResetDone c) s
        ((List.range 3).foldl (fun (u : State) f => u.updFlank f (fun x =>
          { x with run := x.run.map (fun r => if ((s.requestsAt c).map (fun y => y.2.op)).contains r.id
              then { r with paused := r.paused + (s.dt - (s.channel c).resetFrom) } else r) }))
          (s.updChannel c (fun k => { k with inReset := false, resetFrom := 0 })))) ∧
    (s.resetDue c = false → Leaves (.controllerReset c) s s) ∧
    (∀ queued t, (s.channel c).inReset = false → s.resetDue c = true →
      queued = (s.requestsAt c).filter (fun x => !x.2.fetched && x.2.quarantined.isNone && !(x.2.kind == 3 && x.2.read)) →
      t = queued.foldl (fun (v : State) x => v.resetFails c x.1 x.2)
        (s.updChannel c (fun k => { k with inReset := true, resetFrom := s.dt, controllerResets := bump 16 k.controllerResets 1 })) →
      Becomes (.controllerReset c) s
        (((((s.requestsAt c).filter (fun x => x.2.quarantined.isSome) ++ queued).foldl (fun (v : State) x => v.tagBack x.1 x.2.tag) t).journalWrite { JEntry.blank 0x21 with endpoint := 256 + c / 32, detail := pack [(8, c), (16, queued.length)] }).dispatchAll))

/-- LOOKUP of a page that may be cached, by an enabled tile that does not hold it, makes the tile wait and counts; it is held while a write is pending, answered NONE where the flank has no other holder (of a page that may be cached the tile becomes the holder), else HOLDER with that holder. HOLDER sends the tile to the named peer. NONE of a page that may be cached gives the tile a frame, where one is free, and its task owes the page's read from device memory; without a running task the directory's holder goes again by EVICT. PEER_READ ends the wait, brings the page and makes the frame the most recently used, once the page stands in the holder's frame. EVICT of a page the sender holds clears the holder; of one it does not hold it is ignored. The block then settles. -/
def Obligations.PageCacheLookups : Prop :=
  ∀ (s : State) (tile ppn : Nat),
    (∀ t, (s.tile tile).state = .enabled → s.frameCount (tile / 48) ≠ 0 → (s.tile tile).frames.contains ppn = false →
      (s.tile tile).awaits ppn = false →
      t = (s.updTile tile (fun y => { y with waits := y.waits ++ [.lookup ppn] })).updOwner ppn (fun p => { p with lookups := bump 64 p.lookups 1 }) →
      ((s.dirEntry ppn).writePending = true →
        Becomes (.lookup tile ppn) s (t.setDir ppn { s.dirEntry ppn with held := (s.dirEntry ppn).held ++ [tile] })) ∧
      (∀ logical owner, (s.dirEntry ppn).writePending = false → s.sealedPage ppn = true → logical = (t.tile tile).logical → owner = (t.pageOwner ppn).getD 0 →
        ((s.page ppn).state = .allocated → ((s.dirEntry ppn).holder (tile / 48) = 255 ∨ (s.dirEntry ppn).holder (tile / 48) = logical) →
          Becomes (.lookup tile ppn) s
            (((t.putDir ppn ((s.dirEntry ppn).setHolder (tile / 48) logical)).cacheSend .none tile ppn 0).updPart owner
              (fun p => { p with cacheMemory := bump 64 p.cacheMemory 1 }))) ∧
        ((s.page ppn).state = .trimPending → ((s.dirEntry ppn).holder (tile / 48) = 255 ∨ (s.dirEntry ppn).holder (tile / 48) = logical) →
          Becomes (.lookup tile ppn) s ((t.cacheSend .none tile ppn 0).updPart owner (fun p => { p with cacheMemory := bump 64 p.cacheMemory 1 }))) ∧
        (((s.page ppn).state = .allocated ∨ (s.page ppn).state = .trimPending) →
          (s.dirEntry ppn).holder (tile / 48) ≠ 255 → (s.dirEntry ppn).holder (tile / 48) ≠ logical →
          Becomes (.lookup tile ppn) s
            ((t.cacheSend .holder tile ppn ((s.dirEntry ppn).holder (tile / 48))).updPart owner (fun p => { p with cachePeer := bump 64 p.cachePeer 1 }))))) ∧
    (∀ m, s.cacheMsg .holder tile ppn = some m →
      Becomes (.holder tile ppn m.holder) s
        ((s.cacheTake m).updTile tile (fun y => { y with waits := y.waits.erase (.lookup ppn) ++ [.peer ppn m.holder] }))) ∧
    (∀ m t, s.cacheMsg .none tile ppn = some m → t = (s.cacheTake m).updTile tile (fun y => { y with waits := y.waits.erase (.lookup ppn) }) →
      (∀ r, (t.flank (tile / 48)).run = some r → t.cacheable ppn = true → (t.dirEntry ppn).holder (tile / 48) = (t.tile tile).logical →
        (t.tile tile).frames.length < t.frameCount (tile / 48) →
        Becomes (.noneAnswer tile ppn) s
          (((t.updTile tile (fun y => { y with frames := y.frames ++ [ppn] })).updTile tile (fun y => { y with waits := y.waits ++ [.memory ppn] })).owePage r.id ppn)) ∧
      (∀ r, (t.flank (tile / 48)).run = some r → t.cacheable ppn = false →
        Becomes (.noneAnswer tile ppn) s ((t.updTile tile (fun y => { y with waits := y.waits ++ [.memory ppn] })).owePage r.id ppn)) ∧
      ((t.flank (tile / 48)).run = none → (t.dirEntry ppn).holder (tile / 48) = (t.tile tile).logical →
        Becomes (.noneAnswer tile ppn) s (t.cacheSend .evict tile ppn 0)) ∧
      ((t.flank (tile / 48)).run = none → (t.dirEntry ppn).holder (tile / 48) ≠ (t.tile tile).logical → Becomes (.noneAnswer tile ppn) s t)) ∧
    (∀ holder requester, s.logicalTile holder = some tile → (s.tile requester).waits.contains (.peer ppn holder) = true → requester / 48 = tile / 48 →
      ((s.tile tile).waits.contains (.memory ppn) = false →
        Becomes (.peerRead holder ppn requester) s
          (((s.updTile requester (fun y => { y with waits := y.waits.erase (.peer ppn holder), fetched := y.fetched ++ [ppn] })).updTile tile
            (fun y => if y.frames.contains ppn then { y with frames := y.frames.erase ppn ++ [ppn] } else y)).finishDrop tile ppn)) ∧
      ((s.tile tile).waits.contains (.memory ppn) = true → Becomes (.peerRead holder ppn requester) s s)) ∧
    (∀ m, s.cacheMsg .evict tile ppn = some m →
      (((s.dirEntry ppn).holder (tile / 48) ≠ (s.tile tile).logical ∨ (s.dirEntry ppn).holder (tile / 48) = 255) →
        Becomes (.evict tile ppn) s (s.cacheTake m)) ∧
      ((s.dirEntry ppn).holder (tile / 48) = (s.tile tile).logical → (s.dirEntry ppn).holder (tile / 48) ≠ 255 → (s.dirEntry ppn).inv (tile / 48) = true →
        Becomes (.evict tile ppn) s ((s.cacheTake m).holderAnswered ppn (tile / 48) true)) ∧
      ((s.dirEntry ppn).holder (tile / 48) = (s.tile tile).logical → (s.dirEntry ppn).holder (tile / 48) ≠ 255 → (s.dirEntry ppn).inv (tile / 48) = false →
        Becomes (.evict tile ppn) s ((s.cacheTake m).putDir ppn ((s.dirEntry ppn).setHolder (tile / 48) 255))))

/-- INVALIDATE of a page the tile holds marks it to be dropped, dropping it once no read is left, else it answers NOT_HELD. DROPPED and NOT_HELD clear the pending bit, the second counted as a crossing; without a pending bit they change nothing but that count. SWEEP_START of an unswept page no tag targets starts the sweep; SWEEP_COMPLETE zeros page and summary and makes the page FREE_SWEPT with no reference. COPY_ON_WRITE_DONE does nothing while the copy's transfers are owed or outstanding; then, of a copy whose entry is still there, it renames the entry and drops the old page's reference, of a private copy it gives the branch its entry, and of one whose sequence or branch has gone it frees the new page. The block then settles. -/
def Obligations.InvalidationsSweepsAndCopies : Prop :=
  ∀ (s : State) (tile ppn : Nat),
    (∀ m, s.cacheMsg .invalidate tile ppn = some m →
      (((s.cacheTake m).tile tile).frames.contains ppn = true →
        Becomes (.invalidate tile ppn) s
          (((s.cacheTake m).updTile tile (fun y => { y with
            invalidating := if y.invalidating.contains ppn then y.invalidating else y.invalidating ++ [ppn] })).finishDrop tile ppn)) ∧
      (((s.cacheTake m).tile tile).frames.contains ppn = false → Becomes (.invalidate tile ppn) s ((s.cacheTake m).cacheSend .notHeld tile ppn 0))) ∧
    (((s.tile tile).invalidating.contains ppn = true → s.rowReading tile ppn = false → (s.tile tile).waits.contains (.memory ppn) = false →
        s.finishDrop tile ppn =
          (s.updTile tile (fun y => { y with frames := y.frames.erase ppn, invalidating := y.invalidating.erase ppn })).cacheSend .dropped tile ppn 0) ∧
      ((s.rowReading tile ppn = true ∨ (s.tile tile).waits.contains (.memory ppn) = true) → s.finishDrop tile ppn = s)) ∧
    (∀ m, s.cacheMsg .dropped tile ppn = some m →
      ((s.dirEntry ppn).inv (tile / 48) = true → Becomes (.dropped tile ppn) s ((s.cacheTake m).holderAnswered ppn (tile / 48) false)) ∧
      ((s.dirEntry ppn).inv (tile / 48) = false → Becomes (.dropped tile ppn) s (s.cacheTake m))) ∧
    (∀ m, s.cacheMsg .notHeld tile ppn = some m →
      ((s.dirEntry ppn).inv (tile / 48) = true → Becomes (.notHeld tile ppn) s ((s.cacheTake m).holderAnswered ppn (tile / 48) true)) ∧
      ((s.dirEntry ppn).inv (tile / 48) = false →
        Becomes (.notHeld tile ppn) s ((s.cacheTake m).updOwner ppn (fun p => { p with crossings := bump 64 p.crossings 1 })))) ∧
    (∀ n, s.pageOwner ppn = some n → (s.page ppn).state = .freeUnswept →
      ((s.page ppn).sweeping = false → s.pageTagged ppn = false → ((s.page ppn).foreground = true ∨ (s.part n).lsw ≤ (s.part n).freeSwept) →
        Becomes (.sweepStart ppn) s
          (((s.updPage ppn (fun x => { x with sweeping := true })).updChannel (channelOf (4096 * ppn)) (fun c =>
            { c with sweepSlots := bump 64 c.sweepSlots 16 })).updChannel (channelOf (s.summaryAddr n ppn)) (fun c =>
            { c with sweepSlots := bump 64 c.sweepSlots 1 }))) ∧
      ((s.page ppn).sweeping = false → s.pageTagged ppn = true → Becomes (.sweepStart ppn) s s) ∧
      ((s.page ppn).sweeping = true →
        Becomes (.sweepComplete ppn) s
          (((((s.memZero (4096 * ppn) 4096).memZero (s.summaryAddr n ppn) 128).updPage ppn (fun r => { state := .freeSwept, reserved := r.reserved })).updPart n
            (fun p => { p with unswept := p.unswept - 1 })).endEpisodes n))) ∧
    (∀ c t, s.pages.copies.find? (fun c => c.newPpn == ppn) = some c → t = s.endCopy c →
      (s.kindBusy (fun k => k == OpKind.copy ppn) = true → Becomes (.copyOnWriteDone ppn) s s) ∧
      (s.kindBusy (fun k => k == OpKind.copy ppn) = false → c.fresh = none →
        ((t.pages.seqs.any c.names || t.pages.staged.any c.names) = true →
          Becomes (.copyOnWriteDone ppn) s
            (((t.renameEntry c).dropRef c.oldPpn false).updOwner ppn (fun p => { p with cowCopies := bump 64 p.cowCopies 1 }))) ∧
        ((t.pages.seqs.any c.names || t.pages.staged.any c.names) = false → Becomes (.copyOnWriteDone ppn) s (t.dropRef ppn false))) ∧
      (∀ e b, s.kindBusy (fun k => k == OpKind.copy ppn) = false → c.fresh = some e → (c.owner = .view b ∨ c.owner = .decoder b) →
        ((t.branch b).state = .attaching ∨ (t.branch b).state = .active ∨ (t.branch b).state = .stopped →
          Becomes (.copyOnWriteDone ppn) s
            (((t.updPage ppn (fun r => { r with time := (t.page c.oldPpn).time })).giveEntry
              { owner := c.owner, idx := c.idx, part := (t.pageOwner ppn).getD 0, entry := e } { e with ppn := ppn }).updOwner ppn
                (fun p => { p with cowCopies := bump 64 p.cowCopies 1 }))) ∧
        ((t.branch b).state = .detaching ∨ (t.branch b).state = .absent → Becomes (.copyOnWriteDone ppn) s (t.dropRef ppn false))))

/-- HOP_RECEIVE on an UP link with no injected error and a valid word: without a stitch only the reverse half acts; a stitch of more than 4 byte errors is discarded, counted UNCORRECTABLE and sets NAK; the next expected one, errors corrected and counted, is accepted, frees its slot and is routed on; one within the last 16 is a duplicate; any other sets NAK. NAK frees what ACK_SEQ covers and replays the rest; HOP_ACK_TIMEOUT replays everything unacknowledged and counts one retry; LINK_GIVE_UP below 6 replays and INVALID_SIDEBAND_LIMIT below 64 invalid words do nothing, at the limit the link goes DOWN. A DOWN link receives nothing. -/
def Obligations.HopRowsAct : Prop :=
  ∀ (s : State) (t p : Nat), 
    (∀ w, (s.link (linkKey t p)).down = true → Becomes (.hopReceive t p w) s s) ∧
    (∀ (w : HopWord) u, (s.link (linkKey t p)).down = false → (s.link (farKey t p)).inject = 0 → w.fwdParity = true → w.revParity = true →
      u = s.updLink (linkKey t p) (fun l => { l.reverse w with invalid := 0 }) →
      (w.stitch = none → Becomes (.hopReceive t p w) s u) ∧
      (∀ st, w.stitch = some st →
        (4 < w.byteErrors →
          Becomes (.hopReceive t p w) s
            (u.updLink (linkKey t p) (fun m => { m with uncorrectable := bump 32 m.uncorrectable 1, nakSent := true }))) ∧
        (∀ v, v = (if w.byteErrors = 0 then u else u.updLink (linkKey t p) (fun m => { m with corrections := bump 64 m.corrections 1 })) → w.byteErrors ≤ 4 →
          (w.hopSeq = (u.link (linkKey t p)).expected → st.multicast = false →
            Becomes (.hopReceive t p w) s
              ((v.updLink (linkKey t p) (fun m => { m with expected := bump 8 m.expected 1, nakSent := false }.freed st.cls)).forward t w.detours st)) ∧
          (w.hopSeq ≠ (u.link (linkKey t p)).expected → ((u.link (linkKey t p)).expected + 255 - w.hopSeq) % 256 < 16 →
            Becomes (.hopReceive t p w) s (v.updLink (linkKey t p) (fun m => { m with hopDuplicates := bump 32 m.hopDuplicates 1 }))) ∧
          (w.hopSeq ≠ (u.link (linkKey t p)).expected → 16 ≤ ((u.link (linkKey t p)).expected + 255 - w.hopSeq) % 256 →
            Becomes (.hopReceive t p w) s (v.updLink (linkKey t p) (fun m => { m with nakSent := true })))))) ∧
    (∀ ack, Becomes (.nak t p ack) s (s.updLink (linkKey t p) (fun l => (l.acked ack).replayAll))) ∧
    ((s.link (linkKey t p)).down = false → (s.link (linkKey t p)).replay ≠ [] →
      Becomes (.hopAckTimeout t p) s (s.updLink (linkKey t p) (fun l => { l with replays := l.replays + 1, retries := bump 32 l.retries 1 }))) ∧
    ((s.link (linkKey t p)).replays < 6 → Becomes (.linkGiveUp t p) s s) ∧
    (6 ≤ (s.link (linkKey t p)).replays → Becomes (.linkGiveUp t p) s (s.linkDown t p)) ∧
    ((s.link (linkKey t p)).invalid < 64 → Becomes (.invalidSidebandLimit t p) s s) ∧
    (64 ≤ (s.link (linkKey t p)).invalid → Becomes (.invalidSidebandLimit t p) s (s.linkDown t p)) ∧
    ((s.link (linkKey t p)).down = true → s.linkDown t p = s)

/-- For a REQ or RSP stitch (E2E_STITCH_ARRIVAL), and for a notice (NOTICE), with sequence s arriving at an endpoint that has a context for its source and is not retired, compared with the context's next expected sequence E: if (s − E) mod 4,096 is less than 64 it is held, unless that sequence is already held (held here also means delivered beyond E, R306); if it is already held, or (E − s) mod 4,096 is 1 to 64, it is discarded and counts in E2E_DUPLICATES; otherwise it is discarded and counts in PROTOCOL_ERRORS. A held stitch is followed by the delivery of what is now complete. -/
def Obligations.ArrivingStitchIsHeldOrCounted : Prop :=
  ∀ (s : State) (e : Nat) (i : Instr) (st : Stitch) (c : Context) (held : Bool),
    (i = .e2eStitchArrival e st ∧ st.cls < 2 ∨ i = .notice e st) → s.endpointRetired e = false →
    (s.netif e).contexts.find? (fun c => c.holder == st.source) = some c → st.seq < 4096 → c.expected < 4096 →
    held = ((c.at st.seq).isSome || c.done.any (fun x => x.1 == st.seq)) →
    ((st.seq + 4096 - c.expected) % 4096 < 64 → held = false →
      Becomes i s
        ((s.updNetif e (fun n => { n with
          contexts := n.contexts.map (fun (y : Context) => if y.holder == st.source then { y with held := y.held ++ [st], last := s.dt } else y) })).deliverReady
            st.source e 64)) ∧
    (((st.seq + 4096 - c.expected) % 4096 < 64 ∧ held = true ∨ 1 ≤ (c.expected + 4096 - st.seq) % 4096 ∧ (c.expected + 4096 - st.seq) % 4096 ≤ 64) →
      Becomes i s
        (s.updNetif e (fun n => { n with
          contexts := n.contexts.map (fun (y : Context) => if y.holder == st.source then { y with last := s.dt } else y),
          duplicates := bump 32 n.duplicates 1 }))) ∧
    (64 ≤ (st.seq + 4096 - c.expected) % 4096 → 64 < (c.expected + 4096 - st.seq) % 4096 →
      Becomes i s
        (s.updNetif e (fun n => { n with
          contexts := n.contexts.map (fun (y : Context) => if y.holder == st.source then { y with last := s.dt } else y),
          protocolErrors := bump 32 n.protocolErrors 1 })))

/-- CREDIT to a source whose window is open with no recovery running moves A and frees what it covers; one beyond what was sent changes nothing; one for a window not open opens it and counts the wait; a multicast CREDIT frees multicast stitches alone. CREDIT_TIMER credits an advance not yet credited and nothing else; PROBE is answered with a CREDIT. NOTICE at an endpoint without a context counts a protocol error. MULTICAST_STITCH on its span is delivered to an enabled or loading tile, passed on by an UP link, and credited at LAST. -/
def Obligations.CreditRowsAct : Prop :=
  ∀ (s : State) (src dst value : Nat),
    (∀ w, w = s.window src dst → w.probeFrom = none →
      (w.isOpen = true → (w.seq + 4096 - w.acked) % 4096 < (value + 4096 - w.acked) % 4096 → Becomes (.credit src dst value false) s s) ∧
      (w.isOpen = true → (value + 4096 - w.acked) % 4096 ≤ (w.seq + 4096 - w.acked) % 4096 →
        Becomes (.credit src dst value false) s
          (s.updWindow src dst (fun _ => { w with
            acked := value, unacked := w.unacked.filter (fun u => decide ((value + 4096 - w.acked) % 4096 ≤ (u.1 + 4096 - w.acked) % 4096)), probeFrom := none,
            since := if (value + 4096 - w.acked) % 4096 = 0 then w.since else s.dt }))) ∧
      (w.isOpen = false →
        Becomes (.credit src dst value false) s
          ((s.updNetif src (fun n => match w.openFrom with
            | some d => { n with openWaits := bump 64 n.openWaits (fclk (s.dt - d)) }
            | none => n)).updWindow src dst (fun _ => { w with isOpen := true, opening := false, acked := value, openFrom := none })))) ∧
    Becomes (.credit src dst value true) s
      (s.updNetif src (fun n => { n with mcastUnacked := n.mcastUnacked.filter (fun q => decide (2048 ≤ (value + 4096 - 1 - q) % 4096)) })) ∧
    (∀ c, (s.netif dst).contexts.find? (fun c => c.holder == src) = some c →
      (c.expected = c.credited → Becomes (.creditTimer src dst) s s) ∧
      (c.expected ≠ c.credited → Becomes (.creditTimer src dst) s (s.credit src dst)) ∧
      Becomes (.probe src dst) s
        ((s.updNetif dst (fun n => { n with contexts := n.contexts.map (fun (x : Context) => if x.holder == src then { x with credited := x.expected } else x) })).sendCtl
          1 dst src c.expected)) ∧
    (∀ st : Stitch, s.endpointRetired dst = false → (s.netif dst).contexts.find? (fun c => c.holder == st.source) = none →
      Becomes (.notice dst st) s (s.updNetif dst (fun n => { n with protocolErrors := bump 32 n.protocolErrors 1 }))) ∧
    (∀ (st : Stitch) (u : State) (t : Nat),
      u = (if onSpan st.tag t && ((s.tile t).state == .enabled || (s.tile t).state == .loading)
        then s.updNetif (s.tile t).logical (fun n => { n with delivered := n.delivered ++ [st] }) else s) →
      (spanNext st.tag t = none → Becomes (.multicastStitch t st) s (u.sendCtl 1 1023 st.source ((st.seq + 1) % 4096))) ∧
      (∀ p, spanNext st.tag t = some p → (u.link (linkKey t p)).down = false → Becomes (.multicastStitch t st) s (u.enqueue (linkKey t p) 0 st)))

/-- OPEN of a source with a context answers CREDIT again; with one free it binds it, expecting the source's sequence; with none the OPEN waits once and an idle context is reclaimed. CLOSE with nothing unacknowledged closes the window and answers CLOSE_ACK, else it only marks it closing. CLOSE_ACK frees a context that was closing and serves a waiting OPEN. PROBE_TIMER with stitches unacknowledged and 2,048 FCLK without credit progress sends a PROBE and starts the recovery once; with none, or earlier, it does nothing. PROBE_GIVE_UP acts only 8,192 FCLK after the first PROBE (200 FCLK in 3 ticks); UNREACHABLE gives the destination up at once for a stitch still unacknowledged, else it only counts. -/
def Obligations.ContextRowsAct : Prop :=
  ∀ (s : State) (src dst : Nat),
    ((s.netif dst).contexts.any (fun c => c.holder == src) = true → Becomes (.openCtx src dst) s (s.credit src dst)) ∧
    ((s.netif dst).contexts.any (fun c => c.holder == src) = false → (s.netif dst).contexts.length < (if dst < 144 then 16 else 64) →
      Becomes (.openCtx src dst) s
        ((s.updNetif dst (fun n => { n with contexts := n.contexts ++
          [{ holder := src, expected := (s.window src dst).seq, held := [], done := [], credited := (s.window src dst).seq, closing := false, last := s.dt }] })).credit
            src dst)) ∧
    ((s.netif dst).contexts.any (fun c => c.holder == src) = false → (if dst < 144 then 16 else 64) ≤ (s.netif dst).contexts.length →
      Becomes (.openCtx src dst) s
        ((if (s.netif dst).waiting.any (fun w => w.1 == src) then s
          else s.updNetif dst (fun x => { x with waiting := x.waiting ++ [(src, (s.window src dst).seq)] })).reclaimAt dst)) ∧
    ((s.window src dst).unacked = [] →
      Becomes (.closeCtx src dst) s ((s.updWindow src dst (fun x => { x with isOpen := false, opening := false, closing := false })).sendCtl 5 src dst 0)) ∧
    ((s.window src dst).unacked ≠ [] → Becomes (.closeCtx src dst) s (s.updWindow src dst (fun x => { x with closing := true }))) ∧
    ((s.netif dst).contexts.any (fun c => c.holder == src && c.closing) = true →
      Becomes (.closeAck src dst) s
        ((s.updNetif dst (fun n => { n with contexts := n.contexts.filter (fun c => c.holder != src), reclaims := bump 32 n.reclaims 1 })).serveOpen dst)) ∧
    ((s.netif dst).contexts.any (fun c => c.holder == src && c.closing) = false → Becomes (.closeAck src dst) s s) ∧
    (((s.window src dst).unacked = [] ∨ 200 * (s.dt - (s.window src dst).since) < 3 * 2048) → Becomes (.probeTimer src dst) s s) ∧
    ((s.window src dst).unacked ≠ [] → 3 * 2048 ≤ 200 * (s.dt - (s.window src dst).since) →
      Becomes (.probeTimer src dst) s
        (((s.updWindow src dst (fun w => { w with probeFrom := some (w.probeFrom.getD s.dt), since := s.dt })).updNetif src (fun n => { n with
          probes := bump 32 n.probes 1 })).sendCtl 2 src dst 0)) ∧
    (∀ t, (s.window src dst).probeFrom = some t → 200 * (s.dt - t) < 3 * 8192 → Becomes (.probeGiveUp src dst) s s) ∧
    (∀ t, (s.window src dst).probeFrom = some t → 3 * 8192 ≤ 200 * (s.dt - t) → Becomes (.probeGiveUp src dst) s (s.giveUp src dst)) ∧
    (∀ q, (s.window src dst).unacked.any (fun u => u.1 == q) = true → Becomes (.unreachable src dst q) s (s.giveUp src dst)) ∧
    (∀ q, (s.window src dst).unacked.any (fun u => u.1 == q) = false →
      Becomes (.unreachable src dst q) s (s.updNetif src (fun n => { n with unreachable := bump 32 n.unreachable 1 }))) ∧
    (∀ ops u, ops = ((s.window src dst).unacked.map (·.2)).eraseDups.filter (fun o => o != 0) →
      u = (s.updNetif src (fun n => { n with unreachable := bump 32 n.unreachable 1 })).dropContext src dst →
      s.giveUp src dst =
        ops.foldl (fun (v : State) o => v.abortOp o
          { kind := 0x08, feeder := if 300 ≤ src ∧ src ≤ 303 then src - 300 else 7, endpoint := dst, address := dst }) u)

/-- MODEL_PLACEMENT of a load whose reads are over and whose package is good places the package and answers the handle of the lowest free model slot; a bad package answers PACKAGE_INVALID with the reason, DETAIL the offset of PAGES, and its bytes begin to be zero-filled; a load that still reads or has not asked for all its pages waits. BINDING_READY of a pipeline whose flanks are fit marks its bindings loaded and completes the create. CAST_ON_ALLOCATION_DONE and ATTACH_ALLOCATION_DONE where the partition's memory does not suffice complete the command with 0x0301 and give the object's place back; of an object in another state they do nothing. ATTACH_ALLOCATION_DONE with room allocates the branch's sections, views and prefix; while a page copy for it or room in a state store is outstanding the branch stays ATTACHING, and then it becomes ACTIVE from the first chunk whose translate eligibility is later than now and answers it. COMMAND_TIME_LIMIT past a command's maximum time completes it with DEVICE_FAULT, a load's bytes to be zero-filled and a prefix's reservation given back; before it does nothing. The block then settles. -/
def Obligations.SetupCompletionsAct : Prop :=
  ∀ (s : State),
    (∀ n id image l busy, s.loads.find? (fun l => l.id == id && l.port == n) = some l → l.failed = false → l.erasing = false →
      busy = s.kindBusy (fun k => k == OpKind.package id) →
      (busy = true → Becomes (.modelPlacement n id image) s s) ∧
      (∀ t p m slot, busy = false → packageReason l.pages image = none → t = s.endLoad l → slot = t.freeModel.getD 0 → p = t.placePackage l image.info →
        m = p.1.model slot →
        Becomes (.modelPlacement n id image) s
          ((p.1.setModel slot { m with live := true, part := n, content := p.2.1 }).complete n l.cmd
            { handle := modelHandle slot m.gen, result := pack [(1, bit p.2.2.1), (1, bit p.2.2.2), (30, 0), (32, if p.2.2.1 then 0 else l.pages)] })) ∧
      (∀ r, busy = false → packageReason l.pages image = some r →
        Becomes (.modelPlacement n id image) s ((s.releaseLoad l).complete n l.cmd { status := 0x0209, detail := 24, result := r + 2 ^ 32 * image.badOffset }))) ∧
    (∀ i p fit t u, p = s.pipe i → p.live = true → p.ready = false →
      fit = (fun f => (s.flank f).state == .operational && (s.flank f).repair == .none && !(s.flank f).relayoutWait && (s.flank f).relayout.isNone &&
        !s.kindBusy (fun k => k == OpKind.load f)) →
      (p.flanks.all fit = false → Becomes (.bindingReady i) s s) ∧
      (p.flanks.all fit = true →
        t = p.stages.foldl (fun (v : State) st => v.updBinding (p.stage st).flank (p.stage st).content (fun b => { b with loaded := true })) s →
        u = p.flanks.foldl (fun (v : State) f => if (t.flank f).bindings.any (fun b => !b.loaded) then v
          else v.endOps (fun o => o.kind == OpKind.load f && !o.aborted)) t →
        Becomes (.bindingReady i) s
          (((u.setPipe i { p with ready := true }).completeKey p.part 0x0401 i { handle := pipeHandle i p.gen, result := u.residentBits p }).dispatchAll))) ∧
    (∀ i x p, x = s.stream i → p = s.pipe x.pipe →
      (x.state ≠ .castOn → Becomes (.castOnAllocationDone i) s s) ∧
      (x.state = .castOn → (s.part x.part).memBytes < s.memUsed x.part + s.streamBytes p (s.footprint p.encode) →
        Becomes (.castOnAllocationDone i) s (s.castOnRefused i 0x0301)) ∧
      (∀ t v, x.state = .castOn → s.memUsed x.part + s.streamBytes p (s.footprint p.encode) ≤ (s.part x.part).memBytes → p.encode.present = false → 
        s.stagePackage x.pipe .encode = none → x.lossAfter = none → x.deferBind = none →
        t = (s.updStream i (fun y => { y with enc := {} })).updPart x.part (fun q => { q with castOns := bump 64 q.castOns 1 }) →
        t.giveSlots (t.sectsOf i) = some v →
        Becomes (.castOnAllocationDone i) s
          ((v.updStream i (fun y => { y with state := .resident })).complete x.part x.cmd { handle := streamHandle i x.gen, result := x.anchor }))) ∧
    (∀ b x p, x = s.branch b → p = s.pipe (s.stream x.stream).pipe →
      (x.state ≠ .attaching → Becomes (.attachAllocationDone b) s s) ∧
      (∀ full, full = decide ((s.part x.part).memBytes < s.memUsed x.part + s.branchBytes p (s.footprint p.translate) (s.footprint p.speak)) → x.state = .attaching →
        (full = true → x.translate.valid = false → Becomes (.attachAllocationDone b) s (s.attachRefused b 0x0301)) ∧
        (∀ t, (x.translate.valid = true ∧ t = s ∨ x.translate.valid = false ∧ full = false ∧ t = s.allocateBranch b) →
          ((t.wanting (.view b) none || t.wanting (.decoder b) none) = true → Becomes (.attachAllocationDone b) s t) ∧
          (∀ u, (t.wanting (.view b) none || t.wanting (.decoder b) none) = false → t.attachSlots b = (true, u) →
            Becomes (.attachAllocationDone b) s (u.activate b)) ∧
          (∀ u, (t.wanting (.view b) none || t.wanting (.decoder b) none) = false → t.attachSlots b = (false, u) → Becomes (.attachAllocationDone b) s u) ∧
          ((t.stream (t.branch b).stream).state = .castled → t.attachSlots b = (true, t)))) ∧
      (∀ u first, u = s.branch b → first = s.firstRowNow u.stream →
        s.activate b =
          ({ s.updBranch b (fun y => { y with
                state := .active, translate := y.translate.beginAt first, speak := y.speak.beginAt first, firstRow := first, tokRow := first, order := s.attachSeq }) with
              attachSeq := s.attachSeq + 1 } : State).complete u.part u.cmd { handle := branchHandle b u.gen, result := first })) ∧
    (∀ n id e, (s.port n).accepted.find? (fun e => e.id == id) = some e →
      (s.dt < e.dt + e.maxTicks → Becomes (.commandTimeLimit n id) s s) ∧
      (e.dt + e.maxTicks ≤ s.dt → e.call.opcode ≠ 0x0501 → e.call.opcode ≠ 0x0511 → e.call.opcode ≠ 0x0301 → e.call.opcode ≠ 0x0403 →
        Becomes (.commandTimeLimit n id) s (s.complete n id { status := 0x0601 })) ∧
      (∀ l, e.dt + e.maxTicks ≤ s.dt → e.call.opcode = 0x0301 → s.loads.find? (fun l => l.port == n && l.cmd == id && !l.erasing) = some l →
        Becomes (.commandTimeLimit n id) s ((s.releaseLoad l).complete n id { status := 0x0601 })) ∧
      (e.dt + e.maxTicks ≤ s.dt → e.call.opcode = 0x0403 → e.started = true →
        Becomes (.commandTimeLimit n id) s ((s.dropReserved e.key (field (callPayload e.call) 64 32)).complete n id { status := 0x0601 })) ∧
      (∀ x, e.dt + e.maxTicks ≤ s.dt → e.call.opcode = 0x0501 →
        s.streams.find? (fun x => x.2.state == .castOn && x.2.part == n && x.2.cmd == id) = some x →
        Becomes (.commandTimeLimit n id) s (s.castOnRefused x.1 0x0601)))

/-- STREAM_INPUT_SET_EFFECT and BRANCH_OUTPUT_SET_EFFECT do nothing before their boundary; at it the new source, gains and voice-activity settings, or the new outputs, stand, and the waiting command completes. PORT_ENABLE_EFFECT at its boundary makes a port without an input sentinel RUNNING, one with a sentinel ACQUIRING with gap frames at its inputs, or a port DISABLED, and answers that DT; LOOPBACK_EFFECT sets the loopback and answers its DT. TDM_FRAME of a DISABLED port does nothing; of any other it plays the outputs, takes the inputs (under loopback what DOUT held) and judges the sentinel. The block then settles. -/
def Obligations.BoundaryEffectsAct : Prop :=
  ∀ (s : State) (t : Nat),
    (∀ i src x, x = s.stream i → x.nextSource = some src →
      (s.dt < x.switchDt → Becomes (.streamInputSetEffect i) s s) ∧
      (x.switchDt ≤ s.dt → x.state ≠ .closed → x.state ≠ .bindingOff →
        Becomes (.streamInputSetEffect i) s
          ((((s.unmapIn i).updStream i (fun y => { y with
            source := src.from y.frames, nextSource := none, gain := y.nextGain, theta := y.nextTheta, lmin := y.nextLmin, hangLen := y.nextHang, fetched := [], arriving := [],
            fetchNext := y.frames, handed := max y.handed y.frames,
            ingress := { y.ingress with hist := [], oldHist := if s.sourceRate x.source = 48 then x.ingress.hist else [], fresh := true, dcX := 0, dcY := 0, preX := 0, raw := [], frameGap := false, realFrom := 0 } })).mapIn
              i src).completeKey x.part 0x0507 i {}))) ∧
    (∀ b x o, x = s.branch b → x.nextOut = some o →
      (s.dt < x.switchDt → Becomes (.branchOutputSetEffect b) s s) ∧
      (x.switchDt ≤ s.dt → (x.state = .active ∨ x.state = .stopped) →
        Becomes (.branchOutputSetEffect b) s ((s.setOutputs b o.1 o.2.1 o.2.2 x.nextGain).completeKey x.part 0x0514 b {}))) ∧
    (∀ when0 on u, (s.tdm t).enableAt = some (when0, on) →
      u = (s.countIdle t).updTdm t (fun p => { p with enableAt := none, prevValid := false, prevWord := 0, validRun := 0, invalidRun := 0 }) →
      (s.dt < when0 → Becomes (.portEnableEffect t) s s) ∧
      (when0 ≤ s.dt → on = true → (s.tdm t).cfg.sentInEn = false →
        Becomes (.portEnableEffect t) s ((u.tdmRuns t).completeKey ((s.tdmOwner t).getD 0) 0x0602 t { result := when0 })) ∧
      (when0 ≤ s.dt → on = true → (s.tdm t).cfg.sentInEn = true →
        Becomes (.portEnableEffect t) s
          (((u.updTdm t (fun p => { p with state := .acquiring })).gapInputs t).completeKey ((s.tdmOwner t).getD 0) 0x0602 t { result := when0 })) ∧
      (when0 ≤ s.dt → on = false →
        Becomes (.portEnableEffect t) s
          (((s.mappedOut t).foldl (fun (w : State) m => w.updOut (slotKey t m.1) (fun o => { o with held := [], lag := 0, idleFrom := s.dt }))
            (u.updTdm t (fun p => { p with state := .disabled, dout := [] }))).completeKey ((s.tdmOwner t).getD 0) 0x0602 t { result := when0 }))) ∧
    (∀ when0 on, (s.tdm t).loopAt = some (when0, on) →
      (s.dt < when0 → Becomes (.loopbackEffect t) s s) ∧
      (when0 ≤ s.dt →
        Becomes (.loopbackEffect t) s
          ((s.updTdm t (fun p => { p with loopAt := none, loopback := on })).completeKey ((s.tdmOwner t).getD 0) 0x0803 t { result := when0 }))) ∧
    (∀ words, (s.tdm t).state = .disabled → Becomes (.tdmFrame t words) s s) ∧
    (∀ words start u, t < 16 → (s.tdm t).state ≠ .disabled → start = (s.dt - 1) / (s.tdm t).cfg.period * (s.tdm t).cfg.period → u = s.playPort t start →
      ((s.tdm t).loopback = false → Becomes (.tdmFrame t words) s ((u.takeInputs t start words).sentinel t (words.getD (s.tdm t).cfg.sentIn 0))) ∧
      ((s.tdm t).loopback = true → ∀ din, din = (u.tdm t).dout.map (fun w => w.getD 0) →
        Becomes (.tdmFrame t words) s ((u.takeInputs t start din).sentinel t (din.getD (s.tdm t).cfg.sentIn 0))))

/-- ITEM_ELIGIBLE of a row that is wanted, ready, eligible by its time and not known yet, with its own attended count, adds the item, in the bucket of that count, and dispatches its flank; one already known, of another count, not wanted, not ready or not yet eligible adds nothing. DISPATCH_TIMER acts only at its time. TASK does nothing on a tile that is not enabled or where no task runs. TASK_END with no task running does nothing, and while a round of the task or a barrier of its handoff writes is incomplete only its rounds go on; then the task leaves its flank with its busy time, is measured, its items end and what follows goes on. TASK_WATCHDOG before the batch period plus the time a recovery or a page wait took does nothing; then it aborts the task, and a second expiry in a row also resets the flank. The block then settles. -/
def Obligations.TaskRowsAct : Prop :=
  ∀ (s : State) (f : Nat),
    (∀ st obj n rows attended known, f = s.flankOf st obj →
      known = ((s.flank f).items.any (fun y => y.stage == st && y.obj == obj && y.row == n) || s.running st obj n) →
      (known = true → Becomes (.itemEligible st obj n rows attended) s s) ∧
      ((attended ≠ s.attendedOf st obj ∨ s.rowWanted st obj n = false ∨ s.inputReady st obj n = false ∨ s.dt < s.eligibleAt st obj n) →
        Becomes (.itemEligible st obj n rows attended) s s) ∧
      (known = false → attended = s.attendedOf st obj → s.rowWanted st obj n = true → s.inputReady st obj n = true → s.eligibleAt st obj n ≤ s.dt →
        ((s.pipeOfStream (s.objStream st obj)).stage st).present = true →
        Becomes (.itemEligible st obj n rows attended) s
          ((s.updFlank f (fun x => { x with items := x.items ++
            [{ stage := st, obj := obj, content := s.contentOf st obj, part := (s.stream (s.objStream st obj)).part, row := n, rows := rows,
               bucket := bucketOf attended, attended := attended }] })).dispatch f))) ∧
    (∀ t, (s.flank f).timer = some t →
      (s.dt < t → Becomes (.dispatchTimer f) s s) ∧
      (t ≤ s.dt → Becomes (.dispatchTimer f) s ((s.updFlank f (fun x => { x with timer := none })).dispatch f))) ∧
    (∀ t work, (s.tile t).state ≠ .enabled → Becomes (.task t work) s s) ∧
    (∀ t work, t < 144 → (s.tile t).state = .enabled → Becomes (.task t work) s (s.tileWork t (t / 48) work)) ∧
    ((s.flank f).run = none → ∀ res, Becomes (.taskEnd f res) s s) ∧
    (∀ res z r, z = s.roundAdvance f → (z.flank f).run = some r →
      (z.taskComplete f r = false → Becomes (.taskEnd f res) s z) ∧
      (∀ y t u v took, z.taskComplete f r = true → y = (flankTiles f).foldl State.tileStops z → took = y.dt - r.start →
        t = (y.leaveTask f r).updFlank f (fun x => { x with expiries := 0, resetDone := false, paceEnd := y.dt + ceilDiv (took * y.power.pace) 8 }) →
        u = t.updBinding f r.content (fun b =>
          { b with measured := { rows := (r.items.map (·.rows)).foldl (· + ·) 0, ticks := took, divisor := y.power.divisor, stop := y.dt } :: y.recentTasks b }) →
        v = (r.items.foldl (fun (w : State) it => w.itemEnd r res.items it) u).endOps (fun o => o.id == r.id) →
        Becomes (.taskEnd f res) s
          (((r.items.map (fun it => y.objStream it.stage it.obj)).eraseDups.foldl (fun (w : State) i => w.advance i) v).dispatchAll))) ∧
    (∀ r, s.leaveTask f r = s.updFlank f (fun x => { x with
      run := none, idleFrom := s.tclk, busyTclk := bump 64 x.busyTclk (s.tclk - r.startTclk),
      busy := (x.busy.filter (fun b => decide (s.dt < b.stop + 24576000))) ++ [{ start := r.start, stop := s.dt, rows := r.rowsByPart }] })) ∧
    (∀ r t, (s.flank f).run = some r → s.watchStops r = [] →
      (s.dt < r.start + r.period + r.paused → Becomes (.taskWatchdog f) s s) ∧
      (r.start + r.period + r.paused ≤ s.dt → (s.flank f).expiries = 0 →
        t = (s.updFlank f (fun x => { x with expiries := 1 })).abortOpAs r.id { kind := 0x10, endpoint := 288, detail := pack [(8, stageCode r.stage), (4, f), (4, 1)] } 4 →
        Becomes (.taskWatchdog f) s t.dispatchAll) ∧
      (r.start + r.period + r.paused ≤ s.dt → (s.flank f).expiries = 1 →
        t = (s.updFlank f (fun x => { x with expiries := 2 })).abortOpAs r.id { kind := 0x10, endpoint := 288, detail := pack [(8, stageCode r.stage), (4, f), (4, 2)] } 4 →
        Becomes (.taskWatchdog f) s
          ((((t.flankReset f).journalWrite { JEntry.blank 0x24 with endpoint := 288, recovery := Recovery.flankReset.code, detail := f }).updFlank f
            (fun x => { x with resetDone := true })).dispatchAll)))

/-- BLOCK_PRODUCT on an enabled tile of a running task with a passing residue adds the block to the accumulators of its reduction, which a new reduction begins at 0, counts the accumulators that saturate, and does nothing else; with a mismatch a passing second computation is counted and added, a failing one retires the tile. On a tile that loads it is the check alone; elsewhere it does nothing. DRAIN_COMPLETE goes on only when every endpoint is idle; DRAIN_TIMEOUT does nothing before 46,695 ticks; SPARE_LOADED enables the spare and records the repair; RESLICE_LOADED of a flank not re-slicing does nothing. RELAYOUT starts only with no task running and resets the flank; RELAYOUT_DONE gives the flank its new layout. The block then settles. -/
def Obligations.RepairRowsAct : Prop :=
  ∀ (s : State) (f t : Nat),
    (∀ fmt begins x w first again add u, u = s.updTile t (fun k => { k with residue := .none }) →
      (s.productTask t = none → Becomes (.blockProduct t { fmt := fmt, begins := begins } x w first again) s s) ∧
      (∀ task, s.productTask t = some task →
        add = (fun (v : State) (y : List (List Int)) => (task.map (fun id => v.addProduct t id fmt begins y)).getD v) →
        ((s.tile t).residue = .none → residueOk x w first = true → Becomes (.blockProduct t { fmt := fmt, begins := begins } x w first again) s (add s first)) ∧
        ((s.tile t).residue = .none → residueOk x w first = false → residueOk x w again = true →
          Becomes (.blockProduct t { fmt := fmt, begins := begins } x w first again) s (add (u.updTile t (fun k => { k with residueReruns := bump 64 k.residueReruns 1 })) again)) ∧
        ((s.tile t).residue = .none → residueOk x w first = false → residueOk x w again = false →
          Becomes (.blockProduct t { fmt := fmt, begins := begins } x w first again) s (u.retire t false)) ∧
        ((s.tile t).residue = .twice → Becomes (.blockProduct t { fmt := fmt, begins := begins } x w first again) s (u.retire t true)))) ∧
    (∀ id fmt begins y, s.addProduct t id fmt begins y = s.updTile t (fun j => { j.forTask id with
      acc := addBlock (accBounds fmt) (if begins then [] else (j.forTask id).acc) y.flatten,
      accSaturations := bump 64 (j.forTask id).accSaturations
        (saturatedCount (addBlock (accBounds fmt) (if begins then [] else (j.forTask id).acc) y.flatten) - saturatedCount (if begins then [] else (j.forTask id).acc)) })) ∧
    ((∀ r, (s.tile t).state = .enabled → (s.flank (t / 48)).run = some r → s.productTask t = some (some r.id)) ∧
      ((s.tile t).state = .loading → s.productTask t = some none)) ∧
    (∀ k logical, (s.flank f).repair = .draining → s.repairOf f = some (k, logical) →
      (s.endpointIdle logical = true → Becomes (.drainComplete f) s (s.drained f k logical)) ∧
      (s.endpointIdle logical = false → Becomes (.drainComplete f) s s) ∧
      (∀ start, (s.flank f).drainStart = some start → s.dt < start + 46695 → Becomes (.drainTimeout f) s s)) ∧
    (∀ k logical start ops u, (s.flank f).repair = .draining → s.repairOf f = some (k, logical) → (s.flank f).drainStart = some start → start + 46695 ≤ s.dt →
      (((s.netif logical).contexts.map (fun (c : Context) => c.holder)) ++
        (s.fabric.windows.filter (fun (w : Nat × Window) => w.1 % 1024 == logical && w.2.acked != w.2.seq)).map (fun (w : Nat × Window) => w.1 / 1024)).eraseDups = [t] →
      ops = ((s.window t logical).unacked.map (fun (y : Nat × Nat) => y.2)).eraseDups.filter (fun o => o != 0) → u = s.dropContext t logical →
      Becomes (.drainTimeout f) s
        (ops.foldl (fun (v : State) o => v.abortOp o
          { kind := 0x08, feeder := if 300 ≤ t ∧ t ≤ 303 then t - 300 else 7, endpoint := logical, address := logical }) u)) ∧
    (∀ sp k logical, (s.flank f).repair = .loadingSpare sp → s.repairOf f = some (k, logical) →
      Becomes (.spareLoaded f) s
        ((((s.moveTile sp .enabled).rebuildGroup f).noteRepair f k (coordByte sp) 0).repairDone f)) ∧
    ((s.flank f).repair = .none → Becomes (.resliceLoaded f) s s) ∧
    (∀ k logical u r, (s.flank f).repair = .reslicing → s.repairOf f = some (k, logical) →
      u = ((flankTiles f).foldl (fun (v : State) k => if (v.tile k).state = .loading then v.moveTile k .enabled else v) s).updFlank f
        (fun x => { x with bindings := x.bindings.map (fun b => { b with loaded := true }) }) →
      r = u.reslice f (u.enabledTiles f) →
      Becomes (.resliceLoaded f) s (((r.1.rebuildGroup f).noteRepair f k 255 r.2).repairDone f)) ∧
    ((s.flank f).run ≠ none → Becomes (.relayout f) s s) ∧
    ((s.flank f).relayoutWait = true → (s.flank f).run = none → (s.flank f).relayout = none → (s.flank f).state = .operational →
      Becomes (.relayout f) s ((s.flankReset f).updFlank f (fun y => { y with relayout := some s.dt, relayoutWait := false }))) ∧
    ((s.flank f).relayout ≠ none →
      Becomes (.relayoutDone f) s
        (((s.updFlank f (fun x => { x with
          relayout := none, act := neededAct x.bindings, cache := s.site.cache f, relayouts := bump 64 x.relayouts 1 })).layoutCheck f).dispatch f))

/-- FRAME_CLOSE before the frame's end, of a stream that does not close chunks, or with every frame of the chunk closed does nothing; else the frame closes. CHUNK_CLOSE before C(n) does nothing; at C(n) the frames not yet closed close, those that have not arrived as gap frames, and the chunk enters the ring into encode, its row stepping by one. INGRESS_CONDITIONING_DONE makes the oldest chunk not yet conditioned ready, passed after 25 chunks without voice activity. CASTLING_IN_START of a flank that gives no slots, or with no stream that waits, does nothing; the stream first in the order of deadlines takes slots for every section it needs, with room made for it, and its loads begin. CASTLING_IN_DONE with its transfers made fills a loading stream's slots: a CASTLED stream becomes RESIDENT and it is posted, a PAUSED one runs the chunks it waited for. The block then settles. -/
def Obligations.ChunkAndCastlingRowsAct : Prop :=
  ∀ (s : State) (i : Nat) (x : Stream), x = s.stream i →
    (s.closing i = false → Becomes (.frameClose i) s s ∧ Becomes (.chunkClose i) s s) ∧
    (s.dt < s.frameEnd i → Becomes (.frameClose i) s s) ∧
    (s.closing i = true → s.frameEnd i ≤ s.dt → 245760 * x.ingress.frames.length < (s.pipeOfStream i).period → Becomes (.frameClose i) s (s.closeFrame i)) ∧
    (s.dt < s.closeTime i x.row → Becomes (.chunkClose i) s s) ∧
    (∀ t, s.closing i = true → s.closeTime i x.row ≤ s.dt → t = s.fillGaps i 8 →
      Becomes (.chunkClose i) s
        ((((t.updStream i (fun y => { y with
          row := bump 32 x.row 1, before := if 64 ≤ sub32 x.row y.n0 then none else y.before, ingress := { y.ingress with frames := [] }, cnt := { y.cnt with chunksClosed := bump 64 y.cnt.chunksClosed 1 } })).pushEnc i
            (t.ingressEntry i)).enterPaused i x.row).advance i)) ∧
    (x.encRing.find? (fun e => !e.ready) = none → Becomes (.ingressConditioningDone i) s s) ∧
    (∀ e t, x.encRing.find? (fun e => !e.ready) = some e → 
      (e.va = true ∨ x.silence < 25 →
        t = s.updStream i (fun y => { y with
          silence := if e.va then 0 else x.silence + 1,
          encRing := y.encRing.map (fun z => if z.row == e.row then { z with ready := true, passed := false } else z) }) →
        Becomes (.ingressConditioningDone i) s ((t.queueCastIn i (t.eligibleAt .encode i e.row)).advance i)) ∧
      (e.va = false → 25 ≤ x.silence →
        t = s.updStream i (fun y => { y with
          silence := x.silence + 1, encRing := y.encRing.map (fun z => if z.row == e.row then { z with ready := true, passed := true } else z) }) →
        Becomes (.ingressConditioningDone i) s (t.advance i))) ∧
    (∀ f, s.givesSlots f = false ∨ s.serving = false → Becomes (.castlingInStart f) s s) ∧
    (∀ f, s.slotOrder = [] → Becomes (.castlingInStart f) s s) ∧
    (∀ f rest u, s.serving = true → s.givesSlots f = true → s.slotOrder = i :: rest → ((s.needFlanks i).contains f = true ∨ s.slotNeeds i = []) →
      s.takeSlots i = (.taken, u) → Becomes (.castlingInStart f) s u) ∧
    (∀ t u, (∀ k ∈ s.slotNeeds i, s.givesSlots (s.flankOf k.1 k.2) = true ∧ ((s.sect k.1 k.2).lost = true → s.heldBack k.1 k.2 = false)) →
      t = s.makeRoom i (s.slotNeeds i) → t.giveSlots (s.slotNeeds i) = some u →
      s.takeSlots i = (.taken, u.startLoads i ((s.slotDue i).getD s.dt) (s.slotNeeds i))) ∧
    ((s.loadsBusy i = true ∨ x.mayCastIn = false ∨ x.loading = false) → Becomes (.castlingInDone i) s s) ∧
    (∀ t, s.loadsBusy i = false → x.loading = true →
      t = (((s.sectsOf i).filter (fun k => (x.state == .castled || s.ops.any (fun o => o.kind == OpKind.castIn (stageCode k.1) k.2)) && !(s.sect k.1 k.2).lost)).foldl
        (fun u k => u.updSect k.1 k.2 Sect.load) (s.endLoads i)).updStream i (fun y =>
          { y with loading := false, castIn := none, cnt := { y.cnt with castleIns := bump 64 y.cnt.castleIns 1 } }) →
      (x.state = .castled →
        Becomes (.castlingInDone i) s ((((t.updStream i (fun y => { y with state := .resident })).postStream i .castled .resident 3).advance i).dispatchAll)) ∧
      (x.state = .paused → Becomes (.castlingInDone i) s ((t.advance i).dispatchAll)))

/-- COMMIT_COMPLETE with writes owed or outstanding, or nothing to commit, does nothing; else the other half holds what was written, the entry names it and its chunk, what waited for the committed row goes on, and a commit that fell due meanwhile begins (log 102). FLAG_FALL does nothing before the held deadline, for work no longer owed or a branch not ACTIVE; for work still owed at that time the fall is declared, of translate or speak for the branch, of encode for every branch of the stream and once; a declared fall counts and is reported, HOLD holds one chunk more, SKIP leaves the chunk out, STOP stops the branch there. FLAG_FALL_INTERVAL_END first reports the merged falls of branches that have left the slot; of the branch there it does nothing before 24,576,000 ticks, and then closes the interval and reports the further falls, if any. FROG_RESTORE_DONE with transfers owed or outstanding, or a lost section without its slot, does nothing, else the lost sections are restored and what follows goes on. The block then settles. -/
def Obligations.CommitFlagAndRestoreRowsAct : Prop :=
  ∀ (s : State) (st : Stage) (obj b : Nat),
    ((s.sect st obj).commit = none → Becomes (.commitComplete st obj) s s) ∧
    (s.kindBusy (fun k => k == OpKind.commit (stageCode st) obj) = true → Becomes (.commitComplete st obj) s s) ∧
    (∀ c i t w, (s.sect st obj).commit = some c → s.kindBusy (fun k => k == OpKind.commit (stageCode st) obj) = false → i = s.objStream st obj →
      t = (s.setSect st obj ((s.sect st obj).committed c)).updStream i (fun y => { y with cnt := { y.cnt with commits := bump 64 y.cnt.commits 1 } }) →
      w = ((t.releaseEntries i).pagesAdvance).endOps (fun o => o.kind == OpKind.commit (stageCode st) obj) →
      ((s.sect st obj).nextCommit = none → Becomes (.commitComplete st obj) s (((w.commitDue st obj).advance i).dispatchAll)) ∧
      (∀ n, (s.sect st obj).nextCommit = some n → Becomes (.commitComplete st obj) s (((w.beginCommit st obj n).advance i).dispatchAll))) ∧
    (∀ (x : Sect) c, (x.seq % 2 = 0 → (x.committed c).half1 = c.data ∧ (x.committed c).half0 = x.half0) ∧
      (x.seq % 2 = 1 → (x.committed c).half0 = c.data ∧ (x.committed c).half1 = x.half1) ∧
      (x.committed c).row = c.row ∧ (x.committed c).dirIdle = c.idle ∧ (x.committed c).commit = none ∧ (x.committed c).seq = (x.seq + 1) % 2 ^ 32) ∧
    (∀ row o, o = (if st = .encode then (s.branch b).stream else b) →
      ((s.branch b).state ≠ .active ∨ s.owed st o row = false ∨ s.dt < s.heldDeadline st o row → Becomes (.flagFall b st row) s s) ∧
      ((s.branch b).state = .active → s.owed st o row = true → s.heldDeadline st o row ≤ s.dt →
        Becomes (.flagFall b st row) s (((s.fallAt st o row).advance (s.branch b).stream).dispatchAll)) ∧
      (st ≠ .encode → s.fallAt st b row = s.declareFall b st row) ∧
      ((s.stream obj).encFallen.contains row = true → s.fallAt .encode obj row = s) ∧
      ((s.stream obj).encFallen.contains row = false → (s.sect .encode obj).shadow row = false →
        s.fallAt .encode obj row =
          ((s.branchesOf obj).foldl (fun t k => t.declareFall k .encode row)
            (s.updStream obj (fun x => { x with encFallen := x.encFallen ++ [row] }))).rerunSettled .encode obj (fun r => r == row))) ∧
    (∀ row o x t, x = s.branch b → o = (if st = .encode then x.stream else b) → x.state = .active → earlier32 row x.firstRow = false → x.skipped.contains row = false →
      (s.sect st o).shadow row = false → t = s.updBranch b (fun y => { y with cnt := y.cnt.fall st (x.policy == .hold && x.applied == .skip) }) →
      (x.applied = .hold →
        s.declareFall b st row = ((t.updBranch b (fun y => { y with hold := y.hold + 1 })).rerunSettled st o (fun r => r == row)).reportFall b st row .hold) ∧
      (x.applied = .skip →
        s.declareFall b st row =
          (((t.updBranch b (fun y => { y with skipped := y.skipped ++ [row], skipStage := y.skipStage ++ [(row, st)] })).cancelWork b row false).leftOut b
            (fun r => r == row)).reportFall b st row .skip) ∧
      (x.applied = .stop →
        s.declareFall b st row =
          ((((t.updBranch b (fun y => { y with state := .stopped, stopRow := some row })).cancelWork b row true).leftOut b
            (fun r => !earlier32 r row)).reportFall b st row .stop).postBranch b .active .stopped 1 row)) ∧
    (∀ gone t, gone = (s.branch b).orphans.filter (fun o => decide (o.report.start + 24576000 ≤ s.dt)) →
      t = gone.foldl (fun (u : State) o => u.postMerged o.part b o.gen o.report)
        (if gone = [] then s else s.updBranch b (fun y => { y with orphans := y.orphans.filter (fun o => !decide (o.report.start + 24576000 ≤ s.dt)) })) →
      ((s.branch b).report = none → Becomes (.flagFallIntervalEnd b) s t) ∧
      (∀ r, (s.branch b).report = some r →
        (s.dt < r.start + 24576000 → Becomes (.flagFallIntervalEnd b) s t) ∧
        (r.start + 24576000 ≤ s.dt → r.count = 0 → Becomes (.flagFallIntervalEnd b) s (t.updBranch b (fun y => { y with report := none }))) ∧
        (r.start + 24576000 ≤ s.dt → 0 < r.count →
          Becomes (.flagFallIntervalEnd b) s
            ((t.updBranch b (fun y => { y with report := none })).post (s.branch b).part 0x8008 (branchHandle b (s.branch b).gen)
              (pack [(2, stageCode r.stage), (2, policyCode r.policy), (28, 0), (32, r.first), (32, r.count)]))))) ∧
    (∀ i lost placed, lost = (s.sectsOf i).filter (fun k => (s.sect k.1 k.2).lost) →
      placed = (fun (v : State) (k : Stage × Nat) => (v.sect k.1 k.2).tile.isSome || (v.sect k.1 k.2).size == 0) →
      ((s.loadsBusy i = true ∨ s.serving = false ∨ lost.all (placed s) = false) → Becomes (.frogRestoreDone i) s s) ∧
      (∀ u, s.loadsBusy i = false → s.serving = true → lost.all (placed s) = true → lost ≠ [] → (s.stream i).state ≠ .frogging →
        u = lost.foldl State.restoreSect (s.endLoads i) →
        Becomes (.frogRestoreDone i) s
          (((u.updStream i (fun y => { y with frog := y.frog.map (fun f => { f with restored := (u.sectsOf i).all (placed u) }) })).advance i).dispatchAll)) ∧
      (∀ u, s.loadsBusy i = false → s.serving = true → lost.all (placed s) = true → (lost ≠ [] ∨ ((s.stream i).frog.map (·.restored)) = some false) →
        (s.stream i).state = .frogging →
        u = lost.foldl State.restoreSect
          (((s.sectsOf i).filter (fun k => !(s.sect k.1 k.2).lost && s.ops.any (fun o => o.kind == OpKind.castIn (stageCode k.1) k.2))).foldl
            (fun v k => v.updSect k.1 k.2 Sect.load) (s.endLoads i)) →
        Becomes (.frogRestoreDone i) s
          (((u.updStream i (fun y => { y with frog := y.frog.map (fun f => { f with restored := (u.sectsOf i).all (placed u) }) })).advance i).dispatchAll)))

/-- ZEROISATION_START while a tag still targets the range, or of an object not being closed, does nothing; of a DETACHING branch, or of a stream in BINDING_OFF whose drained chunks have completed, the operation with its ZERO descriptors begins and the object's state is wiped, a stream's with that of its branches. BRANCH_ZEROISED of a branch whose pages are swept and whose transfers are over ends it: alone it leaves, with its stream in BINDING_OFF it waits for the stream. ZEROISATION_DONE of a stream whose own and branches' pages are swept counts one zeroisation, posts ZEROISED, takes branches and stream away and completes the bind-off with that count; before, it does nothing. The block then settles. -/
def Obligations.ZeroisationRowsAct : Prop :=
  ∀ (s : State) (b i : Nat),
    (∀ br k, s.stillTagged br k = true → Becomes (.zeroisationStart br k) s s) ∧
    (s.stillTagged false i = false → (s.stream i).state ≠ .bindingOff → Becomes (.zeroisationStart false i) s s) ∧
    (∀ z w, s.stillTagged true b = false → (s.branch b).state = .detaching → (s.branch b).zero = some z → z.started = false →
      w = (s.beginZeroise true b (s.branch b).part z.acceptDt []).wipeBranch b →
      Becomes (.zeroisationStart true b) s (w.1.updBranch b (fun y => { y with zero := some { z with started := true, pages := w.2 } }))) ∧
    (∀ z own bs c t u, s.stillTagged false i = false → (s.stream i).state = .bindingOff → (s.stream i).zero = some z → z.started = false →
      own = (s.pages.seqs.filter (fun q => q.owner == .encoder i)).flatMap (fun q => q.entries.map (·.ppn)) →
      bs = (s.branchesOf i).filter (fun b => !(((s.branch b).zero.map (·.started)).getD false)) →
      c = (s.beginZeroise false i (s.stream i).part z.acceptDt bs).dropCopies (fun o => o == .encoder i) →
      t = (c.1.dropStaged i true).dropOwner (.encoder i) true →
      u = bs.foldl (fun (a : State × List Nat) k =>
        (((a.1.wipeBranch k).1.updBranch k (fun y => { y with zero := y.zero.map (fun (q : Zeroise) => { q with started := true }) }), a.2 ++ (a.1.wipeBranch k).2) :
          State × List Nat)) (t, []) →
      (s.drainedOut i = false → Becomes (.zeroisationStart false i) s s) ∧
      (s.drainedOut i = true →
        Becomes (.zeroisationStart false i) s
          (u.1.updStream i (fun y => { y with
            enc := {}, encRing := [], trRing := [], encFallen := [], ingress := {}, fetched := [], arriving := [],
            zero := some { z with
              started := true,
              pages := z.pages ++ (((own ++ c.1.stagedPages i ++ c.2).eraseDups.filter (fun p => (u.1.page p).refs == 0)) ++ u.2) } })))) ∧
    (∀ z, (s.branch b).state = .detaching → (s.branch b).zero = some z →
      (z.started = false ∨ s.pagesSwept z.pages = false ∨ s.zeroiseIdle true b = false → Becomes (.branchZeroised b) s s) ∧
      (z.started = true → s.pagesSwept z.pages = true → s.zeroiseIdle true b = true →
        ((s.stream (s.branch b).stream).state = .bindingOff →
          Becomes (.branchZeroised b) s ((s.endZeroise true b).updBranch b (fun y => { y with zero := some { z with done := true } }))) ∧
        ((s.stream (s.branch b).stream).state ≠ .bindingOff → Becomes (.branchZeroised b) s ((s.endZeroise true b).branchGone b)))) ∧
    (∀ z n x t u, x = s.stream i → x.state = .bindingOff → x.zero = some z → s.branchesOf i = [] →
      (z.started = false ∨ s.pagesSwept z.pages = false ∨ s.zeroiseIdle false i = false → Becomes (.zeroisationDone i) s s) ∧
      (z.started = true → s.pagesSwept z.pages = true → s.zeroiseIdle false i = true → z.commanded = true → n = bump 64 (s.part x.part).zeroise 1 →
        t = ((s.endZeroise false i).updPart x.part (fun q => { q with zeroise := n })).post x.part 0x8009 (streamHandle i x.gen) n →
        u = (t.branchesOf i).foldl (fun (v : State) b => (v.endZeroise true b).branchGone b) t →
        Becomes (.zeroisationDone i) s ((((u.unmapIn i).setStream i { gen := x.gen }).completeKey x.part 0x0506 i { result := n }).dispatchAll)))

/-- OUTPUT_CHUNK_START does nothing without an entry or before its instant; while h is at least 1 a silent chunk is dropped and h falls by one; otherwise its samples join the schedule, with a cross-fade where they do not follow what played. HOST_FRAME_FETCH of a stream not fed by a ring, or of a frame not handed over or not due, does nothing; of a due frame handed over, with tags for all its requests, it issues the reads of its slot and moves on by one. OUTPUT_RING_FRAME_WRITE of a branch without a ring does nothing; of a ring of tokens it takes the host's CONSUMED and writes the chunk's tokens; of a ring of audio, before its frame's window and delay have passed it only takes the host's CONSUMED; then it forms the frame and writes it. The block then settles. -/
def Obligations.OutputRowsAct : Prop :=
  ∀ (s : State) (b i : Nat),
    ((s.branch b).egRing = [] → Becomes (.outputChunkStart b) s s) ∧
    (∀ e rest start, (s.branch b).egRing = e :: rest → start = s.playFrom b e.row →
      (s.dt < start → Becomes (.outputChunkStart b) s s) ∧
      (start ≤ s.dt → s.boot.fatal = none → 1 ≤ (s.branch b).hold → e.silent = true →
        Becomes (.outputChunkStart b) s
          (s.updBranch b (fun y => { y with
            egRing := rest, hold := y.hold - 1, dropped := y.dropped ++ e.samples, cnt := { y.cnt with silentDropped := bump 64 y.cnt.silentDropped 1 } }))) ∧
      (start ≤ s.dt → s.boot.fatal = none → ((s.branch b).hold = 0 ∨ e.silent = false) → (s.branch b).lastPlayed = none →
        Becomes (.outputChunkStart b) s
          (s.updBranch b (fun y => { y with
            egRing := rest,
            sched := y.sched.filter (fun z => decide (s.dt < z.start + 1024 * z.samples.length + 983040)) ++
              [{ start := start, row := e.row, silent := e.silent, samples := e.samples, join := some (s.branch b).dropped }],
            lastPlayed := some e.row, dropped := [], playEnd := start + 1024 * e.samples.length }))) ∧
      (∀ r, start ≤ s.dt → s.boot.fatal = none → ((s.branch b).hold = 0 ∨ e.silent = false) → (s.branch b).lastPlayed = some r →
        (s.branch b).playEnd = start → e.row = bump 32 r 1 → (s.branch b).dropped = [] →
        Becomes (.outputChunkStart b) s
          (s.updBranch b (fun y => { y with
            egRing := rest,
            sched := y.sched.filter (fun z => decide (s.dt < z.start + 1024 * z.samples.length + 983040)) ++
              [{ start := start, row := e.row, silent := e.silent, samples := e.samples, join := none }],
            lastPlayed := some e.row, dropped := [], playEnd := start + 1024 * e.samples.length })))) ∧
    ((s.stream i).source = .none → Becomes (.hostFrameFetch i) s s) ∧
    (∀ r x pieces o closes slot, x = s.stream i → x.source = .ring r → closes = s.frameEnd i + 245760 * (x.nextFetch - x.frames) → slot = r.slotOffset x.nextFetch →
      pieces = hostPieces (s.port x.part).cfg.maxReadRequest r.slotBytes slot r.slotBytes → o = s.newOp (.host x.part) x.part →
      ((s.closing i = false ∨ x.handed ≤ x.nextFetch ∨ s.dt + 491520 < closes ∨ (s.port x.part).canWrite = false ∨ (s.port x.part).freeTags < pieces.length) →
        Becomes (.hostFrameFetch i) s s) ∧
      (s.closing i = true → x.state ≠ .bindingOff → x.nextFetch < x.handed → closes ≤ s.dt + 491520 → (s.port x.part).canWrite = true →
        pieces.length ≤ (s.port x.part).freeTags → (s.port x.part).checkAperture r.aperture slot r.slotBytes true false = .ok →
        Becomes (.hostFrameFetch i) s
          ((o.1.updPort x.part (fun q => pieces.foldl (fun (v : HostPort) y => v.askFrame i x.nextFetch r.aperture slot o.2 s.dt closes y) q)).updStream i
            (fun y => { y with fetchNext := x.nextFetch + 1 })))) ∧
    (∀ consumed, (s.branch b).ring = none → Becomes (.outputRingFrameWrite b consumed) s s) ∧
    (∀ consumed r x t, x = s.branch b → x.ring = some r → s.boot.fatal = none → x.state ≠ .absent →
      t = s.updBranch b (fun y => { y with ring := some (if r.consumed ≤ consumed ∧ consumed ≤ r.produced then { r with consumed := consumed } else r) }) →
      (r.rate = 0 → Becomes (.outputRingFrameWrite b consumed) s (t.tokensWrite b)) ∧
      (r.rate ≠ 0 → s.dt < x.ringNext + 245760 + outDelay r.rate → Becomes (.outputRingFrameWrite b consumed) s t) ∧
      (r.rate ≠ 0 → x.ringNext + 245760 + outDelay r.rate ≤ s.dt →
        Becomes (.outputRingFrameWrite b consumed) s
          ((t.updBranch b (fun y => { y with
            ringConv := (ringFrame r.rate x x.ringNext).1.conv, ringFade := (ringFrame r.rate x x.ringNext).1.fade,
            ringPos := x.ringNext + 245760 + outDelay r.rate, ringNext := x.ringNext + 245760 })).ringWrite b
              (fun n => pack [(32, n), (1, bit (ringFlags x x.ringNext).1), (1, bit (ringFlags x x.ringNext).2), (222, 0)])
              (fun _ => 2 ^ 256 * concatRecords 16 ((ringFrame r.rate x x.ringNext).2.map (unsigned 16))))))

/-- GOVERNOR_WINDOW off a millisecond boundary or in a device reset does nothing; before READY it only reads the sensors; at READY it records the readbacks, the power of the window (at most 1,000 windows kept) and the energy. Over the limit it takes one step down, the next divisor or at root/6 the next pace level up to 7, and the count of windows under restarts; under the limit it counts the window, and at the tenth takes one step up; neither restarts the count. THROTTLE events follow a hot step down and the end of throttling. The block then settles. -/
def Obligations.GovernorWindowActs : Prop :=
  ∀ (s : State) (m : Measurement),
    ((s.boot.inReset = true ∨ s.dt % 24576 ≠ 0) → Becomes (.governorWindow m) s s) ∧
    (s.boot.inReset = false → s.dt % 24576 = 0 → s.boot.stage ≠ .ready → Becomes (.governorWindow m) s { s with power := s.power.sample s.dt m }) ∧
    (∀ t, s.boot.inReset = false → s.dt % 24576 = 0 → s.boot.stage = .ready → t = { s with power := s.power.measure s.dt m } →
      (t.overLimit = true →
        Becomes (.governorWindow m) s
          ((t.updPower (fun p => { p.stepDown s.dt with under := 0 })).throttleEvents t.tooHot (decide (t.power.point < 6 ∨ t.power.pace < 7)))) ∧
      (t.overLimit = false → t.under = true →
        (t.power.under + 1 < 10 → Becomes (.governorWindow m) s (t.updPower (fun p => { p with under := p.under + 1 }))) ∧
        (10 ≤ t.power.under + 1 →
          Becomes (.governorWindow m) s ((t.updPower (fun p => { p.stepUp s.dt with under := 0 })).throttleEvents false false))) ∧
      (t.overLimit = false → t.under = false → Becomes (.governorWindow m) s (t.updPower (fun p => { p with under := 0 })))) ∧
    (∀ p : Power, p.history.length ≤ 1000 → (p.measure s.dt m).history.length ≤ 1000 ∧ (p.measure s.dt m).history.headD 0 = p.p1 m ∧
      (p.measure s.dt m).energy = (p.energy + p.p1 m) % 2 ^ 80 ∧ (p.measure s.dt m).divisor = p.divisor ∧ (p.measure s.dt m).pace = p.pace) ∧
    (∀ p : Power, (p.point = 6 → p.divisor = 6 → (p.stepDown s.dt).pace = min 7 (p.pace + 1) ∧ (p.stepDown s.dt).divisor = 6) ∧
      (p.avs.raise = none → 4 ≤ p.divisor → p.divisor < 6 → (p.stepDown s.dt).divisor = p.divisor + 1 ∧ (p.stepDown s.dt).pace = p.pace))

/-- AVS_TARGET_REACHED completes a raise in progress, else nothing; VOLTAGE_WAIT_TIMEOUT does so only 2,458 ticks after the write. AVS_TRANSACTION_FAIL counts; REGULATOR_FAULT before three failures in a row does nothing, then the divider goes to root/6, no further target is written and a DEGRADED device fault is recorded. TRIM_UPDATE in steps of 5 mV from −25 to +50 mV, at READY and 100 ms after the last, stores the trim and writes the target; any other does nothing. Every target written lies from 600 to 800 mV. The block then settles. -/
def Obligations.VoltageRowsAct : Prop :=
  ∀ (s : State),
    (s.power.avs.raise = none → Becomes .avsTargetReached s s ∧ Becomes .voltageWaitTimeout s s) ∧
    (∀ t d, s.power.avs.raise = some (t, d) →
      Becomes .avsTargetReached s
        (s.updPower (fun p => { p.countTo s.dt with divisor := d, avs := { p.avs with raise := none, failures := 0 } })) ∧
      (s.dt < t + 2458 → Becomes .voltageWaitTimeout s s) ∧
      (t + 2458 ≤ s.dt →
        Becomes .voltageWaitTimeout s
          (s.updPower (fun p => { p.countTo s.dt with divisor := d, avs := { p.avs with raise := none, failures := 0 } })))) ∧
    (s.power.avs.faulted = false →
      Becomes .avsTransactionFail s
        (s.updPower (fun p => { p with avsErrors := bump 64 p.avsErrors 1, avs := { p.avs with failures := p.avs.failures + 1 } }))) ∧
    ((s.power.avs.faulted = true ∨ s.power.avs.failures < 3) → Becomes .regulatorFault s s) ∧
    (s.power.avs.faulted = false → 3 ≤ s.power.avs.failures →
      Becomes .regulatorFault s
        ((s.updPower (fun p => { p.countTo s.dt with divisor := 6, avs := { p.avs with faulted := true, raise := none } })).degradedFault 1)) ∧
    (∀ trim, (s.boot.stage ≠ .ready ∨ trim % 5 ≠ 0 ∨ trim < -25 ∨ 50 < trim ∨ ∃ t, s.power.avs.lastTrim = some t ∧ s.dt < t + 2457600) →
      Becomes (.trimUpdate trim) s s) ∧
    (∀ trim : Int, s.boot.stage = .ready → trim % 5 = 0 → -25 ≤ trim → trim ≤ 50 → (∀ t, s.power.avs.lastTrim = some t → t + 2457600 ≤ s.dt) →
      Becomes (.trimUpdate trim) s
        (s.updPower (fun p => ({ p with avs := { p.avs with trim := trim, lastTrim := some s.dt } } : Power).writeTarget p.point))) ∧
    (∀ (p : Power) d, p.avs.faulted = false →
      600 ≤ (p.writeTarget d).avs.target ∧ (p.writeTarget d).avs.target ≤ 800 ∧
      (600 ≤ vNominal d + p.avs.trim → vNominal d + p.avs.trim ≤ 800 → ((p.writeTarget d).avs.target : Int) = vNominal d + p.avs.trim))

/-- PROCHOT_ASSERTED at READY sets the divider to root/6, counts and posts THERMAL, and before READY only takes note; while already asserted it does nothing; PROCHOT_DEASSERTED only ends it: the divisor returns by the governor alone. SENSOR_RECALIBRATION at 95 °C or more is deferred for at most 60 s, else it runs. THERMAL_TRIP stops the clocks, writes one reset record while the log has room and holds a device reset with cause THERMAL_TRIP; once tripped it does nothing more. LOSS_OF_LOCK begins a device reset with cause CLOCK_LOSS; LOCK_REGAINED ends that reset: the PLL is locked again, DT starts at zero in ROM and the released ports train, while a trip or a rail holds no reset; held, only the lock stands; while locked it does nothing but let released ports train. The block then settles. -/
def Obligations.HeatAndLockRowsAct : Prop :=
  ∀ (s : State),
    (s.power.prochot = true → Becomes .prochotAsserted s s) ∧
    (∀ t, s.power.prochot = false →
      t = s.updPower (fun p => { (p.setDivisor s.dt 6).countTo s.dt with prochot := true, prochotAssertions := bump 64 p.prochotAssertions 1 }) →
      (s.boot.stage = .ready → Becomes .prochotAsserted s (t.postThermal 2)) ∧
      (s.power.divisor ≤ 6 → t.power.divisor = 6 ∧ t.power.avs.raise = none)) ∧
    (s.power.prochot = false → s.boot.stage ≠ .ready → Becomes .prochotAsserted s (s.updPower (fun p => { p.countTo s.dt with prochot := true }))) ∧
    (s.power.prochot = false → Becomes .prochotDeasserted s s) ∧
    (∀ t, s.power.prochot = true → t = s.updPower (fun p => { p.countTo s.dt with prochot := false }) →
      (s.boot.stage = .ready → Becomes .prochotDeasserted s (t.postThermal 3)) ∧
      (s.boot.stage ≠ .ready → Becomes .prochotDeasserted s t) ∧ t.power.divisor = s.power.divisor) ∧
    (∀ k, 16 ≤ k → Becomes (.sensorRecalibration k) s s) ∧
    (∀ k x, k < 16 → x = s.power.sensor k →
      (95 ≤ x.temp → s.dt < x.deferredSince.getD s.dt + 1474560000 →
        Becomes (.sensorRecalibration k) s
          (s.updPower (fun p => { p with sensors := Table.set {} p.sensors k { x with deferredSince := some (x.deferredSince.getD s.dt) } }))) ∧
      ((x.temp < 95 ∨ x.deferredSince.getD s.dt + 1474560000 ≤ s.dt) →
        Becomes (.sensorRecalibration k) s
          (s.updPower (fun p => { p with sensors := Table.set {} p.sensors k { x with deferredSince := none, lastRecal := some s.dt } })))) ∧
    (s.power.tripped = true → Becomes .thermalTrip s s) ∧
    (∀ t recs, s.power.tripped = false → s.boot.aonIn = true → t = s.enterReset .thermalTrip →
      recs = (if s.boot.flash.records.length < 4096 then s.boot.flash.records ++ [false] else s.boot.flash.records) →
      Becomes .thermalTrip s
        { t with power := { t.power with tripped := true, clocksOn := false }, boot := { t.boot with flash := { s.boot.flash with records := recs } } }) ∧
    (s.power.locked = true →
      Becomes .lossOfLock s { s.enterReset .clockLoss with power := { (s.enterReset .clockLoss).power with locked := false } } ∧
      Becomes .lockRegained s s.portsTrain) ∧
    (s.power.locked = false → Becomes .lossOfLock s s) ∧
    (s.power.locked = false → s.boot.inReset = true → s.power.tripped = false → s.boot.aonIn = true → s.boot.ioIn = true →
      Becomes .lockRegained s
        (State.portsTrain { s with dt := 0, power := { s.power with locked := true }, boot := { s.boot with inReset := false, stage := .rom } })) ∧
    (s.power.locked = false → (s.boot.inReset = false ∨ s.power.tripped = true ∨ s.boot.aonIn = false ∨ s.boot.ioIn = false) →
      Becomes .lockRegained s (State.portsTrain { s with power := { s.power with locked := true } }))

/-- COLD_RESET keeps the flash and the level on PERST#, samples the straps and starts over. A device reset keeps flash, straps and management, clears every stream, branch, model, pipeline, retirement, window and the journal, sets its cause and holds the device. SYS_RESET of at least 10 µs begins one; FW_WATCHDOG only armed, not refreshed, 500 ms after the last refresh; BOOT_TIMEOUT only in the stages after IMAGE_CHECK 1.5 s after the reset; RESET_DT_REACHED at its DT. WATCHDOG_REFRESH_STOP stops the refresh 10 ms after a FATAL fault. RESET_END starts DT at zero in ROM; VDD rows act on their rail. The block then settles. -/
def Obligations.ResetRowsAct : Prop :=
  ∀ (s : State),
    (∀ straps, Becomes (.coldReset straps) s
      { pending := s.pending, free := s.free, ports := Table.mapVals {} (fun _ (p : HostPort) => { perst := p.perst }) s.ports,
        boot := { inReset := true, cause := .powerOn, straps := straps % 4, flash := s.boot.flash } }) ∧
    (∀ cause t, t = s.enterReset cause →
      t.boot.flash = s.boot.flash ∧ t.boot.straps = s.boot.straps ∧ t.boot.cause = cause ∧ t.boot.inReset = true ∧ t.dt = 0 ∧
      t.streams = [] ∧ t.branches = [] ∧ t.models = [] ∧ t.contents = [] ∧ t.pipes = [] ∧ t.tiles = [] ∧ t.flanks = [] ∧ t.parts = [] ∧ t.journal = {} ∧
      t.feeders = [] ∧ t.fabric = {} ∧ t.pages = {} ∧ t.audio = {} ∧ t.pins = s.pins ∧ t.boot.fatal = none ∧ t.pending = s.pending) ∧
    (∀ ns, s.boot.aonIn = true → 10000 ≤ ns → Becomes (.sysReset ns) s (s.enterReset .sysReset)) ∧
    (s.boot.watchdogArmed = true → s.boot.refreshing = false →
      (s.boot.watchdogFrom + 12288000 ≤ s.dt → Becomes .fwWatchdog s (s.enterReset .fwWatchdog)) ∧
      (s.dt < s.boot.watchdogFrom + 12288000 → Becomes .fwWatchdog s s)) ∧
    ((s.boot.watchdogArmed = false ∨ s.boot.refreshing = true) → Becomes .fwWatchdog s s) ∧
    ((s.boot.stage = .ready ∨ s.boot.stage = .rom ∨ s.boot.stage = .imageCheck ∨ s.dt < 36864000) → Becomes .bootTimeout s s) ∧
    ((s.boot.stage = .training ∨ s.boot.stage = .clear ∨ s.boot.stage = .selfTest ∨ s.boot.stage = .config) → s.boot.inReset = false → 36864000 ≤ s.dt →
      Becomes .bootTimeout s ((s.updBoot (fun b => { b with timedOut := some b.runningSlot })).enterReset .bootTimeout)) ∧
    (∀ t, s.boot.resetDt = some t →
      (s.dt < t → Becomes .resetDtReached s s) ∧ (t ≤ s.dt → Becomes .resetDtReached s (s.enterReset .command))) ∧
    (∀ t, s.boot.fatal = some t → s.boot.refreshing = true →
      (s.dt < t + 245760 → Becomes .watchdogRefreshStop s s) ∧
      (t + 245760 ≤ s.dt → Becomes .watchdogRefreshStop s (s.updBoot (fun b => { b with refreshing := false, watchdogFrom := s.dt })))) ∧
    (s.boot.inReset = true → s.power.locked = true → s.power.tripped = false → s.boot.aonIn = true → s.boot.ioIn = true →
      Becomes .resetEnd s (State.portsTrain { s with dt := 0, boot := { s.boot with inReset := false, stage := .rom } })) ∧
    (s.boot.inReset = false → Becomes .resetEnd s s) ∧
    (Becomes (.powerRemoval false) s (s.updBoot (fun b => { b with ioIn := false }))) ∧
    (Becomes (.powerRemoval true) s
      { pending := s.pending, free := s.free, ports := Table.mapVals {} (fun _ (p : HostPort) => { perst := p.perst }) s.ports,
        boot := { aonIn := false, ioIn := s.boot.ioIn, inReset := true, flash := s.boot.flash } }) ∧
    (s.boot.aonIn = true → Becomes .vddIoReturn s (s.updBoot (fun b => { b with ioIn := true }))) ∧
    (s.boot.aonIn = false → Becomes .vddIoReturn s s)

/-- SYS_RESET with a pulse below 1,000 ns leaves the whole state as it was: in a quiet device only the sensors are evaluated, in any state the block only settles. -/
def Obligations.ShortResetPulsesAreIgnored : Prop :=
  ∀ (s : State) (ns : Nat), ns < 1000 → Becomes (.sysReset ns) s s ∧ (Quiet s → Leaves (.sysReset ns) s s)

/-- Each stage row acts only in its stage. ROM with no readable directory fails with reason 3; IMAGE_CHECK passed goes to TRAINING, failed marks the slot BAD and tries the other one once, or fails with reason 1; TRAINING fails with reason 2 and the stack, or goes to CLEAR; CLEAR zeroes memory and stores and goes to SELF_TEST; SELF_TEST retires what failed and goes to CONFIG; CONFIG from the default site makes the slot GOOD and the device READY. FLASH_WRITE_DONE with nothing being written does nothing; failed completes with 0x0602, done makes the image slot STAGED and answers its version. The block then settles. -/
def Obligations.BootStagesAct : Prop :=
  ∀ (s : State),
    (∀ b, (s.boot.stage ≠ .rom ∨ s.boot.inReset = true) → Becomes (.rom b) s s) ∧
    (s.boot.stage = .rom → s.boot.inReset = false → Becomes (.rom false) s (s.bootFails 3 0)) ∧
    (∀ t d, s.boot.stage = .rom → s.boot.inReset = false → s.boot.flash.copy0.valid = true → t = s.noteTimeout.reportTrip → d = t.boot.flash.dir →
      (d.slot d.preferred).bootable = true →
      Becomes (.rom true) s
        (t.updBoot (fun b => { b with
          preferredAtBoot := s.boot.flash.dir.preferred, siteDefault := t.boot.flash.currentSite.isNone, siteSlot := t.boot.flash.currentSite.getD 0,
          stage := .imageCheck, runningSlot := d.preferred }))) ∧
    (∀ p, s.boot.stage ≠ .imageCheck → Becomes (.imageCheck p) s s) ∧
    (s.boot.stage = .imageCheck → Becomes (.imageCheck true) s (s.updBoot (fun b => { b with stage := .training }))) ∧
    (∀ t k, s.boot.stage = .imageCheck → k = s.boot.runningSlot → t = s.updDir (fun d => d.updSlot k (fun x => { x with state := .bad })) →
      (s.boot.triedOther = true → Becomes (.imageCheck false) s (t.bootFails 1 0)) ∧
      (s.boot.triedOther = false → (t.boot.flash.dir.slot (1 - k)).bootable = true →
        Becomes (.imageCheck false) s
          ((t.updDir (fun d => { d with preferred := 1 - k })).updBoot (fun b => { b with runningSlot := 1 - k, triedOther := true })))) ∧
    (∀ fail, s.boot.stage ≠ .training → Becomes (.training fail) s s) ∧
    (s.boot.stage = .training → Becomes (.training none) s (s.updBoot (fun b => { b with stage := .clear }))) ∧
    (∀ k, s.boot.stage = .training → Becomes (.training (some k)) s (s.bootFails 2 (k % 8))) ∧
    (s.boot.stage = .clear →
      Becomes .clear s { s with mem := { s.mem with bytes := [], errs := [] }, store := [], boot := { s.boot with stage := .selfTest } }) ∧
    (∀ fails, s.boot.stage = .selfTest →
      Becomes (.selfTest fails) s (((List.range 3).foldl (fun (t : State) f => t.selfTestRetire f fails) s).updBoot (fun b => { b with stage := .config }))) ∧
    (∀ rings, s.boot.stage ≠ .config → Becomes (.config rings) s s) ∧
    (∀ rings t v, s.boot.stage = .config → s.boot.siteDefault = true → t = ((s.applySite defaultSite).initRoutes).setRings rings →
      v = (t.updDir (fun d => d.updSlot t.boot.runningSlot (fun x => { x with state := .good, timeouts := 0 }))).updBoot (fun b => { b with
        stage := .ready, watchdogArmed := true, refreshing := true,
        flash := if 4096 ≤ b.flash.records.length then { b.flash with records := [] } else b.flash }) →
      Becomes (.config rings) s
        (((List.range 3).foldl (fun (y : State) f => y.updFlank f (fun x => { x with cache := y.site.cache f }))
          ((State.allFwState { v with mem := { v.mem with scrubStart := v.dt } } 2).takeCap 28)).postSelfTest)) ∧
    (∀ ok, s.boot.writing = none → Becomes (.flashWriteDone ok) s s) ∧
    (∀ w, s.boot.writing = some w →
      Becomes (.flashWriteDone false) s ((s.updBoot (fun b => { b with writing := none })).complete w.port w.cmd { status := 0x0602 }) ∧
      (∀ k version length, w.job = .image k version length →
        Becomes (.flashWriteDone true) s
          (((s.updBoot (fun b => { b with writing := none })).updDir (fun d => d.updSlot k (fun _ =>
            { state := .staged, timeouts := 0, length := length, version := version }))).complete w.port w.cmd { result := version })))

/-- SMBus exists while VDD_AON and VDD_IO are in range, the medium of host port n only while its link is UP too. The endpoint answers a medium the null EID and its own EID there. Every request row addressed otherwise, or on a medium that does not exist, does nothing at all. -/
def Obligations.EndpointAnswersItsOwnAddresses : Prop :=
  ∀ (s : State) (r : MgmtReq),
    (s.mediumUp .smbus = true ↔ s.boot.aonIn = true ∧ s.boot.ioIn = true) ∧
    (∀ n, s.mediumUp (.host n) = true ↔ s.boot.aonIn = true ∧ s.boot.ioIn = true ∧ n < 4 ∧ (s.port n).link = .up) ∧
    (∀ m eid, s.addressed m eid = true ↔ s.mediumUp m = true ∧ (eid = 0 ∨ eid = (s.medium m).eid)) ∧
    (s.addressed r.medium r.dstEid = false →
      (∀ a b, Becomes (.setEndpointId r a b) s s ∧ Becomes (.setEventReceiver r a b) s s) ∧
      (∀ a, Becomes (.getMctpVersionSupport r a) s s ∧ Becomes (.setTid r a) s s ∧ Becomes (.getPldmVersion r a) s s ∧ Becomes (.getPldmCommands r a) s s ∧
        Becomes (.getSensorReading r a) s s ∧ Becomes (.getSensorThresholds r a) s s ∧ Becomes (.getStateSensorReadings r a) s s ∧ Becomes (.getPdr r a) s s) ∧
      Becomes (.getEndpointId r) s s ∧ Becomes (.getEndpointUuid r) s s ∧ Becomes (.getMessageTypeSupport r) s s ∧
      Becomes (.getVendorDefinedMessageSupport r) s s ∧ Becomes (.prepareForEndpointDiscovery r) s s ∧ Becomes (.endpointDiscovery r) s s ∧
      Becomes (.getNetworkId r) s s ∧ Becomes (.getTid r) s s ∧ Becomes (.getPldmTypes r) s s ∧ Becomes (.getEventReceiver r) s s ∧
      Becomes (.getPdrRepositoryInfo r) s s)

/-- SET_ENDPOINT_ID with an EID from 8 to 254 sets the EID of the medium that carried it and no other, and clears a receiver on it where the EID changes; any other EID answers ERROR_INVALID_DATA and leaves it. GET_ENDPOINT_ID reads it. UUID, Network ID and vendor messages answer ERROR_UNSUPPORTED_CMD always. Version support is 1.3, and 1.0 for PLDM; message types are 0 and 1. The discovery commands succeed on host ports only. The codes of the errors are the model's (PRESUMED, log 90). -/
def Obligations.ControlRequestsAnswer : Prop :=
  ∀ (s v u : State) (r : MgmtReq), Table.sortedFrom 0 s.mgmt.media = true → s.addressed r.medium r.dstEid = true → v = headTaken s r.medium →
    (∀ op eid, op ≤ 1 → 8 ≤ eid → eid ≤ 254 → u = v.updMedium r.medium (fun y => { y with eid := eid }) →
      ((v.medium r.medium).eid ≠ eid → v.mgmt.receiver.map (·.1) = some r.medium →
        Manages (.setEndpointId r op eid) s r { u with mgmt := u.mgmt.clearReceiver } mgmtOk [(2, 0), (2, 0), (8, eid), (8, 0)]) ∧
      (((v.medium r.medium).eid = eid ∨ v.mgmt.receiver.map (·.1) ≠ some r.medium) →
        Manages (.setEndpointId r op eid) s r u mgmtOk [(2, 0), (2, 0), (8, eid), (8, 0)])) ∧
    (∀ op eid, (1 < op ∨ eid < 8 ∨ 254 < eid) → Manages (.setEndpointId r op eid) s r v mgmtInvalid []) ∧
    Manages (.getEndpointId r) s r v mgmtOk [(8, (s.medium r.medium).eid), (2, 0), (2, 0)] ∧
    Manages (.getEndpointUuid r) s r v mgmtUnsupported [] ∧ Manages (.getNetworkId r) s r v mgmtUnsupported [] ∧
    Manages (.getVendorDefinedMessageSupport r) s r v mgmtUnsupported [] ∧
    (∀ ty, (ty = 255 ∨ ty = 0 → Manages (.getMctpVersionSupport r ty) s r v mgmtOk [(8, 1), (8, 1), (8, 3)]) ∧
      (ty = 1 → Manages (.getMctpVersionSupport r ty) s r v mgmtOk [(8, 1), (8, 1), (8, 0)]) ∧
      (1 < ty → ty ≠ 255 → Manages (.getMctpVersionSupport r ty) s r v mgmtUnknown [])) ∧
    Manages (.getMessageTypeSupport r) s r v mgmtOk [(8, 2), (8, 0), (8, 1)] ∧
    (r.medium = .smbus → Manages (.prepareForEndpointDiscovery r) s r v mgmtUnsupported [] ∧ Manages (.endpointDiscovery r) s r v mgmtUnsupported []) ∧
    (∀ n, r.medium = .host n → Manages (.prepareForEndpointDiscovery r) s r v mgmtOk [] ∧ Manages (.endpointDiscovery r) s r v mgmtOk [])

/-- SET_TID from 1 to 254 sets the TID; any other answers ERROR_INVALID_DATA and leaves it; GET_TID reads it. Version 1.1 for type 0 and 1.2 for type 2; the types are 0 and 2; the command codes are those of the table. The repository holds 64 records: the terminus locator, 35 numeric and 28 state sensors; its count, sizes and update time are the same in every state, and only the locator's TID and EID depend on the state. Record handles and PDR sizes are the model's (DESIGN CHOICE, log 91), and so are the unit codes of the numeric sensors' records (PRESUMED, log 90). -/
def Obligations.PldmBaseRequestsAnswer : Prop :=
  ∀ (s v : State) (r : MgmtReq), Table.sortedFrom 0 s.mgmt.media = true → s.addressed r.medium r.dstEid = true → v = headTaken s r.medium →
    (∀ tid, 1 ≤ tid → tid ≤ 254 → Manages (.setTid r tid) s r { v with mgmt := { v.mgmt with tid := tid } } mgmtOk []) ∧
    (∀ tid, (tid < 1 ∨ 254 < tid) → Manages (.setTid r tid) s r v mgmtInvalid []) ∧
    Manages (.getTid r) s r v mgmtOk [(8, s.mgmt.tid)] ∧
    Manages (.getPldmVersion r 0) s r v mgmtOk [(8, 1), (8, 1)] ∧ Manages (.getPldmVersion r 2) s r v mgmtOk [(8, 1), (8, 2)] ∧
    (∀ ty, ty ≠ 0 → ty ≠ 2 → Manages (.getPldmVersion r ty) s r v mgmtTypeAbsent [] ∧ Manages (.getPldmCommands r ty) s r v mgmtTypeAbsent []) ∧
    Manages (.getPldmTypes r) s r v mgmtOk [(64, 5)] ∧
    Manages (.getPldmCommands r 0) s r v mgmtOk [(256, 2 ^ 1 + 2 ^ 2 + 2 ^ 3 + 2 ^ 4 + 2 ^ 5)] ∧
    Manages (.getPldmCommands r 2) s r v mgmtOk [(256, 2 ^ 4 + 2 ^ 5 + 2 ^ 10 + 2 ^ 17 + 2 ^ 18 + 2 ^ 33 + 2 ^ 80 + 2 ^ 81)] ∧
    Manages (.getPdrRepositoryInfo r) s r v mgmtOk [(32, 64), (32, Config.pdrSizes.1), (32, Config.pdrSizes.2), (104, 0)] ∧
    (∀ k, k ≤ 1 → Manages (.getPdr r k) s r v mgmtOk [(32, 2), (8, 1), (8, s.mgmt.tid), (8, (s.medium r.medium).eid)]) ∧
    (∀ k, 1 ≤ k → k ≤ 35 → Manages (.getPdr r (k + 1)) s r v mgmtOk ([(32, k + 2), (8, 2), (16, k), (8, (sensorUnit k).1), (16, (sensorUnit k).2)] ++ (s.thresholds k).pdr)) ∧
    (∀ k, 64 ≤ k → k ≤ 91 →
      Manages (.getPdr r (k - 27)) s r v mgmtOk [(32, if k = 91 then 0 else k - 26), (8, 4), (16, k), (16, (stateSet k).1), (8, (stateSet k).2)]) ∧
    (∀ k, 64 < k → Manages (.getPdr r k) s r v 130 [])

/-- GET_SENSOR_READING answers for the numeric sensors 1 to 35 the operational state and, while enabled, event state and reading; GET_SENSOR_THRESHOLDS the thresholds of Table 18-5, the warning of PACKAGE_POWER following the cap in force; GET_STATE_SENSOR_READINGS for 64 to 91 one composite. Another ID is an error. DEVICE_STATE reads TRIPPED after a trip, else IN_RESET in a reset, FATAL_PENDING in a FATAL fault, else the boot stage. The event state keeps a severity until the reading has passed the hysteresis. The operational states' numbers are the model's (PRESUMED, log 90). -/
def Obligations.SensorRequestsAnswer : Prop :=
  ∀ (s v : State) (r : MgmtReq), s.addressed r.medium r.dstEid = true → v = headTaken s r.medium →
    (∀ k, 1 ≤ k → k ≤ 35 →
      (s.operational k = .enabled →
        Manages (.getSensorReading r k) s r v mgmtOk [(8, 0), (8, (s.thresholds k).next (s.watch k).current (s.reading k)), (32, unsigned 32 (s.reading k))]) ∧
      (s.operational k ≠ .enabled → Manages (.getSensorReading r k) s r v mgmtOk [(8, (s.operational k).code)]) ∧
      Manages (.getSensorThresholds r k) s r v mgmtOk
        ((1, bit (s.thresholds k).upper) ::
          (thresholdField (s.thresholds k).warning ++ thresholdField (s.thresholds k).critical ++ thresholdField (s.thresholds k).fatal))) ∧
    (∀ k, (k = 0 ∨ 35 < k) → Manages (.getSensorReading r k) s r v mgmtUnknown [] ∧ Manages (.getSensorThresholds r k) s r v mgmtUnknown []) ∧
    (∀ k, 64 ≤ k → k ≤ 91 →
      (s.operational k = .enabled → Manages (.getStateSensorReadings r k) s r v mgmtOk [(8, 1), (8, 0), (8, s.sensorState k)]) ∧
      (s.operational k ≠ .enabled → k ≠ 67 → Manages (.getStateSensorReadings r k) s r v mgmtOk [(8, 1), (8, (s.operational k).code)])) ∧
    (∀ k, (k < 64 ∨ 91 < k) → Manages (.getStateSensorReadings r k) s r v mgmtUnknown []) ∧
    (s.power.tripped = true → s.sensorState 64 = 6 ∧ s.sensorState 67 = 4) ∧
    (s.power.tripped = false → s.boot.inReset = true → s.sensorState 64 = 1 ∧ s.sensorState 67 = 4 ∧ s.operational 1 = .unavailable ∧ s.operational 65 = .unavailable) ∧
    (s.power.tripped = false → s.boot.inReset = false → s.boot.fatal.isSome = true → s.sensorState 64 = 5) ∧
    (s.power.tripped = false → s.boot.inReset = false → s.boot.fatal = none → s.boot.stage = .ready →
      s.sensorState 64 = 3 ∧ ∀ k, 1 ≤ k → k ≤ 91 → s.operational k = .enabled) ∧
    ((s.thresholds 24).warning = some ((25 * s.power.cap : Nat) : Int)) ∧
    (∀ (t : Thresholds) before x, t.severity x < codeSeverity before → t.cleared (codeSeverity before) x = false → t.next before x = before)

/-- SET_EVENT_RECEIVER names one receiver on the medium that carried it, replacing the last and dropping what was held for it; disabled, it clears it; GET_EVENT_RECEIVER reads it. PLATFORM_EVENT_ACK on the receiver's medium drops the oldest message for the sensor; PLATFORM_EVENT_RETRY sends it again while sent fewer than three times, then discards it. EVENT_RATE_INTERVAL_END a second after the last message sends the waiting change with the state then and the state last sent; before that it does nothing. The code for an unsupported protocol is the model's (PRESUMED, log 90). -/
def Obligations.EventRowsAct : Prop :=
  ∀ (s v : State) (r : MgmtReq), v = headTaken s r.medium →
    (s.addressed r.medium r.dstEid = true →
      (∀ eid, Manages (.setEventReceiver r 0 eid) s r { v with mgmt := v.mgmt.clearReceiver } mgmtOk []) ∧
      (∀ eid, v.mgmt.receiver = some (r.medium, eid) → Manages (.setEventReceiver r 1 eid) s r v mgmtOk []) ∧
      (∀ eid, v.mgmt.receiver ≠ some (r.medium, eid) →
        Manages (.setEventReceiver r 1 eid) s r { v with mgmt := { v.mgmt.clearReceiver with receiver := some (r.medium, eid) } } mgmtOk []) ∧
      (∀ e eid, 1 < e → Manages (.setEventReceiver r e eid) s r v 129 []) ∧
      (s.mgmt.receiver = none → Manages (.getEventReceiver r) s r v mgmtOk [(1, 0), (8, 0)]) ∧
      (∀ m eid, s.mgmt.receiver = some (m, eid) → Manages (.getEventReceiver r) s r v mgmtOk [(1, 1), (8, eid)])) ∧
    (v.mgmt.clearReceiver.unacked = [] ∧ ∀ k, (Table.get {} v.mgmt.clearReceiver.sensors k).waiting = false) ∧
    (∀ m k, (s.mgmt.receiver.map (·.1) ≠ some m ∨ s.mediumUp m = false ∨ s.mgmt.unacked.find? (fun e => e.sensor == k) = none) →
      Becomes (.platformEventAck m k) s s) ∧
    (∀ m k eid e, s.mgmt.receiver = some (m, eid) → s.mediumUp m = true → s.mgmt.unacked.find? (fun e => e.sensor == k) = some e →
      Becomes (.platformEventAck m k) s { s with mgmt := { s.mgmt with unacked := s.mgmt.unacked.erase e } } ∧
      (e.tries < 3 →
        Becomes (.platformEventRetry k) s
          { s with mgmt := { s.mgmt with sent := s.mgmt.sent ++ [.platformEvent m eid k e.state e.previous], unacked := triedAgain e s.mgmt.unacked } }) ∧
      (3 ≤ e.tries → Becomes (.platformEventRetry k) s { s with mgmt := { s.mgmt with unacked := s.mgmt.unacked.erase e } })) ∧
    (∀ k, (s.mgmt.receiver = none ∨ s.mgmt.unacked.find? (fun e => e.sensor == k) = none) → Becomes (.platformEventRetry k) s s) ∧
    (∀ k, ((s.watch k).sentDt = none ∨ s.endpointRuns = false ∨ ∃ t, (s.watch k).sentDt = some t ∧ t ≤ s.dt ∧ s.dt < t + 24576000) →
      Becomes (.eventRateIntervalEnd k) s s) ∧
    (∀ k t, (s.watch k).sentDt = some t → s.endpointRuns = true → t + 24576000 ≤ s.dt →
      ((s.watch k).waiting = true → Becomes (.eventRateIntervalEnd k) s (s.platformEvent k (s.watch k).current (s.watch k).sent)) ∧
      ((s.watch k).waiting = false → Becomes (.eventRateIntervalEnd k) s (s.updWatch k (fun y => { y with sentDt := none }))))

/-- MCTP_PACKET for another address, of more than 64 bytes, or on SMBus with a wrong PEC or to a slave address other than the straps give does nothing. A first packet starts a message, unless four others are in reassembly; a packet in sequence adds its bytes; one out of sequence or a message longer than 1,024 bytes drops the message. The last packet completes it: a control or PLDM request waits behind those before it, and where no table lists it, it is answered with its error in its turn; any other message is discarded. SMBUS_RETRY lets a packet fail twice, at the third failure its message is discarded. SMBUS_BUS_TIMEOUT ends the transfer. Byte positions are the model's (PRESUMED, log 90). -/
def Obligations.PacketsReassemble : Prop :=
  ∀ (s : State) (m : Medium) (p : MctpPacket),
    ((s.addressed m p.dstEid = false ∨ 64 < p.payload.length ∨ (m = .smbus ∧ (p.pecOk = false ∨ p.slave ≠ s.smbusAddress))) → Becomes (.mctpPacket m p) s s) ∧
    (∀ others bs x, s.addressed m p.dstEid = true → p.payload.length ≤ 64 → (m = .smbus → p.pecOk = true ∧ p.slave = s.smbusAddress) →
      others = (s.medium m).parts.filter (fun y => !y.matches p) → bs = p.payload.map (· % 256) →
      (p.som = true → p.eom = false → others.length < 4 →
        Becomes (.mctpPacket m p) s
          (s.updMedium m (fun y => { y with
            parts := others ++ [{ srcEid := p.srcEid, msgTag := p.msgTag, nextSeq := (p.pktSeq + 1) % 4, bytes := bs }] }))) ∧
      (p.som = true → p.eom = true → others.length < 4 →
        Becomes (.mctpPacket m p) s ((s.updMedium m (fun y => { y with parts := others })).messageDone m { srcEid := p.srcEid, bytes := bs })) ∧
      (p.som = true → 4 ≤ others.length → Becomes (.mctpPacket m p) s (s.updMedium m (fun y => { y with parts := others }))) ∧
      (p.som = false → (s.medium m).parts.find? (fun y => y.matches p) = none → Becomes (.mctpPacket m p) s s) ∧
      (p.som = false → (s.medium m).parts.find? (fun y => y.matches p) = some x →
        ((x.nextSeq % 4 ≠ p.pktSeq % 4 ∨ 1024 < (x.bytes ++ bs).length) →
          Becomes (.mctpPacket m p) s (s.updMedium m (fun y => { y with parts := others }))) ∧
        (x.nextSeq % 4 = p.pktSeq % 4 → (x.bytes ++ bs).length ≤ 1024 → p.eom = true →
          Becomes (.mctpPacket m p) s ((s.updMedium m (fun y => { y with parts := others })).messageDone m { srcEid := p.srcEid, bytes := x.bytes ++ bs })) ∧
        (x.nextSeq % 4 = p.pktSeq % 4 → (x.bytes ++ bs).length ≤ 1024 → p.eom = false →
          Becomes (.mctpPacket m p) s
            (s.updMedium m (fun y => { y with parts := others ++ [{ x with nextSeq := (p.pktSeq + 1) % 4, bytes := x.bytes ++ bs }] }))))) ∧
    (∀ x : Message, (1 < x.byte 0 % 128 ∨ x.byte 1 < 128) → s.messageDone m x = s) ∧
    (∀ x : Message, x.bytes ≠ [] → x.byte 0 % 128 ≤ 1 → 128 ≤ x.byte 1 → x.error = none → (s.medium m).messages = [] →
      (s.messageDone m x).medium m = { s.medium m with messages := [x] }) ∧
    (∀ x : Message, x.byte 0 % 128 = 1 → x.byte 2 % 64 ≠ 0 → x.byte 2 % 64 ≠ 2 → x.error = some mgmtPldmType) ∧
    ((s.endpointRuns = false ∨ s.mgmt.sent.any MgmtSent.onSmbus = false) → ∀ lost, Becomes (.smbusRetry lost) s s) ∧
    (s.endpointRuns = true → s.mgmt.sent.any MgmtSent.onSmbus = true →
      Becomes (.smbusRetry false) s (s.updMedium .smbus (fun y => { y with retries := 0 })) ∧
      ((s.medium .smbus).retries = 0 → Becomes (.smbusRetry true) s (s.updMedium .smbus (fun y => { y with retries := 1 }))) ∧
      (∀ t, (s.medium .smbus).retries ≠ 0 → t = s.updMedium .smbus (fun y => { y with retries := 0 }) →
        Becomes (.smbusRetry true) s { t with mgmt := { t.mgmt with sent := dropNewest t.mgmt.sent } })) ∧
    (s.endpointRuns = true → Becomes .smbusBusTimeout s (s.updMedium .smbus (fun y => { y with retries := 0 }))) ∧
    (s.endpointRuns = false → Becomes .smbusBusTimeout s s)

/-- INSTRUCTION_UPDATE sets the instruction and the boundary register and no other state; opcodes 0 to 3 are EXTEST, SAMPLE/PRELOAD, HIGHZ and CLAMP, every other selects BYPASS, as TEST_LOGIC_RESET does. Under EXTEST and CLAMP an enable cell of 1 drives the pin with its output cell, an OD pin is only pulled low; under HIGHZ the driven pins are high-impedance; under SAMPLE/PRELOAD and BYPASS every pin has its function. Without VDD_AON and VDD_IO every pin is high-impedance and no update takes effect (the model's reading, log 92). The block then settles. -/
def Obligations.TapRowsAct : Prop :=
  ∀ (s : State),
    (∀ code cells, s.endpointRuns = true →
      Becomes (.instructionUpdate code cells) s { s with pins := { instr := jtagOf (code % 256), cells := cells % 2 ^ 156 } }) ∧
    (∀ code cells, s.endpointRuns = false → Becomes (.instructionUpdate code cells) s s) ∧
    Becomes .testLogicReset s { s with pins := { s.pins with instr := .bypass } } ∧
    (jtagOf 0 = .extest ∧ jtagOf 1 = .sample ∧ jtagOf 2 = .highz ∧ jtagOf 3 = .clamp ∧ ∀ c, 3 < c → jtagOf c = .bypass) ∧
    (∀ x, s.endpointRuns = false → s.pin x = .highZ) ∧
    (∀ x, s.endpointRuns = true → (s.pins.instr = .bypass ∨ s.pins.instr = .sample) → s.pin x = s.functional x) ∧
    (∀ x, s.endpointRuns = true → s.pins.instr = .highz → x.outputCell.isSome = true → s.pin x = .highZ) ∧
    (∀ x k, s.endpointRuns = true → (s.pins.instr = .extest ∨ s.pins.instr = .clamp) → x.outputCell = some k →
      (x.openDrain = false → flag s.pins.cells (x.cell + k + 1) = true →
        s.pin x = if flag s.pins.cells (x.cell + k) = true then .high else .low) ∧
      (x.openDrain = false → flag s.pins.cells (x.cell + k + 1) = false → s.pin x = .highZ) ∧
      (x.openDrain = true → (s.pin x = .low ↔ flag s.pins.cells (x.cell + k + 1) = true ∧ flag s.pins.cells (x.cell + k) = false))) ∧
    (s.power.tripped = true → s.functional .thermTrip = .low) ∧
    (s.boot.stage ≠ .ready → ∀ t, s.functional (.tdmBclk t) = .low ∧ s.functional (.tdmFs t) = .low ∧ s.functional (.tdmDout t) = .low)

/-- For every command c and state s, a step of s with c in front of a queue is exec of c on s with the rest of that queue waiting. The queue is the model's: commands are taken in their order of arrival. -/
def Obligations.StepRunsFrontCommand : Prop :=
  ∀ (c : Instr) (rest : List Instr) (s : State), step { s with pending := c :: rest } = exec c { s with pending := rest }

/-- A step with an empty queue adds one to DT, modulo 2^64, and changes nothing else; while a reset holds the device nothing changes. That the empty queue is where a tick passes is the model's choice (log 1). -/
def Obligations.EmptyQueueTicks : Prop :=
  ∀ (s : State), s.pending = [] →
    (s.boot.inReset = false → step s = .next { s with dt := (s.dt + 1) % 2 ^ 64 }) ∧ (s.boot.inReset = true → step s = .next s)

/-- State.reset is the end of a cold reset: DT zero, the cause POWER_ON, stage ROM, no fault; each host port DOWN_RESET with its mailbox free and no ring, aperture, event, violation or command; no model, pipeline, stream, branch, retirement, request or journal entry; device memory reads zero everywhere; no endpoint ID, TID or event receiver; the TAP in BYPASS. The contents of the boot flash are the model's, as R603 installs a first image. -/
def Obligations.ResetState : Prop :=
  State.reset.pending = [] ∧ State.reset.dt = 0 ∧ State.reset.boot.stage = .rom ∧ State.reset.boot.cause = .powerOn ∧ State.reset.boot.fatal = none ∧
    State.reset.boot.inReset = false ∧ State.reset.power.tripped = false ∧
    (∀ n, (State.reset.port n).link = .downReset ∧ (State.reset.port n).fwState = 1 ∧ (State.reset.port n).mbx.busy = false ∧ (State.reset.port n).mbx.done = false ∧
      (State.reset.port n).accepted = [] ∧ (State.reset.port n).eventSeq = 0 ∧ (∀ i, (State.reset.port n).aperture i = none) ∧
      (∀ k, ((State.reset.port n).pair k).live = false) ∧ (State.reset.port n).events.live = false ∧ (State.reset.port n).reachable = false) ∧
    (∀ h, (State.reset.stream h).state = .closed) ∧ (∀ h, (State.reset.branch h).state = .absent) ∧
    State.reset.models = [] ∧ State.reset.pipes = [] ∧ State.reset.ops = [] ∧ State.reset.tiles = [] ∧
    State.reset.journal.entries = [] ∧ State.reset.journal.next = 0 ∧ (∀ a, State.reset.mem.byte a = 0#8) ∧
    (∀ m, (State.reset.medium m).eid = 0) ∧ State.reset.mgmt.tid = 0 ∧ State.reset.mgmt.receiver = none ∧ State.reset.pins.instr = .bypass

/-- State.reset has an operating point within R567 and R562, canonical stores and tables, a journal and a power history within their bounds, a boundary register of 156 cells and a DT of 64 bits. -/
def Obligations.ResetMeetsInvariant : Prop :=
  Inv State.reset

/-- Whatever command is at the front, and on an empty queue too: the operating point stays within its divisors, pace and ceiling, a raise leads to a divisor between the ceiling and the one in force, the regulator target stays within 600 to 800 mV; device memory, the tile stores, the burst errors and every table of the state stay canonical; the journal holds at most 4,096 entries, the power history 1,000 windows, the boundary register 156 cells, DT 64 bits. -/
def Obligations.EveryStepKeepsInvariant : Prop :=
  ∀ (s t : State), Inv s → step s = .next t → Inv t

/-- No row ends in a fault or a refusal, whatever the state and its operands, and no row adds, drops or reorders a waiting command: the queue is the sender's alone. -/
def Obligations.EveryRowAnswers : Prop :=
  ∀ (i : Instr) (s : State), ∃ t, exec i s = .next t ∧ t.pending = s.pending

/-- In every state that meets the machine's invariant, and after every step from it, the TCLK divisor d is 4, 5 or 6, the pace p is 0 to 7 and non-zero only at d = 6, and d is never less than the ceiling. The ceiling is what Table 15-4 gives for the cap in force, 4 for 675 W and 700 W (27, 28), 5 for 500 W to 650 W (20 to 26), 6 for 350 W to 475 W (14 to 19), or 6 once the regulator is faulted (R564). -/
def Obligations.GovernorHoldsItsPoint : Prop :=
  (∀ (s t : State), Inv s → (t = s ∨ step s = .next t) →
    (t.power.divisor = 4 ∨ t.power.divisor = 5 ∨ t.power.divisor = 6) ∧ t.power.pace ≤ 7 ∧ (t.power.pace ≠ 0 → t.power.divisor = 6) ∧
      t.power.ceiling ≤ t.power.divisor) ∧
  (∀ p : Power,
    (p.avs.faulted = true → p.ceiling = 6) ∧
    (p.avs.faulted = false → (p.cap = 27 ∨ p.cap = 28) → p.ceiling = 4) ∧
    (p.avs.faulted = false → 20 ≤ p.cap → p.cap ≤ 26 → p.ceiling = 5) ∧
    (p.avs.faulted = false → 14 ≤ p.cap → p.cap ≤ 19 → p.ceiling = 6))

/-- While FW_STATE is not READY, at a port its host reaches: with BUSY and DONE at 0, a write to the inbound area of 4 or 8 aligned bytes stores them and changes nothing else; GO changes nothing: the mailbox, BUSY and DONE with it, and the violation log stay as they are. The sensors are then evaluated. -/
def Obligations.MailboxBeforeReady : Prop :=
  ∀ (s : State) (n : Nat), Quiet s → Table.sortedFrom 0 s.ports = true → (s.port n).reachable = true → (s.port n).fwState ≠ 2 →
    (∀ off size value, (s.port n).mbx.busy = false → (s.port n).mbx.done = false → sizeOk off size = true → 0x1000 ≤ off → off < 0x1100 →
      ∃ t, Leaves (.inboundWrite n off size value) s t ∧
        t = s.updPort n (fun p => { p with mbx := { p.mbx with inbound := putBytes p.mbx.inbound (off - 0x1000) size value } }) ∧
        (t.port n).vlog = (s.port n).vlog ∧ (t.port n).mbx.busy = false ∧ (t.port n).mbx.done = false) ∧
    (∀ ext data, ∃ t, exec (.go n ext data) s = .next t ∧ t = s.watchSensors ∧ t.ports = s.ports ∧
      (t.port n).vlog = (s.port n).vlog ∧ (t.port n).mbx = (s.port n).mbx)

/-- For 32-bit deadlines a and b with d = (a - b) mod 2^32, a is later than b exactly when d is 1 to 2^31 - 1, earlier exactly when d is at least 2^31, and equal exactly when d is 0; so of later, earlier and equal exactly one holds. -/
def Obligations.DeadlinesCompareModulo : Prop :=
  ∀ (a b : Nat), a < 2 ^ 32 → b < 2 ^ 32 → ∀ d, d = (a + (2 ^ 32 - b)) % 2 ^ 32 →
    (later32 a b = true ↔ 1 ≤ d ∧ d ≤ 2 ^ 31 - 1) ∧ (earlier32 a b = true ↔ 2 ^ 31 ≤ d) ∧ (a = b ↔ d = 0) ∧
    (later32 a b = true → earlier32 a b = false ∧ a ≠ b) ∧ (earlier32 a b = true → a ≠ b)

/-- GO in a quiet device at a free mailbox of a READY port takes the message in the inbound area; where its VERSION is not 1 it answers HEADER_VERSION, else where no opcode of the firmware OPCODE_UNKNOWN, else where LENGTH is above its channel's limit or not the one required LENGTH_INVALID, else where a reserved flag is set ARG_RESERVED with DETAIL 2, else where a command without a handle names one ARG_RESERVED with DETAIL 8. The command counts as accepted; besides the response nothing changes but the sensors' evaluation. -/
def Obligations.HeaderFailuresAnswerInOrder : Prop :=
  ∀ (s : State) (n : Nat) (ext : Option Nat) (data : HostData) (c : Call), n < 4 → Quiet s → Table.sortedFrom 0 s.ports = true →
    (s.port n).reachable = true → (s.port n).fwState = 2 → (s.port n).mbx.busy = false → (s.port n).mbx.done = false →
    c = Call.ofBytes n .mailbox (s.port n).mbx.inbound ext data →
    (c.version ≠ 1 → EndsAtOnce s n ext data c { status := 0x0101 }) ∧
    (c.version = 1 → cmdSpec c.opcode = none → EndsAtOnce s n ext data c { status := 0x0102 }) ∧
    (∀ d, c.version = 1 → cmdSpec c.opcode = some d →
      ((lengthLimit c < c.length ∨ c.length ≠ d.length) → EndsAtOnce s n ext data c { status := 0x0103 }) ∧
      (c.length ≤ lengthLimit c → c.length = d.length → c.resFlags ≠ 0 → EndsAtOnce s n ext data c { status := 0x0201, detail := 2 }) ∧
      (c.length ≤ lengthLimit c → c.length = d.length → c.resFlags = 0 → d.noHandle = true → c.handle ≠ 0 →
        EndsAtOnce s n ext data c { status := 0x0201, detail := 8 }))

/-- In a quiet device, every row of chapter 18 (a packet, each control and PLDM request, an acknowledgement, a retry, a timer) leaves every field of the state but the endpoint's own as it was: no stream, branch, model, pipeline, partition, quota, cap, port, image, site, journal, memory or pin changes. -/
def Obligations.ManagementChangesOnlyItsEndpoint : Prop :=
  ∀ (i : Instr) (s : State), managementRow i = true → Quiet s → ∃ m, exec i s = .next { s with mgmt := m }

/-- For every Lerad row: on a ring pair from which the device may read, the next pending entry is the command: SQ_HEAD advances by one entry and the command is accepted, and where READY is not reached, the pair may not be read (R448, R449) or an earlier read is under way, nothing is taken. Through the mailbox of a port its host reaches: where it is free the message is written to the inbound area, and GO takes it from READY on; where it is busy or done, the violation MBX_BUSY is recorded and nothing is taken. An admin-only command on a ring completes with ADMIN_ONLY. The block then settles. -/
def Obligations.LeradMessagesAreTaken : Prop :=
  ∀ (i : Instr) (s : State) (c : Call) (op : Nat), leradRow i = some (c, op) → Table.sortedFrom 0 s.ports = true →
    (∀ k, c.chan = .pair k →
      ((s.port c.port).fwState = 2 → (s.port c.port).mayRead k = true → ((s.port c.port).pair k).reading = 0 →
        Becomes i s
          ((s.updPort c.port (fun p => p.setPair k { p.pair k with sqHead := ((p.pair k).sqHead + 1) % 2 ^ (p.pair k).sqLog })).accept { c with opcode := op })) ∧
      (((s.port c.port).fwState ≠ 2 ∨ (s.port c.port).mayRead k = false ∨ 0 < ((s.port c.port).pair k).reading) → Becomes i s s) ∧
      (∀ d, c.version = 1 → cmdSpec op = some d → c.length ≤ lengthLimit c → c.length = d.length → c.resFlags = 0 →
        (d.noHandle = true → c.handle = 0) → d.admin = true → headerCheck { c with opcode := op } = some { status := 0x0105 })) ∧
    (c.chan = .mailbox → (s.port c.port).reachable = false → Becomes i s s) ∧
    (c.chan = .mailbox → (s.port c.port).reachable = true → ((s.port c.port).mbx.busy = true ∨ (s.port c.port).mbx.done = true) →
      ((s.port c.port).fwState = 2 → Becomes i s (s.violate c.port 8 .mmio true 0x1200 0 0)) ∧ ((s.port c.port).fwState ≠ 2 → Becomes i s s)) ∧
    (({ c with opcode := op } : Call).wellFormed = true → c.chan = .mailbox → (s.port c.port).reachable = true →
      (s.port c.port).mbx.busy = false → (s.port c.port).mbx.done = false →
      ((s.port c.port).fwState = 2 →
        Becomes i s ((s.updPort c.port (fun p => { p with mbx := { p.mbx with inbound := callMessage { c with opcode := op }, busy := true } })).accept
          { c with opcode := op })) ∧
      ((s.port c.port).fwState ≠ 2 →
        Becomes i s (s.updPort c.port (fun p => { p with mbx := { p.mbx with inbound := callMessage { c with opcode := op } } }))))
end

