-- ==== Sys2Proof/Laws/Bits.lean ====
section
/-!
SUPPORT. Laws/Bits.lean: fields of packed records.
-/
namespace Sys2Proof.Machine

/-- The first field of a record. -/
theorem field_pack_first (w v : Nat) (rest : List (Nat × Nat)) : field (pack ((w, v) :: rest)) 0 w = v % 2 ^ w := by
  simp only [field, pack, pow_zero, Nat.div_one]
  rw [Nat.add_mul_mod_self_left, Nat.mod_mod]

/-- A field beyond the first. -/
theorem field_pack_next (w v lo k : Nat) (rest : List (Nat × Nat)) : field (pack ((w, v) :: rest)) (w + lo) k = field (pack rest) lo k := by
  have h : pack ((w, v) :: rest) / 2 ^ w = pack rest := by
    simp only [pack]
    rw [Nat.add_mul_div_left _ _ (Nat.two_pow_pos w), Nat.div_eq_of_lt (Nat.mod_lt _ (Nat.two_pow_pos w)), Nat.zero_add]
  simp only [field]
  rw [pow_add, ← Nat.div_div_eq_div_mul, h]

/-- What stands above the first field. -/
theorem pack_div (w v n : Nat) (rest : List (Nat × Nat)) : pack ((w, v) :: rest) / 2 ^ (w + n) = pack rest / 2 ^ n := by
  have h := field_pack_next w v n
  simp only [pack]
  rw [pow_add, ← Nat.div_div_eq_div_mul, Nat.add_mul_div_left _ _ (Nat.two_pow_pos w), Nat.div_eq_of_lt (Nat.mod_lt _ (Nat.two_pow_pos w)),
    Nat.zero_add]

/-- A one-bit field holds a truth value. -/
theorem flag_pack_first (b : Bool) (rest : List (Nat × Nat)) : flag (pack ((1, bit b) :: rest)) 0 = b := by
  unfold flag
  rw [field_pack_first]
  cases b <;> rfl

theorem flag_pack_next (w v lo : Nat) (rest : List (Nat × Nat)) : flag (pack ((w, v) :: rest)) (w + lo) = flag (pack rest) lo := by
  unfold flag
  rw [field_pack_next]

end Sys2Proof.Machine
end

