-- ==== Sys2Proof/Laws/Table.lean ====
section
/-!
SUPPORT. Laws/Table.lean: what the operations on sparse tables do: read after write, other keys untouched, the canonical form kept.
-/
namespace Sys2Proof.Machine.Table

variable {α : Type}

/-! ## Sortedness -/

theorem sortedFrom_mono {lo hi : Nat} (h : hi ≤ lo) : ∀ {t : Table α}, sortedFrom lo t = true → sortedFrom hi t = true
  | [], _ => rfl
  | (j, _) :: _, ht => by
    simp only [sortedFrom, Bool.and_eq_true, decide_eq_true_eq] at ht ⊢
    exact ⟨by omega, ht.2⟩

/-- Below its least key a sorted table reads as the default. -/
theorem get_below {d : α} {k : Nat} : ∀ {t : Table α} {lo : Nat}, sortedFrom lo t = true → k < lo → get d t k = d
  | [], _, _, _ => rfl
  | (j, _) :: _, lo, ht, hk => by
    simp only [sortedFrom, Bool.and_eq_true, decide_eq_true_eq] at ht
    simp only [get]
    rw [if_neg (by omega), if_pos (by omega)]

theorem sortedFrom_erase {k : Nat} : ∀ {t : Table α} {lo : Nat}, sortedFrom lo t = true → sortedFrom lo (erase t k) = true
  | [], _, _ => rfl
  | (j, v) :: rest, lo, ht => by
    simp only [sortedFrom, Bool.and_eq_true, decide_eq_true_eq] at ht
    simp only [erase]
    split
    · exact sortedFrom_mono (by omega) ht.2
    · split
      · simp only [sortedFrom, Bool.and_eq_true, decide_eq_true_eq]; exact ht
      · simp only [sortedFrom, Bool.and_eq_true, decide_eq_true_eq]; exact ⟨ht.1, sortedFrom_erase ht.2⟩

theorem sortedFrom_insert {k : Nat} {w : α} :
    ∀ {t : Table α} {lo : Nat}, sortedFrom lo t = true → lo ≤ k → sortedFrom lo (insert t k w) = true
  | [], lo, _, hk => by simpa [insert, sortedFrom] using hk
  | (j, v) :: rest, lo, ht, hk => by
    simp only [sortedFrom, Bool.and_eq_true, decide_eq_true_eq] at ht
    simp only [insert]
    split
    · next h => subst h; simp only [sortedFrom, Bool.and_eq_true, decide_eq_true_eq]; exact ht
    · split
      · simp only [sortedFrom, Bool.and_eq_true, decide_eq_true_eq]; exact ⟨hk, by omega, ht.2⟩
      · simp only [sortedFrom, Bool.and_eq_true, decide_eq_true_eq]
        exact ⟨ht.1, sortedFrom_insert ht.2 (by omega)⟩

/-- A write keeps the keys rising. -/
theorem sorted_set [DecidableEq α] {d : α} {t : Table α} (h : sortedFrom 0 t = true) (k : Nat) (v : α) :
    sortedFrom 0 (set d t k v) = true := by
  unfold set
  split
  · exact sortedFrom_erase h
  · exact sortedFrom_insert h (Nat.zero_le k)

/-! ## Read after write -/

theorem get_insert_same {d w : α} {k : Nat} : ∀ (t : Table α), get d (insert t k w) k = w
  | [] => by simp [insert, get]
  | (j, v) :: rest => by
    simp only [insert]
    split
    · simp [get]
    · split
      · simp [get]
      · next h1 h2 => simp only [get, if_neg h1, if_neg h2]; exact get_insert_same rest

theorem get_insert_other {d w : α} {k q : Nat} (hq : q ≠ k) : ∀ (t : Table α), get d (insert t k w) q = get d t q
  | [] => by simp [insert, get, Ne.symm hq]
  | (j, v) :: rest => by
    simp only [insert]
    split
    · next h => subst h; simp only [get, if_neg (Ne.symm hq)]
    · split
      · next h1 h2 =>
        simp only [get, if_neg (Ne.symm hq)]
        split
        · next h3 => rw [if_neg (by omega), if_pos (by omega)]
        · rfl
      · simp only [get]; rw [get_insert_other hq rest]

theorem get_erase_same {d : α} {k : Nat} : ∀ {t : Table α} {lo : Nat}, sortedFrom lo t = true → get d (erase t k) k = d
  | [], _, _ => rfl
  | (j, v) :: rest, lo, ht => by
    simp only [sortedFrom, Bool.and_eq_true, decide_eq_true_eq] at ht
    simp only [erase]
    split
    · next h => subst h; exact get_below ht.2 (by omega)
    · split
      · next h1 h2 => simp only [get, if_neg h1, if_pos h2]
      · next h1 h2 => simp only [get, if_neg h1, if_neg h2]; exact get_erase_same ht.2

theorem get_erase_other {d : α} {k q : Nat} (hq : q ≠ k) :
    ∀ {t : Table α} {lo : Nat}, sortedFrom lo t = true → get d (erase t k) q = get d t q
  | [], _, _ => rfl
  | (j, v) :: rest, lo, ht => by
    simp only [sortedFrom, Bool.and_eq_true, decide_eq_true_eq] at ht
    simp only [erase]
    split
    · next h =>
      subst h
      simp only [get, if_neg (Ne.symm hq)]
      split
      · exact get_below ht.2 (by omega)
      · rfl
    · split
      · rfl
      · simp only [get]; rw [get_erase_other hq ht.2]

/-- Reading back what was written. -/
theorem get_set_same [DecidableEq α] {d : α} {t : Table α} (h : sortedFrom 0 t = true) (k : Nat) (v : α) : get d (set d t k v) k = v := by
  unfold set
  split
  · next e => rw [e]; exact get_erase_same h
  · exact get_insert_same t

/-- Reading back a value other than the default needs no order. -/
theorem get_set_ne [DecidableEq α] {d : α} (t : Table α) (k : Nat) {v : α} (hv : v ≠ d) : get d (set d t k v) k = v := by
  unfold set
  rw [if_neg hv]
  exact get_insert_same t

/-- A write leaves every other key alone. -/
theorem get_set_other [DecidableEq α] {d : α} {t : Table α} (h : sortedFrom 0 t = true) {k q : Nat} (hq : q ≠ k) (v : α) :
    get d (set d t k v) q = get d t q := by
  unfold set
  split
  · exact get_erase_other hq h
  · exact get_insert_other hq t

theorem insert_insert {k : Nat} {a b : α} : ∀ (t : Table α), insert (insert t k a) k b = insert t k b
  | [] => by simp [insert]
  | (j, v) :: rest => by
    simp only [insert]
    split
    · simp [insert]
    · split
      · simp [insert]
      · next h1 h2 => simp only [insert, if_neg h1, if_neg h2]; rw [insert_insert rest]

theorem erase_insert {k : Nat} {a : α} : ∀ {t : Table α} {lo : Nat}, sortedFrom lo t = true → erase (insert t k a) k = erase t k
  | [], _, _ => by simp [insert, erase]
  | (j, v) :: rest, lo, ht => by
    simp only [sortedFrom, Bool.and_eq_true, decide_eq_true_eq] at ht
    simp only [insert]
    split
    · next h => subst h; simp [erase]
    · split
      · next h1 h2 => simp [erase, h1, h2]
      · next h1 h2 => simp only [erase, if_neg h1, if_neg h2]; rw [erase_insert ht.2]

theorem insert_erase {k : Nat} {a : α} : ∀ {t : Table α} {lo : Nat}, sortedFrom lo t = true → insert (erase t k) k a = insert t k a
  | [], _, _ => by simp [insert, erase]
  | (j, v) :: rest, lo, ht => by
    simp only [sortedFrom, Bool.and_eq_true, decide_eq_true_eq] at ht
    simp only [erase]
    split
    · next h =>
      subst h
      simp only [insert, if_true]
      match rest, ht.2 with
      | [], _ => simp [insert]
      | (i, w) :: r2, h2 =>
        simp only [sortedFrom, Bool.and_eq_true, decide_eq_true_eq] at h2
        simp only [insert]
        rw [if_neg (by omega), if_pos (by omega)]
    · split
      · rfl
      · next h1 h2 => simp only [insert, if_neg h1, if_neg h2]; rw [insert_erase ht.2]

theorem erase_erase {k : Nat} : ∀ {t : Table α} {lo : Nat}, sortedFrom lo t = true → erase (erase t k) k = erase t k
  | [], _, _ => rfl
  | (j, v) :: rest, lo, ht => by
    simp only [sortedFrom, Bool.and_eq_true, decide_eq_true_eq] at ht
    simp only [erase]
    split
    · next h =>
      subst h
      match rest, ht.2 with
      | [], _ => rfl
      | (i, w) :: r2, h2 =>
        simp only [sortedFrom, Bool.and_eq_true, decide_eq_true_eq] at h2
        simp only [erase]
        rw [if_neg (by omega), if_pos (by omega)]
    · split
      · next h1 h2 => simp only [erase, if_neg h1, if_pos h2]
      · next h1 h2 => simp only [erase, if_neg h1, if_neg h2]; rw [erase_erase ht.2]

/-- The second of two writes at one key counts. -/
theorem set_set [DecidableEq α] {d : α} {t : Table α} (h : sortedFrom 0 t = true) (k : Nat) (a b : α) : set d (set d t k a) k b = set d t k b := by
  unfold set
  by_cases ha : a = d <;> by_cases hb : b = d <;> simp only [ha, hb, if_true, if_false]
  · exact erase_erase h
  · exact insert_erase h
  · exact erase_insert h
  · exact insert_insert t

/-! ## The canonical form -/

theorem mem_erase {k : Nat} : ∀ {t : Table α} {e : Nat × α}, e ∈ erase t k → e ∈ t
  | (j, v) :: rest, e, h => by
    simp only [erase] at h
    split at h
    · exact List.mem_cons_of_mem _ h
    · split at h
      · exact h
      · rcases List.mem_cons.1 h with h | h
        · exact List.mem_cons.2 (Or.inl h)
        · exact List.mem_cons_of_mem _ (mem_erase h)

theorem mem_insert {k : Nat} {w : α} : ∀ {t : Table α} {e : Nat × α}, e ∈ insert t k w → e = (k, w) ∨ e ∈ t
  | [], e, h => by simpa [insert] using h
  | (j, v) :: rest, e, h => by
    simp only [insert] at h
    split at h
    · rcases List.mem_cons.1 h with h | h
      · exact Or.inl h
      · exact Or.inr (List.mem_cons_of_mem _ h)
    · split at h
      · rcases List.mem_cons.1 h with h | h
        · exact Or.inl h
        · exact Or.inr h
      · rcases List.mem_cons.1 h with h | h
        · exact Or.inr (List.mem_cons.2 (Or.inl h))
        · rcases mem_insert h with h | h
          · exact Or.inl h
          · exact Or.inr (List.mem_cons_of_mem _ h)

theorem wf_iff [DecidableEq α] {d : α} {t : Table α} : wf d t = true ↔ sortedFrom 0 t = true ∧ ∀ e ∈ t, e.2 ≠ d := by
  simp [wf, List.all_eq_true]

/-- A write keeps the canonical form. -/
theorem wf_set [DecidableEq α] {d : α} {t : Table α} (h : wf d t = true) (k : Nat) (v : α) : wf d (set d t k v) = true := by
  rw [wf_iff] at h ⊢
  refine ⟨sorted_set h.1 k v, fun e he => ?_⟩
  unfold set at he
  split at he
  · exact h.2 e (mem_erase he)
  · next hv =>
    rcases mem_insert he with rfl | he
    · exact hv
    · exact h.2 e he

theorem sortedFrom_filter (p : Nat × α → Bool) : ∀ {t : Table α} {lo : Nat}, sortedFrom lo t = true → sortedFrom lo (t.filter p) = true
  | [], _, _ => rfl
  | (j, v) :: rest, lo, ht => by
    simp only [sortedFrom, Bool.and_eq_true, decide_eq_true_eq] at ht
    rw [List.filter_cons]
    split
    · simp only [sortedFrom, Bool.and_eq_true, decide_eq_true_eq]; exact ⟨ht.1, sortedFrom_filter p ht.2⟩
    · exact sortedFrom_mono (by omega) (sortedFrom_filter p ht.2)

/-- Clearing keys keeps the canonical form. -/
theorem wf_clear [DecidableEq α] {d : α} {t : Table α} (h : wf d t = true) (p : Nat → Bool) : wf d (clear p t) = true := by
  rw [wf_iff] at h ⊢
  exact ⟨sortedFrom_filter _ h.1, fun e he => h.2 e (List.mem_filter.1 he).1⟩

theorem sorted_clear {t : Table α} (h : sortedFrom 0 t = true) (p : Nat → Bool) : sortedFrom 0 (clear p t) = true := sortedFrom_filter _ h

/-- The empty table has the canonical form. -/
theorem mapVals_cons [DecidableEq α] (d : α) (f : Nat → α → α) (e : Nat × α) (t : Table α) :
    mapVals d f (e :: t) = if f e.1 e.2 = d then mapVals d f t else (e.1, f e.1 e.2) :: mapVals d f t := by
  unfold mapVals
  rw [List.map_cons, List.filter_cons]
  by_cases h : f e.1 e.2 = d <;> simp [h]

theorem sortedFrom_mapVals [DecidableEq α] (d : α) (f : Nat → α → α) :
    ∀ {t : Table α} {lo : Nat}, sortedFrom lo t = true → sortedFrom lo (mapVals d f t) = true
  | [], _, _ => rfl
  | e :: t, lo, h => by
    obtain ⟨k, v⟩ := e
    unfold sortedFrom at h
    rw [Bool.and_eq_true, decide_eq_true_eq] at h
    have ih := sortedFrom_mapVals d f h.2
    rw [mapVals_cons]
    split
    · exact sortedFrom_mono (by omega) ih
    · unfold sortedFrom
      rw [ih]
      simp [h.1]

theorem wf_mapVals [DecidableEq α] {d : α} {t : Table α} (h : wf d t = true) (f : Nat → α → α) : wf d (mapVals d f t) = true := by
  rw [wf_iff] at *
  refine ⟨sortedFrom_mapVals d f h.1, ?_⟩
  intro e he
  unfold mapVals at he
  rw [List.mem_filter] at he
  simpa using he.2

@[simp] theorem wf_nil [DecidableEq α] (d : α) : wf d ([] : Table α) = true := rfl

end Sys2Proof.Machine.Table
end

