-- ==== Sys2Proof/Laws/Governor.lean ====
section
/-!
SUPPORT. Laws/Governor.lean: that every change of the power state keeps the operating point of R567, the clamp of R562 and the length of the power history.
-/
namespace Sys2Proof.Machine

open Sys2Proof.Safety

/-- What a change of the power state keeps. -/
def PowerKeeps (p q : Power) : Prop :=
  (GovernorOk p → GovernorOk q) ∧ (p.history.length ≤ 1000 → q.history.length ≤ 1000) ∧ (Table.wf {} p.sensors = true → Table.wf {} q.sensors = true)

theorem PowerKeeps.trans {p q r : Power} (h : PowerKeeps p q) (g : PowerKeeps q r) : PowerKeeps p r :=
  ⟨fun a => g.1 (h.1 a), fun a => g.2.1 (h.2.1 a), fun a => g.2.2 (h.2.2 a)⟩

/-- A change outside the operating point, the history and the sensors. -/
theorem PowerKeeps.same {p q : Power} (h : q.divisor = p.divisor ∧ q.ceiling = p.ceiling ∧ q.pace = p.pace ∧ q.avs.raise = p.avs.raise ∧
    q.avs.target = p.avs.target) (hh : q.history = p.history) (hs : q.sensors = p.sensors) : PowerKeeps p q := by
  obtain ⟨a, b, c, d, e⟩ := h
  refine ⟨?_, by rw [hh]; exact id, by rw [hs]; exact id⟩
  unfold GovernorOk
  rw [a, b, c, d, e]
  exact id

theorem capCeiling_bounds (c : Nat) : 4 ≤ capCeiling c ∧ capCeiling c ≤ 6 := by
  unfold capCeiling
  split <;> [omega; (split <;> omega)]

theorem ceiling_bounds (p : Power) : 4 ≤ p.ceiling ∧ p.ceiling ≤ 6 := by
  unfold Power.ceiling
  split
  · omega
  · exact capCeiling_bounds _

theorem voltage_bounds (p : Power) (d : Nat) : 600 ≤ p.voltage d ∧ p.voltage d ≤ 800 := by
  unfold Power.voltage clampInt
  omega

/-- R562: a written target lies within the clamp, and nothing else of the operating point changes. -/
theorem writeTarget_target {p : Power} (h : 600 ≤ p.avs.target ∧ p.avs.target ≤ 800) (d : Nat) :
    600 ≤ (p.writeTarget d).avs.target ∧ (p.writeTarget d).avs.target ≤ 800 := by
  unfold Power.writeTarget
  split
  · exact h
  · exact voltage_bounds p d

@[simp] theorem writeTarget_divisor (p : Power) (d : Nat) : (p.writeTarget d).divisor = p.divisor := by unfold Power.writeTarget; split <;> rfl
@[simp] theorem writeTarget_pace (p : Power) (d : Nat) : (p.writeTarget d).pace = p.pace := by unfold Power.writeTarget; split <;> rfl
@[simp] theorem writeTarget_raise (p : Power) (d : Nat) : (p.writeTarget d).avs.raise = p.avs.raise := by unfold Power.writeTarget; split <;> rfl
@[simp] theorem writeTarget_faulted (p : Power) (d : Nat) : (p.writeTarget d).avs.faulted = p.avs.faulted := by unfold Power.writeTarget; split <;> rfl
@[simp] theorem writeTarget_cap (p : Power) (d : Nat) : (p.writeTarget d).cap = p.cap := by unfold Power.writeTarget; split <;> rfl
@[simp] theorem writeTarget_history (p : Power) (d : Nat) : (p.writeTarget d).history = p.history := by unfold Power.writeTarget; split <;> rfl
@[simp] theorem writeTarget_sensors (p : Power) (d : Nat) : (p.writeTarget d).sensors = p.sensors := by unfold Power.writeTarget; split <;> rfl

/-- The ceiling depends on the cap and on a regulator fault alone. -/
theorem ceiling_congr {p q : Power} (hf : q.avs.faulted = p.avs.faulted) (hc : q.cap = p.cap) : q.ceiling = p.ceiling := by
  unfold Power.ceiling
  rw [hf, hc]

theorem setDivisor_history (p : Power) (t d : Nat) : (p.setDivisor t d).history = p.history := by
  unfold Power.setDivisor
  split
  · rw [writeTarget_history]; rfl
  · exact writeTarget_history p d

theorem setDivisor_sensors (p : Power) (t d : Nat) : (p.setDivisor t d).sensors = p.sensors := by
  unfold Power.setDivisor
  split
  · rw [writeTarget_sensors]; rfl
  · exact writeTarget_sensors p d

/-- R563: a divider set to `d` gives an operating point within R567 where `d` does. -/
theorem setDivisor_ok {p : Power} (t : Nat) {d : Nat} (h4 : 4 ≤ p.divisor ∧ p.divisor ≤ 6) (hd : 4 ≤ d ∧ d ≤ 6) (hc : p.ceiling ≤ d) (h7 : p.pace ≤ 7)
    (hp : 0 < p.pace → d = 6) (ht : 600 ≤ p.avs.target ∧ p.avs.target ≤ 800) : GovernorOk (p.setDivisor t d) := by
  unfold Power.setDivisor
  split
  · rename_i hle
    have hceil : (({ p.countTo t with divisor := d, avs := { p.avs with raise := none } } : Power).writeTarget d).ceiling = p.ceiling :=
      ceiling_congr (by rw [writeTarget_faulted]) (by rw [writeTarget_cap]; rfl)
    have hraise : (({ p.countTo t with divisor := d, avs := { p.avs with raise := none } } : Power).writeTarget d).avs.raise = none := by rw [writeTarget_raise]
    refine ⟨?_, ?_, ?_, ?_, ?_, ?_, writeTarget_target (by exact ht) d⟩
    · rw [writeTarget_divisor]; exact hd.1
    · rw [writeTarget_divisor]; exact hd.2
    · rw [hceil, writeTarget_divisor]; exact hc
    · rw [writeTarget_pace]; exact h7
    · rw [writeTarget_pace, writeTarget_divisor, hraise]; exact fun h => ⟨hp h, rfl⟩
    · rw [hraise]; intro _ _ h; cases h
  · rename_i hle
    have hle : d < p.divisor := by omega
    have hceil : ({ p.writeTarget d with avs := { (p.writeTarget d).avs with raise := some (t, d) } } : Power).ceiling = p.ceiling :=
      ceiling_congr (writeTarget_faulted p d) (writeTarget_cap p d)
    have hpace : ¬ 0 < p.pace := fun h => by have := hp h; omega
    refine ⟨?_, ?_, ?_, ?_, ?_, ?_, writeTarget_target ht d⟩
    · show 4 ≤ (p.writeTarget d).divisor; rw [writeTarget_divisor]; exact h4.1
    · show (p.writeTarget d).divisor ≤ 6; rw [writeTarget_divisor]; exact h4.2
    · rw [hceil]; show p.ceiling ≤ (p.writeTarget d).divisor; rw [writeTarget_divisor]; omega
    · show (p.writeTarget d).pace ≤ 7; rw [writeTarget_pace]; exact h7
    · intro h; exact absurd (by rw [← writeTarget_pace p d]; exact h) hpace
    · intro a b h
      cases h
      rw [hceil]
      exact ⟨hc, by show d < (p.writeTarget d).divisor; rw [writeTarget_divisor]; exact hle⟩

/-- The divisor a raise leads to, or the one in force, lies within R567. -/
theorem point_bounds {p : Power} (h : GovernorOk p) : p.ceiling ≤ p.point ∧ p.point ≤ p.divisor ∧ (0 < p.pace → p.point = 6) := by
  obtain ⟨_, _, h3, _, h5, h6, _⟩ := h
  unfold Power.point
  split
  · rename_i t d e
    have := h6 t d e
    refine ⟨this.1, by omega, fun hp => ?_⟩
    rw [(h5 hp).2] at e
    cases e
  · exact ⟨h3, by omega, fun hp => (h5 hp).1⟩

theorem countTo_keeps (p : Power) (t : Nat) : PowerKeeps p (p.countTo t) := PowerKeeps.same ⟨rfl, rfl, rfl, rfl, rfl⟩ rfl rfl

theorem setDivisor_keeps (p : Power) (t d : Nat) (hd : GovernorOk p → 4 ≤ d ∧ d ≤ 6 ∧ p.ceiling ≤ d ∧ (0 < p.pace → d = 6)) :
    PowerKeeps p (p.setDivisor t d) := by
  refine ⟨fun h => ?_, by rw [setDivisor_history]; exact id, by rw [setDivisor_sensors]; exact id⟩
  obtain ⟨a, b, c, e⟩ := hd h
  exact setDivisor_ok t ⟨h.1, h.2.1⟩ ⟨a, b⟩ c h.2.2.2.1 e h.2.2.2.2.2.2

theorem finishRaise_keeps (p : Power) (t : Nat) : PowerKeeps p (p.finishRaise t) := by
  unfold Power.finishRaise
  split
  · exact ⟨id, id, id⟩
  · rename_i a d e
    refine ⟨fun ⟨h1, h2, h3, h4, h5, h6, h7⟩ => ?_, id, id⟩
    have hr := h6 a d e
    have hb := ceiling_bounds p
    have hp : ¬ 0 < p.pace := fun h => by rw [(h5 h).2] at e; cases e
    exact ⟨by show 4 ≤ d; omega, by show d ≤ 6; omega, hr.1, h4, fun h => absurd h hp, (fun _ _ h => by cases h), h7⟩

theorem stepDown_keeps (p : Power) (t : Nat) : PowerKeeps p (p.stepDown t) := by
  unfold Power.stepDown
  split
  · rename_i hlt
    refine setDivisor_keeps p t _ (fun h => ?_)
    have hb := point_bounds h
    have hc := ceiling_bounds p
    exact ⟨by omega, by omega, by omega, fun hp => by have := hb.2.2 hp; omega⟩
  · rename_i hlt
    refine ⟨fun h => ?_, id, id⟩
    have hb := point_bounds h
    obtain ⟨h1, h2, h3, h4, h5, h6, h7⟩ := h
    have hnone : p.avs.raise = none := by
      cases hr : p.avs.raise with
      | none => rfl
      | some x =>
        obtain ⟨a, d⟩ := x
        have := h6 a d hr
        have : p.point = d := by unfold Power.point; rw [hr]
        omega
    exact ⟨h1, h2, h3, Nat.min_le_left .., fun _ => ⟨by show p.divisor = 6; omega, hnone⟩, h6, h7⟩

theorem stepUp_keeps (p : Power) (t : Nat) : PowerKeeps p (p.stepUp t) := by
  unfold Power.stepUp
  split
  · rename_i hp
    refine ⟨fun ⟨h1, h2, h3, h4, h5, h6, h7⟩ => ?_, id, id⟩
    exact ⟨h1, h2, h3, by show p.pace - 1 ≤ 7; omega, fun _ => h5 hp, h6, h7⟩
  · split
    · refine setDivisor_keeps p t _ (fun h => ?_)
      have hb := point_bounds h
      have hc := ceiling_bounds p
      have := h.2.1
      exact ⟨by omega, by omega, by omega, fun hp => by omega⟩
    · exact ⟨id, id, id⟩

theorem wf_readings (dt : Nat) (readings : List Int) (ks : List Nat) : ∀ (t : Table Sensor), Table.wf {} t = true →
    Table.wf {} (ks.foldl (fun (t : Table Sensor) k =>
      match readings[k]? with
      | none => t
      | some v => Table.upd {} t k (fun (x : Sensor) => if (x.lastRecal.map (fun r => decide (dt < r + 1229))).getD false then x else { x with temp := v })) t) = true := by
  induction ks with
  | nil => exact fun _ h => h
  | cons k ks ih =>
    intro t h
    rw [List.foldl_cons]
    refine ih _ ?_
    split
    · exact h
    · exact Table.wf_set h _ _

theorem sample_keeps (p : Power) (t : Nat) (m : Measurement) : PowerKeeps p (p.sample t m) := by
  unfold Power.sample
  dsimp only
  split
  · exact ⟨id, id, fun h => wf_readings t m.sensors _ _ h⟩
  · exact ⟨fun ⟨h1, h2, h3, h4, h5, h6, h7⟩ => ⟨h1, h2, h3, h4, h5, h6, h7⟩, id, fun h => wf_readings t m.sensors _ _ h⟩

theorem measure_keeps (p : Power) (t : Nat) (m : Measurement) : PowerKeeps p (p.measure t m) := by
  have hs := sample_keeps p t m
  unfold Power.measure
  exact ⟨fun h => hs.1 h, fun _ => by show (List.take 1000 _).length ≤ 1000; rw [List.length_take]; exact Nat.min_le_left .., fun h => hs.2.2 h⟩

/-- R562: a trim, and the target of a divisor written with it. -/
theorem trim_keeps (p : Power) (trim : Int) (t d : Nat) :
    PowerKeeps p (({ p with avs := { p.avs with trim := trim, lastTrim := some t } } : Power).writeTarget d) := by
  refine ⟨fun ⟨h1, h2, h3, h4, h5, h6, h7⟩ => ?_, ?_, ?_⟩
  · have hc : (({ p with avs := { p.avs with trim := trim, lastTrim := some t } } : Power).writeTarget d).ceiling = p.ceiling :=
      ceiling_congr (writeTarget_faulted _ _) (writeTarget_cap _ _)
    refine ⟨?_, ?_, ?_, ?_, ?_, ?_, writeTarget_target (by exact h7) d⟩
    · rw [writeTarget_divisor]; exact h1
    · rw [writeTarget_divisor]; exact h2
    · rw [hc, writeTarget_divisor]; exact h3
    · rw [writeTarget_pace]; exact h4
    · rw [writeTarget_pace, writeTarget_divisor, writeTarget_raise]; exact h5
    · rw [hc, writeTarget_divisor, writeTarget_raise]; exact h6
  · rw [writeTarget_history]; exact id
  · rw [writeTarget_sensors]; exact id

/-- R573: the operating point at READY. -/
theorem takeCap_power (t : Nat) (p : Power) (cap : Nat) :
    PowerKeeps p (({ p with cap := cap, pace := 0 } : Power).setDivisor t
      (if ({ p with cap := cap, pace := 0 } : Power).prochot then 6 else ({ p with cap := cap, pace := 0 } : Power).ceiling)) := by
  have hb := ceiling_bounds ({ p with cap := cap, pace := 0 } : Power)
  refine ⟨fun h => ?_, by rw [setDivisor_history]; exact id, by rw [setDivisor_sensors]; exact id⟩
  refine setDivisor_ok t ⟨h.1, h.2.1⟩ ?_ ?_ (Nat.zero_le _) (fun h0 => absurd h0 (Nat.lt_irrefl 0)) h.2.2.2.2.2.2
  · split <;> omega
  · split <;> omega

/-- R570: a cap, and its ceiling at once. -/
theorem cap_keeps (p : Power) (cap t : Nat) :
    PowerKeeps p (if ({ p with cap := cap } : Power).point < ({ p with cap := cap } : Power).ceiling then
      ({ p with cap := cap } : Power).setDivisor t ({ p with cap := cap } : Power).ceiling else { p with cap := cap }) := by
  have hb := ceiling_bounds ({ p with cap := cap } : Power)
  split
  · rename_i hlt
    refine ⟨fun h => ?_, by rw [setDivisor_history]; exact id, by rw [setDivisor_sensors]; exact id⟩
    have hp := point_bounds h
    refine setDivisor_ok t ⟨h.1, h.2.1⟩ hb (Nat.le_refl _) h.2.2.2.1 (fun h0 => ?_) h.2.2.2.2.2.2
    have e : ({ p with cap := cap } : Power).point = p.point := rfl
    have := hp.2.2 h0
    omega
  · rename_i hlt
    refine ⟨fun h => ?_, id, id⟩
    have hp := point_bounds h
    have e : ({ p with cap := cap } : Power).point = p.point := rfl
    obtain ⟨h1, h2, h3, h4, h5, h6, h7⟩ := h
    refine ⟨h1, h2, ?_, h4, h5, fun t' d hr => ⟨?_, (h6 t' d hr).2⟩, h7⟩
    · show _ ≤ p.divisor; omega
    · have : p.point = d := by
        unfold Power.point
        rw [show p.avs.raise = some (t', d) from hr]
      omega

/-- R564: a faulted regulator: root/6, and no raise any more. -/
theorem faulted_keeps (p : Power) (t : Nat) :
    PowerKeeps p { p.countTo t with divisor := 6, avs := { p.avs with faulted := true, raise := none } } :=
  ⟨fun ⟨_, _, _, h4, _, _, h7⟩ => ⟨(by decide : 4 ≤ 6), (by decide : 6 ≤ 6), (ceiling_bounds _).2, h4, fun _ => ⟨rfl, rfl⟩, (fun _ _ h => by cases h), h7⟩, id, id⟩

end Sys2Proof.Machine
end

