-- ==== Sys2Proof/Laws/Host.lean ====
section
/-!
SUPPORT. Laws/Host.lean: what a port's messages, events, violations and writes leave alone: the mailbox and the accepted commands.
-/
namespace Sys2Proof.Machine

@[simp] theorem message_mbx (p : HostPort) (v : Nat) : (p.message v).mbx = p.mbx := by
  unfold HostPort.message
  dsimp only
  split <;> rfl

@[simp] theorem message_accepted (p : HostPort) (v : Nat) : (p.message v).accepted = p.accepted := by
  unfold HostPort.message
  dsimp only
  split <;> rfl

@[simp] theorem signal_mbx (dt : Nat) (p : HostPort) (v : Nat) (u : Bool) : (p.signal dt v u).mbx = p.mbx := by
  unfold HostPort.signal
  dsimp only
  split
  · rw [message_mbx]; rfl
  · rfl

@[simp] theorem signal_accepted (dt : Nat) (p : HostPort) (v : Nat) (u : Bool) : (p.signal dt v u).accepted = p.accepted := by
  unfold HostPort.signal
  dsimp only
  split
  · rw [message_accepted]; rfl
  · rfl

@[simp] theorem setVector_accepted (p : HostPort) (v : Nat) (e : Vector64) : (p.setVector v e).accepted = p.accepted := rfl
@[simp] theorem setPair_accepted (p : HostPort) (n : Nat) (r : RingPair) : (p.setPair n r).accepted = p.accepted := rfl
@[simp] theorem storeEvent_accepted (p : HostPort) (e : Event) : (p.storeEvent e).accepted = p.accepted := rfl
@[simp] theorem dropEvent_accepted (p : HostPort) (e : Event) : (p.dropEvent e).accepted = p.accepted := rfl
@[simp] theorem storeEvent_mbx (p : HostPort) (e : Event) : (p.storeEvent e).mbx = p.mbx := rfl
@[simp] theorem dropEvent_mbx (p : HostPort) (e : Event) : (p.dropEvent e).mbx = p.mbx := rfl

@[simp] theorem hostWrite_accepted (p : HostPort) (a o b v : Nat) : (p.hostWrite a o b v).accepted = p.accepted := by
  unfold HostPort.hostWrite
  split <;> rfl

@[simp] theorem deliver_accepted (dt : Nat) (p : HostPort) (e : Event) : (p.deliver dt e).accepted = p.accepted := by
  unfold HostPort.deliver
  repeat' split
  all_goals simp

@[simp] theorem deliver_mbx (dt : Nat) (p : HostPort) (e : Event) : (p.deliver dt e).mbx = p.mbx := by
  unfold HostPort.deliver
  repeat' split
  all_goals simp

@[simp] theorem post_accepted (dt : Nat) (p : HostPort) (code handle data : Nat) : (p.post dt code handle data).accepted = p.accepted := by
  unfold HostPort.post
  simp

@[simp] theorem post_mbx (dt : Nat) (p : HostPort) (code handle data : Nat) : (p.post dt code handle data).mbx = p.mbx := by
  unfold HostPort.post
  simp

@[simp] theorem postLost_accepted (dt : Nat) (p : HostPort) : (p.postLost dt).accepted = p.accepted := by
  unfold HostPort.postLost
  split <;> simp

@[simp] theorem violate_accepted (dt : Nat) (p : HostPort) (kind : Nat) (src : ViolationSource) (w : Bool) (addr opcode data : Nat) :
    (p.violate dt kind src w addr opcode data).accepted = p.accepted := by
  unfold HostPort.violate
  dsimp only
  split
  all_goals split <;> simp

/-! ## What a port is -/

@[simp] theorem message_link (p : HostPort) (v : Nat) : (p.message v).link = p.link := by
  unfold HostPort.message
  dsimp only
  split <;> rfl

@[simp] theorem signal_link (dt : Nat) (p : HostPort) (v : Nat) (u : Bool) : (p.signal dt v u).link = p.link := by
  unfold HostPort.signal
  dsimp only
  split
  · rw [message_link]; rfl
  · rfl

@[simp] theorem deliver_link (dt : Nat) (p : HostPort) (e : Event) : (p.deliver dt e).link = p.link := by
  unfold HostPort.deliver HostPort.storeEvent HostPort.dropEvent
  repeat' split
  all_goals simp

@[simp] theorem post_link (dt : Nat) (p : HostPort) (code handle data : Nat) : (p.post dt code handle data).link = p.link := by
  unfold HostPort.post
  simp

@[simp] theorem violate_link (dt : Nat) (p : HostPort) (kind : Nat) (src : ViolationSource) (w : Bool) (addr opcode data : Nat) :
    (p.violate dt kind src w addr opcode data).link = p.link := by
  unfold HostPort.violate
  dsimp only
  split
  all_goals split <;> simp

@[simp] theorem message_cfg (p : HostPort) (v : Nat) : (p.message v).cfg = p.cfg := by
  unfold HostPort.message
  dsimp only
  split <;> rfl

@[simp] theorem signal_cfg (dt : Nat) (p : HostPort) (v : Nat) (u : Bool) : (p.signal dt v u).cfg = p.cfg := by
  unfold HostPort.signal
  dsimp only
  split
  · rw [message_cfg]; rfl
  · rfl

@[simp] theorem deliver_cfg (dt : Nat) (p : HostPort) (e : Event) : (p.deliver dt e).cfg = p.cfg := by
  unfold HostPort.deliver HostPort.storeEvent HostPort.dropEvent
  repeat' split
  all_goals simp

@[simp] theorem post_cfg (dt : Nat) (p : HostPort) (code handle data : Nat) : (p.post dt code handle data).cfg = p.cfg := by
  unfold HostPort.post
  simp

@[simp] theorem violate_cfg (dt : Nat) (p : HostPort) (kind : Nat) (src : ViolationSource) (w : Bool) (addr opcode data : Nat) :
    (p.violate dt kind src w addr opcode data).cfg = p.cfg := by
  unfold HostPort.violate
  dsimp only
  split
  all_goals split <;> simp

@[simp] theorem message_configReady (p : HostPort) (v : Nat) : (p.message v).configReady = p.configReady := by
  unfold HostPort.message
  dsimp only
  split <;> rfl

@[simp] theorem signal_configReady (dt : Nat) (p : HostPort) (v : Nat) (u : Bool) : (p.signal dt v u).configReady = p.configReady := by
  unfold HostPort.signal
  dsimp only
  split
  · rw [message_configReady]; rfl
  · rfl

@[simp] theorem deliver_configReady (dt : Nat) (p : HostPort) (e : Event) : (p.deliver dt e).configReady = p.configReady := by
  unfold HostPort.deliver HostPort.storeEvent HostPort.dropEvent
  repeat' split
  all_goals simp

@[simp] theorem post_configReady (dt : Nat) (p : HostPort) (code handle data : Nat) : (p.post dt code handle data).configReady = p.configReady := by
  unfold HostPort.post
  simp

@[simp] theorem violate_configReady (dt : Nat) (p : HostPort) (kind : Nat) (src : ViolationSource) (w : Bool) (addr opcode data : Nat) :
    (p.violate dt kind src w addr opcode data).configReady = p.configReady := by
  unfold HostPort.violate
  dsimp only
  split
  all_goals split <;> simp

@[simp] theorem message_fwState (p : HostPort) (v : Nat) : (p.message v).fwState = p.fwState := by
  unfold HostPort.message
  dsimp only
  split <;> rfl

@[simp] theorem signal_fwState (dt : Nat) (p : HostPort) (v : Nat) (u : Bool) : (p.signal dt v u).fwState = p.fwState := by
  unfold HostPort.signal
  dsimp only
  split
  · rw [message_fwState]; rfl
  · rfl

@[simp] theorem deliver_fwState (dt : Nat) (p : HostPort) (e : Event) : (p.deliver dt e).fwState = p.fwState := by
  unfold HostPort.deliver HostPort.storeEvent HostPort.dropEvent
  repeat' split
  all_goals simp

@[simp] theorem post_fwState (dt : Nat) (p : HostPort) (code handle data : Nat) : (p.post dt code handle data).fwState = p.fwState := by
  unfold HostPort.post
  simp

@[simp] theorem violate_fwState (dt : Nat) (p : HostPort) (kind : Nat) (src : ViolationSource) (w : Bool) (addr opcode data : Nat) :
    (p.violate dt kind src w addr opcode data).fwState = p.fwState := by
  unfold HostPort.violate
  dsimp only
  split
  all_goals split <;> simp

end Sys2Proof.Machine
end

