-- ==== Sys2Proof/Laws/Memory.lean ====
section
/-!
SUPPORT. Laws/Memory.lean: device memory: a read after a write, what a write leaves alone, and that every memory operation keeps the canonical form.
-/
namespace Sys2Proof.Machine

variable {α : Type}

/-! ## Clearing a part of a table -/

theorem Table.get_clear {d : α} (p : Nat → Bool) (k : Nat) :
    ∀ {t : Table α} {lo : Nat}, Table.sortedFrom lo t = true → Table.get d (Table.clear p t) k = if p k then d else Table.get d t k
  | [], _, _ => by simp [Table.clear, Table.get]
  | (j, v) :: rest, lo, ht => by
    simp only [Table.sortedFrom, Bool.and_eq_true, decide_eq_true_eq] at ht
    have ih := Table.get_clear (d := d) p k ht.2
    by_cases hp : p j = true
    · have e : Table.clear p ((j, v) :: rest) = Table.clear p rest := by simp [Table.clear, hp]
      rw [e, ih]
      by_cases hj : j = k
      · subst hj; simp [hp]
      · simp only [Table.get, if_neg hj]
        split
        · rfl
        · split
          · exact Table.get_below ht.2 (by omega)
          · rfl
    · have e : Table.clear p ((j, v) :: rest) = (j, v) :: Table.clear p rest := by simp [Table.clear, hp]
      rw [e]
      simp only [Table.get]
      by_cases hj : j = k
      · subst hj; simp [hp]
      · simp only [if_neg hj, ih]
        split <;> simp

/-! ## Bytes -/

theorem byte_setByte {m : Memory} (h : Table.sortedFrom 0 m.bytes = true) (x a : Nat) (b : BitVec 8) :
    (m.setByte x b).byte a = if a = x then b else m.byte a := by
  unfold Memory.setByte Memory.byte
  split
  · next e => subst e; exact Table.get_set_same h ..
  · next e => exact Table.get_set_other h e _

theorem sorted_store : ∀ (n : Nat) {m : Memory}, Table.sortedFrom 0 m.bytes = true → ∀ x v, Table.sortedFrom 0 (m.store x n v).bytes = true
  | 0, _, h, _, _ => h
  | n + 1, _, h, x, v => sorted_store n (Table.sorted_set h x _) (x + 1) (v / 256)

/-- What `n` bytes stored at `x` leave at every address. -/
theorem byte_store : ∀ (n : Nat) {m : Memory}, Table.sortedFrom 0 m.bytes = true → ∀ (x v a : Nat),
    (m.store x n v).byte a = if x ≤ a ∧ a < x + n then BitVec.ofNat 8 (v / 2 ^ (8 * (a - x))) else m.byte a
  | 0, m, _, x, v, a => by rw [if_neg (by omega)]; rfl
  | n + 1, m, h, x, v, a => by
    have hs : Table.sortedFrom 0 (m.setByte x (BitVec.ofNat 8 v)).bytes = true := Table.sorted_set h x _
    unfold Memory.store
    rw [byte_store n hs, byte_setByte h]
    by_cases ha : a = x
    · subst ha
      rw [if_neg (by omega), if_pos rfl, if_pos (by omega)]
      simp
    · rw [if_neg ha]
      by_cases hx : x + 1 ≤ a ∧ a < x + 1 + n
      · rw [if_pos hx, if_pos (by omega), Nat.div_div_eq_div_mul]
        congr 2
        rw [show (256 : Nat) = 2 ^ 8 from rfl, ← pow_add]
        congr 1
        omega
      · rw [if_neg hx, if_neg (by omega)]

/-- Read after write: `n` bytes written at `x` are what `x` to `x + n - 1` read as, and every other address reads as before. -/
theorem byte_write {m : Memory} (h : m.wf = true) (x n v a : Nat) :
    (m.write x n v).byte a = if x ≤ a ∧ a < x + n then BitVec.ofNat 8 (v / 2 ^ (8 * (a - x))) else m.byte a := by
  have hs : Table.sortedFrom 0 m.bytes = true := by
    unfold Memory.wf at h
    rw [Bool.and_eq_true] at h
    exact (Table.wf_iff.1 h.1).1
  exact byte_store n hs x v a

/-- A zeroed range reads zero, and every other address reads as before. -/
theorem byte_zeroRange {m : Memory} (h : m.wf = true) (x n a : Nat) : (m.zeroRange x n).byte a = if x ≤ a ∧ a < x + n then 0#8 else m.byte a := by
  have hs : Table.sortedFrom 0 m.bytes = true := by
    unfold Memory.wf at h
    rw [Bool.and_eq_true] at h
    exact (Table.wf_iff.1 h.1).1
  unfold Memory.zeroRange Memory.byte
  rw [Table.get_clear _ _ hs]
  simp

theorem read_lt : ∀ (n : Nat) (m : Memory) (x : Nat), m.read x n < 2 ^ (8 * n)
  | 0, _, _ => by simp [Memory.read]
  | n + 1, m, x => by
    have h := read_lt n m (x + 1)
    have hb := (m.byte x).isLt
    unfold Memory.read
    rw [show 8 * (n + 1) = 8 * n + 8 by omega, pow_add]
    omega

/-! ## The canonical form -/

theorem wf_parts {m : Memory} : m.wf = true ↔ Table.wf 0#8 m.bytes = true ∧ Table.wf {} m.errs = true := by
  unfold Memory.wf
  rw [Bool.and_eq_true]

theorem wf_setByte {m : Memory} (h : m.wf = true) (x : Nat) (b : BitVec 8) : (m.setByte x b).wf = true :=
  wf_parts.2 ⟨Table.wf_set (wf_parts.1 h).1 x b, (wf_parts.1 h).2⟩

theorem wf_store : ∀ (n : Nat) {m : Memory}, m.wf = true → ∀ x v, (m.store x n v).wf = true
  | 0, _, h, _, _ => h
  | n + 1, _, h, x, v => wf_store n (wf_setByte h x _) (x + 1) (v / 256)

theorem wf_write {m : Memory} (h : m.wf = true) (x n v : Nat) : (m.write x n v).wf = true :=
  wf_parts.2 ⟨(wf_parts.1 (wf_store n h x v)).1, Table.wf_clear (wf_parts.1 (wf_store n h x v)).2 (fun b => decide (x ≤ 32 * b ∧ 32 * b < x + n))⟩

theorem wf_zeroRange {m : Memory} (h : m.wf = true) (x n : Nat) : (m.zeroRange x n).wf = true :=
  wf_parts.2 ⟨Table.wf_clear (wf_parts.1 h).1 (fun a => decide (x ≤ a ∧ a < x + n)), Table.wf_clear (wf_parts.1 h).2 (fun b => decide (x ≤ 32 * b ∧ 32 * b < x + n))⟩

theorem wf_upset : ∀ (us : List (Nat × Nat)) {m : Memory}, m.wf = true → (m.upset us).wf = true
  | [], _, h => h
  | u :: us, m, h => wf_upset us (m := { m with errs := Table.upd {} m.errs (u.1 / 32) (fun e => e.add (u.1 % 32) (u.2 % 256)) })
      (wf_parts.2 ⟨(wf_parts.1 h).1, Table.wf_set (wf_parts.1 h).2 _ _⟩)

theorem wf_flips (b : Nat) : ∀ (xs : List (Nat × Nat)) {m : Memory}, m.wf = true →
    (xs.foldl (fun (u : Memory) (x : Nat × Nat) =>
      if x.1 < 32 then u.setByte (32 * b + x.1) (u.byte (32 * b + x.1) ^^^ BitVec.ofNat 8 x.2) else u) m).wf = true
  | [], _, h => h
  | x :: xs, m, h => by
    rw [List.foldl_cons]
    refine wf_flips b xs ?_
    split
    · exact wf_setByte h ..
    · exact h

theorem wf_correct {m : Memory} (h : m.wf = true) (b : Nat) : (m.correct b).wf = true := by
  unfold Memory.correct
  extract_lets e change t
  have ht : t.wf = true := wf_flips b change h
  exact wf_parts.2 ⟨(wf_parts.1 ht).1, Table.wf_set (wf_parts.1 ht).2 b {}⟩

@[simp] theorem memWrite_mem (s : State) (x n v : Nat) : (s.memWrite x n v).mem = s.mem.write x n v := rfl
@[simp] theorem memZero_mem (s : State) (x n : Nat) : (s.memZero x n).mem = s.mem.zeroRange x n := rfl

end Sys2Proof.Machine
end

