-- ==== Sys2Proof/Laws/State.lean ====
section
/-!
SUPPORT. Laws/State.lean: what each update of State leaves alone, field by field, and what the accessors read back.
-/
namespace Sys2Proof.Machine

/-! ## State.setPort changes ports only -/

@[simp] theorem State.setPort_pending (s : State) (p : Nat) (v : HostPort) : (s.setPort p v).pending = s.pending := rfl
@[simp] theorem State.setPort_free (s : State) (p : Nat) (v : HostPort) : (s.setPort p v).free = s.free := rfl
@[simp] theorem State.setPort_dt (s : State) (p : Nat) (v : HostPort) : (s.setPort p v).dt = s.dt := rfl
@[simp] theorem State.setPort_site (s : State) (p : Nat) (v : HostPort) : (s.setPort p v).site = s.site := rfl
@[simp] theorem State.setPort_parts (s : State) (p : Nat) (v : HostPort) : (s.setPort p v).parts = s.parts := rfl
@[simp] theorem State.setPort_contents (s : State) (p : Nat) (v : HostPort) : (s.setPort p v).contents = s.contents := rfl
@[simp] theorem State.setPort_nextContent (s : State) (p : Nat) (v : HostPort) : (s.setPort p v).nextContent = s.nextContent := rfl
@[simp] theorem State.setPort_models (s : State) (p : Nat) (v : HostPort) : (s.setPort p v).models = s.models := rfl
@[simp] theorem State.setPort_loads (s : State) (p : Nat) (v : HostPort) : (s.setPort p v).loads = s.loads := rfl
@[simp] theorem State.setPort_nextLoad (s : State) (p : Nat) (v : HostPort) : (s.setPort p v).nextLoad = s.nextLoad := rfl
@[simp] theorem State.setPort_pipes (s : State) (p : Nat) (v : HostPort) : (s.setPort p v).pipes = s.pipes := rfl
@[simp] theorem State.setPort_streams (s : State) (p : Nat) (v : HostPort) : (s.setPort p v).streams = s.streams := rfl
@[simp] theorem State.setPort_branches (s : State) (p : Nat) (v : HostPort) : (s.setPort p v).branches = s.branches := rfl
@[simp] theorem State.setPort_attachSeq (s : State) (p : Nat) (v : HostPort) : (s.setPort p v).attachSeq = s.attachSeq := rfl
@[simp] theorem State.setPort_tiles (s : State) (p : Nat) (v : HostPort) : (s.setPort p v).tiles = s.tiles := rfl
@[simp] theorem State.setPort_flanks (s : State) (p : Nat) (v : HostPort) : (s.setPort p v).flanks = s.flanks := rfl
@[simp] theorem State.setPort_pages (s : State) (p : Nat) (v : HostPort) : (s.setPort p v).pages = s.pages := rfl
@[simp] theorem State.setPort_journal (s : State) (p : Nat) (v : HostPort) : (s.setPort p v).journal = s.journal := rfl
@[simp] theorem State.setPort_feeders (s : State) (p : Nat) (v : HostPort) : (s.setPort p v).feeders = s.feeders := rfl
@[simp] theorem State.setPort_ops (s : State) (p : Nat) (v : HostPort) : (s.setPort p v).ops = s.ops := rfl
@[simp] theorem State.setPort_nextOp (s : State) (p : Nat) (v : HostPort) : (s.setPort p v).nextOp = s.nextOp := rfl
@[simp] theorem State.setPort_barriers (s : State) (p : Nat) (v : HostPort) : (s.setPort p v).barriers = s.barriers := rfl
@[simp] theorem State.setPort_store (s : State) (p : Nat) (v : HostPort) : (s.setPort p v).store = s.store := rfl
@[simp] theorem State.setPort_fabric (s : State) (p : Nat) (v : HostPort) : (s.setPort p v).fabric = s.fabric := rfl
@[simp] theorem State.setPort_mem (s : State) (p : Nat) (v : HostPort) : (s.setPort p v).mem = s.mem := rfl
@[simp] theorem State.setPort_audio (s : State) (p : Nat) (v : HostPort) : (s.setPort p v).audio = s.audio := rfl
@[simp] theorem State.setPort_power (s : State) (p : Nat) (v : HostPort) : (s.setPort p v).power = s.power := rfl
@[simp] theorem State.setPort_boot (s : State) (p : Nat) (v : HostPort) : (s.setPort p v).boot = s.boot := rfl
@[simp] theorem State.setPort_mgmt (s : State) (p : Nat) (v : HostPort) : (s.setPort p v).mgmt = s.mgmt := rfl
@[simp] theorem State.setPort_pins (s : State) (p : Nat) (v : HostPort) : (s.setPort p v).pins = s.pins := rfl

/-! ## State.updPort changes ports only -/

@[simp] theorem State.updPort_pending (s : State) (p : Nat) (f : HostPort → HostPort) : (s.updPort p f).pending = s.pending := rfl
@[simp] theorem State.updPort_free (s : State) (p : Nat) (f : HostPort → HostPort) : (s.updPort p f).free = s.free := rfl
@[simp] theorem State.updPort_dt (s : State) (p : Nat) (f : HostPort → HostPort) : (s.updPort p f).dt = s.dt := rfl
@[simp] theorem State.updPort_site (s : State) (p : Nat) (f : HostPort → HostPort) : (s.updPort p f).site = s.site := rfl
@[simp] theorem State.updPort_parts (s : State) (p : Nat) (f : HostPort → HostPort) : (s.updPort p f).parts = s.parts := rfl
@[simp] theorem State.updPort_contents (s : State) (p : Nat) (f : HostPort → HostPort) : (s.updPort p f).contents = s.contents := rfl
@[simp] theorem State.updPort_nextContent (s : State) (p : Nat) (f : HostPort → HostPort) : (s.updPort p f).nextContent = s.nextContent := rfl
@[simp] theorem State.updPort_models (s : State) (p : Nat) (f : HostPort → HostPort) : (s.updPort p f).models = s.models := rfl
@[simp] theorem State.updPort_loads (s : State) (p : Nat) (f : HostPort → HostPort) : (s.updPort p f).loads = s.loads := rfl
@[simp] theorem State.updPort_nextLoad (s : State) (p : Nat) (f : HostPort → HostPort) : (s.updPort p f).nextLoad = s.nextLoad := rfl
@[simp] theorem State.updPort_pipes (s : State) (p : Nat) (f : HostPort → HostPort) : (s.updPort p f).pipes = s.pipes := rfl
@[simp] theorem State.updPort_streams (s : State) (p : Nat) (f : HostPort → HostPort) : (s.updPort p f).streams = s.streams := rfl
@[simp] theorem State.updPort_branches (s : State) (p : Nat) (f : HostPort → HostPort) : (s.updPort p f).branches = s.branches := rfl
@[simp] theorem State.updPort_attachSeq (s : State) (p : Nat) (f : HostPort → HostPort) : (s.updPort p f).attachSeq = s.attachSeq := rfl
@[simp] theorem State.updPort_tiles (s : State) (p : Nat) (f : HostPort → HostPort) : (s.updPort p f).tiles = s.tiles := rfl
@[simp] theorem State.updPort_flanks (s : State) (p : Nat) (f : HostPort → HostPort) : (s.updPort p f).flanks = s.flanks := rfl
@[simp] theorem State.updPort_pages (s : State) (p : Nat) (f : HostPort → HostPort) : (s.updPort p f).pages = s.pages := rfl
@[simp] theorem State.updPort_journal (s : State) (p : Nat) (f : HostPort → HostPort) : (s.updPort p f).journal = s.journal := rfl
@[simp] theorem State.updPort_feeders (s : State) (p : Nat) (f : HostPort → HostPort) : (s.updPort p f).feeders = s.feeders := rfl
@[simp] theorem State.updPort_ops (s : State) (p : Nat) (f : HostPort → HostPort) : (s.updPort p f).ops = s.ops := rfl
@[simp] theorem State.updPort_nextOp (s : State) (p : Nat) (f : HostPort → HostPort) : (s.updPort p f).nextOp = s.nextOp := rfl
@[simp] theorem State.updPort_barriers (s : State) (p : Nat) (f : HostPort → HostPort) : (s.updPort p f).barriers = s.barriers := rfl
@[simp] theorem State.updPort_store (s : State) (p : Nat) (f : HostPort → HostPort) : (s.updPort p f).store = s.store := rfl
@[simp] theorem State.updPort_fabric (s : State) (p : Nat) (f : HostPort → HostPort) : (s.updPort p f).fabric = s.fabric := rfl
@[simp] theorem State.updPort_mem (s : State) (p : Nat) (f : HostPort → HostPort) : (s.updPort p f).mem = s.mem := rfl
@[simp] theorem State.updPort_audio (s : State) (p : Nat) (f : HostPort → HostPort) : (s.updPort p f).audio = s.audio := rfl
@[simp] theorem State.updPort_power (s : State) (p : Nat) (f : HostPort → HostPort) : (s.updPort p f).power = s.power := rfl
@[simp] theorem State.updPort_boot (s : State) (p : Nat) (f : HostPort → HostPort) : (s.updPort p f).boot = s.boot := rfl
@[simp] theorem State.updPort_mgmt (s : State) (p : Nat) (f : HostPort → HostPort) : (s.updPort p f).mgmt = s.mgmt := rfl
@[simp] theorem State.updPort_pins (s : State) (p : Nat) (f : HostPort → HostPort) : (s.updPort p f).pins = s.pins := rfl

/-! ## State.updPart changes parts only -/

@[simp] theorem State.updPart_pending (s : State) (p : Nat) (f : Partition → Partition) : (s.updPart p f).pending = s.pending := rfl
@[simp] theorem State.updPart_free (s : State) (p : Nat) (f : Partition → Partition) : (s.updPart p f).free = s.free := rfl
@[simp] theorem State.updPart_dt (s : State) (p : Nat) (f : Partition → Partition) : (s.updPart p f).dt = s.dt := rfl
@[simp] theorem State.updPart_site (s : State) (p : Nat) (f : Partition → Partition) : (s.updPart p f).site = s.site := rfl
@[simp] theorem State.updPart_ports (s : State) (p : Nat) (f : Partition → Partition) : (s.updPart p f).ports = s.ports := rfl
@[simp] theorem State.updPart_contents (s : State) (p : Nat) (f : Partition → Partition) : (s.updPart p f).contents = s.contents := rfl
@[simp] theorem State.updPart_nextContent (s : State) (p : Nat) (f : Partition → Partition) : (s.updPart p f).nextContent = s.nextContent := rfl
@[simp] theorem State.updPart_models (s : State) (p : Nat) (f : Partition → Partition) : (s.updPart p f).models = s.models := rfl
@[simp] theorem State.updPart_loads (s : State) (p : Nat) (f : Partition → Partition) : (s.updPart p f).loads = s.loads := rfl
@[simp] theorem State.updPart_nextLoad (s : State) (p : Nat) (f : Partition → Partition) : (s.updPart p f).nextLoad = s.nextLoad := rfl
@[simp] theorem State.updPart_pipes (s : State) (p : Nat) (f : Partition → Partition) : (s.updPart p f).pipes = s.pipes := rfl
@[simp] theorem State.updPart_streams (s : State) (p : Nat) (f : Partition → Partition) : (s.updPart p f).streams = s.streams := rfl
@[simp] theorem State.updPart_branches (s : State) (p : Nat) (f : Partition → Partition) : (s.updPart p f).branches = s.branches := rfl
@[simp] theorem State.updPart_attachSeq (s : State) (p : Nat) (f : Partition → Partition) : (s.updPart p f).attachSeq = s.attachSeq := rfl
@[simp] theorem State.updPart_tiles (s : State) (p : Nat) (f : Partition → Partition) : (s.updPart p f).tiles = s.tiles := rfl
@[simp] theorem State.updPart_flanks (s : State) (p : Nat) (f : Partition → Partition) : (s.updPart p f).flanks = s.flanks := rfl
@[simp] theorem State.updPart_pages (s : State) (p : Nat) (f : Partition → Partition) : (s.updPart p f).pages = s.pages := rfl
@[simp] theorem State.updPart_journal (s : State) (p : Nat) (f : Partition → Partition) : (s.updPart p f).journal = s.journal := rfl
@[simp] theorem State.updPart_feeders (s : State) (p : Nat) (f : Partition → Partition) : (s.updPart p f).feeders = s.feeders := rfl
@[simp] theorem State.updPart_ops (s : State) (p : Nat) (f : Partition → Partition) : (s.updPart p f).ops = s.ops := rfl
@[simp] theorem State.updPart_nextOp (s : State) (p : Nat) (f : Partition → Partition) : (s.updPart p f).nextOp = s.nextOp := rfl
@[simp] theorem State.updPart_barriers (s : State) (p : Nat) (f : Partition → Partition) : (s.updPart p f).barriers = s.barriers := rfl
@[simp] theorem State.updPart_store (s : State) (p : Nat) (f : Partition → Partition) : (s.updPart p f).store = s.store := rfl
@[simp] theorem State.updPart_fabric (s : State) (p : Nat) (f : Partition → Partition) : (s.updPart p f).fabric = s.fabric := rfl
@[simp] theorem State.updPart_mem (s : State) (p : Nat) (f : Partition → Partition) : (s.updPart p f).mem = s.mem := rfl
@[simp] theorem State.updPart_audio (s : State) (p : Nat) (f : Partition → Partition) : (s.updPart p f).audio = s.audio := rfl
@[simp] theorem State.updPart_power (s : State) (p : Nat) (f : Partition → Partition) : (s.updPart p f).power = s.power := rfl
@[simp] theorem State.updPart_boot (s : State) (p : Nat) (f : Partition → Partition) : (s.updPart p f).boot = s.boot := rfl
@[simp] theorem State.updPart_mgmt (s : State) (p : Nat) (f : Partition → Partition) : (s.updPart p f).mgmt = s.mgmt := rfl
@[simp] theorem State.updPart_pins (s : State) (p : Nat) (f : Partition → Partition) : (s.updPart p f).pins = s.pins := rfl

/-! ## State.setContent changes contents only -/

@[simp] theorem State.setContent_pending (s : State) (c : Nat) (v : Content) : (s.setContent c v).pending = s.pending := rfl
@[simp] theorem State.setContent_free (s : State) (c : Nat) (v : Content) : (s.setContent c v).free = s.free := rfl
@[simp] theorem State.setContent_dt (s : State) (c : Nat) (v : Content) : (s.setContent c v).dt = s.dt := rfl
@[simp] theorem State.setContent_site (s : State) (c : Nat) (v : Content) : (s.setContent c v).site = s.site := rfl
@[simp] theorem State.setContent_ports (s : State) (c : Nat) (v : Content) : (s.setContent c v).ports = s.ports := rfl
@[simp] theorem State.setContent_parts (s : State) (c : Nat) (v : Content) : (s.setContent c v).parts = s.parts := rfl
@[simp] theorem State.setContent_nextContent (s : State) (c : Nat) (v : Content) : (s.setContent c v).nextContent = s.nextContent := rfl
@[simp] theorem State.setContent_models (s : State) (c : Nat) (v : Content) : (s.setContent c v).models = s.models := rfl
@[simp] theorem State.setContent_loads (s : State) (c : Nat) (v : Content) : (s.setContent c v).loads = s.loads := rfl
@[simp] theorem State.setContent_nextLoad (s : State) (c : Nat) (v : Content) : (s.setContent c v).nextLoad = s.nextLoad := rfl
@[simp] theorem State.setContent_pipes (s : State) (c : Nat) (v : Content) : (s.setContent c v).pipes = s.pipes := rfl
@[simp] theorem State.setContent_streams (s : State) (c : Nat) (v : Content) : (s.setContent c v).streams = s.streams := rfl
@[simp] theorem State.setContent_branches (s : State) (c : Nat) (v : Content) : (s.setContent c v).branches = s.branches := rfl
@[simp] theorem State.setContent_attachSeq (s : State) (c : Nat) (v : Content) : (s.setContent c v).attachSeq = s.attachSeq := rfl
@[simp] theorem State.setContent_tiles (s : State) (c : Nat) (v : Content) : (s.setContent c v).tiles = s.tiles := rfl
@[simp] theorem State.setContent_flanks (s : State) (c : Nat) (v : Content) : (s.setContent c v).flanks = s.flanks := rfl
@[simp] theorem State.setContent_pages (s : State) (c : Nat) (v : Content) : (s.setContent c v).pages = s.pages := rfl
@[simp] theorem State.setContent_journal (s : State) (c : Nat) (v : Content) : (s.setContent c v).journal = s.journal := rfl
@[simp] theorem State.setContent_feeders (s : State) (c : Nat) (v : Content) : (s.setContent c v).feeders = s.feeders := rfl
@[simp] theorem State.setContent_ops (s : State) (c : Nat) (v : Content) : (s.setContent c v).ops = s.ops := rfl
@[simp] theorem State.setContent_nextOp (s : State) (c : Nat) (v : Content) : (s.setContent c v).nextOp = s.nextOp := rfl
@[simp] theorem State.setContent_barriers (s : State) (c : Nat) (v : Content) : (s.setContent c v).barriers = s.barriers := rfl
@[simp] theorem State.setContent_store (s : State) (c : Nat) (v : Content) : (s.setContent c v).store = s.store := rfl
@[simp] theorem State.setContent_fabric (s : State) (c : Nat) (v : Content) : (s.setContent c v).fabric = s.fabric := rfl
@[simp] theorem State.setContent_mem (s : State) (c : Nat) (v : Content) : (s.setContent c v).mem = s.mem := rfl
@[simp] theorem State.setContent_audio (s : State) (c : Nat) (v : Content) : (s.setContent c v).audio = s.audio := rfl
@[simp] theorem State.setContent_power (s : State) (c : Nat) (v : Content) : (s.setContent c v).power = s.power := rfl
@[simp] theorem State.setContent_boot (s : State) (c : Nat) (v : Content) : (s.setContent c v).boot = s.boot := rfl
@[simp] theorem State.setContent_mgmt (s : State) (c : Nat) (v : Content) : (s.setContent c v).mgmt = s.mgmt := rfl
@[simp] theorem State.setContent_pins (s : State) (c : Nat) (v : Content) : (s.setContent c v).pins = s.pins := rfl

/-! ## State.setModel changes models only -/

@[simp] theorem State.setModel_pending (s : State) (m : Nat) (v : ModelSlot) : (s.setModel m v).pending = s.pending := rfl
@[simp] theorem State.setModel_free (s : State) (m : Nat) (v : ModelSlot) : (s.setModel m v).free = s.free := rfl
@[simp] theorem State.setModel_dt (s : State) (m : Nat) (v : ModelSlot) : (s.setModel m v).dt = s.dt := rfl
@[simp] theorem State.setModel_site (s : State) (m : Nat) (v : ModelSlot) : (s.setModel m v).site = s.site := rfl
@[simp] theorem State.setModel_ports (s : State) (m : Nat) (v : ModelSlot) : (s.setModel m v).ports = s.ports := rfl
@[simp] theorem State.setModel_parts (s : State) (m : Nat) (v : ModelSlot) : (s.setModel m v).parts = s.parts := rfl
@[simp] theorem State.setModel_contents (s : State) (m : Nat) (v : ModelSlot) : (s.setModel m v).contents = s.contents := rfl
@[simp] theorem State.setModel_nextContent (s : State) (m : Nat) (v : ModelSlot) : (s.setModel m v).nextContent = s.nextContent := rfl
@[simp] theorem State.setModel_loads (s : State) (m : Nat) (v : ModelSlot) : (s.setModel m v).loads = s.loads := rfl
@[simp] theorem State.setModel_nextLoad (s : State) (m : Nat) (v : ModelSlot) : (s.setModel m v).nextLoad = s.nextLoad := rfl
@[simp] theorem State.setModel_pipes (s : State) (m : Nat) (v : ModelSlot) : (s.setModel m v).pipes = s.pipes := rfl
@[simp] theorem State.setModel_streams (s : State) (m : Nat) (v : ModelSlot) : (s.setModel m v).streams = s.streams := rfl
@[simp] theorem State.setModel_branches (s : State) (m : Nat) (v : ModelSlot) : (s.setModel m v).branches = s.branches := rfl
@[simp] theorem State.setModel_attachSeq (s : State) (m : Nat) (v : ModelSlot) : (s.setModel m v).attachSeq = s.attachSeq := rfl
@[simp] theorem State.setModel_tiles (s : State) (m : Nat) (v : ModelSlot) : (s.setModel m v).tiles = s.tiles := rfl
@[simp] theorem State.setModel_flanks (s : State) (m : Nat) (v : ModelSlot) : (s.setModel m v).flanks = s.flanks := rfl
@[simp] theorem State.setModel_pages (s : State) (m : Nat) (v : ModelSlot) : (s.setModel m v).pages = s.pages := rfl
@[simp] theorem State.setModel_journal (s : State) (m : Nat) (v : ModelSlot) : (s.setModel m v).journal = s.journal := rfl
@[simp] theorem State.setModel_feeders (s : State) (m : Nat) (v : ModelSlot) : (s.setModel m v).feeders = s.feeders := rfl
@[simp] theorem State.setModel_ops (s : State) (m : Nat) (v : ModelSlot) : (s.setModel m v).ops = s.ops := rfl
@[simp] theorem State.setModel_nextOp (s : State) (m : Nat) (v : ModelSlot) : (s.setModel m v).nextOp = s.nextOp := rfl
@[simp] theorem State.setModel_barriers (s : State) (m : Nat) (v : ModelSlot) : (s.setModel m v).barriers = s.barriers := rfl
@[simp] theorem State.setModel_store (s : State) (m : Nat) (v : ModelSlot) : (s.setModel m v).store = s.store := rfl
@[simp] theorem State.setModel_fabric (s : State) (m : Nat) (v : ModelSlot) : (s.setModel m v).fabric = s.fabric := rfl
@[simp] theorem State.setModel_mem (s : State) (m : Nat) (v : ModelSlot) : (s.setModel m v).mem = s.mem := rfl
@[simp] theorem State.setModel_audio (s : State) (m : Nat) (v : ModelSlot) : (s.setModel m v).audio = s.audio := rfl
@[simp] theorem State.setModel_power (s : State) (m : Nat) (v : ModelSlot) : (s.setModel m v).power = s.power := rfl
@[simp] theorem State.setModel_boot (s : State) (m : Nat) (v : ModelSlot) : (s.setModel m v).boot = s.boot := rfl
@[simp] theorem State.setModel_mgmt (s : State) (m : Nat) (v : ModelSlot) : (s.setModel m v).mgmt = s.mgmt := rfl
@[simp] theorem State.setModel_pins (s : State) (m : Nat) (v : ModelSlot) : (s.setModel m v).pins = s.pins := rfl

/-! ## State.setPipe changes pipes only -/

@[simp] theorem State.setPipe_pending (s : State) (p : Nat) (v : Pipeline) : (s.setPipe p v).pending = s.pending := rfl
@[simp] theorem State.setPipe_free (s : State) (p : Nat) (v : Pipeline) : (s.setPipe p v).free = s.free := rfl
@[simp] theorem State.setPipe_dt (s : State) (p : Nat) (v : Pipeline) : (s.setPipe p v).dt = s.dt := rfl
@[simp] theorem State.setPipe_site (s : State) (p : Nat) (v : Pipeline) : (s.setPipe p v).site = s.site := rfl
@[simp] theorem State.setPipe_ports (s : State) (p : Nat) (v : Pipeline) : (s.setPipe p v).ports = s.ports := rfl
@[simp] theorem State.setPipe_parts (s : State) (p : Nat) (v : Pipeline) : (s.setPipe p v).parts = s.parts := rfl
@[simp] theorem State.setPipe_contents (s : State) (p : Nat) (v : Pipeline) : (s.setPipe p v).contents = s.contents := rfl
@[simp] theorem State.setPipe_nextContent (s : State) (p : Nat) (v : Pipeline) : (s.setPipe p v).nextContent = s.nextContent := rfl
@[simp] theorem State.setPipe_models (s : State) (p : Nat) (v : Pipeline) : (s.setPipe p v).models = s.models := rfl
@[simp] theorem State.setPipe_loads (s : State) (p : Nat) (v : Pipeline) : (s.setPipe p v).loads = s.loads := rfl
@[simp] theorem State.setPipe_nextLoad (s : State) (p : Nat) (v : Pipeline) : (s.setPipe p v).nextLoad = s.nextLoad := rfl
@[simp] theorem State.setPipe_streams (s : State) (p : Nat) (v : Pipeline) : (s.setPipe p v).streams = s.streams := rfl
@[simp] theorem State.setPipe_branches (s : State) (p : Nat) (v : Pipeline) : (s.setPipe p v).branches = s.branches := rfl
@[simp] theorem State.setPipe_attachSeq (s : State) (p : Nat) (v : Pipeline) : (s.setPipe p v).attachSeq = s.attachSeq := rfl
@[simp] theorem State.setPipe_tiles (s : State) (p : Nat) (v : Pipeline) : (s.setPipe p v).tiles = s.tiles := rfl
@[simp] theorem State.setPipe_flanks (s : State) (p : Nat) (v : Pipeline) : (s.setPipe p v).flanks = s.flanks := rfl
@[simp] theorem State.setPipe_pages (s : State) (p : Nat) (v : Pipeline) : (s.setPipe p v).pages = s.pages := rfl
@[simp] theorem State.setPipe_journal (s : State) (p : Nat) (v : Pipeline) : (s.setPipe p v).journal = s.journal := rfl
@[simp] theorem State.setPipe_feeders (s : State) (p : Nat) (v : Pipeline) : (s.setPipe p v).feeders = s.feeders := rfl
@[simp] theorem State.setPipe_ops (s : State) (p : Nat) (v : Pipeline) : (s.setPipe p v).ops = s.ops := rfl
@[simp] theorem State.setPipe_nextOp (s : State) (p : Nat) (v : Pipeline) : (s.setPipe p v).nextOp = s.nextOp := rfl
@[simp] theorem State.setPipe_barriers (s : State) (p : Nat) (v : Pipeline) : (s.setPipe p v).barriers = s.barriers := rfl
@[simp] theorem State.setPipe_store (s : State) (p : Nat) (v : Pipeline) : (s.setPipe p v).store = s.store := rfl
@[simp] theorem State.setPipe_fabric (s : State) (p : Nat) (v : Pipeline) : (s.setPipe p v).fabric = s.fabric := rfl
@[simp] theorem State.setPipe_mem (s : State) (p : Nat) (v : Pipeline) : (s.setPipe p v).mem = s.mem := rfl
@[simp] theorem State.setPipe_audio (s : State) (p : Nat) (v : Pipeline) : (s.setPipe p v).audio = s.audio := rfl
@[simp] theorem State.setPipe_power (s : State) (p : Nat) (v : Pipeline) : (s.setPipe p v).power = s.power := rfl
@[simp] theorem State.setPipe_boot (s : State) (p : Nat) (v : Pipeline) : (s.setPipe p v).boot = s.boot := rfl
@[simp] theorem State.setPipe_mgmt (s : State) (p : Nat) (v : Pipeline) : (s.setPipe p v).mgmt = s.mgmt := rfl
@[simp] theorem State.setPipe_pins (s : State) (p : Nat) (v : Pipeline) : (s.setPipe p v).pins = s.pins := rfl

/-! ## State.setStream changes streams only -/

@[simp] theorem State.setStream_pending (s : State) (i : Nat) (v : Stream) : (s.setStream i v).pending = s.pending := rfl
@[simp] theorem State.setStream_free (s : State) (i : Nat) (v : Stream) : (s.setStream i v).free = s.free := rfl
@[simp] theorem State.setStream_dt (s : State) (i : Nat) (v : Stream) : (s.setStream i v).dt = s.dt := rfl
@[simp] theorem State.setStream_site (s : State) (i : Nat) (v : Stream) : (s.setStream i v).site = s.site := rfl
@[simp] theorem State.setStream_ports (s : State) (i : Nat) (v : Stream) : (s.setStream i v).ports = s.ports := rfl
@[simp] theorem State.setStream_parts (s : State) (i : Nat) (v : Stream) : (s.setStream i v).parts = s.parts := rfl
@[simp] theorem State.setStream_contents (s : State) (i : Nat) (v : Stream) : (s.setStream i v).contents = s.contents := rfl
@[simp] theorem State.setStream_nextContent (s : State) (i : Nat) (v : Stream) : (s.setStream i v).nextContent = s.nextContent := rfl
@[simp] theorem State.setStream_models (s : State) (i : Nat) (v : Stream) : (s.setStream i v).models = s.models := rfl
@[simp] theorem State.setStream_loads (s : State) (i : Nat) (v : Stream) : (s.setStream i v).loads = s.loads := rfl
@[simp] theorem State.setStream_nextLoad (s : State) (i : Nat) (v : Stream) : (s.setStream i v).nextLoad = s.nextLoad := rfl
@[simp] theorem State.setStream_pipes (s : State) (i : Nat) (v : Stream) : (s.setStream i v).pipes = s.pipes := rfl
@[simp] theorem State.setStream_branches (s : State) (i : Nat) (v : Stream) : (s.setStream i v).branches = s.branches := rfl
@[simp] theorem State.setStream_attachSeq (s : State) (i : Nat) (v : Stream) : (s.setStream i v).attachSeq = s.attachSeq := rfl
@[simp] theorem State.setStream_tiles (s : State) (i : Nat) (v : Stream) : (s.setStream i v).tiles = s.tiles := rfl
@[simp] theorem State.setStream_flanks (s : State) (i : Nat) (v : Stream) : (s.setStream i v).flanks = s.flanks := rfl
@[simp] theorem State.setStream_pages (s : State) (i : Nat) (v : Stream) : (s.setStream i v).pages = s.pages := rfl
@[simp] theorem State.setStream_journal (s : State) (i : Nat) (v : Stream) : (s.setStream i v).journal = s.journal := rfl
@[simp] theorem State.setStream_feeders (s : State) (i : Nat) (v : Stream) : (s.setStream i v).feeders = s.feeders := rfl
@[simp] theorem State.setStream_ops (s : State) (i : Nat) (v : Stream) : (s.setStream i v).ops = s.ops := rfl
@[simp] theorem State.setStream_nextOp (s : State) (i : Nat) (v : Stream) : (s.setStream i v).nextOp = s.nextOp := rfl
@[simp] theorem State.setStream_barriers (s : State) (i : Nat) (v : Stream) : (s.setStream i v).barriers = s.barriers := rfl
@[simp] theorem State.setStream_store (s : State) (i : Nat) (v : Stream) : (s.setStream i v).store = s.store := rfl
@[simp] theorem State.setStream_fabric (s : State) (i : Nat) (v : Stream) : (s.setStream i v).fabric = s.fabric := rfl
@[simp] theorem State.setStream_mem (s : State) (i : Nat) (v : Stream) : (s.setStream i v).mem = s.mem := rfl
@[simp] theorem State.setStream_audio (s : State) (i : Nat) (v : Stream) : (s.setStream i v).audio = s.audio := rfl
@[simp] theorem State.setStream_power (s : State) (i : Nat) (v : Stream) : (s.setStream i v).power = s.power := rfl
@[simp] theorem State.setStream_boot (s : State) (i : Nat) (v : Stream) : (s.setStream i v).boot = s.boot := rfl
@[simp] theorem State.setStream_mgmt (s : State) (i : Nat) (v : Stream) : (s.setStream i v).mgmt = s.mgmt := rfl
@[simp] theorem State.setStream_pins (s : State) (i : Nat) (v : Stream) : (s.setStream i v).pins = s.pins := rfl

/-! ## State.updStream changes streams only -/

@[simp] theorem State.updStream_pending (s : State) (i : Nat) (f : Stream → Stream) : (s.updStream i f).pending = s.pending := rfl
@[simp] theorem State.updStream_free (s : State) (i : Nat) (f : Stream → Stream) : (s.updStream i f).free = s.free := rfl
@[simp] theorem State.updStream_dt (s : State) (i : Nat) (f : Stream → Stream) : (s.updStream i f).dt = s.dt := rfl
@[simp] theorem State.updStream_site (s : State) (i : Nat) (f : Stream → Stream) : (s.updStream i f).site = s.site := rfl
@[simp] theorem State.updStream_ports (s : State) (i : Nat) (f : Stream → Stream) : (s.updStream i f).ports = s.ports := rfl
@[simp] theorem State.updStream_parts (s : State) (i : Nat) (f : Stream → Stream) : (s.updStream i f).parts = s.parts := rfl
@[simp] theorem State.updStream_contents (s : State) (i : Nat) (f : Stream → Stream) : (s.updStream i f).contents = s.contents := rfl
@[simp] theorem State.updStream_nextContent (s : State) (i : Nat) (f : Stream → Stream) : (s.updStream i f).nextContent = s.nextContent := rfl
@[simp] theorem State.updStream_models (s : State) (i : Nat) (f : Stream → Stream) : (s.updStream i f).models = s.models := rfl
@[simp] theorem State.updStream_loads (s : State) (i : Nat) (f : Stream → Stream) : (s.updStream i f).loads = s.loads := rfl
@[simp] theorem State.updStream_nextLoad (s : State) (i : Nat) (f : Stream → Stream) : (s.updStream i f).nextLoad = s.nextLoad := rfl
@[simp] theorem State.updStream_pipes (s : State) (i : Nat) (f : Stream → Stream) : (s.updStream i f).pipes = s.pipes := rfl
@[simp] theorem State.updStream_branches (s : State) (i : Nat) (f : Stream → Stream) : (s.updStream i f).branches = s.branches := rfl
@[simp] theorem State.updStream_attachSeq (s : State) (i : Nat) (f : Stream → Stream) : (s.updStream i f).attachSeq = s.attachSeq := rfl
@[simp] theorem State.updStream_tiles (s : State) (i : Nat) (f : Stream → Stream) : (s.updStream i f).tiles = s.tiles := rfl
@[simp] theorem State.updStream_flanks (s : State) (i : Nat) (f : Stream → Stream) : (s.updStream i f).flanks = s.flanks := rfl
@[simp] theorem State.updStream_pages (s : State) (i : Nat) (f : Stream → Stream) : (s.updStream i f).pages = s.pages := rfl
@[simp] theorem State.updStream_journal (s : State) (i : Nat) (f : Stream → Stream) : (s.updStream i f).journal = s.journal := rfl
@[simp] theorem State.updStream_feeders (s : State) (i : Nat) (f : Stream → Stream) : (s.updStream i f).feeders = s.feeders := rfl
@[simp] theorem State.updStream_ops (s : State) (i : Nat) (f : Stream → Stream) : (s.updStream i f).ops = s.ops := rfl
@[simp] theorem State.updStream_nextOp (s : State) (i : Nat) (f : Stream → Stream) : (s.updStream i f).nextOp = s.nextOp := rfl
@[simp] theorem State.updStream_barriers (s : State) (i : Nat) (f : Stream → Stream) : (s.updStream i f).barriers = s.barriers := rfl
@[simp] theorem State.updStream_store (s : State) (i : Nat) (f : Stream → Stream) : (s.updStream i f).store = s.store := rfl
@[simp] theorem State.updStream_fabric (s : State) (i : Nat) (f : Stream → Stream) : (s.updStream i f).fabric = s.fabric := rfl
@[simp] theorem State.updStream_mem (s : State) (i : Nat) (f : Stream → Stream) : (s.updStream i f).mem = s.mem := rfl
@[simp] theorem State.updStream_audio (s : State) (i : Nat) (f : Stream → Stream) : (s.updStream i f).audio = s.audio := rfl
@[simp] theorem State.updStream_power (s : State) (i : Nat) (f : Stream → Stream) : (s.updStream i f).power = s.power := rfl
@[simp] theorem State.updStream_boot (s : State) (i : Nat) (f : Stream → Stream) : (s.updStream i f).boot = s.boot := rfl
@[simp] theorem State.updStream_mgmt (s : State) (i : Nat) (f : Stream → Stream) : (s.updStream i f).mgmt = s.mgmt := rfl
@[simp] theorem State.updStream_pins (s : State) (i : Nat) (f : Stream → Stream) : (s.updStream i f).pins = s.pins := rfl

/-! ## State.setBranch changes branches only -/

@[simp] theorem State.setBranch_pending (s : State) (i : Nat) (v : Branch) : (s.setBranch i v).pending = s.pending := rfl
@[simp] theorem State.setBranch_free (s : State) (i : Nat) (v : Branch) : (s.setBranch i v).free = s.free := rfl
@[simp] theorem State.setBranch_dt (s : State) (i : Nat) (v : Branch) : (s.setBranch i v).dt = s.dt := rfl
@[simp] theorem State.setBranch_site (s : State) (i : Nat) (v : Branch) : (s.setBranch i v).site = s.site := rfl
@[simp] theorem State.setBranch_ports (s : State) (i : Nat) (v : Branch) : (s.setBranch i v).ports = s.ports := rfl
@[simp] theorem State.setBranch_parts (s : State) (i : Nat) (v : Branch) : (s.setBranch i v).parts = s.parts := rfl
@[simp] theorem State.setBranch_contents (s : State) (i : Nat) (v : Branch) : (s.setBranch i v).contents = s.contents := rfl
@[simp] theorem State.setBranch_nextContent (s : State) (i : Nat) (v : Branch) : (s.setBranch i v).nextContent = s.nextContent := rfl
@[simp] theorem State.setBranch_models (s : State) (i : Nat) (v : Branch) : (s.setBranch i v).models = s.models := rfl
@[simp] theorem State.setBranch_loads (s : State) (i : Nat) (v : Branch) : (s.setBranch i v).loads = s.loads := rfl
@[simp] theorem State.setBranch_nextLoad (s : State) (i : Nat) (v : Branch) : (s.setBranch i v).nextLoad = s.nextLoad := rfl
@[simp] theorem State.setBranch_pipes (s : State) (i : Nat) (v : Branch) : (s.setBranch i v).pipes = s.pipes := rfl
@[simp] theorem State.setBranch_streams (s : State) (i : Nat) (v : Branch) : (s.setBranch i v).streams = s.streams := rfl
@[simp] theorem State.setBranch_attachSeq (s : State) (i : Nat) (v : Branch) : (s.setBranch i v).attachSeq = s.attachSeq := rfl
@[simp] theorem State.setBranch_tiles (s : State) (i : Nat) (v : Branch) : (s.setBranch i v).tiles = s.tiles := rfl
@[simp] theorem State.setBranch_flanks (s : State) (i : Nat) (v : Branch) : (s.setBranch i v).flanks = s.flanks := rfl
@[simp] theorem State.setBranch_pages (s : State) (i : Nat) (v : Branch) : (s.setBranch i v).pages = s.pages := rfl
@[simp] theorem State.setBranch_journal (s : State) (i : Nat) (v : Branch) : (s.setBranch i v).journal = s.journal := rfl
@[simp] theorem State.setBranch_feeders (s : State) (i : Nat) (v : Branch) : (s.setBranch i v).feeders = s.feeders := rfl
@[simp] theorem State.setBranch_ops (s : State) (i : Nat) (v : Branch) : (s.setBranch i v).ops = s.ops := rfl
@[simp] theorem State.setBranch_nextOp (s : State) (i : Nat) (v : Branch) : (s.setBranch i v).nextOp = s.nextOp := rfl
@[simp] theorem State.setBranch_barriers (s : State) (i : Nat) (v : Branch) : (s.setBranch i v).barriers = s.barriers := rfl
@[simp] theorem State.setBranch_store (s : State) (i : Nat) (v : Branch) : (s.setBranch i v).store = s.store := rfl
@[simp] theorem State.setBranch_fabric (s : State) (i : Nat) (v : Branch) : (s.setBranch i v).fabric = s.fabric := rfl
@[simp] theorem State.setBranch_mem (s : State) (i : Nat) (v : Branch) : (s.setBranch i v).mem = s.mem := rfl
@[simp] theorem State.setBranch_audio (s : State) (i : Nat) (v : Branch) : (s.setBranch i v).audio = s.audio := rfl
@[simp] theorem State.setBranch_power (s : State) (i : Nat) (v : Branch) : (s.setBranch i v).power = s.power := rfl
@[simp] theorem State.setBranch_boot (s : State) (i : Nat) (v : Branch) : (s.setBranch i v).boot = s.boot := rfl
@[simp] theorem State.setBranch_mgmt (s : State) (i : Nat) (v : Branch) : (s.setBranch i v).mgmt = s.mgmt := rfl
@[simp] theorem State.setBranch_pins (s : State) (i : Nat) (v : Branch) : (s.setBranch i v).pins = s.pins := rfl

/-! ## State.updBranch changes branches only -/

@[simp] theorem State.updBranch_pending (s : State) (i : Nat) (f : Branch → Branch) : (s.updBranch i f).pending = s.pending := rfl
@[simp] theorem State.updBranch_free (s : State) (i : Nat) (f : Branch → Branch) : (s.updBranch i f).free = s.free := rfl
@[simp] theorem State.updBranch_dt (s : State) (i : Nat) (f : Branch → Branch) : (s.updBranch i f).dt = s.dt := rfl
@[simp] theorem State.updBranch_site (s : State) (i : Nat) (f : Branch → Branch) : (s.updBranch i f).site = s.site := rfl
@[simp] theorem State.updBranch_ports (s : State) (i : Nat) (f : Branch → Branch) : (s.updBranch i f).ports = s.ports := rfl
@[simp] theorem State.updBranch_parts (s : State) (i : Nat) (f : Branch → Branch) : (s.updBranch i f).parts = s.parts := rfl
@[simp] theorem State.updBranch_contents (s : State) (i : Nat) (f : Branch → Branch) : (s.updBranch i f).contents = s.contents := rfl
@[simp] theorem State.updBranch_nextContent (s : State) (i : Nat) (f : Branch → Branch) : (s.updBranch i f).nextContent = s.nextContent := rfl
@[simp] theorem State.updBranch_models (s : State) (i : Nat) (f : Branch → Branch) : (s.updBranch i f).models = s.models := rfl
@[simp] theorem State.updBranch_loads (s : State) (i : Nat) (f : Branch → Branch) : (s.updBranch i f).loads = s.loads := rfl
@[simp] theorem State.updBranch_nextLoad (s : State) (i : Nat) (f : Branch → Branch) : (s.updBranch i f).nextLoad = s.nextLoad := rfl
@[simp] theorem State.updBranch_pipes (s : State) (i : Nat) (f : Branch → Branch) : (s.updBranch i f).pipes = s.pipes := rfl
@[simp] theorem State.updBranch_streams (s : State) (i : Nat) (f : Branch → Branch) : (s.updBranch i f).streams = s.streams := rfl
@[simp] theorem State.updBranch_attachSeq (s : State) (i : Nat) (f : Branch → Branch) : (s.updBranch i f).attachSeq = s.attachSeq := rfl
@[simp] theorem State.updBranch_tiles (s : State) (i : Nat) (f : Branch → Branch) : (s.updBranch i f).tiles = s.tiles := rfl
@[simp] theorem State.updBranch_flanks (s : State) (i : Nat) (f : Branch → Branch) : (s.updBranch i f).flanks = s.flanks := rfl
@[simp] theorem State.updBranch_pages (s : State) (i : Nat) (f : Branch → Branch) : (s.updBranch i f).pages = s.pages := rfl
@[simp] theorem State.updBranch_journal (s : State) (i : Nat) (f : Branch → Branch) : (s.updBranch i f).journal = s.journal := rfl
@[simp] theorem State.updBranch_feeders (s : State) (i : Nat) (f : Branch → Branch) : (s.updBranch i f).feeders = s.feeders := rfl
@[simp] theorem State.updBranch_ops (s : State) (i : Nat) (f : Branch → Branch) : (s.updBranch i f).ops = s.ops := rfl
@[simp] theorem State.updBranch_nextOp (s : State) (i : Nat) (f : Branch → Branch) : (s.updBranch i f).nextOp = s.nextOp := rfl
@[simp] theorem State.updBranch_barriers (s : State) (i : Nat) (f : Branch → Branch) : (s.updBranch i f).barriers = s.barriers := rfl
@[simp] theorem State.updBranch_store (s : State) (i : Nat) (f : Branch → Branch) : (s.updBranch i f).store = s.store := rfl
@[simp] theorem State.updBranch_fabric (s : State) (i : Nat) (f : Branch → Branch) : (s.updBranch i f).fabric = s.fabric := rfl
@[simp] theorem State.updBranch_mem (s : State) (i : Nat) (f : Branch → Branch) : (s.updBranch i f).mem = s.mem := rfl
@[simp] theorem State.updBranch_audio (s : State) (i : Nat) (f : Branch → Branch) : (s.updBranch i f).audio = s.audio := rfl
@[simp] theorem State.updBranch_power (s : State) (i : Nat) (f : Branch → Branch) : (s.updBranch i f).power = s.power := rfl
@[simp] theorem State.updBranch_boot (s : State) (i : Nat) (f : Branch → Branch) : (s.updBranch i f).boot = s.boot := rfl
@[simp] theorem State.updBranch_mgmt (s : State) (i : Nat) (f : Branch → Branch) : (s.updBranch i f).mgmt = s.mgmt := rfl
@[simp] theorem State.updBranch_pins (s : State) (i : Nat) (f : Branch → Branch) : (s.updBranch i f).pins = s.pins := rfl

/-! ## State.updFlank changes flanks only -/

@[simp] theorem State.updFlank_pending (s : State) (f : Nat) (g : Flank → Flank) : (s.updFlank f g).pending = s.pending := rfl
@[simp] theorem State.updFlank_free (s : State) (f : Nat) (g : Flank → Flank) : (s.updFlank f g).free = s.free := rfl
@[simp] theorem State.updFlank_dt (s : State) (f : Nat) (g : Flank → Flank) : (s.updFlank f g).dt = s.dt := rfl
@[simp] theorem State.updFlank_site (s : State) (f : Nat) (g : Flank → Flank) : (s.updFlank f g).site = s.site := rfl
@[simp] theorem State.updFlank_ports (s : State) (f : Nat) (g : Flank → Flank) : (s.updFlank f g).ports = s.ports := rfl
@[simp] theorem State.updFlank_parts (s : State) (f : Nat) (g : Flank → Flank) : (s.updFlank f g).parts = s.parts := rfl
@[simp] theorem State.updFlank_contents (s : State) (f : Nat) (g : Flank → Flank) : (s.updFlank f g).contents = s.contents := rfl
@[simp] theorem State.updFlank_nextContent (s : State) (f : Nat) (g : Flank → Flank) : (s.updFlank f g).nextContent = s.nextContent := rfl
@[simp] theorem State.updFlank_models (s : State) (f : Nat) (g : Flank → Flank) : (s.updFlank f g).models = s.models := rfl
@[simp] theorem State.updFlank_loads (s : State) (f : Nat) (g : Flank → Flank) : (s.updFlank f g).loads = s.loads := rfl
@[simp] theorem State.updFlank_nextLoad (s : State) (f : Nat) (g : Flank → Flank) : (s.updFlank f g).nextLoad = s.nextLoad := rfl
@[simp] theorem State.updFlank_pipes (s : State) (f : Nat) (g : Flank → Flank) : (s.updFlank f g).pipes = s.pipes := rfl
@[simp] theorem State.updFlank_streams (s : State) (f : Nat) (g : Flank → Flank) : (s.updFlank f g).streams = s.streams := rfl
@[simp] theorem State.updFlank_branches (s : State) (f : Nat) (g : Flank → Flank) : (s.updFlank f g).branches = s.branches := rfl
@[simp] theorem State.updFlank_attachSeq (s : State) (f : Nat) (g : Flank → Flank) : (s.updFlank f g).attachSeq = s.attachSeq := rfl
@[simp] theorem State.updFlank_tiles (s : State) (f : Nat) (g : Flank → Flank) : (s.updFlank f g).tiles = s.tiles := rfl
@[simp] theorem State.updFlank_pages (s : State) (f : Nat) (g : Flank → Flank) : (s.updFlank f g).pages = s.pages := rfl
@[simp] theorem State.updFlank_journal (s : State) (f : Nat) (g : Flank → Flank) : (s.updFlank f g).journal = s.journal := rfl
@[simp] theorem State.updFlank_feeders (s : State) (f : Nat) (g : Flank → Flank) : (s.updFlank f g).feeders = s.feeders := rfl
@[simp] theorem State.updFlank_ops (s : State) (f : Nat) (g : Flank → Flank) : (s.updFlank f g).ops = s.ops := rfl
@[simp] theorem State.updFlank_nextOp (s : State) (f : Nat) (g : Flank → Flank) : (s.updFlank f g).nextOp = s.nextOp := rfl
@[simp] theorem State.updFlank_barriers (s : State) (f : Nat) (g : Flank → Flank) : (s.updFlank f g).barriers = s.barriers := rfl
@[simp] theorem State.updFlank_store (s : State) (f : Nat) (g : Flank → Flank) : (s.updFlank f g).store = s.store := rfl
@[simp] theorem State.updFlank_fabric (s : State) (f : Nat) (g : Flank → Flank) : (s.updFlank f g).fabric = s.fabric := rfl
@[simp] theorem State.updFlank_mem (s : State) (f : Nat) (g : Flank → Flank) : (s.updFlank f g).mem = s.mem := rfl
@[simp] theorem State.updFlank_audio (s : State) (f : Nat) (g : Flank → Flank) : (s.updFlank f g).audio = s.audio := rfl
@[simp] theorem State.updFlank_power (s : State) (f : Nat) (g : Flank → Flank) : (s.updFlank f g).power = s.power := rfl
@[simp] theorem State.updFlank_boot (s : State) (f : Nat) (g : Flank → Flank) : (s.updFlank f g).boot = s.boot := rfl
@[simp] theorem State.updFlank_mgmt (s : State) (f : Nat) (g : Flank → Flank) : (s.updFlank f g).mgmt = s.mgmt := rfl
@[simp] theorem State.updFlank_pins (s : State) (f : Nat) (g : Flank → Flank) : (s.updFlank f g).pins = s.pins := rfl

/-! ## State.updFeeder changes feeders only -/

@[simp] theorem State.updFeeder_pending (s : State) (f : Nat) (g : Feeder → Feeder) : (s.updFeeder f g).pending = s.pending := rfl
@[simp] theorem State.updFeeder_free (s : State) (f : Nat) (g : Feeder → Feeder) : (s.updFeeder f g).free = s.free := rfl
@[simp] theorem State.updFeeder_dt (s : State) (f : Nat) (g : Feeder → Feeder) : (s.updFeeder f g).dt = s.dt := rfl
@[simp] theorem State.updFeeder_site (s : State) (f : Nat) (g : Feeder → Feeder) : (s.updFeeder f g).site = s.site := rfl
@[simp] theorem State.updFeeder_ports (s : State) (f : Nat) (g : Feeder → Feeder) : (s.updFeeder f g).ports = s.ports := rfl
@[simp] theorem State.updFeeder_parts (s : State) (f : Nat) (g : Feeder → Feeder) : (s.updFeeder f g).parts = s.parts := rfl
@[simp] theorem State.updFeeder_contents (s : State) (f : Nat) (g : Feeder → Feeder) : (s.updFeeder f g).contents = s.contents := rfl
@[simp] theorem State.updFeeder_nextContent (s : State) (f : Nat) (g : Feeder → Feeder) : (s.updFeeder f g).nextContent = s.nextContent := rfl
@[simp] theorem State.updFeeder_models (s : State) (f : Nat) (g : Feeder → Feeder) : (s.updFeeder f g).models = s.models := rfl
@[simp] theorem State.updFeeder_loads (s : State) (f : Nat) (g : Feeder → Feeder) : (s.updFeeder f g).loads = s.loads := rfl
@[simp] theorem State.updFeeder_nextLoad (s : State) (f : Nat) (g : Feeder → Feeder) : (s.updFeeder f g).nextLoad = s.nextLoad := rfl
@[simp] theorem State.updFeeder_pipes (s : State) (f : Nat) (g : Feeder → Feeder) : (s.updFeeder f g).pipes = s.pipes := rfl
@[simp] theorem State.updFeeder_streams (s : State) (f : Nat) (g : Feeder → Feeder) : (s.updFeeder f g).streams = s.streams := rfl
@[simp] theorem State.updFeeder_branches (s : State) (f : Nat) (g : Feeder → Feeder) : (s.updFeeder f g).branches = s.branches := rfl
@[simp] theorem State.updFeeder_attachSeq (s : State) (f : Nat) (g : Feeder → Feeder) : (s.updFeeder f g).attachSeq = s.attachSeq := rfl
@[simp] theorem State.updFeeder_tiles (s : State) (f : Nat) (g : Feeder → Feeder) : (s.updFeeder f g).tiles = s.tiles := rfl
@[simp] theorem State.updFeeder_flanks (s : State) (f : Nat) (g : Feeder → Feeder) : (s.updFeeder f g).flanks = s.flanks := rfl
@[simp] theorem State.updFeeder_pages (s : State) (f : Nat) (g : Feeder → Feeder) : (s.updFeeder f g).pages = s.pages := rfl
@[simp] theorem State.updFeeder_journal (s : State) (f : Nat) (g : Feeder → Feeder) : (s.updFeeder f g).journal = s.journal := rfl
@[simp] theorem State.updFeeder_ops (s : State) (f : Nat) (g : Feeder → Feeder) : (s.updFeeder f g).ops = s.ops := rfl
@[simp] theorem State.updFeeder_nextOp (s : State) (f : Nat) (g : Feeder → Feeder) : (s.updFeeder f g).nextOp = s.nextOp := rfl
@[simp] theorem State.updFeeder_barriers (s : State) (f : Nat) (g : Feeder → Feeder) : (s.updFeeder f g).barriers = s.barriers := rfl
@[simp] theorem State.updFeeder_store (s : State) (f : Nat) (g : Feeder → Feeder) : (s.updFeeder f g).store = s.store := rfl
@[simp] theorem State.updFeeder_fabric (s : State) (f : Nat) (g : Feeder → Feeder) : (s.updFeeder f g).fabric = s.fabric := rfl
@[simp] theorem State.updFeeder_mem (s : State) (f : Nat) (g : Feeder → Feeder) : (s.updFeeder f g).mem = s.mem := rfl
@[simp] theorem State.updFeeder_audio (s : State) (f : Nat) (g : Feeder → Feeder) : (s.updFeeder f g).audio = s.audio := rfl
@[simp] theorem State.updFeeder_power (s : State) (f : Nat) (g : Feeder → Feeder) : (s.updFeeder f g).power = s.power := rfl
@[simp] theorem State.updFeeder_boot (s : State) (f : Nat) (g : Feeder → Feeder) : (s.updFeeder f g).boot = s.boot := rfl
@[simp] theorem State.updFeeder_mgmt (s : State) (f : Nat) (g : Feeder → Feeder) : (s.updFeeder f g).mgmt = s.mgmt := rfl
@[simp] theorem State.updFeeder_pins (s : State) (f : Nat) (g : Feeder → Feeder) : (s.updFeeder f g).pins = s.pins := rfl

/-! ## State.updBarrier changes barriers only -/

@[simp] theorem State.updBarrier_pending (s : State) (f i : Nat) (g : Barrier → Barrier) : (s.updBarrier f i g).pending = s.pending := rfl
@[simp] theorem State.updBarrier_free (s : State) (f i : Nat) (g : Barrier → Barrier) : (s.updBarrier f i g).free = s.free := rfl
@[simp] theorem State.updBarrier_dt (s : State) (f i : Nat) (g : Barrier → Barrier) : (s.updBarrier f i g).dt = s.dt := rfl
@[simp] theorem State.updBarrier_site (s : State) (f i : Nat) (g : Barrier → Barrier) : (s.updBarrier f i g).site = s.site := rfl
@[simp] theorem State.updBarrier_ports (s : State) (f i : Nat) (g : Barrier → Barrier) : (s.updBarrier f i g).ports = s.ports := rfl
@[simp] theorem State.updBarrier_parts (s : State) (f i : Nat) (g : Barrier → Barrier) : (s.updBarrier f i g).parts = s.parts := rfl
@[simp] theorem State.updBarrier_contents (s : State) (f i : Nat) (g : Barrier → Barrier) : (s.updBarrier f i g).contents = s.contents := rfl
@[simp] theorem State.updBarrier_nextContent (s : State) (f i : Nat) (g : Barrier → Barrier) : (s.updBarrier f i g).nextContent = s.nextContent := rfl
@[simp] theorem State.updBarrier_models (s : State) (f i : Nat) (g : Barrier → Barrier) : (s.updBarrier f i g).models = s.models := rfl
@[simp] theorem State.updBarrier_loads (s : State) (f i : Nat) (g : Barrier → Barrier) : (s.updBarrier f i g).loads = s.loads := rfl
@[simp] theorem State.updBarrier_nextLoad (s : State) (f i : Nat) (g : Barrier → Barrier) : (s.updBarrier f i g).nextLoad = s.nextLoad := rfl
@[simp] theorem State.updBarrier_pipes (s : State) (f i : Nat) (g : Barrier → Barrier) : (s.updBarrier f i g).pipes = s.pipes := rfl
@[simp] theorem State.updBarrier_streams (s : State) (f i : Nat) (g : Barrier → Barrier) : (s.updBarrier f i g).streams = s.streams := rfl
@[simp] theorem State.updBarrier_branches (s : State) (f i : Nat) (g : Barrier → Barrier) : (s.updBarrier f i g).branches = s.branches := rfl
@[simp] theorem State.updBarrier_attachSeq (s : State) (f i : Nat) (g : Barrier → Barrier) : (s.updBarrier f i g).attachSeq = s.attachSeq := rfl
@[simp] theorem State.updBarrier_tiles (s : State) (f i : Nat) (g : Barrier → Barrier) : (s.updBarrier f i g).tiles = s.tiles := rfl
@[simp] theorem State.updBarrier_flanks (s : State) (f i : Nat) (g : Barrier → Barrier) : (s.updBarrier f i g).flanks = s.flanks := rfl
@[simp] theorem State.updBarrier_pages (s : State) (f i : Nat) (g : Barrier → Barrier) : (s.updBarrier f i g).pages = s.pages := rfl
@[simp] theorem State.updBarrier_journal (s : State) (f i : Nat) (g : Barrier → Barrier) : (s.updBarrier f i g).journal = s.journal := rfl
@[simp] theorem State.updBarrier_feeders (s : State) (f i : Nat) (g : Barrier → Barrier) : (s.updBarrier f i g).feeders = s.feeders := rfl
@[simp] theorem State.updBarrier_ops (s : State) (f i : Nat) (g : Barrier → Barrier) : (s.updBarrier f i g).ops = s.ops := rfl
@[simp] theorem State.updBarrier_nextOp (s : State) (f i : Nat) (g : Barrier → Barrier) : (s.updBarrier f i g).nextOp = s.nextOp := rfl
@[simp] theorem State.updBarrier_store (s : State) (f i : Nat) (g : Barrier → Barrier) : (s.updBarrier f i g).store = s.store := rfl
@[simp] theorem State.updBarrier_fabric (s : State) (f i : Nat) (g : Barrier → Barrier) : (s.updBarrier f i g).fabric = s.fabric := rfl
@[simp] theorem State.updBarrier_mem (s : State) (f i : Nat) (g : Barrier → Barrier) : (s.updBarrier f i g).mem = s.mem := rfl
@[simp] theorem State.updBarrier_audio (s : State) (f i : Nat) (g : Barrier → Barrier) : (s.updBarrier f i g).audio = s.audio := rfl
@[simp] theorem State.updBarrier_power (s : State) (f i : Nat) (g : Barrier → Barrier) : (s.updBarrier f i g).power = s.power := rfl
@[simp] theorem State.updBarrier_boot (s : State) (f i : Nat) (g : Barrier → Barrier) : (s.updBarrier f i g).boot = s.boot := rfl
@[simp] theorem State.updBarrier_mgmt (s : State) (f i : Nat) (g : Barrier → Barrier) : (s.updBarrier f i g).mgmt = s.mgmt := rfl
@[simp] theorem State.updBarrier_pins (s : State) (f i : Nat) (g : Barrier → Barrier) : (s.updBarrier f i g).pins = s.pins := rfl

/-! ## State.updPage changes pages only -/

@[simp] theorem State.updPage_pending (s : State) (p : Nat) (g : PageRec → PageRec) : (s.updPage p g).pending = s.pending := rfl
@[simp] theorem State.updPage_free (s : State) (p : Nat) (g : PageRec → PageRec) : (s.updPage p g).free = s.free := rfl
@[simp] theorem State.updPage_dt (s : State) (p : Nat) (g : PageRec → PageRec) : (s.updPage p g).dt = s.dt := rfl
@[simp] theorem State.updPage_site (s : State) (p : Nat) (g : PageRec → PageRec) : (s.updPage p g).site = s.site := rfl
@[simp] theorem State.updPage_ports (s : State) (p : Nat) (g : PageRec → PageRec) : (s.updPage p g).ports = s.ports := rfl
@[simp] theorem State.updPage_parts (s : State) (p : Nat) (g : PageRec → PageRec) : (s.updPage p g).parts = s.parts := rfl
@[simp] theorem State.updPage_contents (s : State) (p : Nat) (g : PageRec → PageRec) : (s.updPage p g).contents = s.contents := rfl
@[simp] theorem State.updPage_nextContent (s : State) (p : Nat) (g : PageRec → PageRec) : (s.updPage p g).nextContent = s.nextContent := rfl
@[simp] theorem State.updPage_models (s : State) (p : Nat) (g : PageRec → PageRec) : (s.updPage p g).models = s.models := rfl
@[simp] theorem State.updPage_loads (s : State) (p : Nat) (g : PageRec → PageRec) : (s.updPage p g).loads = s.loads := rfl
@[simp] theorem State.updPage_nextLoad (s : State) (p : Nat) (g : PageRec → PageRec) : (s.updPage p g).nextLoad = s.nextLoad := rfl
@[simp] theorem State.updPage_pipes (s : State) (p : Nat) (g : PageRec → PageRec) : (s.updPage p g).pipes = s.pipes := rfl
@[simp] theorem State.updPage_streams (s : State) (p : Nat) (g : PageRec → PageRec) : (s.updPage p g).streams = s.streams := rfl
@[simp] theorem State.updPage_branches (s : State) (p : Nat) (g : PageRec → PageRec) : (s.updPage p g).branches = s.branches := rfl
@[simp] theorem State.updPage_attachSeq (s : State) (p : Nat) (g : PageRec → PageRec) : (s.updPage p g).attachSeq = s.attachSeq := rfl
@[simp] theorem State.updPage_tiles (s : State) (p : Nat) (g : PageRec → PageRec) : (s.updPage p g).tiles = s.tiles := rfl
@[simp] theorem State.updPage_flanks (s : State) (p : Nat) (g : PageRec → PageRec) : (s.updPage p g).flanks = s.flanks := rfl
@[simp] theorem State.updPage_journal (s : State) (p : Nat) (g : PageRec → PageRec) : (s.updPage p g).journal = s.journal := rfl
@[simp] theorem State.updPage_feeders (s : State) (p : Nat) (g : PageRec → PageRec) : (s.updPage p g).feeders = s.feeders := rfl
@[simp] theorem State.updPage_ops (s : State) (p : Nat) (g : PageRec → PageRec) : (s.updPage p g).ops = s.ops := rfl
@[simp] theorem State.updPage_nextOp (s : State) (p : Nat) (g : PageRec → PageRec) : (s.updPage p g).nextOp = s.nextOp := rfl
@[simp] theorem State.updPage_barriers (s : State) (p : Nat) (g : PageRec → PageRec) : (s.updPage p g).barriers = s.barriers := rfl
@[simp] theorem State.updPage_store (s : State) (p : Nat) (g : PageRec → PageRec) : (s.updPage p g).store = s.store := rfl
@[simp] theorem State.updPage_fabric (s : State) (p : Nat) (g : PageRec → PageRec) : (s.updPage p g).fabric = s.fabric := rfl
@[simp] theorem State.updPage_mem (s : State) (p : Nat) (g : PageRec → PageRec) : (s.updPage p g).mem = s.mem := rfl
@[simp] theorem State.updPage_audio (s : State) (p : Nat) (g : PageRec → PageRec) : (s.updPage p g).audio = s.audio := rfl
@[simp] theorem State.updPage_power (s : State) (p : Nat) (g : PageRec → PageRec) : (s.updPage p g).power = s.power := rfl
@[simp] theorem State.updPage_boot (s : State) (p : Nat) (g : PageRec → PageRec) : (s.updPage p g).boot = s.boot := rfl
@[simp] theorem State.updPage_mgmt (s : State) (p : Nat) (g : PageRec → PageRec) : (s.updPage p g).mgmt = s.mgmt := rfl
@[simp] theorem State.updPage_pins (s : State) (p : Nat) (g : PageRec → PageRec) : (s.updPage p g).pins = s.pins := rfl

/-! ## State.setDir changes pages only -/

@[simp] theorem State.setDir_pending (s : State) (p : Nat) (v : DirEntry) : (s.setDir p v).pending = s.pending := rfl
@[simp] theorem State.setDir_free (s : State) (p : Nat) (v : DirEntry) : (s.setDir p v).free = s.free := rfl
@[simp] theorem State.setDir_dt (s : State) (p : Nat) (v : DirEntry) : (s.setDir p v).dt = s.dt := rfl
@[simp] theorem State.setDir_site (s : State) (p : Nat) (v : DirEntry) : (s.setDir p v).site = s.site := rfl
@[simp] theorem State.setDir_ports (s : State) (p : Nat) (v : DirEntry) : (s.setDir p v).ports = s.ports := rfl
@[simp] theorem State.setDir_parts (s : State) (p : Nat) (v : DirEntry) : (s.setDir p v).parts = s.parts := rfl
@[simp] theorem State.setDir_contents (s : State) (p : Nat) (v : DirEntry) : (s.setDir p v).contents = s.contents := rfl
@[simp] theorem State.setDir_nextContent (s : State) (p : Nat) (v : DirEntry) : (s.setDir p v).nextContent = s.nextContent := rfl
@[simp] theorem State.setDir_models (s : State) (p : Nat) (v : DirEntry) : (s.setDir p v).models = s.models := rfl
@[simp] theorem State.setDir_loads (s : State) (p : Nat) (v : DirEntry) : (s.setDir p v).loads = s.loads := rfl
@[simp] theorem State.setDir_nextLoad (s : State) (p : Nat) (v : DirEntry) : (s.setDir p v).nextLoad = s.nextLoad := rfl
@[simp] theorem State.setDir_pipes (s : State) (p : Nat) (v : DirEntry) : (s.setDir p v).pipes = s.pipes := rfl
@[simp] theorem State.setDir_streams (s : State) (p : Nat) (v : DirEntry) : (s.setDir p v).streams = s.streams := rfl
@[simp] theorem State.setDir_branches (s : State) (p : Nat) (v : DirEntry) : (s.setDir p v).branches = s.branches := rfl
@[simp] theorem State.setDir_attachSeq (s : State) (p : Nat) (v : DirEntry) : (s.setDir p v).attachSeq = s.attachSeq := rfl
@[simp] theorem State.setDir_tiles (s : State) (p : Nat) (v : DirEntry) : (s.setDir p v).tiles = s.tiles := rfl
@[simp] theorem State.setDir_flanks (s : State) (p : Nat) (v : DirEntry) : (s.setDir p v).flanks = s.flanks := rfl
@[simp] theorem State.setDir_journal (s : State) (p : Nat) (v : DirEntry) : (s.setDir p v).journal = s.journal := rfl
@[simp] theorem State.setDir_feeders (s : State) (p : Nat) (v : DirEntry) : (s.setDir p v).feeders = s.feeders := rfl
@[simp] theorem State.setDir_ops (s : State) (p : Nat) (v : DirEntry) : (s.setDir p v).ops = s.ops := rfl
@[simp] theorem State.setDir_nextOp (s : State) (p : Nat) (v : DirEntry) : (s.setDir p v).nextOp = s.nextOp := rfl
@[simp] theorem State.setDir_barriers (s : State) (p : Nat) (v : DirEntry) : (s.setDir p v).barriers = s.barriers := rfl
@[simp] theorem State.setDir_store (s : State) (p : Nat) (v : DirEntry) : (s.setDir p v).store = s.store := rfl
@[simp] theorem State.setDir_fabric (s : State) (p : Nat) (v : DirEntry) : (s.setDir p v).fabric = s.fabric := rfl
@[simp] theorem State.setDir_mem (s : State) (p : Nat) (v : DirEntry) : (s.setDir p v).mem = s.mem := rfl
@[simp] theorem State.setDir_audio (s : State) (p : Nat) (v : DirEntry) : (s.setDir p v).audio = s.audio := rfl
@[simp] theorem State.setDir_power (s : State) (p : Nat) (v : DirEntry) : (s.setDir p v).power = s.power := rfl
@[simp] theorem State.setDir_boot (s : State) (p : Nat) (v : DirEntry) : (s.setDir p v).boot = s.boot := rfl
@[simp] theorem State.setDir_mgmt (s : State) (p : Nat) (v : DirEntry) : (s.setDir p v).mgmt = s.mgmt := rfl
@[simp] theorem State.setDir_pins (s : State) (p : Nat) (v : DirEntry) : (s.setDir p v).pins = s.pins := rfl

/-! ## State.updLink changes fabric only -/

@[simp] theorem State.updLink_pending (s : State) (k : Nat) (g : Link → Link) : (s.updLink k g).pending = s.pending := rfl
@[simp] theorem State.updLink_free (s : State) (k : Nat) (g : Link → Link) : (s.updLink k g).free = s.free := rfl
@[simp] theorem State.updLink_dt (s : State) (k : Nat) (g : Link → Link) : (s.updLink k g).dt = s.dt := rfl
@[simp] theorem State.updLink_site (s : State) (k : Nat) (g : Link → Link) : (s.updLink k g).site = s.site := rfl
@[simp] theorem State.updLink_ports (s : State) (k : Nat) (g : Link → Link) : (s.updLink k g).ports = s.ports := rfl
@[simp] theorem State.updLink_parts (s : State) (k : Nat) (g : Link → Link) : (s.updLink k g).parts = s.parts := rfl
@[simp] theorem State.updLink_contents (s : State) (k : Nat) (g : Link → Link) : (s.updLink k g).contents = s.contents := rfl
@[simp] theorem State.updLink_nextContent (s : State) (k : Nat) (g : Link → Link) : (s.updLink k g).nextContent = s.nextContent := rfl
@[simp] theorem State.updLink_models (s : State) (k : Nat) (g : Link → Link) : (s.updLink k g).models = s.models := rfl
@[simp] theorem State.updLink_loads (s : State) (k : Nat) (g : Link → Link) : (s.updLink k g).loads = s.loads := rfl
@[simp] theorem State.updLink_nextLoad (s : State) (k : Nat) (g : Link → Link) : (s.updLink k g).nextLoad = s.nextLoad := rfl
@[simp] theorem State.updLink_pipes (s : State) (k : Nat) (g : Link → Link) : (s.updLink k g).pipes = s.pipes := rfl
@[simp] theorem State.updLink_streams (s : State) (k : Nat) (g : Link → Link) : (s.updLink k g).streams = s.streams := rfl
@[simp] theorem State.updLink_branches (s : State) (k : Nat) (g : Link → Link) : (s.updLink k g).branches = s.branches := rfl
@[simp] theorem State.updLink_attachSeq (s : State) (k : Nat) (g : Link → Link) : (s.updLink k g).attachSeq = s.attachSeq := rfl
@[simp] theorem State.updLink_tiles (s : State) (k : Nat) (g : Link → Link) : (s.updLink k g).tiles = s.tiles := rfl
@[simp] theorem State.updLink_flanks (s : State) (k : Nat) (g : Link → Link) : (s.updLink k g).flanks = s.flanks := rfl
@[simp] theorem State.updLink_pages (s : State) (k : Nat) (g : Link → Link) : (s.updLink k g).pages = s.pages := rfl
@[simp] theorem State.updLink_journal (s : State) (k : Nat) (g : Link → Link) : (s.updLink k g).journal = s.journal := rfl
@[simp] theorem State.updLink_feeders (s : State) (k : Nat) (g : Link → Link) : (s.updLink k g).feeders = s.feeders := rfl
@[simp] theorem State.updLink_ops (s : State) (k : Nat) (g : Link → Link) : (s.updLink k g).ops = s.ops := rfl
@[simp] theorem State.updLink_nextOp (s : State) (k : Nat) (g : Link → Link) : (s.updLink k g).nextOp = s.nextOp := rfl
@[simp] theorem State.updLink_barriers (s : State) (k : Nat) (g : Link → Link) : (s.updLink k g).barriers = s.barriers := rfl
@[simp] theorem State.updLink_store (s : State) (k : Nat) (g : Link → Link) : (s.updLink k g).store = s.store := rfl
@[simp] theorem State.updLink_mem (s : State) (k : Nat) (g : Link → Link) : (s.updLink k g).mem = s.mem := rfl
@[simp] theorem State.updLink_audio (s : State) (k : Nat) (g : Link → Link) : (s.updLink k g).audio = s.audio := rfl
@[simp] theorem State.updLink_power (s : State) (k : Nat) (g : Link → Link) : (s.updLink k g).power = s.power := rfl
@[simp] theorem State.updLink_boot (s : State) (k : Nat) (g : Link → Link) : (s.updLink k g).boot = s.boot := rfl
@[simp] theorem State.updLink_mgmt (s : State) (k : Nat) (g : Link → Link) : (s.updLink k g).mgmt = s.mgmt := rfl
@[simp] theorem State.updLink_pins (s : State) (k : Nat) (g : Link → Link) : (s.updLink k g).pins = s.pins := rfl

/-! ## State.updNetif changes fabric only -/

@[simp] theorem State.updNetif_pending (s : State) (e : Nat) (g : NetIf → NetIf) : (s.updNetif e g).pending = s.pending := rfl
@[simp] theorem State.updNetif_free (s : State) (e : Nat) (g : NetIf → NetIf) : (s.updNetif e g).free = s.free := rfl
@[simp] theorem State.updNetif_dt (s : State) (e : Nat) (g : NetIf → NetIf) : (s.updNetif e g).dt = s.dt := rfl
@[simp] theorem State.updNetif_site (s : State) (e : Nat) (g : NetIf → NetIf) : (s.updNetif e g).site = s.site := rfl
@[simp] theorem State.updNetif_ports (s : State) (e : Nat) (g : NetIf → NetIf) : (s.updNetif e g).ports = s.ports := rfl
@[simp] theorem State.updNetif_parts (s : State) (e : Nat) (g : NetIf → NetIf) : (s.updNetif e g).parts = s.parts := rfl
@[simp] theorem State.updNetif_contents (s : State) (e : Nat) (g : NetIf → NetIf) : (s.updNetif e g).contents = s.contents := rfl
@[simp] theorem State.updNetif_nextContent (s : State) (e : Nat) (g : NetIf → NetIf) : (s.updNetif e g).nextContent = s.nextContent := rfl
@[simp] theorem State.updNetif_models (s : State) (e : Nat) (g : NetIf → NetIf) : (s.updNetif e g).models = s.models := rfl
@[simp] theorem State.updNetif_loads (s : State) (e : Nat) (g : NetIf → NetIf) : (s.updNetif e g).loads = s.loads := rfl
@[simp] theorem State.updNetif_nextLoad (s : State) (e : Nat) (g : NetIf → NetIf) : (s.updNetif e g).nextLoad = s.nextLoad := rfl
@[simp] theorem State.updNetif_pipes (s : State) (e : Nat) (g : NetIf → NetIf) : (s.updNetif e g).pipes = s.pipes := rfl
@[simp] theorem State.updNetif_streams (s : State) (e : Nat) (g : NetIf → NetIf) : (s.updNetif e g).streams = s.streams := rfl
@[simp] theorem State.updNetif_branches (s : State) (e : Nat) (g : NetIf → NetIf) : (s.updNetif e g).branches = s.branches := rfl
@[simp] theorem State.updNetif_attachSeq (s : State) (e : Nat) (g : NetIf → NetIf) : (s.updNetif e g).attachSeq = s.attachSeq := rfl
@[simp] theorem State.updNetif_tiles (s : State) (e : Nat) (g : NetIf → NetIf) : (s.updNetif e g).tiles = s.tiles := rfl
@[simp] theorem State.updNetif_flanks (s : State) (e : Nat) (g : NetIf → NetIf) : (s.updNetif e g).flanks = s.flanks := rfl
@[simp] theorem State.updNetif_pages (s : State) (e : Nat) (g : NetIf → NetIf) : (s.updNetif e g).pages = s.pages := rfl
@[simp] theorem State.updNetif_journal (s : State) (e : Nat) (g : NetIf → NetIf) : (s.updNetif e g).journal = s.journal := rfl
@[simp] theorem State.updNetif_feeders (s : State) (e : Nat) (g : NetIf → NetIf) : (s.updNetif e g).feeders = s.feeders := rfl
@[simp] theorem State.updNetif_ops (s : State) (e : Nat) (g : NetIf → NetIf) : (s.updNetif e g).ops = s.ops := rfl
@[simp] theorem State.updNetif_nextOp (s : State) (e : Nat) (g : NetIf → NetIf) : (s.updNetif e g).nextOp = s.nextOp := rfl
@[simp] theorem State.updNetif_barriers (s : State) (e : Nat) (g : NetIf → NetIf) : (s.updNetif e g).barriers = s.barriers := rfl
@[simp] theorem State.updNetif_store (s : State) (e : Nat) (g : NetIf → NetIf) : (s.updNetif e g).store = s.store := rfl
@[simp] theorem State.updNetif_mem (s : State) (e : Nat) (g : NetIf → NetIf) : (s.updNetif e g).mem = s.mem := rfl
@[simp] theorem State.updNetif_audio (s : State) (e : Nat) (g : NetIf → NetIf) : (s.updNetif e g).audio = s.audio := rfl
@[simp] theorem State.updNetif_power (s : State) (e : Nat) (g : NetIf → NetIf) : (s.updNetif e g).power = s.power := rfl
@[simp] theorem State.updNetif_boot (s : State) (e : Nat) (g : NetIf → NetIf) : (s.updNetif e g).boot = s.boot := rfl
@[simp] theorem State.updNetif_mgmt (s : State) (e : Nat) (g : NetIf → NetIf) : (s.updNetif e g).mgmt = s.mgmt := rfl
@[simp] theorem State.updNetif_pins (s : State) (e : Nat) (g : NetIf → NetIf) : (s.updNetif e g).pins = s.pins := rfl

/-! ## State.updWindow changes fabric only -/

@[simp] theorem State.updWindow_pending (s : State) (a b : Nat) (g : Window → Window) : (s.updWindow a b g).pending = s.pending := rfl
@[simp] theorem State.updWindow_free (s : State) (a b : Nat) (g : Window → Window) : (s.updWindow a b g).free = s.free := rfl
@[simp] theorem State.updWindow_dt (s : State) (a b : Nat) (g : Window → Window) : (s.updWindow a b g).dt = s.dt := rfl
@[simp] theorem State.updWindow_site (s : State) (a b : Nat) (g : Window → Window) : (s.updWindow a b g).site = s.site := rfl
@[simp] theorem State.updWindow_ports (s : State) (a b : Nat) (g : Window → Window) : (s.updWindow a b g).ports = s.ports := rfl
@[simp] theorem State.updWindow_parts (s : State) (a b : Nat) (g : Window → Window) : (s.updWindow a b g).parts = s.parts := rfl
@[simp] theorem State.updWindow_contents (s : State) (a b : Nat) (g : Window → Window) : (s.updWindow a b g).contents = s.contents := rfl
@[simp] theorem State.updWindow_nextContent (s : State) (a b : Nat) (g : Window → Window) : (s.updWindow a b g).nextContent = s.nextContent := rfl
@[simp] theorem State.updWindow_models (s : State) (a b : Nat) (g : Window → Window) : (s.updWindow a b g).models = s.models := rfl
@[simp] theorem State.updWindow_loads (s : State) (a b : Nat) (g : Window → Window) : (s.updWindow a b g).loads = s.loads := rfl
@[simp] theorem State.updWindow_nextLoad (s : State) (a b : Nat) (g : Window → Window) : (s.updWindow a b g).nextLoad = s.nextLoad := rfl
@[simp] theorem State.updWindow_pipes (s : State) (a b : Nat) (g : Window → Window) : (s.updWindow a b g).pipes = s.pipes := rfl
@[simp] theorem State.updWindow_streams (s : State) (a b : Nat) (g : Window → Window) : (s.updWindow a b g).streams = s.streams := rfl
@[simp] theorem State.updWindow_branches (s : State) (a b : Nat) (g : Window → Window) : (s.updWindow a b g).branches = s.branches := rfl
@[simp] theorem State.updWindow_attachSeq (s : State) (a b : Nat) (g : Window → Window) : (s.updWindow a b g).attachSeq = s.attachSeq := rfl
@[simp] theorem State.updWindow_tiles (s : State) (a b : Nat) (g : Window → Window) : (s.updWindow a b g).tiles = s.tiles := rfl
@[simp] theorem State.updWindow_flanks (s : State) (a b : Nat) (g : Window → Window) : (s.updWindow a b g).flanks = s.flanks := rfl
@[simp] theorem State.updWindow_pages (s : State) (a b : Nat) (g : Window → Window) : (s.updWindow a b g).pages = s.pages := rfl
@[simp] theorem State.updWindow_journal (s : State) (a b : Nat) (g : Window → Window) : (s.updWindow a b g).journal = s.journal := rfl
@[simp] theorem State.updWindow_feeders (s : State) (a b : Nat) (g : Window → Window) : (s.updWindow a b g).feeders = s.feeders := rfl
@[simp] theorem State.updWindow_ops (s : State) (a b : Nat) (g : Window → Window) : (s.updWindow a b g).ops = s.ops := rfl
@[simp] theorem State.updWindow_nextOp (s : State) (a b : Nat) (g : Window → Window) : (s.updWindow a b g).nextOp = s.nextOp := rfl
@[simp] theorem State.updWindow_barriers (s : State) (a b : Nat) (g : Window → Window) : (s.updWindow a b g).barriers = s.barriers := rfl
@[simp] theorem State.updWindow_store (s : State) (a b : Nat) (g : Window → Window) : (s.updWindow a b g).store = s.store := rfl
@[simp] theorem State.updWindow_mem (s : State) (a b : Nat) (g : Window → Window) : (s.updWindow a b g).mem = s.mem := rfl
@[simp] theorem State.updWindow_audio (s : State) (a b : Nat) (g : Window → Window) : (s.updWindow a b g).audio = s.audio := rfl
@[simp] theorem State.updWindow_power (s : State) (a b : Nat) (g : Window → Window) : (s.updWindow a b g).power = s.power := rfl
@[simp] theorem State.updWindow_boot (s : State) (a b : Nat) (g : Window → Window) : (s.updWindow a b g).boot = s.boot := rfl
@[simp] theorem State.updWindow_mgmt (s : State) (a b : Nat) (g : Window → Window) : (s.updWindow a b g).mgmt = s.mgmt := rfl
@[simp] theorem State.updWindow_pins (s : State) (a b : Nat) (g : Window → Window) : (s.updWindow a b g).pins = s.pins := rfl

/-! ## State.updChannel changes mem only -/

@[simp] theorem State.updChannel_pending (s : State) (c : Nat) (g : PseudoChannel → PseudoChannel) : (s.updChannel c g).pending = s.pending := rfl
@[simp] theorem State.updChannel_free (s : State) (c : Nat) (g : PseudoChannel → PseudoChannel) : (s.updChannel c g).free = s.free := rfl
@[simp] theorem State.updChannel_dt (s : State) (c : Nat) (g : PseudoChannel → PseudoChannel) : (s.updChannel c g).dt = s.dt := rfl
@[simp] theorem State.updChannel_site (s : State) (c : Nat) (g : PseudoChannel → PseudoChannel) : (s.updChannel c g).site = s.site := rfl
@[simp] theorem State.updChannel_ports (s : State) (c : Nat) (g : PseudoChannel → PseudoChannel) : (s.updChannel c g).ports = s.ports := rfl
@[simp] theorem State.updChannel_parts (s : State) (c : Nat) (g : PseudoChannel → PseudoChannel) : (s.updChannel c g).parts = s.parts := rfl
@[simp] theorem State.updChannel_contents (s : State) (c : Nat) (g : PseudoChannel → PseudoChannel) : (s.updChannel c g).contents = s.contents := rfl
@[simp] theorem State.updChannel_nextContent (s : State) (c : Nat) (g : PseudoChannel → PseudoChannel) : (s.updChannel c g).nextContent = s.nextContent := rfl
@[simp] theorem State.updChannel_models (s : State) (c : Nat) (g : PseudoChannel → PseudoChannel) : (s.updChannel c g).models = s.models := rfl
@[simp] theorem State.updChannel_loads (s : State) (c : Nat) (g : PseudoChannel → PseudoChannel) : (s.updChannel c g).loads = s.loads := rfl
@[simp] theorem State.updChannel_nextLoad (s : State) (c : Nat) (g : PseudoChannel → PseudoChannel) : (s.updChannel c g).nextLoad = s.nextLoad := rfl
@[simp] theorem State.updChannel_pipes (s : State) (c : Nat) (g : PseudoChannel → PseudoChannel) : (s.updChannel c g).pipes = s.pipes := rfl
@[simp] theorem State.updChannel_streams (s : State) (c : Nat) (g : PseudoChannel → PseudoChannel) : (s.updChannel c g).streams = s.streams := rfl
@[simp] theorem State.updChannel_branches (s : State) (c : Nat) (g : PseudoChannel → PseudoChannel) : (s.updChannel c g).branches = s.branches := rfl
@[simp] theorem State.updChannel_attachSeq (s : State) (c : Nat) (g : PseudoChannel → PseudoChannel) : (s.updChannel c g).attachSeq = s.attachSeq := rfl
@[simp] theorem State.updChannel_tiles (s : State) (c : Nat) (g : PseudoChannel → PseudoChannel) : (s.updChannel c g).tiles = s.tiles := rfl
@[simp] theorem State.updChannel_flanks (s : State) (c : Nat) (g : PseudoChannel → PseudoChannel) : (s.updChannel c g).flanks = s.flanks := rfl
@[simp] theorem State.updChannel_pages (s : State) (c : Nat) (g : PseudoChannel → PseudoChannel) : (s.updChannel c g).pages = s.pages := rfl
@[simp] theorem State.updChannel_journal (s : State) (c : Nat) (g : PseudoChannel → PseudoChannel) : (s.updChannel c g).journal = s.journal := rfl
@[simp] theorem State.updChannel_feeders (s : State) (c : Nat) (g : PseudoChannel → PseudoChannel) : (s.updChannel c g).feeders = s.feeders := rfl
@[simp] theorem State.updChannel_ops (s : State) (c : Nat) (g : PseudoChannel → PseudoChannel) : (s.updChannel c g).ops = s.ops := rfl
@[simp] theorem State.updChannel_nextOp (s : State) (c : Nat) (g : PseudoChannel → PseudoChannel) : (s.updChannel c g).nextOp = s.nextOp := rfl
@[simp] theorem State.updChannel_barriers (s : State) (c : Nat) (g : PseudoChannel → PseudoChannel) : (s.updChannel c g).barriers = s.barriers := rfl
@[simp] theorem State.updChannel_store (s : State) (c : Nat) (g : PseudoChannel → PseudoChannel) : (s.updChannel c g).store = s.store := rfl
@[simp] theorem State.updChannel_fabric (s : State) (c : Nat) (g : PseudoChannel → PseudoChannel) : (s.updChannel c g).fabric = s.fabric := rfl
@[simp] theorem State.updChannel_audio (s : State) (c : Nat) (g : PseudoChannel → PseudoChannel) : (s.updChannel c g).audio = s.audio := rfl
@[simp] theorem State.updChannel_power (s : State) (c : Nat) (g : PseudoChannel → PseudoChannel) : (s.updChannel c g).power = s.power := rfl
@[simp] theorem State.updChannel_boot (s : State) (c : Nat) (g : PseudoChannel → PseudoChannel) : (s.updChannel c g).boot = s.boot := rfl
@[simp] theorem State.updChannel_mgmt (s : State) (c : Nat) (g : PseudoChannel → PseudoChannel) : (s.updChannel c g).mgmt = s.mgmt := rfl
@[simp] theorem State.updChannel_pins (s : State) (c : Nat) (g : PseudoChannel → PseudoChannel) : (s.updChannel c g).pins = s.pins := rfl

/-! ## State.updTdm changes audio only -/

@[simp] theorem State.updTdm_pending (s : State) (t : Nat) (g : TdmPort → TdmPort) : (s.updTdm t g).pending = s.pending := rfl
@[simp] theorem State.updTdm_free (s : State) (t : Nat) (g : TdmPort → TdmPort) : (s.updTdm t g).free = s.free := rfl
@[simp] theorem State.updTdm_dt (s : State) (t : Nat) (g : TdmPort → TdmPort) : (s.updTdm t g).dt = s.dt := rfl
@[simp] theorem State.updTdm_site (s : State) (t : Nat) (g : TdmPort → TdmPort) : (s.updTdm t g).site = s.site := rfl
@[simp] theorem State.updTdm_ports (s : State) (t : Nat) (g : TdmPort → TdmPort) : (s.updTdm t g).ports = s.ports := rfl
@[simp] theorem State.updTdm_parts (s : State) (t : Nat) (g : TdmPort → TdmPort) : (s.updTdm t g).parts = s.parts := rfl
@[simp] theorem State.updTdm_contents (s : State) (t : Nat) (g : TdmPort → TdmPort) : (s.updTdm t g).contents = s.contents := rfl
@[simp] theorem State.updTdm_nextContent (s : State) (t : Nat) (g : TdmPort → TdmPort) : (s.updTdm t g).nextContent = s.nextContent := rfl
@[simp] theorem State.updTdm_models (s : State) (t : Nat) (g : TdmPort → TdmPort) : (s.updTdm t g).models = s.models := rfl
@[simp] theorem State.updTdm_loads (s : State) (t : Nat) (g : TdmPort → TdmPort) : (s.updTdm t g).loads = s.loads := rfl
@[simp] theorem State.updTdm_nextLoad (s : State) (t : Nat) (g : TdmPort → TdmPort) : (s.updTdm t g).nextLoad = s.nextLoad := rfl
@[simp] theorem State.updTdm_pipes (s : State) (t : Nat) (g : TdmPort → TdmPort) : (s.updTdm t g).pipes = s.pipes := rfl
@[simp] theorem State.updTdm_streams (s : State) (t : Nat) (g : TdmPort → TdmPort) : (s.updTdm t g).streams = s.streams := rfl
@[simp] theorem State.updTdm_branches (s : State) (t : Nat) (g : TdmPort → TdmPort) : (s.updTdm t g).branches = s.branches := rfl
@[simp] theorem State.updTdm_attachSeq (s : State) (t : Nat) (g : TdmPort → TdmPort) : (s.updTdm t g).attachSeq = s.attachSeq := rfl
@[simp] theorem State.updTdm_tiles (s : State) (t : Nat) (g : TdmPort → TdmPort) : (s.updTdm t g).tiles = s.tiles := rfl
@[simp] theorem State.updTdm_flanks (s : State) (t : Nat) (g : TdmPort → TdmPort) : (s.updTdm t g).flanks = s.flanks := rfl
@[simp] theorem State.updTdm_pages (s : State) (t : Nat) (g : TdmPort → TdmPort) : (s.updTdm t g).pages = s.pages := rfl
@[simp] theorem State.updTdm_journal (s : State) (t : Nat) (g : TdmPort → TdmPort) : (s.updTdm t g).journal = s.journal := rfl
@[simp] theorem State.updTdm_feeders (s : State) (t : Nat) (g : TdmPort → TdmPort) : (s.updTdm t g).feeders = s.feeders := rfl
@[simp] theorem State.updTdm_ops (s : State) (t : Nat) (g : TdmPort → TdmPort) : (s.updTdm t g).ops = s.ops := rfl
@[simp] theorem State.updTdm_nextOp (s : State) (t : Nat) (g : TdmPort → TdmPort) : (s.updTdm t g).nextOp = s.nextOp := rfl
@[simp] theorem State.updTdm_barriers (s : State) (t : Nat) (g : TdmPort → TdmPort) : (s.updTdm t g).barriers = s.barriers := rfl
@[simp] theorem State.updTdm_store (s : State) (t : Nat) (g : TdmPort → TdmPort) : (s.updTdm t g).store = s.store := rfl
@[simp] theorem State.updTdm_fabric (s : State) (t : Nat) (g : TdmPort → TdmPort) : (s.updTdm t g).fabric = s.fabric := rfl
@[simp] theorem State.updTdm_mem (s : State) (t : Nat) (g : TdmPort → TdmPort) : (s.updTdm t g).mem = s.mem := rfl
@[simp] theorem State.updTdm_power (s : State) (t : Nat) (g : TdmPort → TdmPort) : (s.updTdm t g).power = s.power := rfl
@[simp] theorem State.updTdm_boot (s : State) (t : Nat) (g : TdmPort → TdmPort) : (s.updTdm t g).boot = s.boot := rfl
@[simp] theorem State.updTdm_mgmt (s : State) (t : Nat) (g : TdmPort → TdmPort) : (s.updTdm t g).mgmt = s.mgmt := rfl
@[simp] theorem State.updTdm_pins (s : State) (t : Nat) (g : TdmPort → TdmPort) : (s.updTdm t g).pins = s.pins := rfl

/-! ## State.updIn changes audio only -/

@[simp] theorem State.updIn_pending (s : State) (k : Nat) (g : InSlot → InSlot) : (s.updIn k g).pending = s.pending := rfl
@[simp] theorem State.updIn_free (s : State) (k : Nat) (g : InSlot → InSlot) : (s.updIn k g).free = s.free := rfl
@[simp] theorem State.updIn_dt (s : State) (k : Nat) (g : InSlot → InSlot) : (s.updIn k g).dt = s.dt := rfl
@[simp] theorem State.updIn_site (s : State) (k : Nat) (g : InSlot → InSlot) : (s.updIn k g).site = s.site := rfl
@[simp] theorem State.updIn_ports (s : State) (k : Nat) (g : InSlot → InSlot) : (s.updIn k g).ports = s.ports := rfl
@[simp] theorem State.updIn_parts (s : State) (k : Nat) (g : InSlot → InSlot) : (s.updIn k g).parts = s.parts := rfl
@[simp] theorem State.updIn_contents (s : State) (k : Nat) (g : InSlot → InSlot) : (s.updIn k g).contents = s.contents := rfl
@[simp] theorem State.updIn_nextContent (s : State) (k : Nat) (g : InSlot → InSlot) : (s.updIn k g).nextContent = s.nextContent := rfl
@[simp] theorem State.updIn_models (s : State) (k : Nat) (g : InSlot → InSlot) : (s.updIn k g).models = s.models := rfl
@[simp] theorem State.updIn_loads (s : State) (k : Nat) (g : InSlot → InSlot) : (s.updIn k g).loads = s.loads := rfl
@[simp] theorem State.updIn_nextLoad (s : State) (k : Nat) (g : InSlot → InSlot) : (s.updIn k g).nextLoad = s.nextLoad := rfl
@[simp] theorem State.updIn_pipes (s : State) (k : Nat) (g : InSlot → InSlot) : (s.updIn k g).pipes = s.pipes := rfl
@[simp] theorem State.updIn_streams (s : State) (k : Nat) (g : InSlot → InSlot) : (s.updIn k g).streams = s.streams := rfl
@[simp] theorem State.updIn_branches (s : State) (k : Nat) (g : InSlot → InSlot) : (s.updIn k g).branches = s.branches := rfl
@[simp] theorem State.updIn_attachSeq (s : State) (k : Nat) (g : InSlot → InSlot) : (s.updIn k g).attachSeq = s.attachSeq := rfl
@[simp] theorem State.updIn_tiles (s : State) (k : Nat) (g : InSlot → InSlot) : (s.updIn k g).tiles = s.tiles := rfl
@[simp] theorem State.updIn_flanks (s : State) (k : Nat) (g : InSlot → InSlot) : (s.updIn k g).flanks = s.flanks := rfl
@[simp] theorem State.updIn_pages (s : State) (k : Nat) (g : InSlot → InSlot) : (s.updIn k g).pages = s.pages := rfl
@[simp] theorem State.updIn_journal (s : State) (k : Nat) (g : InSlot → InSlot) : (s.updIn k g).journal = s.journal := rfl
@[simp] theorem State.updIn_feeders (s : State) (k : Nat) (g : InSlot → InSlot) : (s.updIn k g).feeders = s.feeders := rfl
@[simp] theorem State.updIn_ops (s : State) (k : Nat) (g : InSlot → InSlot) : (s.updIn k g).ops = s.ops := rfl
@[simp] theorem State.updIn_nextOp (s : State) (k : Nat) (g : InSlot → InSlot) : (s.updIn k g).nextOp = s.nextOp := rfl
@[simp] theorem State.updIn_barriers (s : State) (k : Nat) (g : InSlot → InSlot) : (s.updIn k g).barriers = s.barriers := rfl
@[simp] theorem State.updIn_store (s : State) (k : Nat) (g : InSlot → InSlot) : (s.updIn k g).store = s.store := rfl
@[simp] theorem State.updIn_fabric (s : State) (k : Nat) (g : InSlot → InSlot) : (s.updIn k g).fabric = s.fabric := rfl
@[simp] theorem State.updIn_mem (s : State) (k : Nat) (g : InSlot → InSlot) : (s.updIn k g).mem = s.mem := rfl
@[simp] theorem State.updIn_power (s : State) (k : Nat) (g : InSlot → InSlot) : (s.updIn k g).power = s.power := rfl
@[simp] theorem State.updIn_boot (s : State) (k : Nat) (g : InSlot → InSlot) : (s.updIn k g).boot = s.boot := rfl
@[simp] theorem State.updIn_mgmt (s : State) (k : Nat) (g : InSlot → InSlot) : (s.updIn k g).mgmt = s.mgmt := rfl
@[simp] theorem State.updIn_pins (s : State) (k : Nat) (g : InSlot → InSlot) : (s.updIn k g).pins = s.pins := rfl

/-! ## State.updOut changes audio only -/

@[simp] theorem State.updOut_pending (s : State) (k : Nat) (g : OutSlot → OutSlot) : (s.updOut k g).pending = s.pending := rfl
@[simp] theorem State.updOut_free (s : State) (k : Nat) (g : OutSlot → OutSlot) : (s.updOut k g).free = s.free := rfl
@[simp] theorem State.updOut_dt (s : State) (k : Nat) (g : OutSlot → OutSlot) : (s.updOut k g).dt = s.dt := rfl
@[simp] theorem State.updOut_site (s : State) (k : Nat) (g : OutSlot → OutSlot) : (s.updOut k g).site = s.site := rfl
@[simp] theorem State.updOut_ports (s : State) (k : Nat) (g : OutSlot → OutSlot) : (s.updOut k g).ports = s.ports := rfl
@[simp] theorem State.updOut_parts (s : State) (k : Nat) (g : OutSlot → OutSlot) : (s.updOut k g).parts = s.parts := rfl
@[simp] theorem State.updOut_contents (s : State) (k : Nat) (g : OutSlot → OutSlot) : (s.updOut k g).contents = s.contents := rfl
@[simp] theorem State.updOut_nextContent (s : State) (k : Nat) (g : OutSlot → OutSlot) : (s.updOut k g).nextContent = s.nextContent := rfl
@[simp] theorem State.updOut_models (s : State) (k : Nat) (g : OutSlot → OutSlot) : (s.updOut k g).models = s.models := rfl
@[simp] theorem State.updOut_loads (s : State) (k : Nat) (g : OutSlot → OutSlot) : (s.updOut k g).loads = s.loads := rfl
@[simp] theorem State.updOut_nextLoad (s : State) (k : Nat) (g : OutSlot → OutSlot) : (s.updOut k g).nextLoad = s.nextLoad := rfl
@[simp] theorem State.updOut_pipes (s : State) (k : Nat) (g : OutSlot → OutSlot) : (s.updOut k g).pipes = s.pipes := rfl
@[simp] theorem State.updOut_streams (s : State) (k : Nat) (g : OutSlot → OutSlot) : (s.updOut k g).streams = s.streams := rfl
@[simp] theorem State.updOut_branches (s : State) (k : Nat) (g : OutSlot → OutSlot) : (s.updOut k g).branches = s.branches := rfl
@[simp] theorem State.updOut_attachSeq (s : State) (k : Nat) (g : OutSlot → OutSlot) : (s.updOut k g).attachSeq = s.attachSeq := rfl
@[simp] theorem State.updOut_tiles (s : State) (k : Nat) (g : OutSlot → OutSlot) : (s.updOut k g).tiles = s.tiles := rfl
@[simp] theorem State.updOut_flanks (s : State) (k : Nat) (g : OutSlot → OutSlot) : (s.updOut k g).flanks = s.flanks := rfl
@[simp] theorem State.updOut_pages (s : State) (k : Nat) (g : OutSlot → OutSlot) : (s.updOut k g).pages = s.pages := rfl
@[simp] theorem State.updOut_journal (s : State) (k : Nat) (g : OutSlot → OutSlot) : (s.updOut k g).journal = s.journal := rfl
@[simp] theorem State.updOut_feeders (s : State) (k : Nat) (g : OutSlot → OutSlot) : (s.updOut k g).feeders = s.feeders := rfl
@[simp] theorem State.updOut_ops (s : State) (k : Nat) (g : OutSlot → OutSlot) : (s.updOut k g).ops = s.ops := rfl
@[simp] theorem State.updOut_nextOp (s : State) (k : Nat) (g : OutSlot → OutSlot) : (s.updOut k g).nextOp = s.nextOp := rfl
@[simp] theorem State.updOut_barriers (s : State) (k : Nat) (g : OutSlot → OutSlot) : (s.updOut k g).barriers = s.barriers := rfl
@[simp] theorem State.updOut_store (s : State) (k : Nat) (g : OutSlot → OutSlot) : (s.updOut k g).store = s.store := rfl
@[simp] theorem State.updOut_fabric (s : State) (k : Nat) (g : OutSlot → OutSlot) : (s.updOut k g).fabric = s.fabric := rfl
@[simp] theorem State.updOut_mem (s : State) (k : Nat) (g : OutSlot → OutSlot) : (s.updOut k g).mem = s.mem := rfl
@[simp] theorem State.updOut_power (s : State) (k : Nat) (g : OutSlot → OutSlot) : (s.updOut k g).power = s.power := rfl
@[simp] theorem State.updOut_boot (s : State) (k : Nat) (g : OutSlot → OutSlot) : (s.updOut k g).boot = s.boot := rfl
@[simp] theorem State.updOut_mgmt (s : State) (k : Nat) (g : OutSlot → OutSlot) : (s.updOut k g).mgmt = s.mgmt := rfl
@[simp] theorem State.updOut_pins (s : State) (k : Nat) (g : OutSlot → OutSlot) : (s.updOut k g).pins = s.pins := rfl

/-! ## State.updTile changes tiles only -/

@[simp] theorem State.updTile_pending (s : State) (t : Nat) (g : Tile → Tile) : (s.updTile t g).pending = s.pending := rfl
@[simp] theorem State.updTile_free (s : State) (t : Nat) (g : Tile → Tile) : (s.updTile t g).free = s.free := rfl
@[simp] theorem State.updTile_dt (s : State) (t : Nat) (g : Tile → Tile) : (s.updTile t g).dt = s.dt := rfl
@[simp] theorem State.updTile_site (s : State) (t : Nat) (g : Tile → Tile) : (s.updTile t g).site = s.site := rfl
@[simp] theorem State.updTile_ports (s : State) (t : Nat) (g : Tile → Tile) : (s.updTile t g).ports = s.ports := rfl
@[simp] theorem State.updTile_parts (s : State) (t : Nat) (g : Tile → Tile) : (s.updTile t g).parts = s.parts := rfl
@[simp] theorem State.updTile_contents (s : State) (t : Nat) (g : Tile → Tile) : (s.updTile t g).contents = s.contents := rfl
@[simp] theorem State.updTile_nextContent (s : State) (t : Nat) (g : Tile → Tile) : (s.updTile t g).nextContent = s.nextContent := rfl
@[simp] theorem State.updTile_models (s : State) (t : Nat) (g : Tile → Tile) : (s.updTile t g).models = s.models := rfl
@[simp] theorem State.updTile_loads (s : State) (t : Nat) (g : Tile → Tile) : (s.updTile t g).loads = s.loads := rfl
@[simp] theorem State.updTile_nextLoad (s : State) (t : Nat) (g : Tile → Tile) : (s.updTile t g).nextLoad = s.nextLoad := rfl
@[simp] theorem State.updTile_pipes (s : State) (t : Nat) (g : Tile → Tile) : (s.updTile t g).pipes = s.pipes := rfl
@[simp] theorem State.updTile_streams (s : State) (t : Nat) (g : Tile → Tile) : (s.updTile t g).streams = s.streams := rfl
@[simp] theorem State.updTile_branches (s : State) (t : Nat) (g : Tile → Tile) : (s.updTile t g).branches = s.branches := rfl
@[simp] theorem State.updTile_attachSeq (s : State) (t : Nat) (g : Tile → Tile) : (s.updTile t g).attachSeq = s.attachSeq := rfl
@[simp] theorem State.updTile_flanks (s : State) (t : Nat) (g : Tile → Tile) : (s.updTile t g).flanks = s.flanks := rfl
@[simp] theorem State.updTile_pages (s : State) (t : Nat) (g : Tile → Tile) : (s.updTile t g).pages = s.pages := rfl
@[simp] theorem State.updTile_journal (s : State) (t : Nat) (g : Tile → Tile) : (s.updTile t g).journal = s.journal := rfl
@[simp] theorem State.updTile_feeders (s : State) (t : Nat) (g : Tile → Tile) : (s.updTile t g).feeders = s.feeders := rfl
@[simp] theorem State.updTile_ops (s : State) (t : Nat) (g : Tile → Tile) : (s.updTile t g).ops = s.ops := rfl
@[simp] theorem State.updTile_nextOp (s : State) (t : Nat) (g : Tile → Tile) : (s.updTile t g).nextOp = s.nextOp := rfl
@[simp] theorem State.updTile_barriers (s : State) (t : Nat) (g : Tile → Tile) : (s.updTile t g).barriers = s.barriers := rfl
@[simp] theorem State.updTile_store (s : State) (t : Nat) (g : Tile → Tile) : (s.updTile t g).store = s.store := rfl
@[simp] theorem State.updTile_fabric (s : State) (t : Nat) (g : Tile → Tile) : (s.updTile t g).fabric = s.fabric := rfl
@[simp] theorem State.updTile_mem (s : State) (t : Nat) (g : Tile → Tile) : (s.updTile t g).mem = s.mem := rfl
@[simp] theorem State.updTile_audio (s : State) (t : Nat) (g : Tile → Tile) : (s.updTile t g).audio = s.audio := rfl
@[simp] theorem State.updTile_power (s : State) (t : Nat) (g : Tile → Tile) : (s.updTile t g).power = s.power := rfl
@[simp] theorem State.updTile_boot (s : State) (t : Nat) (g : Tile → Tile) : (s.updTile t g).boot = s.boot := rfl
@[simp] theorem State.updTile_mgmt (s : State) (t : Nat) (g : Tile → Tile) : (s.updTile t g).mgmt = s.mgmt := rfl
@[simp] theorem State.updTile_pins (s : State) (t : Nat) (g : Tile → Tile) : (s.updTile t g).pins = s.pins := rfl

/-! ## State.updPower changes power only -/

@[simp] theorem State.updPower_pending (s : State) (g : Power → Power) : (s.updPower g).pending = s.pending := rfl
@[simp] theorem State.updPower_free (s : State) (g : Power → Power) : (s.updPower g).free = s.free := rfl
@[simp] theorem State.updPower_dt (s : State) (g : Power → Power) : (s.updPower g).dt = s.dt := rfl
@[simp] theorem State.updPower_site (s : State) (g : Power → Power) : (s.updPower g).site = s.site := rfl
@[simp] theorem State.updPower_ports (s : State) (g : Power → Power) : (s.updPower g).ports = s.ports := rfl
@[simp] theorem State.updPower_parts (s : State) (g : Power → Power) : (s.updPower g).parts = s.parts := rfl
@[simp] theorem State.updPower_contents (s : State) (g : Power → Power) : (s.updPower g).contents = s.contents := rfl
@[simp] theorem State.updPower_nextContent (s : State) (g : Power → Power) : (s.updPower g).nextContent = s.nextContent := rfl
@[simp] theorem State.updPower_models (s : State) (g : Power → Power) : (s.updPower g).models = s.models := rfl
@[simp] theorem State.updPower_loads (s : State) (g : Power → Power) : (s.updPower g).loads = s.loads := rfl
@[simp] theorem State.updPower_nextLoad (s : State) (g : Power → Power) : (s.updPower g).nextLoad = s.nextLoad := rfl
@[simp] theorem State.updPower_pipes (s : State) (g : Power → Power) : (s.updPower g).pipes = s.pipes := rfl
@[simp] theorem State.updPower_streams (s : State) (g : Power → Power) : (s.updPower g).streams = s.streams := rfl
@[simp] theorem State.updPower_branches (s : State) (g : Power → Power) : (s.updPower g).branches = s.branches := rfl
@[simp] theorem State.updPower_attachSeq (s : State) (g : Power → Power) : (s.updPower g).attachSeq = s.attachSeq := rfl
@[simp] theorem State.updPower_tiles (s : State) (g : Power → Power) : (s.updPower g).tiles = s.tiles := rfl
@[simp] theorem State.updPower_flanks (s : State) (g : Power → Power) : (s.updPower g).flanks = s.flanks := rfl
@[simp] theorem State.updPower_pages (s : State) (g : Power → Power) : (s.updPower g).pages = s.pages := rfl
@[simp] theorem State.updPower_journal (s : State) (g : Power → Power) : (s.updPower g).journal = s.journal := rfl
@[simp] theorem State.updPower_feeders (s : State) (g : Power → Power) : (s.updPower g).feeders = s.feeders := rfl
@[simp] theorem State.updPower_ops (s : State) (g : Power → Power) : (s.updPower g).ops = s.ops := rfl
@[simp] theorem State.updPower_nextOp (s : State) (g : Power → Power) : (s.updPower g).nextOp = s.nextOp := rfl
@[simp] theorem State.updPower_barriers (s : State) (g : Power → Power) : (s.updPower g).barriers = s.barriers := rfl
@[simp] theorem State.updPower_store (s : State) (g : Power → Power) : (s.updPower g).store = s.store := rfl
@[simp] theorem State.updPower_fabric (s : State) (g : Power → Power) : (s.updPower g).fabric = s.fabric := rfl
@[simp] theorem State.updPower_mem (s : State) (g : Power → Power) : (s.updPower g).mem = s.mem := rfl
@[simp] theorem State.updPower_audio (s : State) (g : Power → Power) : (s.updPower g).audio = s.audio := rfl
@[simp] theorem State.updPower_boot (s : State) (g : Power → Power) : (s.updPower g).boot = s.boot := rfl
@[simp] theorem State.updPower_mgmt (s : State) (g : Power → Power) : (s.updPower g).mgmt = s.mgmt := rfl
@[simp] theorem State.updPower_pins (s : State) (g : Power → Power) : (s.updPower g).pins = s.pins := rfl

/-! ## State.updBoot changes boot only -/

@[simp] theorem State.updBoot_pending (s : State) (g : Boot → Boot) : (s.updBoot g).pending = s.pending := rfl
@[simp] theorem State.updBoot_free (s : State) (g : Boot → Boot) : (s.updBoot g).free = s.free := rfl
@[simp] theorem State.updBoot_dt (s : State) (g : Boot → Boot) : (s.updBoot g).dt = s.dt := rfl
@[simp] theorem State.updBoot_site (s : State) (g : Boot → Boot) : (s.updBoot g).site = s.site := rfl
@[simp] theorem State.updBoot_ports (s : State) (g : Boot → Boot) : (s.updBoot g).ports = s.ports := rfl
@[simp] theorem State.updBoot_parts (s : State) (g : Boot → Boot) : (s.updBoot g).parts = s.parts := rfl
@[simp] theorem State.updBoot_contents (s : State) (g : Boot → Boot) : (s.updBoot g).contents = s.contents := rfl
@[simp] theorem State.updBoot_nextContent (s : State) (g : Boot → Boot) : (s.updBoot g).nextContent = s.nextContent := rfl
@[simp] theorem State.updBoot_models (s : State) (g : Boot → Boot) : (s.updBoot g).models = s.models := rfl
@[simp] theorem State.updBoot_loads (s : State) (g : Boot → Boot) : (s.updBoot g).loads = s.loads := rfl
@[simp] theorem State.updBoot_nextLoad (s : State) (g : Boot → Boot) : (s.updBoot g).nextLoad = s.nextLoad := rfl
@[simp] theorem State.updBoot_pipes (s : State) (g : Boot → Boot) : (s.updBoot g).pipes = s.pipes := rfl
@[simp] theorem State.updBoot_streams (s : State) (g : Boot → Boot) : (s.updBoot g).streams = s.streams := rfl
@[simp] theorem State.updBoot_branches (s : State) (g : Boot → Boot) : (s.updBoot g).branches = s.branches := rfl
@[simp] theorem State.updBoot_attachSeq (s : State) (g : Boot → Boot) : (s.updBoot g).attachSeq = s.attachSeq := rfl
@[simp] theorem State.updBoot_tiles (s : State) (g : Boot → Boot) : (s.updBoot g).tiles = s.tiles := rfl
@[simp] theorem State.updBoot_flanks (s : State) (g : Boot → Boot) : (s.updBoot g).flanks = s.flanks := rfl
@[simp] theorem State.updBoot_pages (s : State) (g : Boot → Boot) : (s.updBoot g).pages = s.pages := rfl
@[simp] theorem State.updBoot_journal (s : State) (g : Boot → Boot) : (s.updBoot g).journal = s.journal := rfl
@[simp] theorem State.updBoot_feeders (s : State) (g : Boot → Boot) : (s.updBoot g).feeders = s.feeders := rfl
@[simp] theorem State.updBoot_ops (s : State) (g : Boot → Boot) : (s.updBoot g).ops = s.ops := rfl
@[simp] theorem State.updBoot_nextOp (s : State) (g : Boot → Boot) : (s.updBoot g).nextOp = s.nextOp := rfl
@[simp] theorem State.updBoot_barriers (s : State) (g : Boot → Boot) : (s.updBoot g).barriers = s.barriers := rfl
@[simp] theorem State.updBoot_store (s : State) (g : Boot → Boot) : (s.updBoot g).store = s.store := rfl
@[simp] theorem State.updBoot_fabric (s : State) (g : Boot → Boot) : (s.updBoot g).fabric = s.fabric := rfl
@[simp] theorem State.updBoot_mem (s : State) (g : Boot → Boot) : (s.updBoot g).mem = s.mem := rfl
@[simp] theorem State.updBoot_audio (s : State) (g : Boot → Boot) : (s.updBoot g).audio = s.audio := rfl
@[simp] theorem State.updBoot_power (s : State) (g : Boot → Boot) : (s.updBoot g).power = s.power := rfl
@[simp] theorem State.updBoot_mgmt (s : State) (g : Boot → Boot) : (s.updBoot g).mgmt = s.mgmt := rfl
@[simp] theorem State.updBoot_pins (s : State) (g : Boot → Boot) : (s.updBoot g).pins = s.pins := rfl

/-! ## State.updMedium changes mgmt only -/

@[simp] theorem State.updMedium_pending (s : State) (m : Medium) (g : MediumState → MediumState) : (s.updMedium m g).pending = s.pending := rfl
@[simp] theorem State.updMedium_free (s : State) (m : Medium) (g : MediumState → MediumState) : (s.updMedium m g).free = s.free := rfl
@[simp] theorem State.updMedium_dt (s : State) (m : Medium) (g : MediumState → MediumState) : (s.updMedium m g).dt = s.dt := rfl
@[simp] theorem State.updMedium_site (s : State) (m : Medium) (g : MediumState → MediumState) : (s.updMedium m g).site = s.site := rfl
@[simp] theorem State.updMedium_ports (s : State) (m : Medium) (g : MediumState → MediumState) : (s.updMedium m g).ports = s.ports := rfl
@[simp] theorem State.updMedium_parts (s : State) (m : Medium) (g : MediumState → MediumState) : (s.updMedium m g).parts = s.parts := rfl
@[simp] theorem State.updMedium_contents (s : State) (m : Medium) (g : MediumState → MediumState) : (s.updMedium m g).contents = s.contents := rfl
@[simp] theorem State.updMedium_nextContent (s : State) (m : Medium) (g : MediumState → MediumState) : (s.updMedium m g).nextContent = s.nextContent := rfl
@[simp] theorem State.updMedium_models (s : State) (m : Medium) (g : MediumState → MediumState) : (s.updMedium m g).models = s.models := rfl
@[simp] theorem State.updMedium_loads (s : State) (m : Medium) (g : MediumState → MediumState) : (s.updMedium m g).loads = s.loads := rfl
@[simp] theorem State.updMedium_nextLoad (s : State) (m : Medium) (g : MediumState → MediumState) : (s.updMedium m g).nextLoad = s.nextLoad := rfl
@[simp] theorem State.updMedium_pipes (s : State) (m : Medium) (g : MediumState → MediumState) : (s.updMedium m g).pipes = s.pipes := rfl
@[simp] theorem State.updMedium_streams (s : State) (m : Medium) (g : MediumState → MediumState) : (s.updMedium m g).streams = s.streams := rfl
@[simp] theorem State.updMedium_branches (s : State) (m : Medium) (g : MediumState → MediumState) : (s.updMedium m g).branches = s.branches := rfl
@[simp] theorem State.updMedium_attachSeq (s : State) (m : Medium) (g : MediumState → MediumState) : (s.updMedium m g).attachSeq = s.attachSeq := rfl
@[simp] theorem State.updMedium_tiles (s : State) (m : Medium) (g : MediumState → MediumState) : (s.updMedium m g).tiles = s.tiles := rfl
@[simp] theorem State.updMedium_flanks (s : State) (m : Medium) (g : MediumState → MediumState) : (s.updMedium m g).flanks = s.flanks := rfl
@[simp] theorem State.updMedium_pages (s : State) (m : Medium) (g : MediumState → MediumState) : (s.updMedium m g).pages = s.pages := rfl
@[simp] theorem State.updMedium_journal (s : State) (m : Medium) (g : MediumState → MediumState) : (s.updMedium m g).journal = s.journal := rfl
@[simp] theorem State.updMedium_feeders (s : State) (m : Medium) (g : MediumState → MediumState) : (s.updMedium m g).feeders = s.feeders := rfl
@[simp] theorem State.updMedium_ops (s : State) (m : Medium) (g : MediumState → MediumState) : (s.updMedium m g).ops = s.ops := rfl
@[simp] theorem State.updMedium_nextOp (s : State) (m : Medium) (g : MediumState → MediumState) : (s.updMedium m g).nextOp = s.nextOp := rfl
@[simp] theorem State.updMedium_barriers (s : State) (m : Medium) (g : MediumState → MediumState) : (s.updMedium m g).barriers = s.barriers := rfl
@[simp] theorem State.updMedium_store (s : State) (m : Medium) (g : MediumState → MediumState) : (s.updMedium m g).store = s.store := rfl
@[simp] theorem State.updMedium_fabric (s : State) (m : Medium) (g : MediumState → MediumState) : (s.updMedium m g).fabric = s.fabric := rfl
@[simp] theorem State.updMedium_mem (s : State) (m : Medium) (g : MediumState → MediumState) : (s.updMedium m g).mem = s.mem := rfl
@[simp] theorem State.updMedium_audio (s : State) (m : Medium) (g : MediumState → MediumState) : (s.updMedium m g).audio = s.audio := rfl
@[simp] theorem State.updMedium_power (s : State) (m : Medium) (g : MediumState → MediumState) : (s.updMedium m g).power = s.power := rfl
@[simp] theorem State.updMedium_boot (s : State) (m : Medium) (g : MediumState → MediumState) : (s.updMedium m g).boot = s.boot := rfl
@[simp] theorem State.updMedium_pins (s : State) (m : Medium) (g : MediumState → MediumState) : (s.updMedium m g).pins = s.pins := rfl

/-! ## State.sendMgmt changes mgmt only -/

@[simp] theorem State.sendMgmt_pending (s : State) (x : MgmtSent) : (s.sendMgmt x).pending = s.pending := rfl
@[simp] theorem State.sendMgmt_free (s : State) (x : MgmtSent) : (s.sendMgmt x).free = s.free := rfl
@[simp] theorem State.sendMgmt_dt (s : State) (x : MgmtSent) : (s.sendMgmt x).dt = s.dt := rfl
@[simp] theorem State.sendMgmt_site (s : State) (x : MgmtSent) : (s.sendMgmt x).site = s.site := rfl
@[simp] theorem State.sendMgmt_ports (s : State) (x : MgmtSent) : (s.sendMgmt x).ports = s.ports := rfl
@[simp] theorem State.sendMgmt_parts (s : State) (x : MgmtSent) : (s.sendMgmt x).parts = s.parts := rfl
@[simp] theorem State.sendMgmt_contents (s : State) (x : MgmtSent) : (s.sendMgmt x).contents = s.contents := rfl
@[simp] theorem State.sendMgmt_nextContent (s : State) (x : MgmtSent) : (s.sendMgmt x).nextContent = s.nextContent := rfl
@[simp] theorem State.sendMgmt_models (s : State) (x : MgmtSent) : (s.sendMgmt x).models = s.models := rfl
@[simp] theorem State.sendMgmt_loads (s : State) (x : MgmtSent) : (s.sendMgmt x).loads = s.loads := rfl
@[simp] theorem State.sendMgmt_nextLoad (s : State) (x : MgmtSent) : (s.sendMgmt x).nextLoad = s.nextLoad := rfl
@[simp] theorem State.sendMgmt_pipes (s : State) (x : MgmtSent) : (s.sendMgmt x).pipes = s.pipes := rfl
@[simp] theorem State.sendMgmt_streams (s : State) (x : MgmtSent) : (s.sendMgmt x).streams = s.streams := rfl
@[simp] theorem State.sendMgmt_branches (s : State) (x : MgmtSent) : (s.sendMgmt x).branches = s.branches := rfl
@[simp] theorem State.sendMgmt_attachSeq (s : State) (x : MgmtSent) : (s.sendMgmt x).attachSeq = s.attachSeq := rfl
@[simp] theorem State.sendMgmt_tiles (s : State) (x : MgmtSent) : (s.sendMgmt x).tiles = s.tiles := rfl
@[simp] theorem State.sendMgmt_flanks (s : State) (x : MgmtSent) : (s.sendMgmt x).flanks = s.flanks := rfl
@[simp] theorem State.sendMgmt_pages (s : State) (x : MgmtSent) : (s.sendMgmt x).pages = s.pages := rfl
@[simp] theorem State.sendMgmt_journal (s : State) (x : MgmtSent) : (s.sendMgmt x).journal = s.journal := rfl
@[simp] theorem State.sendMgmt_feeders (s : State) (x : MgmtSent) : (s.sendMgmt x).feeders = s.feeders := rfl
@[simp] theorem State.sendMgmt_ops (s : State) (x : MgmtSent) : (s.sendMgmt x).ops = s.ops := rfl
@[simp] theorem State.sendMgmt_nextOp (s : State) (x : MgmtSent) : (s.sendMgmt x).nextOp = s.nextOp := rfl
@[simp] theorem State.sendMgmt_barriers (s : State) (x : MgmtSent) : (s.sendMgmt x).barriers = s.barriers := rfl
@[simp] theorem State.sendMgmt_store (s : State) (x : MgmtSent) : (s.sendMgmt x).store = s.store := rfl
@[simp] theorem State.sendMgmt_fabric (s : State) (x : MgmtSent) : (s.sendMgmt x).fabric = s.fabric := rfl
@[simp] theorem State.sendMgmt_mem (s : State) (x : MgmtSent) : (s.sendMgmt x).mem = s.mem := rfl
@[simp] theorem State.sendMgmt_audio (s : State) (x : MgmtSent) : (s.sendMgmt x).audio = s.audio := rfl
@[simp] theorem State.sendMgmt_power (s : State) (x : MgmtSent) : (s.sendMgmt x).power = s.power := rfl
@[simp] theorem State.sendMgmt_boot (s : State) (x : MgmtSent) : (s.sendMgmt x).boot = s.boot := rfl
@[simp] theorem State.sendMgmt_pins (s : State) (x : MgmtSent) : (s.sendMgmt x).pins = s.pins := rfl

/-! ## State.updWatch changes mgmt only -/

@[simp] theorem State.updWatch_pending (s : State) (k : Nat) (g : SensorState → SensorState) : (s.updWatch k g).pending = s.pending := rfl
@[simp] theorem State.updWatch_free (s : State) (k : Nat) (g : SensorState → SensorState) : (s.updWatch k g).free = s.free := rfl
@[simp] theorem State.updWatch_dt (s : State) (k : Nat) (g : SensorState → SensorState) : (s.updWatch k g).dt = s.dt := rfl
@[simp] theorem State.updWatch_site (s : State) (k : Nat) (g : SensorState → SensorState) : (s.updWatch k g).site = s.site := rfl
@[simp] theorem State.updWatch_ports (s : State) (k : Nat) (g : SensorState → SensorState) : (s.updWatch k g).ports = s.ports := rfl
@[simp] theorem State.updWatch_parts (s : State) (k : Nat) (g : SensorState → SensorState) : (s.updWatch k g).parts = s.parts := rfl
@[simp] theorem State.updWatch_contents (s : State) (k : Nat) (g : SensorState → SensorState) : (s.updWatch k g).contents = s.contents := rfl
@[simp] theorem State.updWatch_nextContent (s : State) (k : Nat) (g : SensorState → SensorState) : (s.updWatch k g).nextContent = s.nextContent := rfl
@[simp] theorem State.updWatch_models (s : State) (k : Nat) (g : SensorState → SensorState) : (s.updWatch k g).models = s.models := rfl
@[simp] theorem State.updWatch_loads (s : State) (k : Nat) (g : SensorState → SensorState) : (s.updWatch k g).loads = s.loads := rfl
@[simp] theorem State.updWatch_nextLoad (s : State) (k : Nat) (g : SensorState → SensorState) : (s.updWatch k g).nextLoad = s.nextLoad := rfl
@[simp] theorem State.updWatch_pipes (s : State) (k : Nat) (g : SensorState → SensorState) : (s.updWatch k g).pipes = s.pipes := rfl
@[simp] theorem State.updWatch_streams (s : State) (k : Nat) (g : SensorState → SensorState) : (s.updWatch k g).streams = s.streams := rfl
@[simp] theorem State.updWatch_branches (s : State) (k : Nat) (g : SensorState → SensorState) : (s.updWatch k g).branches = s.branches := rfl
@[simp] theorem State.updWatch_attachSeq (s : State) (k : Nat) (g : SensorState → SensorState) : (s.updWatch k g).attachSeq = s.attachSeq := rfl
@[simp] theorem State.updWatch_tiles (s : State) (k : Nat) (g : SensorState → SensorState) : (s.updWatch k g).tiles = s.tiles := rfl
@[simp] theorem State.updWatch_flanks (s : State) (k : Nat) (g : SensorState → SensorState) : (s.updWatch k g).flanks = s.flanks := rfl
@[simp] theorem State.updWatch_pages (s : State) (k : Nat) (g : SensorState → SensorState) : (s.updWatch k g).pages = s.pages := rfl
@[simp] theorem State.updWatch_journal (s : State) (k : Nat) (g : SensorState → SensorState) : (s.updWatch k g).journal = s.journal := rfl
@[simp] theorem State.updWatch_feeders (s : State) (k : Nat) (g : SensorState → SensorState) : (s.updWatch k g).feeders = s.feeders := rfl
@[simp] theorem State.updWatch_ops (s : State) (k : Nat) (g : SensorState → SensorState) : (s.updWatch k g).ops = s.ops := rfl
@[simp] theorem State.updWatch_nextOp (s : State) (k : Nat) (g : SensorState → SensorState) : (s.updWatch k g).nextOp = s.nextOp := rfl
@[simp] theorem State.updWatch_barriers (s : State) (k : Nat) (g : SensorState → SensorState) : (s.updWatch k g).barriers = s.barriers := rfl
@[simp] theorem State.updWatch_store (s : State) (k : Nat) (g : SensorState → SensorState) : (s.updWatch k g).store = s.store := rfl
@[simp] theorem State.updWatch_fabric (s : State) (k : Nat) (g : SensorState → SensorState) : (s.updWatch k g).fabric = s.fabric := rfl
@[simp] theorem State.updWatch_mem (s : State) (k : Nat) (g : SensorState → SensorState) : (s.updWatch k g).mem = s.mem := rfl
@[simp] theorem State.updWatch_audio (s : State) (k : Nat) (g : SensorState → SensorState) : (s.updWatch k g).audio = s.audio := rfl
@[simp] theorem State.updWatch_power (s : State) (k : Nat) (g : SensorState → SensorState) : (s.updWatch k g).power = s.power := rfl
@[simp] theorem State.updWatch_boot (s : State) (k : Nat) (g : SensorState → SensorState) : (s.updWatch k g).boot = s.boot := rfl
@[simp] theorem State.updWatch_pins (s : State) (k : Nat) (g : SensorState → SensorState) : (s.updWatch k g).pins = s.pins := rfl

/-! ## State.journalWrite changes journal only -/

@[simp] theorem State.journalWrite_pending (s : State) (e : JEntry) : (s.journalWrite e).pending = s.pending := rfl
@[simp] theorem State.journalWrite_free (s : State) (e : JEntry) : (s.journalWrite e).free = s.free := rfl
@[simp] theorem State.journalWrite_dt (s : State) (e : JEntry) : (s.journalWrite e).dt = s.dt := rfl
@[simp] theorem State.journalWrite_site (s : State) (e : JEntry) : (s.journalWrite e).site = s.site := rfl
@[simp] theorem State.journalWrite_ports (s : State) (e : JEntry) : (s.journalWrite e).ports = s.ports := rfl
@[simp] theorem State.journalWrite_parts (s : State) (e : JEntry) : (s.journalWrite e).parts = s.parts := rfl
@[simp] theorem State.journalWrite_contents (s : State) (e : JEntry) : (s.journalWrite e).contents = s.contents := rfl
@[simp] theorem State.journalWrite_nextContent (s : State) (e : JEntry) : (s.journalWrite e).nextContent = s.nextContent := rfl
@[simp] theorem State.journalWrite_models (s : State) (e : JEntry) : (s.journalWrite e).models = s.models := rfl
@[simp] theorem State.journalWrite_loads (s : State) (e : JEntry) : (s.journalWrite e).loads = s.loads := rfl
@[simp] theorem State.journalWrite_nextLoad (s : State) (e : JEntry) : (s.journalWrite e).nextLoad = s.nextLoad := rfl
@[simp] theorem State.journalWrite_pipes (s : State) (e : JEntry) : (s.journalWrite e).pipes = s.pipes := rfl
@[simp] theorem State.journalWrite_streams (s : State) (e : JEntry) : (s.journalWrite e).streams = s.streams := rfl
@[simp] theorem State.journalWrite_branches (s : State) (e : JEntry) : (s.journalWrite e).branches = s.branches := rfl
@[simp] theorem State.journalWrite_attachSeq (s : State) (e : JEntry) : (s.journalWrite e).attachSeq = s.attachSeq := rfl
@[simp] theorem State.journalWrite_tiles (s : State) (e : JEntry) : (s.journalWrite e).tiles = s.tiles := rfl
@[simp] theorem State.journalWrite_flanks (s : State) (e : JEntry) : (s.journalWrite e).flanks = s.flanks := rfl
@[simp] theorem State.journalWrite_pages (s : State) (e : JEntry) : (s.journalWrite e).pages = s.pages := rfl
@[simp] theorem State.journalWrite_feeders (s : State) (e : JEntry) : (s.journalWrite e).feeders = s.feeders := rfl
@[simp] theorem State.journalWrite_ops (s : State) (e : JEntry) : (s.journalWrite e).ops = s.ops := rfl
@[simp] theorem State.journalWrite_nextOp (s : State) (e : JEntry) : (s.journalWrite e).nextOp = s.nextOp := rfl
@[simp] theorem State.journalWrite_barriers (s : State) (e : JEntry) : (s.journalWrite e).barriers = s.barriers := rfl
@[simp] theorem State.journalWrite_store (s : State) (e : JEntry) : (s.journalWrite e).store = s.store := rfl
@[simp] theorem State.journalWrite_fabric (s : State) (e : JEntry) : (s.journalWrite e).fabric = s.fabric := rfl
@[simp] theorem State.journalWrite_mem (s : State) (e : JEntry) : (s.journalWrite e).mem = s.mem := rfl
@[simp] theorem State.journalWrite_audio (s : State) (e : JEntry) : (s.journalWrite e).audio = s.audio := rfl
@[simp] theorem State.journalWrite_power (s : State) (e : JEntry) : (s.journalWrite e).power = s.power := rfl
@[simp] theorem State.journalWrite_boot (s : State) (e : JEntry) : (s.journalWrite e).boot = s.boot := rfl
@[simp] theorem State.journalWrite_mgmt (s : State) (e : JEntry) : (s.journalWrite e).mgmt = s.mgmt := rfl
@[simp] theorem State.journalWrite_pins (s : State) (e : JEntry) : (s.journalWrite e).pins = s.pins := rfl

/-! ## State.memWrite changes mem only -/

@[simp] theorem State.memWrite_pending (s : State) (x n v : Nat) : (s.memWrite x n v).pending = s.pending := rfl
@[simp] theorem State.memWrite_free (s : State) (x n v : Nat) : (s.memWrite x n v).free = s.free := rfl
@[simp] theorem State.memWrite_dt (s : State) (x n v : Nat) : (s.memWrite x n v).dt = s.dt := rfl
@[simp] theorem State.memWrite_site (s : State) (x n v : Nat) : (s.memWrite x n v).site = s.site := rfl
@[simp] theorem State.memWrite_ports (s : State) (x n v : Nat) : (s.memWrite x n v).ports = s.ports := rfl
@[simp] theorem State.memWrite_parts (s : State) (x n v : Nat) : (s.memWrite x n v).parts = s.parts := rfl
@[simp] theorem State.memWrite_contents (s : State) (x n v : Nat) : (s.memWrite x n v).contents = s.contents := rfl
@[simp] theorem State.memWrite_nextContent (s : State) (x n v : Nat) : (s.memWrite x n v).nextContent = s.nextContent := rfl
@[simp] theorem State.memWrite_models (s : State) (x n v : Nat) : (s.memWrite x n v).models = s.models := rfl
@[simp] theorem State.memWrite_loads (s : State) (x n v : Nat) : (s.memWrite x n v).loads = s.loads := rfl
@[simp] theorem State.memWrite_nextLoad (s : State) (x n v : Nat) : (s.memWrite x n v).nextLoad = s.nextLoad := rfl
@[simp] theorem State.memWrite_pipes (s : State) (x n v : Nat) : (s.memWrite x n v).pipes = s.pipes := rfl
@[simp] theorem State.memWrite_streams (s : State) (x n v : Nat) : (s.memWrite x n v).streams = s.streams := rfl
@[simp] theorem State.memWrite_branches (s : State) (x n v : Nat) : (s.memWrite x n v).branches = s.branches := rfl
@[simp] theorem State.memWrite_attachSeq (s : State) (x n v : Nat) : (s.memWrite x n v).attachSeq = s.attachSeq := rfl
@[simp] theorem State.memWrite_tiles (s : State) (x n v : Nat) : (s.memWrite x n v).tiles = s.tiles := rfl
@[simp] theorem State.memWrite_flanks (s : State) (x n v : Nat) : (s.memWrite x n v).flanks = s.flanks := rfl
@[simp] theorem State.memWrite_pages (s : State) (x n v : Nat) : (s.memWrite x n v).pages = s.pages := rfl
@[simp] theorem State.memWrite_journal (s : State) (x n v : Nat) : (s.memWrite x n v).journal = s.journal := rfl
@[simp] theorem State.memWrite_feeders (s : State) (x n v : Nat) : (s.memWrite x n v).feeders = s.feeders := rfl
@[simp] theorem State.memWrite_ops (s : State) (x n v : Nat) : (s.memWrite x n v).ops = s.ops := rfl
@[simp] theorem State.memWrite_nextOp (s : State) (x n v : Nat) : (s.memWrite x n v).nextOp = s.nextOp := rfl
@[simp] theorem State.memWrite_barriers (s : State) (x n v : Nat) : (s.memWrite x n v).barriers = s.barriers := rfl
@[simp] theorem State.memWrite_store (s : State) (x n v : Nat) : (s.memWrite x n v).store = s.store := rfl
@[simp] theorem State.memWrite_fabric (s : State) (x n v : Nat) : (s.memWrite x n v).fabric = s.fabric := rfl
@[simp] theorem State.memWrite_audio (s : State) (x n v : Nat) : (s.memWrite x n v).audio = s.audio := rfl
@[simp] theorem State.memWrite_power (s : State) (x n v : Nat) : (s.memWrite x n v).power = s.power := rfl
@[simp] theorem State.memWrite_boot (s : State) (x n v : Nat) : (s.memWrite x n v).boot = s.boot := rfl
@[simp] theorem State.memWrite_mgmt (s : State) (x n v : Nat) : (s.memWrite x n v).mgmt = s.mgmt := rfl
@[simp] theorem State.memWrite_pins (s : State) (x n v : Nat) : (s.memWrite x n v).pins = s.pins := rfl

/-! ## State.setRoute changes fabric only -/

@[simp] theorem State.setRoute_pending (s : State) (e : Nat) (r : Route) : (s.setRoute e r).pending = s.pending := rfl
@[simp] theorem State.setRoute_free (s : State) (e : Nat) (r : Route) : (s.setRoute e r).free = s.free := rfl
@[simp] theorem State.setRoute_dt (s : State) (e : Nat) (r : Route) : (s.setRoute e r).dt = s.dt := rfl
@[simp] theorem State.setRoute_site (s : State) (e : Nat) (r : Route) : (s.setRoute e r).site = s.site := rfl
@[simp] theorem State.setRoute_ports (s : State) (e : Nat) (r : Route) : (s.setRoute e r).ports = s.ports := rfl
@[simp] theorem State.setRoute_parts (s : State) (e : Nat) (r : Route) : (s.setRoute e r).parts = s.parts := rfl
@[simp] theorem State.setRoute_contents (s : State) (e : Nat) (r : Route) : (s.setRoute e r).contents = s.contents := rfl
@[simp] theorem State.setRoute_nextContent (s : State) (e : Nat) (r : Route) : (s.setRoute e r).nextContent = s.nextContent := rfl
@[simp] theorem State.setRoute_models (s : State) (e : Nat) (r : Route) : (s.setRoute e r).models = s.models := rfl
@[simp] theorem State.setRoute_loads (s : State) (e : Nat) (r : Route) : (s.setRoute e r).loads = s.loads := rfl
@[simp] theorem State.setRoute_nextLoad (s : State) (e : Nat) (r : Route) : (s.setRoute e r).nextLoad = s.nextLoad := rfl
@[simp] theorem State.setRoute_pipes (s : State) (e : Nat) (r : Route) : (s.setRoute e r).pipes = s.pipes := rfl
@[simp] theorem State.setRoute_streams (s : State) (e : Nat) (r : Route) : (s.setRoute e r).streams = s.streams := rfl
@[simp] theorem State.setRoute_branches (s : State) (e : Nat) (r : Route) : (s.setRoute e r).branches = s.branches := rfl
@[simp] theorem State.setRoute_attachSeq (s : State) (e : Nat) (r : Route) : (s.setRoute e r).attachSeq = s.attachSeq := rfl
@[simp] theorem State.setRoute_tiles (s : State) (e : Nat) (r : Route) : (s.setRoute e r).tiles = s.tiles := rfl
@[simp] theorem State.setRoute_flanks (s : State) (e : Nat) (r : Route) : (s.setRoute e r).flanks = s.flanks := rfl
@[simp] theorem State.setRoute_pages (s : State) (e : Nat) (r : Route) : (s.setRoute e r).pages = s.pages := rfl
@[simp] theorem State.setRoute_journal (s : State) (e : Nat) (r : Route) : (s.setRoute e r).journal = s.journal := rfl
@[simp] theorem State.setRoute_feeders (s : State) (e : Nat) (r : Route) : (s.setRoute e r).feeders = s.feeders := rfl
@[simp] theorem State.setRoute_ops (s : State) (e : Nat) (r : Route) : (s.setRoute e r).ops = s.ops := rfl
@[simp] theorem State.setRoute_nextOp (s : State) (e : Nat) (r : Route) : (s.setRoute e r).nextOp = s.nextOp := rfl
@[simp] theorem State.setRoute_barriers (s : State) (e : Nat) (r : Route) : (s.setRoute e r).barriers = s.barriers := rfl
@[simp] theorem State.setRoute_store (s : State) (e : Nat) (r : Route) : (s.setRoute e r).store = s.store := rfl
@[simp] theorem State.setRoute_mem (s : State) (e : Nat) (r : Route) : (s.setRoute e r).mem = s.mem := rfl
@[simp] theorem State.setRoute_audio (s : State) (e : Nat) (r : Route) : (s.setRoute e r).audio = s.audio := rfl
@[simp] theorem State.setRoute_power (s : State) (e : Nat) (r : Route) : (s.setRoute e r).power = s.power := rfl
@[simp] theorem State.setRoute_boot (s : State) (e : Nat) (r : Route) : (s.setRoute e r).boot = s.boot := rfl
@[simp] theorem State.setRoute_mgmt (s : State) (e : Nat) (r : Route) : (s.setRoute e r).mgmt = s.mgmt := rfl
@[simp] theorem State.setRoute_pins (s : State) (e : Nat) (r : Route) : (s.setRoute e r).pins = s.pins := rfl

/-! ## State.updErr changes mem only -/

@[simp] theorem State.updErr_pending (s : State) (b : Nat) (g : BurstErr → BurstErr) : (s.updErr b g).pending = s.pending := rfl
@[simp] theorem State.updErr_free (s : State) (b : Nat) (g : BurstErr → BurstErr) : (s.updErr b g).free = s.free := rfl
@[simp] theorem State.updErr_dt (s : State) (b : Nat) (g : BurstErr → BurstErr) : (s.updErr b g).dt = s.dt := rfl
@[simp] theorem State.updErr_site (s : State) (b : Nat) (g : BurstErr → BurstErr) : (s.updErr b g).site = s.site := rfl
@[simp] theorem State.updErr_ports (s : State) (b : Nat) (g : BurstErr → BurstErr) : (s.updErr b g).ports = s.ports := rfl
@[simp] theorem State.updErr_parts (s : State) (b : Nat) (g : BurstErr → BurstErr) : (s.updErr b g).parts = s.parts := rfl
@[simp] theorem State.updErr_contents (s : State) (b : Nat) (g : BurstErr → BurstErr) : (s.updErr b g).contents = s.contents := rfl
@[simp] theorem State.updErr_nextContent (s : State) (b : Nat) (g : BurstErr → BurstErr) : (s.updErr b g).nextContent = s.nextContent := rfl
@[simp] theorem State.updErr_models (s : State) (b : Nat) (g : BurstErr → BurstErr) : (s.updErr b g).models = s.models := rfl
@[simp] theorem State.updErr_loads (s : State) (b : Nat) (g : BurstErr → BurstErr) : (s.updErr b g).loads = s.loads := rfl
@[simp] theorem State.updErr_nextLoad (s : State) (b : Nat) (g : BurstErr → BurstErr) : (s.updErr b g).nextLoad = s.nextLoad := rfl
@[simp] theorem State.updErr_pipes (s : State) (b : Nat) (g : BurstErr → BurstErr) : (s.updErr b g).pipes = s.pipes := rfl
@[simp] theorem State.updErr_streams (s : State) (b : Nat) (g : BurstErr → BurstErr) : (s.updErr b g).streams = s.streams := rfl
@[simp] theorem State.updErr_branches (s : State) (b : Nat) (g : BurstErr → BurstErr) : (s.updErr b g).branches = s.branches := rfl
@[simp] theorem State.updErr_attachSeq (s : State) (b : Nat) (g : BurstErr → BurstErr) : (s.updErr b g).attachSeq = s.attachSeq := rfl
@[simp] theorem State.updErr_tiles (s : State) (b : Nat) (g : BurstErr → BurstErr) : (s.updErr b g).tiles = s.tiles := rfl
@[simp] theorem State.updErr_flanks (s : State) (b : Nat) (g : BurstErr → BurstErr) : (s.updErr b g).flanks = s.flanks := rfl
@[simp] theorem State.updErr_pages (s : State) (b : Nat) (g : BurstErr → BurstErr) : (s.updErr b g).pages = s.pages := rfl
@[simp] theorem State.updErr_journal (s : State) (b : Nat) (g : BurstErr → BurstErr) : (s.updErr b g).journal = s.journal := rfl
@[simp] theorem State.updErr_feeders (s : State) (b : Nat) (g : BurstErr → BurstErr) : (s.updErr b g).feeders = s.feeders := rfl
@[simp] theorem State.updErr_ops (s : State) (b : Nat) (g : BurstErr → BurstErr) : (s.updErr b g).ops = s.ops := rfl
@[simp] theorem State.updErr_nextOp (s : State) (b : Nat) (g : BurstErr → BurstErr) : (s.updErr b g).nextOp = s.nextOp := rfl
@[simp] theorem State.updErr_barriers (s : State) (b : Nat) (g : BurstErr → BurstErr) : (s.updErr b g).barriers = s.barriers := rfl
@[simp] theorem State.updErr_store (s : State) (b : Nat) (g : BurstErr → BurstErr) : (s.updErr b g).store = s.store := rfl
@[simp] theorem State.updErr_fabric (s : State) (b : Nat) (g : BurstErr → BurstErr) : (s.updErr b g).fabric = s.fabric := rfl
@[simp] theorem State.updErr_audio (s : State) (b : Nat) (g : BurstErr → BurstErr) : (s.updErr b g).audio = s.audio := rfl
@[simp] theorem State.updErr_power (s : State) (b : Nat) (g : BurstErr → BurstErr) : (s.updErr b g).power = s.power := rfl
@[simp] theorem State.updErr_boot (s : State) (b : Nat) (g : BurstErr → BurstErr) : (s.updErr b g).boot = s.boot := rfl
@[simp] theorem State.updErr_mgmt (s : State) (b : Nat) (g : BurstErr → BurstErr) : (s.updErr b g).mgmt = s.mgmt := rfl
@[simp] theorem State.updErr_pins (s : State) (b : Nat) (g : BurstErr → BurstErr) : (s.updErr b g).pins = s.pins := rfl

@[simp] theorem State.updPower_power (s : State) (g : Power → Power) : (s.updPower g).power = g s.power := rfl
@[simp] theorem State.updBoot_boot (s : State) (g : Boot → Boot) : (s.updBoot g).boot = g s.boot := rfl

/-! ## Reading back: a table in key order reads as written -/

theorem State.port_setPort (s : State) (h : Table.sortedFrom 0 s.ports = true) (k : Nat) (v : HostPort) : (s.setPort k v).port k = v :=
  Table.get_set_same h k v
theorem State.port_setPort_other (s : State) (h : Table.sortedFrom 0 s.ports = true) (k : Nat) (v : HostPort) {q : Nat} (hq : q ≠ k) : (s.setPort k v).port q = s.port q :=
  Table.get_set_other h hq v
theorem State.port_updPort (s : State) (h : Table.sortedFrom 0 s.ports = true) (k : Nat) (g : HostPort → HostPort) : (s.updPort k g).port k = g (s.port k) :=
  Table.get_set_same h k _
theorem State.port_updPort_other (s : State) (h : Table.sortedFrom 0 s.ports = true) (k : Nat) (g : HostPort → HostPort) {q : Nat} (hq : q ≠ k) : (s.updPort k g).port q = s.port q :=
  Table.get_set_other h hq _
theorem State.stream_setStream (s : State) (h : Table.sortedFrom 0 s.streams = true) (k : Nat) (v : Stream) : (s.setStream k v).stream k = v :=
  Table.get_set_same h k v
theorem State.stream_setStream_other (s : State) (h : Table.sortedFrom 0 s.streams = true) (k : Nat) (v : Stream) {q : Nat} (hq : q ≠ k) : (s.setStream k v).stream q = s.stream q :=
  Table.get_set_other h hq v
theorem State.stream_updStream (s : State) (h : Table.sortedFrom 0 s.streams = true) (k : Nat) (g : Stream → Stream) : (s.updStream k g).stream k = g (s.stream k) :=
  Table.get_set_same h k _
theorem State.stream_updStream_other (s : State) (h : Table.sortedFrom 0 s.streams = true) (k : Nat) (g : Stream → Stream) {q : Nat} (hq : q ≠ k) : (s.updStream k g).stream q = s.stream q :=
  Table.get_set_other h hq _
theorem State.branch_setBranch (s : State) (h : Table.sortedFrom 0 s.branches = true) (k : Nat) (v : Branch) : (s.setBranch k v).branch k = v :=
  Table.get_set_same h k v
theorem State.branch_setBranch_other (s : State) (h : Table.sortedFrom 0 s.branches = true) (k : Nat) (v : Branch) {q : Nat} (hq : q ≠ k) : (s.setBranch k v).branch q = s.branch q :=
  Table.get_set_other h hq v
theorem State.branch_updBranch (s : State) (h : Table.sortedFrom 0 s.branches = true) (k : Nat) (g : Branch → Branch) : (s.updBranch k g).branch k = g (s.branch k) :=
  Table.get_set_same h k _
theorem State.branch_updBranch_other (s : State) (h : Table.sortedFrom 0 s.branches = true) (k : Nat) (g : Branch → Branch) {q : Nat} (hq : q ≠ k) : (s.updBranch k g).branch q = s.branch q :=
  Table.get_set_other h hq _
theorem State.model_setModel (s : State) (h : Table.sortedFrom 0 s.models = true) (k : Nat) (v : ModelSlot) : (s.setModel k v).model k = v :=
  Table.get_set_same h k v
theorem State.model_setModel_other (s : State) (h : Table.sortedFrom 0 s.models = true) (k : Nat) (v : ModelSlot) {q : Nat} (hq : q ≠ k) : (s.setModel k v).model q = s.model q :=
  Table.get_set_other h hq v
theorem State.pipe_setPipe (s : State) (h : Table.sortedFrom 0 s.pipes = true) (k : Nat) (v : Pipeline) : (s.setPipe k v).pipe k = v :=
  Table.get_set_same h k v
theorem State.pipe_setPipe_other (s : State) (h : Table.sortedFrom 0 s.pipes = true) (k : Nat) (v : Pipeline) {q : Nat} (hq : q ≠ k) : (s.setPipe k v).pipe q = s.pipe q :=
  Table.get_set_other h hq v
theorem State.content_setContent (s : State) (h : Table.sortedFrom 0 s.contents = true) (k : Nat) (v : Content) : (s.setContent k v).content k = v :=
  Table.get_set_same h k v
theorem State.content_setContent_other (s : State) (h : Table.sortedFrom 0 s.contents = true) (k : Nat) (v : Content) {q : Nat} (hq : q ≠ k) : (s.setContent k v).content q = s.content q :=
  Table.get_set_other h hq v
theorem State.part_updPart (s : State) (h : Table.sortedFrom 0 s.parts = true) (k : Nat) (g : Partition → Partition) : (s.updPart k g).part k = g (s.part k) :=
  Table.get_set_same h k _
theorem State.part_updPart_other (s : State) (h : Table.sortedFrom 0 s.parts = true) (k : Nat) (g : Partition → Partition) {q : Nat} (hq : q ≠ k) : (s.updPart k g).part q = s.part q :=
  Table.get_set_other h hq _
theorem State.flank_updFlank (s : State) (h : Table.sortedFrom 0 s.flanks = true) (k : Nat) (g : Flank → Flank) : (s.updFlank k g).flank k = g (s.flank k) :=
  Table.get_set_same h k _
theorem State.flank_updFlank_other (s : State) (h : Table.sortedFrom 0 s.flanks = true) (k : Nat) (g : Flank → Flank) {q : Nat} (hq : q ≠ k) : (s.updFlank k g).flank q = s.flank q :=
  Table.get_set_other h hq _
theorem State.feeder_updFeeder (s : State) (h : Table.sortedFrom 0 s.feeders = true) (k : Nat) (g : Feeder → Feeder) : (s.updFeeder k g).feeder k = g (s.feeder k) :=
  Table.get_set_same h k _
theorem State.feeder_updFeeder_other (s : State) (h : Table.sortedFrom 0 s.feeders = true) (k : Nat) (g : Feeder → Feeder) {q : Nat} (hq : q ≠ k) : (s.updFeeder k g).feeder q = s.feeder q :=
  Table.get_set_other h hq _
theorem State.link_updLink (s : State) (h : Table.sortedFrom 0 s.fabric.links = true) (k : Nat) (g : Link → Link) : (s.updLink k g).link k = (g (s.link k)).mark s.dt :=
  Table.get_set_same h k _
theorem State.link_updLink_other (s : State) (h : Table.sortedFrom 0 s.fabric.links = true) (k : Nat) (g : Link → Link) {q : Nat} (hq : q ≠ k) : (s.updLink k g).link q = s.link q :=
  Table.get_set_other h hq _
theorem State.netif_updNetif (s : State) (h : Table.sortedFrom 0 s.fabric.netifs = true) (k : Nat) (g : NetIf → NetIf) : (s.updNetif k g).netif k = g (s.netif k) :=
  Table.get_set_same h k _
theorem State.netif_updNetif_other (s : State) (h : Table.sortedFrom 0 s.fabric.netifs = true) (k : Nat) (g : NetIf → NetIf) {q : Nat} (hq : q ≠ k) : (s.updNetif k g).netif q = s.netif q :=
  Table.get_set_other h hq _
theorem State.channel_updChannel (s : State) (h : Table.sortedFrom 0 s.mem.channels = true) (k : Nat) (g : PseudoChannel → PseudoChannel) : (s.updChannel k g).channel k = g (s.channel k) :=
  Table.get_set_same h k _
theorem State.channel_updChannel_other (s : State) (h : Table.sortedFrom 0 s.mem.channels = true) (k : Nat) (g : PseudoChannel → PseudoChannel) {q : Nat} (hq : q ≠ k) : (s.updChannel k g).channel q = s.channel q :=
  Table.get_set_other h hq _
theorem State.tdm_updTdm (s : State) (h : Table.sortedFrom 0 s.audio.ports = true) (k : Nat) (g : TdmPort → TdmPort) : (s.updTdm k g).tdm k = g (s.tdm k) :=
  Table.get_set_same h k _
theorem State.tdm_updTdm_other (s : State) (h : Table.sortedFrom 0 s.audio.ports = true) (k : Nat) (g : TdmPort → TdmPort) {q : Nat} (hq : q ≠ k) : (s.updTdm k g).tdm q = s.tdm q :=
  Table.get_set_other h hq _
theorem State.inSlot_updIn (s : State) (h : Table.sortedFrom 0 s.audio.inputs = true) (k : Nat) (g : InSlot → InSlot) : (s.updIn k g).inSlot k = g (s.inSlot k) :=
  Table.get_set_same h k _
theorem State.inSlot_updIn_other (s : State) (h : Table.sortedFrom 0 s.audio.inputs = true) (k : Nat) (g : InSlot → InSlot) {q : Nat} (hq : q ≠ k) : (s.updIn k g).inSlot q = s.inSlot q :=
  Table.get_set_other h hq _
theorem State.outSlot_updOut (s : State) (h : Table.sortedFrom 0 s.audio.outputs = true) (k : Nat) (g : OutSlot → OutSlot) : (s.updOut k g).outSlot k = g (s.outSlot k) :=
  Table.get_set_same h k _
theorem State.outSlot_updOut_other (s : State) (h : Table.sortedFrom 0 s.audio.outputs = true) (k : Nat) (g : OutSlot → OutSlot) {q : Nat} (hq : q ≠ k) : (s.updOut k g).outSlot q = s.outSlot q :=
  Table.get_set_other h hq _
theorem State.tile_updTile (s : State) (h : Table.sortedFrom 0 s.tiles = true) (k : Nat) (g : Tile → Tile) : (s.updTile k g).tile k = g (s.tile k) :=
  Table.get_set_same h k _
theorem State.page_updPage (s : State) (h : Table.sortedFrom 0 s.pages.pages = true) (k : Nat) (g : PageRec → PageRec) : (s.updPage k g).page k = g (s.page k) :=
  Table.get_set_same h k _
theorem State.page_updPage_other (s : State) (h : Table.sortedFrom 0 s.pages.pages = true) (k : Nat) (g : PageRec → PageRec) {q : Nat} (hq : q ≠ k) : (s.updPage k g).page q = s.page q :=
  Table.get_set_other h hq _

end Sys2Proof.Machine
end

