-- ==== Sys2Proof/Laws/Settle.lean ====
section
/-!
SUPPORT. Laws/Settle.lean: what follows a command: in a quiet state only the sensors' evaluation, which changes the management endpoint alone.
-/
namespace Sys2Proof.Machine

open Sys2Proof.Safety

theorem forall_lt_four {p : Nat → Prop} (h : ∀ n, n < 4 → p n) : p 0 ∧ p 1 ∧ p 2 ∧ p 3 :=
  ⟨h 0 (by omega), h 1 (by omega), h 2 (by omega), h 3 (by omega)⟩

/-! ## The sensors -/

theorem platformEvent_frame (s : State) (k a b : Nat) : ∃ m, s.platformEvent k a b = { s with mgmt := m } := by
  unfold State.platformEvent
  split
  · exact ⟨s.mgmt, rfl⟩
  · exact ⟨_, rfl⟩

theorem evalSensor_frame (s : State) (k : Nat) : ∃ m, s.evalSensor k = { s with mgmt := m } := by
  unfold State.evalSensor
  split
  · exact ⟨s.mgmt, rfl⟩
  · generalize hn : (if k < 64 then (s.thresholds k).next (s.watch k).current (s.reading k) else s.sensorState k) = new
    dsimp only
    rw [hn]
    split
    · exact ⟨s.mgmt, rfl⟩
    · split
      · exact ⟨_, rfl⟩
      · split
        · exact ⟨_, rfl⟩
        · obtain ⟨m, hm⟩ := platformEvent_frame (s.updWatch k fun y => { y with current := new }) k new (s.watch k).current
          exact ⟨m, hm⟩

theorem evalSensors_frame (ks : List Nat) : ∀ s : State, ∃ m, ks.foldl State.evalSensor s = { s with mgmt := m } := by
  induction ks with
  | nil => exact fun s => ⟨s.mgmt, rfl⟩
  | cons k ks ih =>
    intro s
    obtain ⟨m, hm⟩ := evalSensor_frame s k
    obtain ⟨m', hm'⟩ := ih (s.evalSensor k)
    exact ⟨m', by rw [List.foldl_cons, hm', hm]⟩

/-- The sensors' evaluation changes the management endpoint alone. -/
theorem watchSensors_frame (s : State) : ∃ m, s.watchSensors = { s with mgmt := m } := by
  unfold State.watchSensors
  split
  · exact evalSensors_frame _ s
  · exact ⟨s.mgmt, rfl⟩

/-! ## A quiet state -/

/-- A fold of changes none of which changes the state changes nothing. -/
theorem foldl_fix {α β : Type} (f : β → α → β) (b : β) : ∀ xs : List α, (∀ x ∈ xs, f b x = b) → xs.foldl f b = b
  | [], _ => rfl
  | x :: xs, h => by
    rw [List.foldl_cons, h x (List.mem_cons_self ..)]
    exact foldl_fix f b xs (fun y hy => h y (List.mem_cons_of_mem _ hy))

theorem reportRetires_quiet (s : State) (h : ∀ f, f < 3 → (s.flank f).reports = []) : s.reportRetires = s := by
  unfold State.reportRetires
  refine foldl_fix _ _ _ (fun f hf => ?_)
  simp [h f (List.mem_range.1 hf)]

theorem acceptedCount_quiet (s : State) (h : ∀ n, n < 4 → (s.port n).accepted = []) : s.acceptedCount = 0 := by
  obtain ⟨h0, h1, h2, h3⟩ := forall_lt_four h
  unfold State.acceptedCount
  simp [show List.range 4 = [0, 1, 2, 3] from rfl, h0, h1, h2, h3]

theorem sweepLoads_quiet (s : State) (h : s.loads = []) : s.sweepLoads = s := by
  unfold State.sweepLoads
  simp only [h, List.filter_nil, List.foldl_nil]

theorem serveWants_quiet (s : State) (h : s.pages.wants = []) : s.serveWants = s := by
  unfold State.serveWants
  rw [h, List.foldl_nil, ← h]

theorem resumeFlank_quiet (s : State) (f : Nat) (h : (s.flank f).repair ≠ .restoring) : s.resumeFlank f = s := by
  unfold State.resumeFlank
  exact if_pos (Or.inl h)

theorem serveRepairs_quiet (s : State) (hw : s.restoresWait = []) (hr : ∀ f, f < 3 → (s.flank f).repair ≠ .restoring) : s.serveRepairs = s := by
  have e : s.serveRestores = s := by
    unfold State.serveRestores
    rw [hw]
    rfl
  unfold State.serveRepairs
  rw [e, resumeFlank_quiet s 0 (hr 0 (by omega)), resumeFlank_quiet s 1 (hr 1 (by omega)), resumeFlank_quiet s 2 (hr 2 (by omega))]

theorem serveOpens_quiet (s : State) (h : s.opensWait = []) : s.serveOpens = s := by
  unfold State.serveOpens
  rw [h, List.foldl_nil]

/-- No unit takes a step of its own where none is owed. -/
theorem served_quiet (s : State) (hl : s.loads = []) (h : Still s) : s.sweepLoads.serveWants.serveRepairs.serveOpens = s := by
  obtain ⟨hp, hs, hf, ho⟩ := h
  rw [sweepLoads_quiet s hl, serveWants_quiet s hp, serveRepairs_quiet s hs hf, serveOpens_quiet s ho]

/-- In a quiet state nothing follows a command but the sensors' evaluation. -/
theorem settle_quiet (s : State) (h : Quiet s) : s.settle = s.watchSensors := by
  obtain ⟨ha, hl, hr, hst⟩ := h
  unfold State.settle
  rw [served_quiet s hl hst, reportRetires_quiet s hr]
  dsimp only
  rw [acceptedCount_quiet s ha]
  rfl

/-- In a quiet state everything but the management endpoint stays as the command left it. -/
theorem settle_quiet_frame (s : State) (h : Quiet s) : ∃ m, s.settle = { s with mgmt := m } := by
  rw [settle_quiet s h]
  exact watchSensors_frame s

end Sys2Proof.Machine
end

