-- ==== Sys2Proof/Laws/Keeps.lean ====
section
/-!
SUPPORT. Laws/Keeps.lean: what every operation keeps: the queue of waiting commands, and the invariant of Safety.lean. Here the relation and its leaves.
-/
namespace Sys2Proof.Machine

open Sys2Proof.Safety

/-- From `s` to `t` the queue stays as it is and the invariant is kept. -/
def Keeps (s t : State) : Prop := t.pending = s.pending ∧ (Inv s → Inv t)

/-! ## One field of the state put in place -/

/-- The state with `free` put in place. -/
def putFree (s : State) (v : Nat) : State := { s with free := v }
/-- The state with `dt` put in place. -/
def putDt (s : State) (v : Nat) : State := { s with dt := v }
/-- The state with `site` put in place. -/
def putSite (s : State) (v : Site) : State := { s with site := v }
/-- The state with `ports` put in place. -/
def putPorts (s : State) (v : Table HostPort) : State := { s with ports := v }
/-- The state with `parts` put in place. -/
def putParts (s : State) (v : Table Partition) : State := { s with parts := v }
/-- The state with `contents` put in place. -/
def putContents (s : State) (v : Table Content) : State := { s with contents := v }
/-- The state with `nextContent` put in place. -/
def putNextContent (s : State) (v : Nat) : State := { s with nextContent := v }
/-- The state with `models` put in place. -/
def putModels (s : State) (v : Table ModelSlot) : State := { s with models := v }
/-- The state with `loads` put in place. -/
def putLoads (s : State) (v : List ModelLoad) : State := { s with loads := v }
/-- The state with `nextLoad` put in place. -/
def putNextLoad (s : State) (v : Nat) : State := { s with nextLoad := v }
/-- The state with `pipes` put in place. -/
def putPipes (s : State) (v : Table Pipeline) : State := { s with pipes := v }
/-- The state with `streams` put in place. -/
def putStreams (s : State) (v : Table Stream) : State := { s with streams := v }
/-- The state with `branches` put in place. -/
def putBranches (s : State) (v : Table Branch) : State := { s with branches := v }
/-- The state with `attachSeq` put in place. -/
def putAttachSeq (s : State) (v : Nat) : State := { s with attachSeq := v }
/-- The state with `tiles` put in place. -/
def putTiles (s : State) (v : Table Tile) : State := { s with tiles := v }
/-- The state with `flanks` put in place. -/
def putFlanks (s : State) (v : Table Flank) : State := { s with flanks := v }
/-- The state with `pages` put in place. -/
def putPages (s : State) (v : PageService) : State := { s with pages := v }
/-- The state with `journal` put in place. -/
def putJournal (s : State) (v : Journal) : State := { s with journal := v }
/-- The state with `feeders` put in place. -/
def putFeeders (s : State) (v : Table Feeder) : State := { s with feeders := v }
/-- The state with `ops` put in place. -/
def putOps (s : State) (v : List Operation) : State := { s with ops := v }
/-- The state with `nextOp` put in place. -/
def putNextOp (s : State) (v : Nat) : State := { s with nextOp := v }
/-- The state with `barriers` put in place. -/
def putBarriers (s : State) (v : Table Barrier) : State := { s with barriers := v }
/-- The state with `store` put in place. -/
def putStore (s : State) (v : List Host.Cell) : State := { s with store := v }
/-- The state with `fabric` put in place. -/
def putFabric (s : State) (v : Fabric) : State := { s with fabric := v }
/-- The state with `mem` put in place. -/
def putMem (s : State) (v : Memory) : State := { s with mem := v }
/-- The state with `audio` put in place. -/
def putAudio (s : State) (v : Audio) : State := { s with audio := v }
/-- The state with `power` put in place. -/
def putPower (s : State) (v : Power) : State := { s with power := v }
/-- The state with `boot` put in place. -/
def putBoot (s : State) (v : Boot) : State := { s with boot := v }
/-- The state with `mgmt` put in place. -/
def putMgmt (s : State) (v : Mgmt) : State := { s with mgmt := v }
/-- The state with `pins` put in place. -/
def putPins (s : State) (v : Pins) : State := { s with pins := v }

theorem putFree_fold (s : State) (v : Nat) : ({ s with free := v } : State) = putFree s v := rfl
theorem putDt_fold (s : State) (v : Nat) : ({ s with dt := v } : State) = putDt s v := rfl
theorem putSite_fold (s : State) (v : Site) : ({ s with site := v } : State) = putSite s v := rfl
theorem putPorts_fold (s : State) (v : Table HostPort) : ({ s with ports := v } : State) = putPorts s v := rfl
theorem putParts_fold (s : State) (v : Table Partition) : ({ s with parts := v } : State) = putParts s v := rfl
theorem putContents_fold (s : State) (v : Table Content) : ({ s with contents := v } : State) = putContents s v := rfl
theorem putNextContent_fold (s : State) (v : Nat) : ({ s with nextContent := v } : State) = putNextContent s v := rfl
theorem putModels_fold (s : State) (v : Table ModelSlot) : ({ s with models := v } : State) = putModels s v := rfl
theorem putLoads_fold (s : State) (v : List ModelLoad) : ({ s with loads := v } : State) = putLoads s v := rfl
theorem putNextLoad_fold (s : State) (v : Nat) : ({ s with nextLoad := v } : State) = putNextLoad s v := rfl
theorem putPipes_fold (s : State) (v : Table Pipeline) : ({ s with pipes := v } : State) = putPipes s v := rfl
theorem putStreams_fold (s : State) (v : Table Stream) : ({ s with streams := v } : State) = putStreams s v := rfl
theorem putBranches_fold (s : State) (v : Table Branch) : ({ s with branches := v } : State) = putBranches s v := rfl
theorem putAttachSeq_fold (s : State) (v : Nat) : ({ s with attachSeq := v } : State) = putAttachSeq s v := rfl
theorem putTiles_fold (s : State) (v : Table Tile) : ({ s with tiles := v } : State) = putTiles s v := rfl
theorem putFlanks_fold (s : State) (v : Table Flank) : ({ s with flanks := v } : State) = putFlanks s v := rfl
theorem putPages_fold (s : State) (v : PageService) : ({ s with pages := v } : State) = putPages s v := rfl
theorem putJournal_fold (s : State) (v : Journal) : ({ s with journal := v } : State) = putJournal s v := rfl
theorem putFeeders_fold (s : State) (v : Table Feeder) : ({ s with feeders := v } : State) = putFeeders s v := rfl
theorem putOps_fold (s : State) (v : List Operation) : ({ s with ops := v } : State) = putOps s v := rfl
theorem putNextOp_fold (s : State) (v : Nat) : ({ s with nextOp := v } : State) = putNextOp s v := rfl
theorem putBarriers_fold (s : State) (v : Table Barrier) : ({ s with barriers := v } : State) = putBarriers s v := rfl
theorem putStore_fold (s : State) (v : List Host.Cell) : ({ s with store := v } : State) = putStore s v := rfl
theorem putFabric_fold (s : State) (v : Fabric) : ({ s with fabric := v } : State) = putFabric s v := rfl
theorem putMem_fold (s : State) (v : Memory) : ({ s with mem := v } : State) = putMem s v := rfl
theorem putAudio_fold (s : State) (v : Audio) : ({ s with audio := v } : State) = putAudio s v := rfl
theorem putPower_fold (s : State) (v : Power) : ({ s with power := v } : State) = putPower s v := rfl
theorem putBoot_fold (s : State) (v : Boot) : ({ s with boot := v } : State) = putBoot s v := rfl
theorem putMgmt_fold (s : State) (v : Mgmt) : ({ s with mgmt := v } : State) = putMgmt s v := rfl
theorem putPins_fold (s : State) (v : Pins) : ({ s with pins := v } : State) = putPins s v := rfl

namespace Keeps

theorem refl (s : State) : Keeps s s := ⟨rfl, id⟩

theorem trans {s t u : State} (h : Keeps s t) (g : Keeps t u) : Keeps s u := ⟨g.1.trans h.1, fun i => g.2 (h.2 i)⟩

/-- A change of fields the invariant does not read. -/
theorem same {s t : State} (hp : t.pending = s.pending) (h : Inv s = Inv t) : Keeps s t := ⟨hp, fun i => h ▸ i⟩

theorem foldl {α : Type} {b s : State} {f : State → α → State} {xs : List α} (h₀ : Keeps b s) (hf : ∀ s a, Keeps s (f s a)) : Keeps b (xs.foldl f s) := by
  induction xs generalizing s with
  | nil => exact h₀
  | cons x xs ih => exact ih (h₀.trans (hf s x))

theorem foldlFst {α β : Type} {b : State} {f : State × β → α → State × β} {xs : List α} {a : State × β} (h₀ : Keeps b a.1) (hf : ∀ a x, Keeps a.1 (f a x).1) :
    Keeps b (xs.foldl f a).1 := by
  induction xs generalizing a with
  | nil => exact h₀
  | cons x xs ih => exact ih (h₀.trans (hf a x))

/-- The state of a result that has been taken apart. -/
theorem snd {α : Type} {b u : State} {p : α × State} {x : α} (e : p = (x, u)) (h : Keeps b p.2) : Keeps b u := by
  rw [e] at h
  exact h

theorem ports {b s : State} {v : Table HostPort} (h₀ : Keeps b s) (h : Table.wf {} s.ports = true → Table.wf {} v = true) : Keeps b (putPorts s v) :=
  h₀.trans ⟨rfl, fun ⟨a, b, c, d⟩ => ⟨a, b, c, { d with ports := h d.ports }⟩⟩

theorem parts {b s : State} {v : Table Partition} (h₀ : Keeps b s) (h : Table.wf {} s.parts = true → Table.wf {} v = true) : Keeps b (putParts s v) :=
  h₀.trans ⟨rfl, fun ⟨a, b, c, d⟩ => ⟨a, b, c, { d with parts := h d.parts }⟩⟩

theorem contents {b s : State} {v : Table Content} (h₀ : Keeps b s) (h : Table.wf {} s.contents = true → Table.wf {} v = true) : Keeps b (putContents s v) :=
  h₀.trans ⟨rfl, fun ⟨a, b, c, d⟩ => ⟨a, b, c, { d with contents := h d.contents }⟩⟩

theorem models {b s : State} {v : Table ModelSlot} (h₀ : Keeps b s) (h : Table.wf {} s.models = true → Table.wf {} v = true) : Keeps b (putModels s v) :=
  h₀.trans ⟨rfl, fun ⟨a, b, c, d⟩ => ⟨a, b, c, { d with models := h d.models }⟩⟩

theorem pipes {b s : State} {v : Table Pipeline} (h₀ : Keeps b s) (h : Table.wf {} s.pipes = true → Table.wf {} v = true) : Keeps b (putPipes s v) :=
  h₀.trans ⟨rfl, fun ⟨a, b, c, d⟩ => ⟨a, b, c, { d with pipes := h d.pipes }⟩⟩

theorem streams {b s : State} {v : Table Stream} (h₀ : Keeps b s) (h : Table.wf {} s.streams = true → Table.wf {} v = true) : Keeps b (putStreams s v) :=
  h₀.trans ⟨rfl, fun ⟨a, b, c, d⟩ => ⟨a, b, c, { d with streams := h d.streams }⟩⟩

theorem branches {b s : State} {v : Table Branch} (h₀ : Keeps b s) (h : Table.wf {} s.branches = true → Table.wf {} v = true) : Keeps b (putBranches s v) :=
  h₀.trans ⟨rfl, fun ⟨a, b, c, d⟩ => ⟨a, b, c, { d with branches := h d.branches }⟩⟩

theorem tiles {b s : State} {v : Table Tile} (h₀ : Keeps b s) (h : Table.sortedFrom 0 s.tiles = true → Table.sortedFrom 0 v = true) : Keeps b (putTiles s v) :=
  h₀.trans ⟨rfl, fun ⟨a, b, c, d⟩ => ⟨a, b, c, { d with tiles := h d.tiles }⟩⟩

theorem flanks {b s : State} {v : Table Flank} (h₀ : Keeps b s) (h : Table.wf {} s.flanks = true → Table.wf {} v = true) : Keeps b (putFlanks s v) :=
  h₀.trans ⟨rfl, fun ⟨a, b, c, d⟩ => ⟨a, b, c, { d with flanks := h d.flanks }⟩⟩

theorem feeders {b s : State} {v : Table Feeder} (h₀ : Keeps b s) (h : Table.wf {} s.feeders = true → Table.wf {} v = true) : Keeps b (putFeeders s v) :=
  h₀.trans ⟨rfl, fun ⟨a, b, c, d⟩ => ⟨a, b, c, { d with feeders := h d.feeders }⟩⟩

theorem barriers {b s : State} {v : Table Barrier} (h₀ : Keeps b s) (h : Table.wf {} s.barriers = true → Table.wf {} v = true) : Keeps b (putBarriers s v) :=
  h₀.trans ⟨rfl, fun ⟨a, b, c, d⟩ => ⟨a, b, c, { d with barriers := h d.barriers }⟩⟩

theorem pages {b s : State} {v : PageService} (h₀ : Keeps b s) (h : Table.wf {} s.pages.pages = true → Table.wf {} v.pages = true)
    (g : Table.wf {} s.pages.dir = true → Table.wf {} v.dir = true) : Keeps b (putPages s v) :=
  h₀.trans ⟨rfl, fun ⟨a, b, c, d⟩ => ⟨a, b, c, { d with pages := h d.pages, dir := g d.dir }⟩⟩

theorem fabric {b s : State} {v : Fabric} (h₀ : Keeps b s) (hl : Table.wf {} s.fabric.links = true → Table.wf {} v.links = true)
    (hr : Table.wf {} s.fabric.routes = true → Table.wf {} v.routes = true) (hw : Table.wf {} s.fabric.windows = true → Table.wf {} v.windows = true)
    (hn : Table.wf {} s.fabric.netifs = true → Table.wf {} v.netifs = true) : Keeps b (putFabric s v) :=
  h₀.trans ⟨rfl, fun ⟨a, b, c, d⟩ => ⟨a, b, c, { d with links := hl d.links, routes := hr d.routes, windows := hw d.windows, netifs := hn d.netifs }⟩⟩

theorem audio {b s : State} {v : Audio} (h₀ : Keeps b s) (hp : Table.wf {} s.audio.ports = true → Table.wf {} v.ports = true)
    (hi : Table.wf {} s.audio.inputs = true → Table.wf {} v.inputs = true) (ho : Table.wf {} s.audio.outputs = true → Table.wf {} v.outputs = true) :
    Keeps b (putAudio s v) :=
  h₀.trans ⟨rfl, fun ⟨a, b, c, d⟩ => ⟨a, b, c, { d with tdm := hp d.tdm, inputs := hi d.inputs, outputs := ho d.outputs }⟩⟩

theorem mgmt {b s : State} {v : Mgmt} (h₀ : Keeps b s) (hm : Table.wf {} s.mgmt.media = true → Table.wf {} v.media = true)
    (hs : Table.wf {} s.mgmt.sensors = true → Table.wf {} v.sensors = true) : Keeps b (putMgmt s v) :=
  h₀.trans ⟨rfl, fun ⟨a, b, c, d⟩ => ⟨a, b, c, { d with media := hm d.media, watches := hs d.watches }⟩⟩

theorem mem {b s : State} {v : Memory} (h₀ : Keeps b s) (hm : s.mem.wf = true → v.wf = true) (hc : Table.wf {} s.mem.channels = true → Table.wf {} v.channels = true)
    (hs : Table.wf {} s.mem.stackRegs = true → Table.wf {} v.stackRegs = true) : Keeps b (putMem s v) :=
  h₀.trans ⟨rfl, fun ⟨a, b, c, d⟩ => ⟨a, ⟨hm b.1, b.2⟩, c, { d with channels := hc d.channels, stackRegs := hs d.stackRegs }⟩⟩

theorem store {b s : State} {v : List Host.Cell} (h₀ : Keeps b s) (h : Table.wf 0#8 s.store = true → Table.wf 0#8 v = true) : Keeps b (putStore s v) :=
  h₀.trans ⟨rfl, fun ⟨a, b, c, d⟩ => ⟨a, ⟨b.1, h b.2⟩, c, { d with }⟩⟩

/-- A power state that follows from one within R562, R563 and R567. -/
theorem power {b s : State} {v : Power} (h₀ : Keeps b s) (hg : GovernorOk s.power → GovernorOk v) (hh : s.power.history.length ≤ 1000 → v.history.length ≤ 1000)
    (hs : Table.wf {} s.power.sensors = true → Table.wf {} v.sensors = true) : Keeps b (putPower s v) :=
  h₀.trans ⟨rfl, fun ⟨a, b, c, d⟩ => ⟨hg a, b, ⟨c.1, hh c.2.1, c.2.2⟩, { d with sensors := hs d.sensors }⟩⟩

theorem journal {b s : State} {v : Journal} (h₀ : Keeps b s) (h : s.journal.entries.length ≤ 4096 → v.entries.length ≤ 4096) : Keeps b (putJournal s v) :=
  h₀.trans ⟨rfl, fun ⟨a, b, c, d⟩ => ⟨a, b, ⟨h c.1, c.2⟩, { d with }⟩⟩

theorem dt {b s : State} {v : Nat} (h₀ : Keeps b s) (h : v < 2 ^ 64) : Keeps b (putDt s v) :=
  h₀.trans ⟨rfl, fun ⟨a, b, c, d⟩ => ⟨a, b, ⟨c.1, c.2.1, c.2.2.1, h⟩, { d with }⟩⟩

theorem pins {b s : State} {v : Pins} (h₀ : Keeps b s) (h : s.pins.cells < 2 ^ 156 → v.cells < 2 ^ 156) : Keeps b (putPins s v) :=
  h₀.trans ⟨rfl, fun ⟨a, b, c, d⟩ => ⟨a, b, ⟨c.1, c.2.1, h c.2.2.1, c.2.2.2⟩, { d with }⟩⟩

theorem boot {b s : State} {v : Boot} (h₀ : Keeps b s) : Keeps b (putBoot s v) :=
  h₀.trans ⟨rfl, fun ⟨a, b, c, d⟩ => ⟨a, b, c, { d with }⟩⟩
theorem ops {b s : State} {v : List Operation} (h₀ : Keeps b s) : Keeps b (putOps s v) :=
  h₀.trans ⟨rfl, fun ⟨a, b, c, d⟩ => ⟨a, b, c, { d with }⟩⟩
theorem loads {b s : State} {v : List ModelLoad} (h₀ : Keeps b s) : Keeps b (putLoads s v) :=
  h₀.trans ⟨rfl, fun ⟨a, b, c, d⟩ => ⟨a, b, c, { d with }⟩⟩
theorem nextOp {b s : State} {v : Nat} (h₀ : Keeps b s) : Keeps b (putNextOp s v) :=
  h₀.trans ⟨rfl, fun ⟨a, b, c, d⟩ => ⟨a, b, c, { d with }⟩⟩
theorem nextLoad {b s : State} {v : Nat} (h₀ : Keeps b s) : Keeps b (putNextLoad s v) :=
  h₀.trans ⟨rfl, fun ⟨a, b, c, d⟩ => ⟨a, b, c, { d with }⟩⟩
theorem nextContent {b s : State} {v : Nat} (h₀ : Keeps b s) : Keeps b (putNextContent s v) :=
  h₀.trans ⟨rfl, fun ⟨a, b, c, d⟩ => ⟨a, b, c, { d with }⟩⟩
theorem attachSeq {b s : State} {v : Nat} (h₀ : Keeps b s) : Keeps b (putAttachSeq s v) :=
  h₀.trans ⟨rfl, fun ⟨a, b, c, d⟩ => ⟨a, b, c, { d with }⟩⟩
theorem free {b s : State} {v : Nat} (h₀ : Keeps b s) : Keeps b (putFree s v) :=
  h₀.trans ⟨rfl, fun ⟨a, b, c, d⟩ => ⟨a, b, c, { d with }⟩⟩
theorem site {b s : State} {v : Site} (h₀ : Keeps b s) : Keeps b (putSite s v) :=
  h₀.trans ⟨rfl, fun ⟨a, b, c, d⟩ => ⟨a, b, c, { d with }⟩⟩

end Keeps

end Sys2Proof.Machine
end

