-- ==== Sys2Proof/Laws/KeepsOps.lean ====
section
/-!
SUPPORT. Laws/KeepsOps.lean: that the tables, the media, the ports' events, the journal and the governor keep the queue and the invariant. One lemma per operation.
-/
namespace Sys2Proof.Machine

open Sys2Proof.Safety

theorem tick_keeps {b₀ : State} (s : State) (h₀ : Keeps b₀ s) : Keeps b₀ (tick s) := by
  unfold tick
  split
  · exact h₀
  · exact Keeps.dt h₀ (Nat.mod_lt _ (by decide))

theorem drawFree_keeps {b₀ : State} (s : State) (h₀ : Keeps b₀ s) : Keeps b₀ (drawFree s).2 := by
  unfold drawFree
  repeat' first
    | with_reducible exact Keeps.refl _
    | with_reducible assumption
    | simp only [putFree_fold]
    | dsimp only
    | with_reducible apply Keeps.free

theorem State.setPort_keeps {b₀ : State} (s : State) (p : Nat) (v : HostPort) (h₀ : Keeps b₀ s) : Keeps b₀ (State.setPort s p v) := by
  unfold State.setPort
  repeat' first
    | with_reducible exact Keeps.refl _
    | with_reducible assumption
    | simp only [putPorts_fold]
    | dsimp only
    | with_reducible apply Keeps.ports
    | with_reducible exact fun h => Table.wf_set h _ _

theorem State.updPort_keeps {b₀ : State} (s : State) (p : Nat) (f : HostPort → HostPort) (h₀ : Keeps b₀ s) : Keeps b₀ (State.updPort s p f) := by
  unfold State.updPort
  repeat' first
    | with_reducible exact Keeps.refl _
    | with_reducible assumption
    | with_reducible apply State.setPort_keeps

theorem State.updPart_keeps {b₀ : State} (s : State) (p : Nat) (f : Partition → Partition) (h₀ : Keeps b₀ s) : Keeps b₀ (State.updPart s p f) := by
  unfold State.updPart
  repeat' first
    | with_reducible exact Keeps.refl _
    | with_reducible assumption
    | simp only [putParts_fold]
    | dsimp only
    | with_reducible apply Keeps.parts
    | with_reducible exact fun h => Table.wf_set h _ _

theorem State.setContent_keeps {b₀ : State} (s : State) (c : Nat) (v : Content) (h₀ : Keeps b₀ s) : Keeps b₀ (State.setContent s c v) := by
  unfold State.setContent
  repeat' first
    | with_reducible exact Keeps.refl _
    | with_reducible assumption
    | simp only [putContents_fold]
    | dsimp only
    | with_reducible apply Keeps.contents
    | with_reducible exact fun h => Table.wf_set h _ _

theorem State.setModel_keeps {b₀ : State} (s : State) (m : Nat) (v : ModelSlot) (h₀ : Keeps b₀ s) : Keeps b₀ (State.setModel s m v) := by
  unfold State.setModel
  repeat' first
    | with_reducible exact Keeps.refl _
    | with_reducible assumption
    | simp only [putModels_fold]
    | dsimp only
    | with_reducible apply Keeps.models
    | with_reducible exact fun h => Table.wf_set h _ _

theorem State.setPipe_keeps {b₀ : State} (s : State) (p : Nat) (v : Pipeline) (h₀ : Keeps b₀ s) : Keeps b₀ (State.setPipe s p v) := by
  unfold State.setPipe
  repeat' first
    | with_reducible exact Keeps.refl _
    | with_reducible assumption
    | simp only [putPipes_fold]
    | dsimp only
    | with_reducible apply Keeps.pipes
    | with_reducible exact fun h => Table.wf_set h _ _

theorem State.setStream_keeps {b₀ : State} (s : State) (i : Nat) (v : Stream) (h₀ : Keeps b₀ s) : Keeps b₀ (State.setStream s i v) := by
  unfold State.setStream
  repeat' first
    | with_reducible exact Keeps.refl _
    | with_reducible assumption
    | simp only [putStreams_fold]
    | dsimp only
    | with_reducible apply Keeps.streams
    | with_reducible exact fun h => Table.wf_set h _ _

theorem State.updStream_keeps {b₀ : State} (s : State) (i : Nat) (f : Stream → Stream) (h₀ : Keeps b₀ s) : Keeps b₀ (State.updStream s i f) := by
  unfold State.updStream
  repeat' first
    | with_reducible exact Keeps.refl _
    | with_reducible assumption
    | with_reducible apply State.setStream_keeps

theorem State.setBranch_keeps {b₀ : State} (s : State) (i : Nat) (v : Branch) (h₀ : Keeps b₀ s) : Keeps b₀ (State.setBranch s i v) := by
  unfold State.setBranch
  repeat' first
    | with_reducible exact Keeps.refl _
    | with_reducible assumption
    | simp only [putBranches_fold]
    | dsimp only
    | with_reducible apply Keeps.branches
    | with_reducible exact fun h => Table.wf_set h _ _

theorem State.updBranch_keeps {b₀ : State} (s : State) (i : Nat) (f : Branch → Branch) (h₀ : Keeps b₀ s) : Keeps b₀ (State.updBranch s i f) := by
  unfold State.updBranch
  repeat' first
    | with_reducible exact Keeps.refl _
    | with_reducible assumption
    | with_reducible apply State.setBranch_keeps

theorem State.updFlank_keeps {b₀ : State} (s : State) (f : Nat) (g : Flank → Flank) (h₀ : Keeps b₀ s) : Keeps b₀ (State.updFlank s f g) := by
  unfold State.updFlank
  repeat' first
    | with_reducible exact Keeps.refl _
    | with_reducible assumption
    | simp only [putFlanks_fold]
    | dsimp only
    | with_reducible apply Keeps.flanks
    | with_reducible exact fun h => Table.wf_set h _ _

theorem State.updFeeder_keeps {b₀ : State} (s : State) (f : Nat) (g : Feeder → Feeder) (h₀ : Keeps b₀ s) : Keeps b₀ (State.updFeeder s f g) := by
  unfold State.updFeeder
  repeat' first
    | with_reducible exact Keeps.refl _
    | with_reducible assumption
    | simp only [putFeeders_fold]
    | dsimp only
    | with_reducible apply Keeps.feeders
    | with_reducible exact fun h => Table.wf_set h _ _

theorem State.updBarrier_keeps {b₀ : State} (s : State) (f i : Nat) (g : Barrier → Barrier) (h₀ : Keeps b₀ s) : Keeps b₀ (State.updBarrier s f i g) := by
  unfold State.updBarrier
  repeat' first
    | with_reducible exact Keeps.refl _
    | with_reducible assumption
    | simp only [putBarriers_fold]
    | dsimp only
    | with_reducible apply Keeps.barriers
    | with_reducible exact fun h => Table.wf_set h _ _

theorem State.updPage_keeps {b₀ : State} (s : State) (ppn : Nat) (g : PageRec → PageRec) (h₀ : Keeps b₀ s) : Keeps b₀ (State.updPage s ppn g) := by
  unfold State.updPage
  repeat' first
    | with_reducible exact Keeps.refl _
    | with_reducible assumption
    | simp only [putPages_fold]
    | dsimp only
    | with_reducible apply Keeps.pages
    | with_reducible exact fun h => Table.wf_set h _ _
    | with_reducible exact id

theorem State.setDir_keeps {b₀ : State} (s : State) (ppn : Nat) (v : DirEntry) (h₀ : Keeps b₀ s) : Keeps b₀ (State.setDir s ppn v) := by
  unfold State.setDir
  repeat' first
    | with_reducible exact Keeps.refl _
    | with_reducible assumption
    | simp only [putPages_fold]
    | dsimp only
    | with_reducible apply Keeps.pages
    | with_reducible exact fun h => Table.wf_set h _ _
    | with_reducible exact id

theorem State.updLink_keeps {b₀ : State} (s : State) (key : Nat) (g : Link → Link) (h₀ : Keeps b₀ s) : Keeps b₀ (State.updLink s key g) := by
  unfold State.updLink
  repeat' first
    | with_reducible exact Keeps.refl _
    | with_reducible assumption
    | simp only [putFabric_fold]
    | dsimp only
    | with_reducible apply Keeps.fabric
    | with_reducible exact fun h => Table.wf_set h _ _
    | with_reducible exact id

theorem State.updNetif_keeps {b₀ : State} (s : State) (e : Nat) (g : NetIf → NetIf) (h₀ : Keeps b₀ s) : Keeps b₀ (State.updNetif s e g) := by
  unfold State.updNetif
  repeat' first
    | with_reducible exact Keeps.refl _
    | with_reducible assumption
    | simp only [putFabric_fold]
    | dsimp only
    | with_reducible apply Keeps.fabric
    | with_reducible exact fun h => Table.wf_set h _ _
    | with_reducible exact id

theorem State.updWindow_keeps {b₀ : State} (s : State) (a b : Nat) (g : Window → Window) (h₀ : Keeps b₀ s) : Keeps b₀ (State.updWindow s a b g) := by
  unfold State.updWindow
  repeat' first
    | with_reducible exact Keeps.refl _
    | with_reducible assumption
    | simp only [putFabric_fold]
    | dsimp only
    | with_reducible apply Keeps.fabric
    | with_reducible exact fun h => Table.wf_set h _ _
    | with_reducible exact id

theorem State.updChannel_keeps {b₀ : State} (s : State) (c : Nat) (g : PseudoChannel → PseudoChannel) (h₀ : Keeps b₀ s) : Keeps b₀ (State.updChannel s c g) := by
  unfold State.updChannel
  repeat' first
    | with_reducible exact Keeps.refl _
    | with_reducible assumption
    | simp only [putMem_fold]
    | dsimp only
    | with_reducible apply Keeps.mem
    | with_reducible exact fun h => Table.wf_set h _ _
    | exact fun h => h

theorem State.updTdm_keeps {b₀ : State} (s : State) (t : Nat) (g : TdmPort → TdmPort) (h₀ : Keeps b₀ s) : Keeps b₀ (State.updTdm s t g) := by
  unfold State.updTdm
  repeat' first
    | with_reducible exact Keeps.refl _
    | with_reducible assumption
    | simp only [putAudio_fold]
    | dsimp only
    | with_reducible apply Keeps.audio
    | with_reducible apply Keeps.ports
    | with_reducible exact fun h => Table.wf_set h _ _
    | with_reducible exact id

theorem State.updIn_keeps {b₀ : State} (s : State) (k : Nat) (g : InSlot → InSlot) (h₀ : Keeps b₀ s) : Keeps b₀ (State.updIn s k g) := by
  unfold State.updIn
  repeat' first
    | with_reducible exact Keeps.refl _
    | with_reducible assumption
    | simp only [putAudio_fold]
    | dsimp only
    | with_reducible apply Keeps.audio
    | with_reducible exact fun h => Table.wf_set h _ _
    | with_reducible exact id

theorem State.updOut_keeps {b₀ : State} (s : State) (k : Nat) (g : OutSlot → OutSlot) (h₀ : Keeps b₀ s) : Keeps b₀ (State.updOut s k g) := by
  unfold State.updOut
  repeat' first
    | with_reducible exact Keeps.refl _
    | with_reducible assumption
    | simp only [putAudio_fold]
    | dsimp only
    | with_reducible apply named_keeps
    | with_reducible apply Keeps.audio
    | with_reducible exact fun h => Table.wf_set h _ _
    | with_reducible exact id

theorem State.updTile_keeps {b₀ : State} (s : State) (t : Nat) (g : Tile → Tile) (h₀ : Keeps b₀ s) : Keeps b₀ (State.updTile s t g) := by
  unfold State.updTile
  repeat' first
    | with_reducible exact Keeps.refl _
    | with_reducible assumption
    | simp only [putTiles_fold]
    | dsimp only
    | with_reducible apply Keeps.tiles
    | with_reducible exact fun h => Table.wf_set h _ _
    | with_reducible exact fun h => Table.sorted_set h _ _

theorem State.moveTile_keeps {b₀ : State} (s : State) (t : Nat) (x : TileState) (h₀ : Keeps b₀ s) : Keeps b₀ (State.moveTile s t x) := by
  unfold State.moveTile
  repeat' first
    | with_reducible exact Keeps.refl _
    | with_reducible assumption
    | dsimp only
    | with_reducible apply State.updTile_keeps
    | intro _

theorem State.stallEnds_keeps {b₀ : State} (s : State) (t : Nat) (h₀ : Keeps b₀ s) : Keeps b₀ (State.stallEnds s t) := by
  unfold State.stallEnds
  repeat' first
    | with_reducible exact Keeps.refl _
    | with_reducible assumption
    | dsimp only
    | with_reducible apply State.updTile_keeps
    | intro _
    | split

theorem State.stalls_keeps {b₀ : State} (s : State) (t : Nat) (c : Stall) (h₀ : Keeps b₀ s) : Keeps b₀ (State.stalls s t c) := by
  unfold State.stalls
  repeat' first
    | with_reducible exact Keeps.refl _
    | with_reducible assumption
    | dsimp only
    | with_reducible apply State.updTile_keeps
    | with_reducible apply State.stallEnds_keeps
    | intro _
    | split

theorem forAll_keeps {b₀ : State} {α : Type} (xs : List α) (f : State → α → State) (s : State) (h₀ : Keeps b₀ s) (hf : ∀ s a, Keeps s (f s a)) :
    Keeps b₀ (forAll xs f s) := Keeps.foldl h₀ hf

theorem State.post_keeps {b₀ : State} (s : State) (n code handle data : Nat) (h₀ : Keeps b₀ s) : Keeps b₀ (State.post s n code handle data) := by
  unfold State.post
  repeat' first
    | with_reducible exact Keeps.refl _
    | with_reducible assumption
    | dsimp only
    | with_reducible apply State.updPort_keeps

theorem State.postAll_keeps {b₀ : State} (s : State) (code data : Nat) (h₀ : Keeps b₀ s) : Keeps b₀ (State.postAll s code data) := by
  unfold State.postAll
  repeat' first
    | with_reducible exact Keeps.refl _
    | with_reducible assumption
    | dsimp only
    | with_reducible apply State.post_keeps
    | with_reducible apply Keeps.foldl
    | intro _

theorem State.violate_keeps {b₀ : State} (s : State) (n kind : Nat) (src : ViolationSource) (write : Bool) (addr opcode data : Nat) (h₀ : Keeps b₀ s) : Keeps b₀ (State.violate s n kind src write addr opcode data) := by
  unfold State.violate
  repeat' first
    | with_reducible exact Keeps.refl _
    | with_reducible assumption
    | dsimp only
    | with_reducible apply State.updPort_keeps

theorem State.complete_keeps {b₀ : State} (s : State) (n id : Nat) (a : Answer) (h₀ : Keeps b₀ s) : Keeps b₀ (State.complete s n id a) := by
  unfold State.complete
  repeat' first
    | with_reducible exact Keeps.refl _
    | with_reducible assumption
    | dsimp only
    | with_reducible apply State.updPort_keeps
    | intro _
    | split

theorem State.completeKey_keeps {b₀ : State} (s : State) (n opcode key : Nat) (a : Answer) (h₀ : Keeps b₀ s) : Keeps b₀ (State.completeKey s n opcode key a) := by
  unfold State.completeKey
  repeat' first
    | with_reducible exact Keeps.refl _
    | with_reducible assumption
    | dsimp only
    | with_reducible apply State.complete_keeps
    | with_reducible apply Keeps.foldl
    | intro _

theorem State.journalWrite_keeps {b₀ : State} (s : State) (e : JEntry) (h₀ : Keeps b₀ s) : Keeps b₀ (s.journalWrite e) :=
  Keeps.journal h₀ (fun _ => by rw [List.length_take]; exact Nat.min_le_left ..)

theorem State.faultRecord_keeps {b₀ : State} (s : State) (cause : Nat) (isFatal : Bool) (address : Nat) (h₀ : Keeps b₀ s) : Keeps b₀ (State.faultRecord s cause isFatal address) := by
  unfold State.faultRecord
  repeat' first
    | with_reducible exact Keeps.refl _
    | with_reducible assumption
    | dsimp only
    | with_reducible apply State.postAll_keeps
    | with_reducible apply State.journalWrite_keeps

theorem State.degradedFault_keeps {b₀ : State} (s : State) (cause : Nat) (h₀ : Keeps b₀ s) : Keeps b₀ (State.degradedFault s cause) := by
  unfold State.degradedFault
  repeat' first
    | with_reducible exact Keeps.refl _
    | with_reducible assumption
    | simp only [putBoot_fold]
    | dsimp only
    | with_reducible apply State.faultRecord_keeps
    | with_reducible apply Keeps.boot

theorem State.failAccepted_keeps {b₀ : State} (s : State) (n : Nat) (h₀ : Keeps b₀ s) : Keeps b₀ (State.failAccepted s n) := by
  unfold State.failAccepted
  repeat' first
    | with_reducible exact Keeps.refl _
    | with_reducible assumption
    | dsimp only
    | with_reducible apply State.complete_keeps
    | with_reducible apply Keeps.foldl
    | intro _

theorem State.fatalFault_keeps {b₀ : State} (s : State) (cause address : Nat) (h₀ : Keeps b₀ s) : Keeps b₀ (State.fatalFault s cause address) := by
  unfold State.fatalFault
  repeat' first
    | with_reducible exact Keeps.refl _
    | with_reducible assumption
    | simp only [putBoot_fold]
    | dsimp only
    | with_reducible apply State.faultRecord_keeps
    | with_reducible apply State.failAccepted_keeps
    | with_reducible apply Keeps.boot
    | with_reducible apply Keeps.foldl
    | intro _

theorem State.updMedium_keeps {b₀ : State} (s : State) (m : Medium) (g : MediumState → MediumState) (h₀ : Keeps b₀ s) : Keeps b₀ (State.updMedium s m g) := by
  unfold State.updMedium
  repeat' first
    | with_reducible exact Keeps.refl _
    | with_reducible assumption
    | simp only [putMgmt_fold]
    | dsimp only
    | with_reducible apply Keeps.mgmt
    | with_reducible exact fun h => Table.wf_set h _ _
    | with_reducible exact id

theorem State.sendMgmt_keeps {b₀ : State} (s : State) (x : MgmtSent) (h₀ : Keeps b₀ s) : Keeps b₀ (State.sendMgmt s x) := by
  unfold State.sendMgmt
  repeat' first
    | with_reducible exact Keeps.refl _
    | with_reducible assumption
    | simp only [putMgmt_fold]
    | dsimp only
    | with_reducible apply Keeps.mgmt
    | with_reducible exact id

theorem clearReceiver_sensors (g : Mgmt) (h : Table.wf {} g.sensors = true) : Table.wf {} g.clearReceiver.sensors = true :=
  Table.wf_mapVals h (fun _ (x : SensorState) => { x with waiting := false })

theorem State.dropMedium_keeps {b₀ : State} (s : State) (n : Nat) (clearEid : Bool) (h₀ : Keeps b₀ s) : Keeps b₀ (s.dropMedium n clearEid) := by
  unfold State.dropMedium
  generalize (fun (m : MediumState) => if clearEid then ({} : MediumState) else { m with parts := [], messages := [] }) = g
  have h := State.updMedium_keeps s (.host n) g h₀
  by_cases hc : (s.updMedium (.host n) g).mgmt.receiver.map (·.1) = some (.host n)
  · exact (if_pos hc).symm ▸ Keeps.mgmt h id (clearReceiver_sensors _)
  · exact (if_neg hc).symm ▸ h

theorem State.dropHostMedia_keeps {b₀ : State} (s : State) (h₀ : Keeps b₀ s) : Keeps b₀ (State.dropHostMedia s) := by
  unfold State.dropHostMedia
  repeat' first
    | with_reducible exact Keeps.refl _
    | with_reducible assumption
    | dsimp only
    | with_reducible apply State.dropMedium_keeps
    | with_reducible apply Keeps.foldl
    | intro _

theorem State.notifyDiscovery_keeps {b₀ : State} (s : State) (n : Nat) (h₀ : Keeps b₀ s) : Keeps b₀ (State.notifyDiscovery s n) := by
  unfold State.notifyDiscovery
  repeat' first
    | with_reducible exact Keeps.refl _
    | with_reducible assumption
    | dsimp only
    | with_reducible apply State.updMedium_keeps
    | with_reducible apply State.sendMgmt_keeps
    | intro _
    | split

theorem State.updPower_keeps {b₀ : State} (s : State) (g : Power → Power) (h₀ : Keeps b₀ s) (hg : PowerKeeps s.power (g s.power)) : Keeps b₀ (s.updPower g) :=
  Keeps.power h₀ hg.1 hg.2.1 hg.2.2

theorem State.targetReached_keeps {b₀ : State} (s : State) (h₀ : Keeps b₀ s) : Keeps b₀ (s.targetReached) := by
  unfold State.targetReached
  exact State.updPower_keeps s _ h₀ (finishRaise_keeps ..)

theorem State.voltageTimeout_keeps {b₀ : State} (s : State) (h₀ : Keeps b₀ s) : Keeps b₀ (State.voltageTimeout s) := by
  unfold State.voltageTimeout
  repeat' first
    | with_reducible exact Keeps.refl _
    | with_reducible assumption
    | dsimp only
    | with_reducible apply State.targetReached_keeps
    | split

theorem State.postThermal_keeps {b₀ : State} (s : State) (kind : Nat) (h₀ : Keeps b₀ s) : Keeps b₀ (State.postThermal s kind) := by
  unfold State.postThermal
  repeat' first
    | with_reducible exact Keeps.refl _
    | with_reducible assumption
    | with_reducible apply State.postAll_keeps

theorem State.recalibrate_keeps {b₀ : State} (s : State) (k : Nat) (h₀ : Keeps b₀ s) : Keeps b₀ (s.recalibrate k) := by
  unfold State.recalibrate
  split
  · exact h₀
  · exact State.updPower_keeps s _ h₀ ⟨fun ⟨h1, h2, h3, h4, h5, h6, h7⟩ => ⟨h1, h2, h3, h4, h5, h6, h7⟩, id, fun h => Table.wf_set h _ _⟩

theorem State.throttleEvents_keeps {b₀ : State} (s : State) (hot down : Bool) (h₀ : Keeps b₀ s) : Keeps b₀ (s.throttleEvents hot down) := by
  unfold State.throttleEvents
  split
  · exact State.postThermal_keeps _ _ (State.updPower_keeps s _ h₀ (PowerKeeps.same ⟨rfl, rfl, rfl, rfl, rfl⟩ rfl rfl))
  · split
    · exact State.postThermal_keeps _ _ (State.updPower_keeps s _ h₀ (PowerKeeps.same ⟨rfl, rfl, rfl, rfl, rfl⟩ rfl rfl))
    · exact h₀

theorem State.governorWindow_keeps {b₀ : State} (s : State) (m : Measurement) (h₀ : Keeps b₀ s) : Keeps b₀ (s.governorWindow m) := by
  unfold State.governorWindow
  dsimp only
  have under0 : ∀ (p : Power) (n : Nat), PowerKeeps p { p with under := n } := fun p n => PowerKeeps.same ⟨rfl, rfl, rfl, rfl, rfl⟩ rfl rfl
  have hm := State.updPower_keeps s (fun p => p.measure s.dt m) h₀ (measure_keeps ..)
  split
  · exact h₀
  · split
    · exact State.updPower_keeps s _ h₀ (sample_keeps ..)
    · split
      · exact State.throttleEvents_keeps _ _ _ (State.updPower_keeps _ _ hm ((stepDown_keeps _ s.dt).trans (under0 _ 0)))
      · split
        · split
          · exact State.updPower_keeps _ _ hm (under0 _ _)
          · exact State.throttleEvents_keeps _ _ _ (State.updPower_keeps _ _ hm ((stepUp_keeps _ s.dt).trans (under0 _ 0)))
        · exact State.updPower_keeps _ _ hm (under0 _ _)

theorem State.postCap_keeps {b₀ : State} (s : State) (cause : Nat) (h₀ : Keeps b₀ s) : Keeps b₀ (State.postCap s cause) := by
  unfold State.postCap
  repeat' first
    | with_reducible exact Keeps.refl _
    | with_reducible assumption
    | with_reducible apply State.postAll_keeps

theorem State.setCap_keeps {b₀ : State} (s : State) (cap cause : Nat) (h₀ : Keeps b₀ s) : Keeps b₀ (s.setCap cap cause) := by
  unfold State.setCap
  exact State.postCap_keeps _ _ (State.updPower_keeps s _ h₀ (cap_keeps ..))

theorem State.takeCap_keeps {b₀ : State} (s : State) (cap : Nat) (h₀ : Keeps b₀ s) : Keeps b₀ (s.takeCap cap) := by
  unfold State.takeCap
  dsimp only
  have h : Keeps b₀ ((s.updPower (fun p => ({ p with cap := cap, pace := 0 } : Power).setDivisor s.dt
      (if ({ p with cap := cap, pace := 0 } : Power).prochot then 6 else ({ p with cap := cap, pace := 0 } : Power).ceiling))).postCap 1) :=
    State.postCap_keeps _ 1 (State.updPower_keeps s _ h₀ (takeCap_power s.dt s.power cap))
  split
  · exact State.postThermal_keeps _ _ (State.updPower_keeps _ _ h (PowerKeeps.same ⟨rfl, rfl, rfl, rfl, rfl⟩ rfl rfl))
  · exact h

theorem State.avsFail_keeps {b₀ : State} (s : State) (h₀ : Keeps b₀ s) : Keeps b₀ (s.avsFail) := by
  unfold State.avsFail
  split
  · exact h₀
  · exact State.updPower_keeps s _ h₀ (PowerKeeps.same ⟨rfl, rfl, rfl, rfl, rfl⟩ rfl rfl)

theorem State.regulatorFault_keeps {b₀ : State} (s : State) (h₀ : Keeps b₀ s) : Keeps b₀ (s.regulatorFault) := by
  unfold State.regulatorFault
  split
  · exact h₀
  · exact State.degradedFault_keeps _ _ (State.updPower_keeps s _ h₀ (faulted_keeps ..))

theorem State.prochotOn_keeps {b₀ : State} (s : State) (h₀ : Keeps b₀ s) : Keeps b₀ (s.prochotOn) := by
  unfold State.prochotOn
  split
  · exact h₀
  · split
    · exact State.updPower_keeps s _ h₀ (PowerKeeps.same ⟨rfl, rfl, rfl, rfl, rfl⟩ rfl rfl)
    · exact State.postThermal_keeps _ _ (State.updPower_keeps s _ h₀
        ((setDivisor_keeps _ s.dt 6 (fun _ => ⟨by decide, by decide, (ceiling_bounds _).2, fun _ => rfl⟩)).trans
          (PowerKeeps.same ⟨rfl, rfl, rfl, rfl, rfl⟩ rfl rfl)))

theorem State.prochotOff_keeps {b₀ : State} (s : State) (h₀ : Keeps b₀ s) : Keeps b₀ (s.prochotOff) := by
  unfold State.prochotOff
  dsimp only
  have h : Keeps b₀ (s.updPower (fun p => { p.countTo s.dt with prochot := false })) :=
    State.updPower_keeps s _ h₀ (PowerKeeps.same ⟨rfl, rfl, rfl, rfl, rfl⟩ rfl rfl)
  split
  · exact h₀
  · split
    · exact State.postThermal_keeps _ _ h
    · exact h

theorem State.trimUpdate_keeps {b₀ : State} (s : State) (trim : Int) (h₀ : Keeps b₀ s) : Keeps b₀ (s.trimUpdate trim) := by
  unfold State.trimUpdate
  dsimp only
  split
  · exact h₀
  · exact State.updPower_keeps s _ h₀ (trim_keeps ..)

end Sys2Proof.Machine
end

