-- ==== Sys2Proof/Laws/KeepsPages.lean ====
section
/-!
SUPPORT. Laws/KeepsPages.lean: that operands, device memory and pages keep the queue and the invariant. One lemma per operation.
-/
namespace Sys2Proof.Machine

open Sys2Proof.Safety

theorem State.apertureViolation_keeps {b₀ : State} (s : State) (c : Call) (i offset : Nat) (write : Bool) (r : ApertureCheck) (h₀ : Keeps b₀ s) : Keeps b₀ (State.apertureViolation s c i offset write r).1 := by
  unfold State.apertureViolation
  repeat' first
    | with_reducible exact Keeps.refl _
    | with_reducible assumption
    | with_reducible apply State.violate_keeps

theorem State.payload_keeps {b₀ : State} (s : State) (c : Call) (h₀ : Keeps b₀ s) : Keeps b₀ (State.payload s c).1 := by
  unfold State.payload
  repeat' first
    | with_reducible exact Keeps.refl _
    | with_reducible assumption
    | dsimp only
    | with_reducible apply State.apertureViolation_keeps
    | split

theorem State.respond_keeps {b₀ : State} (s : State) (c : Call) (pl len value : Nat) (result : Option Nat) (h₀ : Keeps b₀ s) : Keeps b₀ (State.respond s c pl len value result).1 := by
  unfold State.respond
  repeat' first
    | with_reducible exact Keeps.refl _
    | with_reducible assumption
    | dsimp only
    | with_reducible apply State.updPort_keeps
    | with_reducible apply State.apertureViolation_keeps
    | intro _
    | split

theorem State.countRefusal_keeps {b₀ : State} (s : State) (x : Nat) (h₀ : Keeps b₀ s) : Keeps b₀ (State.countRefusal s x) := by
  unfold State.countRefusal
  repeat' first
    | with_reducible exact Keeps.refl _
    | with_reducible assumption
    | dsimp only
    | with_reducible apply State.updChannel_keeps

theorem store_channels : ∀ (n : Nat) (m : Memory) (x v : Nat), (m.store x n v).channels = m.channels ∧ (m.store x n v).stackRegs = m.stackRegs
  | 0, _, _, _ => ⟨rfl, rfl⟩
  | n + 1, m, x, v => store_channels n (m.setByte x (BitVec.ofNat 8 v)) (x + 1) (v / 256)

theorem upset_channels (us : List (Nat × Nat)) : ∀ m : Memory, (m.upset us).channels = m.channels ∧ (m.upset us).stackRegs = m.stackRegs := by
  induction us with
  | nil => exact fun _ => ⟨rfl, rfl⟩
  | cons u us ih => exact fun m => ih _

theorem flips_channels (b : Nat) (xs : List (Nat × Nat)) : ∀ m : Memory,
    (xs.foldl (fun (u : Memory) (x : Nat × Nat) =>
      if x.1 < 32 then u.setByte (32 * b + x.1) (u.byte (32 * b + x.1) ^^^ BitVec.ofNat 8 x.2) else u) m).channels = m.channels ∧
    (xs.foldl (fun (u : Memory) (x : Nat × Nat) =>
      if x.1 < 32 then u.setByte (32 * b + x.1) (u.byte (32 * b + x.1) ^^^ BitVec.ofNat 8 x.2) else u) m).stackRegs = m.stackRegs := by
  induction xs with
  | nil => exact fun _ => ⟨rfl, rfl⟩
  | cons x xs ih =>
    intro m
    simp only [List.foldl_cons]
    by_cases h : x.1 < 32
    · rw [if_pos h]; exact ih _
    · rw [if_neg h]; exact ih _

theorem correct_channels (m : Memory) (b : Nat) : (m.correct b).channels = m.channels ∧ (m.correct b).stackRegs = m.stackRegs := by
  unfold Memory.correct
  extract_lets e change t
  exact flips_channels b change m

/-- A change of memory that leaves the pseudo-channels and the stacks' registers. -/
theorem Keeps.memory {b s : State} {v : Memory} (h₀ : Keeps b s) (hc : v.channels = s.mem.channels ∧ v.stackRegs = s.mem.stackRegs)
    (hw : s.mem.wf = true → v.wf = true) : Keeps b { s with mem := v } :=
  Keeps.mem h₀ hw (fun h => by rw [hc.1]; exact h) (fun h => by rw [hc.2]; exact h)

theorem State.memWrite_keeps {b₀ : State} (s : State) (x n v : Nat) (h₀ : Keeps b₀ s) : Keeps b₀ (State.memWrite s x n v) :=
  Keeps.memory h₀ (store_channels n s.mem x v) (fun h => wf_write h x n v)

theorem State.memZero_keeps {b₀ : State} (s : State) (x n : Nat) (h₀ : Keeps b₀ s) : Keeps b₀ (State.memZero s x n) :=
  Keeps.memory h₀ ⟨rfl, rfl⟩ (fun h => wf_zeroRange h x n)

theorem State.newOp_keeps {b₀ : State} (s : State) (k : OpKind) (part : Nat) (h₀ : Keeps b₀ s) : Keeps b₀ (State.newOp s k part).1 := by
  unfold State.newOp
  exact h₀.trans ⟨rfl, fun ⟨a, b, c, d⟩ => ⟨a, b, c, { d with }⟩⟩

theorem State.newOpDue_keeps {b₀ : State} (s : State) (k : OpKind) (part deadline : Nat) (owed : List Owed) (h₀ : Keeps b₀ s) : Keeps b₀ (State.newOpDue s k part deadline owed) := by
  unfold State.newOpDue
  repeat' first
    | with_reducible exact Keeps.refl _
    | with_reducible assumption
    | simp only [putOps_fold]
    | dsimp only
    | with_reducible apply State.newOp_keeps
    | with_reducible apply Keeps.ops
    | intro _
    | split

theorem State.newOpOwing_keeps {b₀ : State} (s : State) (k : OpKind) (part : Nat) (owed : List Owed) (h₀ : Keeps b₀ s) : Keeps b₀ (State.newOpOwing s k part owed) := by
  unfold State.newOpOwing
  repeat' first
    | with_reducible exact Keeps.refl _
    | with_reducible assumption
    | simp only [putOps_fold]
    | dsimp only
    | with_reducible apply State.newOp_keeps
    | with_reducible apply Keeps.ops
    | intro _
    | split

theorem State.opWorks_keeps {b₀ : State} (s : State) (id : Nat) (ks : List (Nat × Nat)) (h₀ : Keeps b₀ s) : Keeps b₀ (State.opWorks s id ks) := by
  unfold State.opWorks
  repeat' first
    | with_reducible exact Keeps.refl _
    | with_reducible assumption
    | simp only [putOps_fold]
    | dsimp only
    | with_reducible apply Keeps.ops
    | intro _
    | split

theorem State.endOps_keeps {b₀ : State} (s : State) (p : Operation → Bool) (h₀ : Keeps b₀ s) : Keeps b₀ (State.endOps s p) := by
  unfold State.endOps
  repeat' first
    | with_reducible exact Keeps.refl _
    | with_reducible assumption
    | simp only [putOps_fold]
    | dsimp only
    | with_reducible apply Keeps.ops

theorem State.grabPage_keeps {b₀ u : State} {m : Nat} (s : State) (n : Nat) (hu : s.grabPage n = some (m, u)) (h₀ : Keeps b₀ s) : Keeps b₀ u := by
  unfold State.grabPage at hu
  dsimp only at hu
  split at hu
  · cases hu
  · cases hu
    exact State.updPart_keeps _ _ _ (State.updPage_keeps _ _ _ h₀)

theorem State.endEpisodes_keeps {b₀ : State} (s : State) (n : Nat) (h₀ : Keeps b₀ s) : Keeps b₀ (State.endEpisodes s n) := by
  unfold State.endEpisodes
  repeat' first
    | with_reducible exact Keeps.refl _
    | with_reducible assumption
    | dsimp only
    | with_reducible apply State.updPart_keeps

theorem State.exhausted_keeps {b₀ : State} (s : State) (n kind : Nat) (h₀ : Keeps b₀ s) : Keeps b₀ (State.exhausted s n kind) := by
  unfold State.exhausted
  repeat' first
    | with_reducible exact Keeps.refl _
    | with_reducible assumption
    | dsimp only
    | with_reducible apply State.post_keeps
    | with_reducible apply State.updPart_keeps
    | intro _
    | split

theorem State.noPage_keeps {b₀ : State} (s : State) (n : Nat) (h₀ : Keeps b₀ s) : Keeps b₀ (State.noPage s n) := by
  unfold State.noPage
  repeat' first
    | with_reducible exact Keeps.refl _
    | with_reducible assumption
    | dsimp only
    | with_reducible apply State.exhausted_keeps
    | split

theorem State.setSeq_keeps {b₀ : State} (s : State) (q : PageSeq) (h₀ : Keeps b₀ s) : Keeps b₀ (State.setSeq s q) := by
  unfold State.setSeq
  repeat' first
    | with_reducible exact Keeps.refl _
    | with_reducible assumption
    | simp only [putPages_fold]
    | dsimp only
    | with_reducible apply Keeps.pages
    | with_reducible exact id

theorem State.pageFree_keeps {b₀ : State} (s : State) (ppn : Nat) (h₀ : Keeps b₀ s) : Keeps b₀ (State.pageFree s ppn) := by
  unfold State.pageFree
  repeat' first
    | with_reducible exact Keeps.refl _
    | with_reducible assumption
    | dsimp only
    | with_reducible apply State.updPart_keeps
    | with_reducible apply State.updPage_keeps
    | with_reducible apply State.setDir_keeps
    | with_reducible apply State.endEpisodes_keeps
    | intro _
    | split

theorem State.putDir_keeps {b₀ : State} (s : State) (ppn : Nat) (d : DirEntry) (h₀ : Keeps b₀ s) : Keeps b₀ (State.putDir s ppn d) := by
  unfold State.putDir
  repeat' first
    | with_reducible exact Keeps.refl _
    | with_reducible assumption
    | dsimp only
    | with_reducible apply State.updPage_keeps
    | with_reducible apply State.setDir_keeps

theorem State.cacheSend_keeps {b₀ : State} (s : State) (k : CacheKind) (tile ppn holder : Nat) (h₀ : Keeps b₀ s) : Keeps b₀ (State.cacheSend s k tile ppn holder) := by
  unfold State.cacheSend
  repeat' first
    | with_reducible exact Keeps.refl _
    | with_reducible assumption
    | simp only [putPages_fold]
    | dsimp only
    | with_reducible apply Keeps.pages
    | with_reducible exact id

theorem State.invalidate_keeps {b₀ : State} (s : State) (ppn : Nat) (reopen : Bool) (h₀ : Keeps b₀ s) : Keeps b₀ (State.invalidate s ppn reopen) := by
  unfold State.invalidate
  repeat' first
    | with_reducible exact Keeps.refl _
    | with_reducible assumption
    | dsimp only
    | with_reducible apply State.updPart_keeps
    | with_reducible apply State.putDir_keeps
    | with_reducible apply State.cacheSend_keeps
    | with_reducible apply Keeps.foldl
    | with_reducible apply Keeps.foldlFst
    | intro _
    | split

theorem State.beginFree_keeps {b₀ : State} (s : State) (ppn : Nat) (fg : Bool) (h₀ : Keeps b₀ s) : Keeps b₀ (State.beginFree s ppn fg) := by
  unfold State.beginFree
  repeat' first
    | with_reducible exact Keeps.refl _
    | with_reducible assumption
    | dsimp only
    | with_reducible apply State.updPage_keeps
    | with_reducible apply State.pageFree_keeps
    | with_reducible apply State.invalidate_keeps
    | intro _
    | split

theorem State.dropRef_keeps {b₀ : State} (s : State) (ppn : Nat) (fg : Bool) (h₀ : Keeps b₀ s) : Keeps b₀ (State.dropRef s ppn fg) := by
  unfold State.dropRef
  repeat' first
    | with_reducible exact Keeps.refl _
    | with_reducible assumption
    | dsimp only
    | with_reducible apply State.updPage_keeps
    | with_reducible apply State.beginFree_keeps
    | intro _
    | split

theorem State.dropEntries_keeps {b₀ : State} (s : State) (n k : Nat) (h₀ : Keeps b₀ s) : Keeps b₀ (State.dropEntries s n k) := by
  unfold State.dropEntries
  repeat' first
    | with_reducible exact Keeps.refl _
    | with_reducible assumption
    | dsimp only
    | with_reducible apply State.updPart_keeps
    | with_reducible apply State.endEpisodes_keeps

theorem State.dropSeq_keeps {b₀ : State} (s : State) (q : PageSeq) (fg : Bool) (h₀ : Keeps b₀ s) : Keeps b₀ (State.dropSeq s q fg) := by
  unfold State.dropSeq
  repeat' first
    | with_reducible exact Keeps.refl _
    | with_reducible assumption
    | dsimp only
    | with_reducible apply State.dropRef_keeps
    | with_reducible apply State.dropEntries_keeps
    | with_reducible apply Keeps.foldl
    | intro _

theorem State.dropOwner_keeps {b₀ : State} (s : State) (o : SeqOwner) (fg : Bool) (h₀ : Keeps b₀ s) : Keeps b₀ (State.dropOwner s o fg) := by
  unfold State.dropOwner
  repeat' first
    | with_reducible exact Keeps.refl _
    | with_reducible assumption
    | simp only [putPages_fold]
    | dsimp only
    | with_reducible apply State.updPage_keeps
    | with_reducible apply State.dropSeq_keeps
    | with_reducible apply Keeps.pages
    | with_reducible exact id
    | with_reducible apply Keeps.foldl
    | with_reducible apply Keeps.foldlFst
    | intro _
    | split

theorem State.removeEntry_keeps {b₀ : State} (s : State) (o : SeqOwner) (idx ppn : Nat) (h₀ : Keeps b₀ s) : Keeps b₀ (State.removeEntry s o idx ppn) := by
  unfold State.removeEntry
  repeat' first
    | with_reducible exact Keeps.refl _
    | with_reducible assumption
    | simp only [putPages_fold]
    | dsimp only
    | with_reducible apply State.setSeq_keeps
    | with_reducible apply State.dropRef_keeps
    | with_reducible apply State.dropEntries_keeps
    | with_reducible apply Keeps.pages
    | with_reducible exact id
    | intro _
    | split

theorem State.applyRemovals_keeps {b₀ : State} (s : State) (h₀ : Keeps b₀ s) : Keeps b₀ (State.applyRemovals s) := by
  unfold State.applyRemovals
  repeat' first
    | with_reducible exact Keeps.refl _
    | with_reducible assumption
    | simp only [putPages_fold]
    | dsimp only
    | with_reducible apply State.removeEntry_keeps
    | with_reducible apply Keeps.pages
    | with_reducible exact id
    | with_reducible apply Keeps.foldl
    | intro _

theorem State.applyTrims_keeps {b₀ : State} (s : State) (h₀ : Keeps b₀ s) : Keeps b₀ (State.applyTrims s) := by
  unfold State.applyTrims
  repeat' first
    | with_reducible exact Keeps.refl _
    | with_reducible assumption
    | dsimp only
    | with_reducible apply State.removeEntry_keeps
    | with_reducible apply Keeps.foldl
    | intro _

theorem State.pagesAdvance_keeps {b₀ : State} (s : State) (h₀ : Keeps b₀ s) : Keeps b₀ (State.pagesAdvance s) := by
  unfold State.pagesAdvance
  repeat' first
    | with_reducible exact Keeps.refl _
    | with_reducible assumption
    | with_reducible apply State.applyRemovals_keeps
    | with_reducible apply State.applyTrims_keeps

theorem State.trimCheck_keeps {b₀ : State} (s : State) (n : Nat) (h₀ : Keeps b₀ s) : Keeps b₀ (State.trimCheck s n) := by
  unfold State.trimCheck
  repeat' first
    | with_reducible exact Keeps.refl _
    | with_reducible assumption
    | dsimp only
    | with_reducible apply State.updPart_keeps
    | with_reducible apply State.updPage_keeps
    | with_reducible apply State.post_keeps
    | with_reducible apply State.applyTrims_keeps
    | with_reducible apply Keeps.foldl
    | intro _
    | split

theorem State.takePage_keeps {b₀ u : State} {m : Nat} (s : State) (n : Nat) (hu : s.takePage n = some (m, u)) (h₀ : Keeps b₀ s) : Keeps b₀ u := by
  unfold State.takePage at hu
  rw [Option.map_eq_some_iff] at hu
  obtain ⟨r, hr, e⟩ := hu
  cases e
  exact State.trimCheck_keeps _ _ (State.grabPage_keeps s n hr h₀)

theorem State.writeRow_keeps {b₀ : State} (s : State) (ppn t : Nat) (row : List Nat) (h₀ : Keeps b₀ s) : Keeps b₀ (State.writeRow s ppn t row) := by
  unfold State.writeRow
  repeat' first
    | with_reducible exact Keeps.refl _
    | with_reducible assumption
    | with_reducible apply State.memWrite_keeps

theorem State.clearRows_keeps {b₀ : State} (s : State) (ppn fill : Nat) (h₀ : Keeps b₀ s) : Keeps b₀ (State.clearRows s ppn fill) := by
  unfold State.clearRows
  repeat' first
    | with_reducible exact Keeps.refl _
    | with_reducible assumption
    | dsimp only
    | with_reducible apply State.memZero_keeps

theorem State.giveEntry_keeps {b₀ : State} (s : State) (w : Want) (e : PageEntry) (h₀ : Keeps b₀ s) : Keeps b₀ (State.giveEntry s w e) := by
  unfold State.giveEntry
  repeat' first
    | with_reducible exact Keeps.refl _
    | with_reducible assumption
    | dsimp only
    | with_reducible apply State.updPart_keeps
    | with_reducible apply State.setSeq_keeps
    | intro _

theorem State.startCopy_keeps {b₀ : State} (s : State) (c : Copy) (part due : Nat) (h₀ : Keeps b₀ s) : Keeps b₀ (State.startCopy s c part due) := by
  unfold State.startCopy
  repeat' first
    | with_reducible exact Keeps.refl _
    | with_reducible assumption
    | simp only [putPages_fold]
    | dsimp only
    | with_reducible apply State.newOpDue_keeps
    | with_reducible apply Keeps.pages
    | with_reducible exact id

theorem State.serveWant_keeps {b₀ : State} (s : State) (w : Want) (h₀ : Keeps b₀ s) : Keeps b₀ (State.serveWant s w).2 := by
  unfold State.serveWant
  repeat' first
    | with_reducible exact Keeps.refl _
    | with_reducible assumption
    | dsimp only
    | with_reducible apply State.updPage_keeps
    | with_reducible apply State.exhausted_keeps
    | with_reducible apply State.noPage_keeps
    | with_reducible apply State.trimCheck_keeps
    | with_reducible refine State.takePage_keeps _ _ (by assumption) ?_
    | with_reducible apply State.giveEntry_keeps
    | with_reducible apply State.startCopy_keeps
    | intro _
    | split

theorem State.wantStep_keeps {b₀ : State} (s : State) (w : Want) (h₀ : Keeps b₀ s) : Keeps b₀ (State.wantStep s w) := by
  unfold State.wantStep
  repeat' first
    | with_reducible exact Keeps.refl _
    | with_reducible assumption
    | simp only [putPages_fold]
    | dsimp only
    | with_reducible apply State.serveWant_keeps
    | with_reducible apply Keeps.pages
    | with_reducible exact id
    | split

theorem State.serveWants_keeps {b₀ : State} (s : State) (h₀ : Keeps b₀ s) : Keeps b₀ (State.serveWants s) := by
  unfold State.serveWants
  repeat' first
    | with_reducible exact Keeps.refl _
    | with_reducible assumption
    | simp only [putPages_fold]
    | dsimp only
    | with_reducible apply State.wantStep_keeps
    | with_reducible apply Keeps.pages
    | with_reducible exact id
    | with_reducible apply Keeps.foldl
    | with_reducible apply Keeps.foldlFst
    | intro _

theorem State.shareSealed_keeps {b₀ : State} (s : State) (stream idx : Nat) (e : PageEntry) (h₀ : Keeps b₀ s) : Keeps b₀ (State.shareSealed s stream idx e) := by
  unfold State.shareSealed
  repeat' first
    | with_reducible exact Keeps.refl _
    | with_reducible assumption
    | dsimp only
    | with_reducible apply State.wantStep_keeps
    | with_reducible apply Keeps.foldl
    | with_reducible apply Keeps.foldlFst
    | intro _
    | split

theorem State.sealEntry_keeps {b₀ : State} (s : State) (o : SeqOwner) (idx : Nat) (e : PageEntry) (h₀ : Keeps b₀ s) : Keeps b₀ (State.sealEntry s o idx e) := by
  unfold State.sealEntry
  repeat' first
    | with_reducible exact Keeps.refl _
    | with_reducible assumption
    | dsimp only
    | with_reducible apply State.updPage_keeps
    | with_reducible apply State.memWrite_keeps
    | with_reducible apply State.shareSealed_keeps
    | intro _
    | split

theorem State.answerLookup_keeps {b₀ : State} (s : State) (ppn tile : Nat) (h₀ : Keeps b₀ s) : Keeps b₀ (State.answerLookup s ppn tile) := by
  unfold State.answerLookup
  repeat' first
    | with_reducible exact Keeps.refl _
    | with_reducible assumption
    | dsimp only
    | with_reducible apply State.updPart_keeps
    | with_reducible apply State.putDir_keeps
    | with_reducible apply State.cacheSend_keeps
    | intro _
    | split

theorem State.answerHeld_keeps {b₀ : State} (s : State) (ppn : Nat) (h₀ : Keeps b₀ s) : Keeps b₀ (State.answerHeld s ppn) := by
  unfold State.answerHeld
  repeat' first
    | with_reducible exact Keeps.refl _
    | with_reducible assumption
    | dsimp only
    | with_reducible apply State.putDir_keeps
    | with_reducible apply State.answerLookup_keeps
    | with_reducible apply Keeps.foldl
    | with_reducible apply Keeps.foldlFst
    | intro _

theorem State.writeDone_keeps {b₀ : State} (s : State) (ppn : Nat) (h₀ : Keeps b₀ s) : Keeps b₀ (State.writeDone s ppn) := by
  unfold State.writeDone
  repeat' first
    | with_reducible exact Keeps.refl _
    | with_reducible assumption
    | dsimp only
    | with_reducible apply State.putDir_keeps
    | with_reducible apply State.answerHeld_keeps
    | split

theorem State.appendRow_keeps {b₀ : State} (s : State) (q : PageSeq) (row : List Nat) (sealNow : Bool) (due : Nat) (h₀ : Keeps b₀ s) :
    Keeps b₀ (State.appendRow s q row sealNow due).2.1 := by
  unfold State.appendRow
  repeat' first
    | with_reducible exact h₀
    | dsimp only
    | with_reducible apply State.exhausted_keeps
    | with_reducible apply State.noPage_keeps
    | with_reducible apply State.trimCheck_keeps
    | with_reducible apply State.updPart_keeps
    | with_reducible apply State.writeRow_keeps
    | with_reducible apply State.writeDone_keeps
    | with_reducible apply State.sealEntry_keeps
    | with_reducible apply State.invalidate_keeps
    | with_reducible apply State.startCopy_keeps
    | with_reducible refine State.takePage_keeps _ _ (by assumption) ?_
    | split

theorem State.appendRows_keeps {b₀ : State} (sealNow : Bool) (due : Nat) : ∀ (rows : List (List Nat)) (s : State) (q : PageSeq), Keeps b₀ s →
    Keeps b₀ (State.appendRows s q sealNow due rows).2.1
  | [], _, _, h₀ => h₀
  | r :: rs, s, q, h₀ => by
    have h := State.appendRow_keeps s q r sealNow due h₀
    unfold State.appendRows
    split
    · rename_i u q1 e
      rw [e] at h
      exact State.appendRows_keeps sealNow due rs u q1 h
    · rename_i u q1 e
      rw [e] at h
      exact h

theorem State.appendDecoder_keeps {b₀ : State} (s : State) (b idx tokens : Nat) (row : List Nat) (due : Nat) (h₀ : Keeps b₀ s) : Keeps b₀ (State.appendDecoder s b idx tokens row due).2 := by
  unfold State.appendDecoder
  repeat' first
    | with_reducible exact Keeps.refl _
    | with_reducible assumption
    | dsimp only
    | with_reducible apply State.setSeq_keeps
    | with_reducible apply State.appendRow_keeps
    | split

theorem State.appendToken_keeps {b₀ : State} (b tokens due : Nat) : ∀ (idx : Nat) (rows : List (List Nat)) (s : State), Keeps b₀ s →
    Keeps b₀ (State.appendToken s b tokens due idx rows).2
  | _, [], s, h₀ => by unfold State.appendToken; exact h₀
  | idx, row :: rows, s, h₀ => by
    have h := State.appendDecoder_keeps s b idx tokens row due h₀
    unfold State.appendToken
    split
    · exact State.appendToken_keeps b tokens due (idx + 1) rows _ (Keeps.snd (by assumption) h)
    · exact Keeps.snd (by assumption) h

theorem State.appendEncoder_keeps {b₀ : State} (s : State) (i idx : Nat) (rows : List (List Nat)) (due : Nat) (h₀ : Keeps b₀ s) : Keeps b₀ (State.appendEncoder s i idx rows due).2 := by
  unfold State.appendEncoder
  repeat' first
    | with_reducible exact Keeps.refl _
    | with_reducible assumption
    | simp only [putPages_fold]
    | dsimp only
    | with_reducible apply State.appendRows_keeps
    | with_reducible apply Keeps.pages
    | with_reducible exact id
    | intro _

theorem State.leaveHorizon_keeps {b₀ : State} (s : State) (q : PageSeq) (row : Nat) (h₀ : Keeps b₀ s) : Keeps b₀ (State.leaveHorizon s q row) := by
  unfold State.leaveHorizon
  repeat' first
    | with_reducible exact Keeps.refl _
    | with_reducible assumption
    | simp only [putPages_fold]
    | dsimp only
    | with_reducible apply Keeps.pages
    | with_reducible exact id

theorem State.publishEncoder_keeps {b₀ : State} (s : State) (i row : Nat) (h₀ : Keeps b₀ s) : Keeps b₀ (State.publishEncoder s i row) := by
  unfold State.publishEncoder
  repeat' first
    | with_reducible exact Keeps.refl _
    | with_reducible assumption
    | simp only [putPages_fold]
    | dsimp only
    | with_reducible apply State.setSeq_keeps
    | with_reducible apply State.sealEntry_keeps
    | with_reducible apply State.leaveHorizon_keeps
    | with_reducible apply Keeps.pages
    | with_reducible exact id
    | with_reducible apply Keeps.foldl
    | intro _

theorem State.dropCopies_keeps {b₀ : State} (s : State) (p : SeqOwner → Bool) (h₀ : Keeps b₀ s) : Keeps b₀ (State.dropCopies s p).1 := by
  unfold State.dropCopies
  repeat' first
    | with_reducible exact Keeps.refl _
    | with_reducible assumption
    | simp only [putPages_fold]
    | dsimp only
    | with_reducible apply State.dropRef_keeps
    | with_reducible apply Keeps.pages
    | with_reducible exact id
    | with_reducible apply Keeps.foldl
    | with_reducible apply Keeps.foldlFst
    | intro _

theorem State.dropStaged_keeps {b₀ : State} (s : State) (i : Nat) (fg : Bool) (h₀ : Keeps b₀ s) : Keeps b₀ (State.dropStaged s i fg) := by
  unfold State.dropStaged
  repeat' first
    | with_reducible exact Keeps.refl _
    | with_reducible assumption
    | simp only [putPages_fold]
    | dsimp only
    | with_reducible apply State.dropRef_keeps
    | with_reducible apply State.dropEntries_keeps
    | with_reducible apply State.clearRows_keeps
    | with_reducible apply Keeps.pages
    | with_reducible exact id
    | with_reducible apply Keeps.foldl
    | with_reducible apply Keeps.foldlFst
    | intro _
    | split

theorem State.truncate_keeps {b₀ : State} (s : State) (o : SeqOwner) (idx len : Nat) (h₀ : Keeps b₀ s) : Keeps b₀ (State.truncate s o idx len) := by
  unfold State.truncate
  repeat' first
    | with_reducible exact Keeps.refl _
    | with_reducible assumption
    | dsimp only
    | with_reducible apply State.setSeq_keeps
    | with_reducible apply State.dropRef_keeps
    | with_reducible apply State.dropEntries_keeps
    | with_reducible apply State.clearRows_keeps
    | with_reducible apply Keeps.foldl
    | with_reducible apply Keeps.foldlFst
    | intro _
    | split

theorem State.truncateDecoders_keeps {b₀ : State} (s : State) (b tokens : Nat) (h₀ : Keeps b₀ s) : Keeps b₀ (State.truncateDecoders s b tokens) := by
  unfold State.truncateDecoders
  repeat' first
    | with_reducible exact Keeps.refl _
    | with_reducible assumption
    | dsimp only
    | with_reducible apply State.truncate_keeps
    | with_reducible apply Keeps.foldl
    | intro _

theorem State.invalidated_keeps {b₀ : State} (s : State) (ppn : Nat) (h₀ : Keeps b₀ s) : Keeps b₀ (State.invalidated s ppn) := by
  unfold State.invalidated
  repeat' first
    | with_reducible exact Keeps.refl _
    | with_reducible assumption
    | dsimp only
    | with_reducible apply State.pageFree_keeps
    | split

theorem State.holderAnswered_keeps {b₀ : State} (s : State) (ppn f : Nat) (crossing : Bool) (h₀ : Keeps b₀ s) : Keeps b₀ (State.holderAnswered s ppn f crossing) := by
  unfold State.holderAnswered
  repeat' first
    | with_reducible exact Keeps.refl _
    | with_reducible assumption
    | dsimp only
    | with_reducible apply State.updPart_keeps
    | with_reducible apply State.putDir_keeps
    | with_reducible apply State.invalidated_keeps
    | intro _
    | split

theorem State.clearHolder_keeps {b₀ : State} (s : State) (logical f : Nat) (h₀ : Keeps b₀ s) : Keeps b₀ (State.clearHolder s logical f) := by
  unfold State.clearHolder
  repeat' first
    | with_reducible exact Keeps.refl _
    | with_reducible assumption
    | dsimp only
    | with_reducible apply State.putDir_keeps
    | with_reducible apply State.holderAnswered_keeps
    | with_reducible apply Keeps.foldl
    | intro _
    | split

end Sys2Proof.Machine
end

