-- ==== Sys2Proof/Laws/KeepsStreams.lean ====
section
/-!
SUPPORT. Laws/KeepsStreams.lean: that streams, branches, flanks and recovery keep the queue and the invariant. One lemma per operation.
-/
namespace Sys2Proof.Machine

open Sys2Proof.Safety

theorem State.updNeedle_keeps {b₀ : State} (s : State) (t p : Nat) (g : Needle → Needle) (h₀ : Keeps b₀ s) : Keeps b₀ (State.updNeedle s t p g) := by
  unfold State.updNeedle
  repeat' first
    | with_reducible exact Keeps.refl _
    | with_reducible assumption
    | dsimp only
    | with_reducible apply State.updTile_keeps

theorem State.progressGone_keeps {b₀ : State} (s : State) (f : Nat) (p : Progress) (h₀ : Keeps b₀ s) : Keeps b₀ (State.progressGone s f p) := by
  unfold State.progressGone
  repeat' first
    | with_reducible exact Keeps.refl _
    | with_reducible assumption
    | dsimp only
    | with_reducible apply State.updFeeder_keeps
    | with_reducible apply State.updNeedle_keeps
    | intro _
    | split

theorem State.sweepDropped_keeps {b₀ : State} (s : State) (f : Nat) (h₀ : Keeps b₀ s) : Keeps b₀ (State.sweepDropped s f) := by
  unfold State.sweepDropped
  repeat' first
    | with_reducible exact Keeps.refl _
    | with_reducible assumption
    | dsimp only
    | with_reducible apply State.progressGone_keeps
    | with_reducible apply Keeps.foldl
    | intro _

theorem State.postStream_keeps {b₀ : State} (s : State) (i : Nat) (src dst : StreamState) (cause : Nat) (h₀ : Keeps b₀ s) : Keeps b₀ (State.postStream s i src dst cause) := by
  unfold State.postStream
  repeat' first
    | with_reducible exact Keeps.refl _
    | with_reducible assumption
    | dsimp only
    | with_reducible apply State.post_keeps

theorem State.postBranch_keeps {b₀ : State} (s : State) (b : Nat) (src dst : BranchState) (cause row : Nat) (h₀ : Keeps b₀ s) : Keeps b₀ (State.postBranch s b src dst cause row) := by
  unfold State.postBranch
  repeat' first
    | with_reducible exact Keeps.refl _
    | with_reducible assumption
    | dsimp only
    | with_reducible apply State.post_keeps

theorem State.postFault_keeps {b₀ : State} (s : State) (i cause : Nat) (st : Stage) (row : Nat) (h₀ : Keeps b₀ s) : Keeps b₀ (State.postFault s i cause st row) := by
  unfold State.postFault
  repeat' first
    | with_reducible exact Keeps.refl _
    | with_reducible assumption
    | dsimp only
    | with_reducible apply State.post_keeps

theorem State.setSect_keeps {b₀ : State} (s : State) (st : Stage) (obj : Nat) (v : Sect) (h₀ : Keeps b₀ s) : Keeps b₀ (State.setSect s st obj v) := by
  unfold State.setSect
  repeat' first
    | with_reducible exact Keeps.refl _
    | with_reducible assumption
    | dsimp only
    | with_reducible apply State.updStream_keeps
    | with_reducible apply State.updBranch_keeps
    | intro _
    | split

theorem State.updSect_keeps {b₀ : State} (s : State) (st : Stage) (obj : Nat) (f : Sect → Sect) (h₀ : Keeps b₀ s) : Keeps b₀ (State.updSect s st obj f) := by
  unfold State.updSect
  repeat' first
    | with_reducible exact Keeps.refl _
    | with_reducible assumption
    | with_reducible apply State.setSect_keeps

theorem State.giveSlot_keeps {b₀ u : State} (s : State) (st : Stage) (obj : Nat) (hu : s.giveSlot st obj = some u) (h₀ : Keeps b₀ s) : Keeps b₀ u := by
  unfold State.giveSlot at hu
  dsimp only at hu
  split at hu
  · cases hu; exact h₀
  · rw [Option.map_eq_some_iff] at hu
    obtain ⟨t, -, rfl⟩ := hu
    exact State.setSect_keeps _ _ _ _ h₀

theorem State.giveSlots_keeps {b₀ u : State} : ∀ (s : State) (ks : List (Stage × Nat)), s.giveSlots ks = some u → Keeps b₀ s → Keeps b₀ u
  | s, [], hu, h₀ => by cases hu; exact h₀
  | s, k :: ks, hu, h₀ => by
    unfold State.giveSlots at hu
    split at hu
    · rename_i t e
      exact State.giveSlots_keeps t ks hu (State.giveSlot_keeps s k.1 k.2 e h₀)
    · cases hu

theorem State.dropRequests_keeps {b₀ : State} (s : State) (op : Nat) (h₀ : Keeps b₀ s) : Keeps b₀ (State.dropRequests s op) := by
  unfold State.dropRequests
  repeat' first
    | with_reducible exact Keeps.refl _
    | with_reducible assumption
    | dsimp only
    | with_reducible apply State.sweepDropped_keeps
    | with_reducible apply State.updFeeder_keeps
    | with_reducible apply Keeps.foldl
    | intro _

theorem State.reapOps_keeps {b₀ : State} (s : State) (h₀ : Keeps b₀ s) : Keeps b₀ (State.reapOps s) := by
  unfold State.reapOps
  repeat' first
    | with_reducible exact Keeps.refl _
    | with_reducible assumption
    | simp only [putOps_fold]
    | dsimp only
    | with_reducible apply Keeps.ops

theorem State.abandonOps_keeps {b₀ : State} (s : State) (p : Operation → Bool) (h₀ : Keeps b₀ s) : Keeps b₀ (State.abandonOps s p) := by
  unfold State.abandonOps
  repeat' first
    | with_reducible exact Keeps.refl _
    | with_reducible assumption
    | simp only [putOps_fold]
    | dsimp only
    | with_reducible apply State.dropRequests_keeps
    | with_reducible apply State.reapOps_keeps
    | with_reducible apply Keeps.ops
    | with_reducible apply Keeps.foldl
    | intro _

theorem State.releaseEntries_keeps {b₀ : State} (s : State) (i : Nat) (h₀ : Keeps b₀ s) : Keeps b₀ (State.releaseEntries s i) := by
  unfold State.releaseEntries
  repeat' first
    | with_reducible exact Keeps.refl _
    | with_reducible assumption
    | dsimp only
    | with_reducible apply State.updStream_keeps
    | with_reducible apply State.updBranch_keeps
    | with_reducible apply Keeps.foldl
    | with_reducible apply Keeps.foldlFst
    | intro _
    | split

theorem State.leaveTask_keeps {b₀ : State} (s : State) (f : Nat) (r : RunTask) (h₀ : Keeps b₀ s) : Keeps b₀ (State.leaveTask s f r) := by
  unfold State.leaveTask
  repeat' first
    | with_reducible exact Keeps.refl _
    | with_reducible assumption
    | dsimp only
    | with_reducible apply State.updFlank_keeps
    | intro _

theorem State.dropItems_keeps {b₀ : State} (s : State) (f : Nat) (p : Item → Bool) (h₀ : Keeps b₀ s) : Keeps b₀ (State.dropItems s f p) := by
  unfold State.dropItems
  repeat' first
    | with_reducible exact Keeps.refl _
    | with_reducible assumption
    | dsimp only
    | with_reducible apply State.updFlank_keeps

theorem State.endEmptyTask_keeps {b₀ : State} (s : State) (f : Nat) (h₀ : Keeps b₀ s) : Keeps b₀ (State.endEmptyTask s f) := by
  unfold State.endEmptyTask
  repeat' first
    | with_reducible exact Keeps.refl _
    | with_reducible assumption
    | dsimp only
    | with_reducible apply State.abandonOps_keeps
    | with_reducible apply State.leaveTask_keeps
    | intro _
    | split

theorem State.dropWork_keeps {b₀ : State} (s : State) (p : Item → Bool) (h₀ : Keeps b₀ s) : Keeps b₀ (State.dropWork s p) := by
  unfold State.dropWork
  repeat' first
    | with_reducible exact Keeps.refl _
    | with_reducible assumption
    | dsimp only
    | with_reducible apply State.dropItems_keeps
    | with_reducible apply State.endEmptyTask_keeps
    | with_reducible apply Keeps.foldl
    | with_reducible apply Keeps.foldlFst
    | intro _

theorem State.beginCommit_keeps {b₀ : State} (s : State) (st : Stage) (obj : Nat) (c : Commit) (h₀ : Keeps b₀ s) : Keeps b₀ (State.beginCommit s st obj c) := by
  unfold State.beginCommit
  repeat' first
    | with_reducible exact Keeps.refl _
    | with_reducible assumption
    | dsimp only
    | with_reducible apply State.newOpDue_keeps
    | with_reducible apply State.setSect_keeps
    | split

theorem State.startCommit_keeps {b₀ : State} (s : State) (st : Stage) (obj : Nat) (why : CommitWhy) (h₀ : Keeps b₀ s) : Keeps b₀ (State.startCommit s st obj why) := by
  unfold State.startCommit
  repeat' first
    | with_reducible exact Keeps.refl _
    | with_reducible assumption
    | dsimp only
    | with_reducible apply State.setSect_keeps
    | with_reducible apply State.beginCommit_keeps
    | split

theorem State.advanceRow_keeps {b₀ : State} (s : State) (st : Stage) (obj : Nat) (h₀ : Keeps b₀ s) : Keeps b₀ (State.advanceRow s st obj) := by
  unfold State.advanceRow
  repeat' first
    | with_reducible exact Keeps.refl _
    | with_reducible assumption
    | dsimp only
    | with_reducible apply State.pagesAdvance_keeps
    | with_reducible apply State.updSect_keeps
    | with_reducible apply State.releaseEntries_keeps
    | intro _

theorem State.commitDue_keeps {b₀ : State} (s : State) (st : Stage) (obj : Nat) (h₀ : Keeps b₀ s) : Keeps b₀ (State.commitDue s st obj) := by
  unfold State.commitDue
  repeat' first
    | with_reducible exact Keeps.refl _
    | with_reducible assumption
    | dsimp only
    | with_reducible apply State.startCommit_keeps
    | with_reducible apply State.advanceRow_keeps
    | split

theorem State.chunkDone_keeps {b₀ : State} (s : State) (st : Stage) (obj row : Nat) (changed : Bool) (h₀ : Keeps b₀ s) : Keeps b₀ (State.chunkDone s st obj row changed) := by
  unfold State.chunkDone
  repeat' first
    | with_reducible exact Keeps.refl _
    | with_reducible assumption
    | dsimp only
    | with_reducible apply State.updStream_keeps
    | with_reducible apply State.updSect_keeps
    | with_reducible apply State.commitDue_keeps
    | intro _
    | split

theorem State.rerunSettled_keeps {b₀ : State} (s : State) (st : Stage) (obj : Nat) (p : Nat → Bool) (h₀ : Keeps b₀ s) : Keeps b₀ (State.rerunSettled s st obj p) := by
  unfold State.rerunSettled
  repeat' first
    | with_reducible exact Keeps.refl _
    | with_reducible assumption
    | dsimp only
    | with_reducible apply State.updSect_keeps
    | intro _

theorem State.quietChunk_keeps {b₀ : State} (s : State) (b row : Nat) (h₀ : Keeps b₀ s) : Keeps b₀ (State.quietChunk s b row) := by
  unfold State.quietChunk
  repeat' first
    | with_reducible exact Keeps.refl _
    | with_reducible assumption
    | dsimp only
    | with_reducible apply State.updBranch_keeps
    | intro _
    | split

theorem State.passDone_keeps {b₀ : State} (s : State) (st : Stage) (obj row : Nat) (h₀ : Keeps b₀ s) : Keeps b₀ (State.passDone s st obj row) := by
  unfold State.passDone
  repeat' first
    | with_reducible exact Keeps.refl _
    | with_reducible assumption
    | dsimp only
    | with_reducible apply State.chunkDone_keeps
    | with_reducible apply State.rerunSettled_keeps
    | with_reducible apply State.quietChunk_keeps
    | intro _
    | split

theorem State.reportFall_keeps {b₀ : State} (s : State) (b : Nat) (st : Stage) (row : Nat) (pol : Policy) (h₀ : Keeps b₀ s) : Keeps b₀ (State.reportFall s b st row pol) := by
  unfold State.reportFall
  repeat' first
    | with_reducible exact Keeps.refl _
    | with_reducible assumption
    | dsimp only
    | with_reducible apply State.updBranch_keeps
    | with_reducible apply State.post_keeps
    | intro _
    | split

theorem State.backToCommit_keeps {b₀ : State} (s : State) (b : Nat) (st : Stage) (h₀ : Keeps b₀ s) : Keeps b₀ (State.backToCommit s b st) := by
  unfold State.backToCommit
  repeat' first
    | with_reducible exact Keeps.refl _
    | with_reducible assumption
    | dsimp only
    | with_reducible apply State.truncateDecoders_keeps
    | with_reducible apply State.updSect_keeps
    | intro _
    | split

theorem State.cancelWork_keeps {b₀ : State} (s : State) (b row : Nat) (onward : Bool) (h₀ : Keeps b₀ s) : Keeps b₀ (State.cancelWork s b row onward) := by
  unfold State.cancelWork
  repeat' first
    | with_reducible exact Keeps.refl _
    | with_reducible assumption
    | dsimp only
    | with_reducible apply State.dropWork_keeps
    | with_reducible apply State.backToCommit_keeps
    | intro _
    | split

theorem State.leftOut_keeps {b₀ : State} (s : State) (b : Nat) (p : Nat → Bool) (h₀ : Keeps b₀ s) : Keeps b₀ (State.leftOut s b p) := by
  unfold State.leftOut
  repeat' first
    | with_reducible exact Keeps.refl _
    | with_reducible assumption
    | dsimp only
    | with_reducible apply State.rerunSettled_keeps

theorem State.declareFall_keeps {b₀ : State} (s : State) (b : Nat) (st : Stage) (row : Nat) (h₀ : Keeps b₀ s) : Keeps b₀ (State.declareFall s b st row) := by
  unfold State.declareFall
  repeat' first
    | with_reducible exact Keeps.refl _
    | with_reducible assumption
    | dsimp only
    | with_reducible apply State.updBranch_keeps
    | with_reducible apply State.postBranch_keeps
    | with_reducible apply State.rerunSettled_keeps
    | with_reducible apply State.reportFall_keeps
    | with_reducible apply State.cancelWork_keeps
    | with_reducible apply State.leftOut_keeps
    | intro _
    | split

theorem State.fallAt_keeps {b₀ : State} (s : State) (st : Stage) (obj row : Nat) (h₀ : Keeps b₀ s) : Keeps b₀ (State.fallAt s st obj row) := by
  unfold State.fallAt
  repeat' first
    | with_reducible exact Keeps.refl _
    | with_reducible assumption
    | dsimp only
    | with_reducible apply State.updStream_keeps
    | with_reducible apply State.rerunSettled_keeps
    | with_reducible apply State.declareFall_keeps
    | with_reducible apply Keeps.foldl
    | with_reducible apply Keeps.foldlFst
    | intro _
    | split

theorem State.overrun_keeps {b₀ : State} (s : State) (i : Nat) (st : Stage) (obj : Nat) (waiting : List Nat) (h₀ : Keeps b₀ s) : Keeps b₀ (State.overrun s i st obj waiting) := by
  unfold State.overrun
  repeat' first
    | with_reducible exact Keeps.refl _
    | with_reducible assumption
    | dsimp only
    | with_reducible apply State.journalWrite_keeps
    | with_reducible apply State.postFault_keeps
    | with_reducible apply State.declareFall_keeps
    | with_reducible apply State.fallAt_keeps
    | with_reducible apply Keeps.foldl
    | with_reducible apply Keeps.foldlFst
    | intro _
    | split

theorem State.pushTr_keeps {b₀ : State} (s : State) (i : Nat) (e : Entry) (h₀ : Keeps b₀ s) : Keeps b₀ (State.pushTr s i e) := by
  unfold State.pushTr
  repeat' first
    | with_reducible exact Keeps.refl _
    | with_reducible assumption
    | dsimp only
    | with_reducible apply State.updStream_keeps
    | with_reducible apply State.updBranch_keeps
    | with_reducible apply State.dropWork_keeps
    | with_reducible apply State.overrun_keeps
    | with_reducible apply Keeps.foldl
    | with_reducible apply Keeps.foldlFst
    | intro _
    | split

theorem State.pushSp_keeps {b₀ : State} (s : State) (b : Nat) (e : Entry) (h₀ : Keeps b₀ s) : Keeps b₀ (State.pushSp s b e) := by
  unfold State.pushSp
  repeat' first
    | with_reducible exact Keeps.refl _
    | with_reducible assumption
    | dsimp only
    | with_reducible apply State.updBranch_keeps
    | with_reducible apply State.dropWork_keeps
    | with_reducible apply State.overrun_keeps
    | intro _
    | split

theorem State.pushEg_keeps {b₀ : State} (s : State) (b : Nat) (e : EgressEntry) (h₀ : Keeps b₀ s) : Keeps b₀ (State.pushEg s b e) := by
  unfold State.pushEg
  repeat' first
    | with_reducible exact Keeps.refl _
    | with_reducible assumption
    | dsimp only
    | with_reducible apply State.journalWrite_keeps
    | with_reducible apply State.updBranch_keeps
    | with_reducible apply State.postFault_keeps
    | intro _
    | split

theorem State.passEncode_keeps {b₀ : State} (s : State) (i row : Nat) (h₀ : Keeps b₀ s) : Keeps b₀ (State.passEncode s i row) := by
  unfold State.passEncode
  repeat' first
    | with_reducible exact Keeps.refl _
    | with_reducible assumption
    | dsimp only
    | with_reducible apply State.updStream_keeps
    | with_reducible apply State.passDone_keeps
    | with_reducible apply State.pushTr_keeps
    | intro _
    | split

theorem State.pushEnc_keeps {b₀ : State} (s : State) (i : Nat) (e : Entry) (h₀ : Keeps b₀ s) : Keeps b₀ (State.pushEnc s i e) := by
  unfold State.pushEnc
  repeat' first
    | with_reducible exact Keeps.refl _
    | with_reducible assumption
    | dsimp only
    | with_reducible apply State.updStream_keeps
    | with_reducible apply State.dropWork_keeps
    | with_reducible apply State.overrun_keeps
    | with_reducible apply State.passEncode_keeps
    | intro _
    | split

theorem State.branchStep_keeps {b₀ u : State} (s : State) (b : Nat) (st : Stage) (hu : s.branchStep b st = some u) (h₀ : Keeps b₀ s) : Keeps b₀ u := by
  unfold State.branchStep at hu
  dsimp only at hu
  repeat' split at hu
  all_goals cases hu
  all_goals repeat' first
    | exact h₀
    | with_reducible apply State.passDone_keeps
    | with_reducible apply State.pushSp_keeps
    | with_reducible apply State.pushEg_keeps
    | with_reducible apply State.updBranch_keeps

theorem State.branchSteps_keeps {b₀ : State} (b : Nat) (st : Stage) : ∀ (n : Nat) (s : State), Keeps b₀ s → Keeps b₀ (s.branchSteps b st n)
  | 0, _, h₀ => h₀
  | n + 1, s, h₀ => by
    unfold State.branchSteps
    split
    · rename_i u e
      exact State.branchSteps_keeps b st n u (State.branchStep_keeps s b st e h₀)
    · exact h₀

theorem State.encodeSteps_keeps {b₀ : State} (i : Nat) : ∀ (n : Nat) (s : State), Keeps b₀ s → Keeps b₀ (s.encodeSteps i n)
  | 0, _, h₀ => h₀
  | n + 1, s, h₀ => by
    unfold State.encodeSteps
    dsimp only
    repeat' first
      | exact h₀
      | (refine State.encodeSteps_keeps i n _ (State.passEncode_keeps _ _ _ h₀))
      | split

theorem State.releaseSlot_keeps {b₀ : State} (s : State) (st : Stage) (obj : Nat) (h₀ : Keeps b₀ s) : Keeps b₀ (State.releaseSlot s st obj) := by
  unfold State.releaseSlot
  repeat' first
    | with_reducible exact Keeps.refl _
    | with_reducible assumption
    | dsimp only
    | with_reducible apply State.updSect_keeps

theorem State.queueCastIn_keeps {b₀ : State} (s : State) (i deadline : Nat) (h₀ : Keeps b₀ s) : Keeps b₀ (State.queueCastIn s i deadline) := by
  unfold State.queueCastIn
  repeat' first
    | with_reducible exact Keeps.refl _
    | with_reducible assumption
    | dsimp only
    | with_reducible apply State.updStream_keeps
    | intro _
    | split

theorem State.queueWaiting_keeps {b₀ : State} (s : State) (i : Nat) (h₀ : Keeps b₀ s) : Keeps b₀ (State.queueWaiting s i) := by
  unfold State.queueWaiting
  repeat' first
    | with_reducible exact Keeps.refl _
    | with_reducible assumption
    | dsimp only
    | with_reducible apply State.queueCastIn_keeps
    | with_reducible apply Keeps.foldl
    | with_reducible apply Keeps.foldlFst
    | intro _
    | split

theorem State.castOutProgress_keeps {b₀ : State} (s : State) (i : Nat) (h₀ : Keeps b₀ s) : Keeps b₀ (State.castOutProgress s i) := by
  unfold State.castOutProgress
  repeat' first
    | with_reducible exact Keeps.refl _
    | with_reducible assumption
    | dsimp only
    | with_reducible apply State.updStream_keeps
    | with_reducible apply State.pagesAdvance_keeps
    | with_reducible apply State.postStream_keeps
    | with_reducible apply State.updSect_keeps
    | with_reducible apply State.releaseEntries_keeps
    | with_reducible apply State.startCommit_keeps
    | with_reducible apply State.releaseSlot_keeps
    | with_reducible apply State.queueWaiting_keeps
    | with_reducible apply State.castOut_keeps
    | with_reducible apply Keeps.foldl
    | with_reducible apply Keeps.foldlFst
    | intro _
    | split

theorem State.castOut_keeps {b₀ : State} (s : State) (i cause : Nat) (h₀ : Keeps b₀ s) : Keeps b₀ (State.castOut s i cause) := by
  unfold State.castOut
  repeat' first
    | with_reducible exact Keeps.refl _
    | with_reducible assumption
    | dsimp only
    | with_reducible apply State.updStream_keeps
    | with_reducible apply State.dropWork_keeps
    | with_reducible apply State.castOutProgress_keeps
    | intro _
    | split

theorem State.pauseStep_keeps {b₀ : State} (s : State) (i : Nat) (st : Stage) (obj : Nat) (h₀ : Keeps b₀ s) : Keeps b₀ (State.pauseStep s i st obj) := by
  unfold State.pauseStep
  repeat' first
    | with_reducible exact Keeps.refl _
    | with_reducible assumption
    | dsimp only
    | with_reducible apply State.updSect_keeps
    | with_reducible apply State.releaseEntries_keeps
    | with_reducible apply State.startCommit_keeps
    | with_reducible apply State.releaseSlot_keeps
    | intro _
    | split

theorem State.pauseProgress_keeps {b₀ : State} (s : State) (i : Nat) (h₀ : Keeps b₀ s) : Keeps b₀ (State.pauseProgress s i) := by
  unfold State.pauseProgress
  repeat' first
    | with_reducible exact Keeps.refl _
    | with_reducible assumption
    | dsimp only
    | with_reducible apply State.pauseStep_keeps
    | with_reducible apply Keeps.foldl
    | intro _
    | split

theorem State.loseSection_keeps {b₀ : State} (s : State) (st : Stage) (obj : Nat) (inTask : Bool) (h₀ : Keeps b₀ s) : Keeps b₀ (State.loseSection s st obj inTask) := by
  unfold State.loseSection
  repeat' first
    | with_reducible exact Keeps.refl _
    | with_reducible assumption
    | dsimp only
    | with_reducible apply State.dropStaged_keeps
    | with_reducible apply State.setSect_keeps
    | with_reducible apply State.abandonOps_keeps
    | with_reducible apply State.dropWork_keeps
    | intro _
    | split

theorem State.frog_keeps {b₀ : State} (s : State) (i : Nat) (ks : List (Stage × Nat)) (cause : Nat) (rewind : Bool) (h₀ : Keeps b₀ s) : Keeps b₀ (State.frog s i ks cause rewind) := by
  unfold State.frog
  repeat' first
    | with_reducible exact Keeps.refl _
    | with_reducible assumption
    | dsimp only
    | with_reducible apply State.updStream_keeps
    | with_reducible apply State.postStream_keeps
    | with_reducible apply State.loseSection_keeps
    | with_reducible apply Keeps.foldl
    | with_reducible apply Keeps.foldlFst
    | intro _
    | split

theorem State.frogExit_keeps {b₀ : State} (s : State) (i : Nat) (h₀ : Keeps b₀ s) : Keeps b₀ (State.frogExit s i) := by
  unfold State.frogExit
  repeat' first
    | with_reducible exact Keeps.refl _
    | with_reducible assumption
    | dsimp only
    | with_reducible apply State.updStream_keeps
    | with_reducible apply State.completeKey_keeps
    | with_reducible apply State.postStream_keeps
    | with_reducible apply State.frog_keeps
    | intro _
    | split

theorem State.advance_keeps {b₀ : State} (s : State) (i : Nat) (h₀ : Keeps b₀ s) : Keeps b₀ (State.advance s i) := by
  unfold State.advance
  repeat' first
    | with_reducible exact Keeps.refl _
    | with_reducible assumption
    | dsimp only
    | with_reducible apply State.castOutProgress_keeps
    | with_reducible apply State.pauseProgress_keeps
    | with_reducible apply State.frogExit_keeps
    | with_reducible apply State.encodeSteps_keeps
    | with_reducible apply State.branchSteps_keeps
    | with_reducible apply Keeps.foldl
    | intro _
    | split

theorem State.muteBranch_keeps {b₀ : State} (s : State) (b : Nat) (h₀ : Keeps b₀ s) : Keeps b₀ (State.muteBranch s b) := by
  unfold State.muteBranch
  repeat' first
    | with_reducible exact Keeps.refl _
    | with_reducible assumption
    | simp only [putAudio_fold]
    | dsimp only
    | with_reducible apply State.updBranch_keeps
    | with_reducible apply Keeps.audio
    | with_reducible exact fun h => Table.wf_mapVals h _
    | with_reducible exact id

theorem State.detach_keeps {b₀ : State} (s : State) (b cause : Nat) (drain : Bool) (h₀ : Keeps b₀ s) : Keeps b₀ (State.detach s b cause drain) := by
  unfold State.detach
  repeat' first
    | with_reducible exact Keeps.refl _
    | with_reducible assumption
    | dsimp only
    | with_reducible apply State.updBranch_keeps
    | with_reducible apply State.complete_keeps
    | with_reducible apply State.completeKey_keeps
    | with_reducible apply State.postBranch_keeps
    | with_reducible apply State.dropWork_keeps
    | with_reducible apply State.muteBranch_keeps
    | intro _
    | split

theorem State.bindOff_keeps {b₀ : State} (s : State) (i : Nat) (drain : Bool) (cause : Nat) (h₀ : Keeps b₀ s) : Keeps b₀ (State.bindOff s i drain cause) := by
  unfold State.bindOff
  repeat' first
    | with_reducible exact Keeps.refl _
    | with_reducible assumption
    | simp only [putPages_fold]
    | dsimp only
    | with_reducible apply State.completeKey_keeps
    | with_reducible apply State.updPart_keeps
    | with_reducible apply State.updStream_keeps
    | with_reducible apply State.dropStaged_keeps
    | with_reducible apply State.postStream_keeps
    | with_reducible apply State.abandonOps_keeps
    | with_reducible apply State.dropWork_keeps
    | with_reducible apply State.queueWaiting_keeps
    | with_reducible apply State.detach_keeps
    | with_reducible apply Keeps.pages
    | with_reducible exact id
    | with_reducible apply Keeps.foldl
    | with_reducible apply Keeps.foldlFst
    | intro _
    | split

theorem State.lifelineLost_keeps {b₀ : State} (s : State) (i : Nat) (st : Stage) (address : Nat) (h₀ : Keeps b₀ s) : Keeps b₀ (State.lifelineLost s i st address) := by
  unfold State.lifelineLost
  repeat' first
    | with_reducible exact Keeps.refl _
    | with_reducible assumption
    | dsimp only
    | with_reducible apply State.journalWrite_keeps
    | with_reducible apply State.postFault_keeps
    | with_reducible apply State.bindOff_keeps
    | split

theorem State.updBinding_keeps {b₀ : State} (s : State) (f content : Nat) (g : Binding → Binding) (h₀ : Keeps b₀ s) : Keeps b₀ (State.updBinding s f content g) := by
  unfold State.updBinding
  repeat' first
    | with_reducible exact Keeps.refl _
    | with_reducible assumption
    | dsimp only
    | with_reducible apply State.updFlank_keeps

theorem State.layoutCheck_keeps {b₀ : State} (s : State) (f : Nat) (h₀ : Keeps b₀ s) : Keeps b₀ (State.layoutCheck s f) := by
  unfold State.layoutCheck
  repeat' first
    | with_reducible exact Keeps.refl _
    | with_reducible assumption
    | dsimp only
    | with_reducible apply State.updFlank_keeps

theorem State.bindStage_keeps {b₀ u : State} (s : State) (f content : Nat) (st : Stage) (mode : BindMode) (pipe : Nat) (k : Package)
    (hu : s.bindStage f content st mode pipe k = .inr u) (h₀ : Keeps b₀ s) : Keeps b₀ u := by
  unfold State.bindStage at hu
  dsimp only at hu
  repeat' split at hu
  all_goals cases hu
  · exact State.updBinding_keeps _ _ _ _ h₀
  · exact State.layoutCheck_keeps _ _ (State.updFlank_keeps _ _ _ h₀)

theorem State.unbind_keeps {b₀ : State} (s : State) (f pipe : Nat) (h₀ : Keeps b₀ s) : Keeps b₀ (State.unbind s f pipe) := by
  unfold State.unbind
  repeat' first
    | with_reducible exact Keeps.refl _
    | with_reducible assumption
    | dsimp only
    | with_reducible apply State.updFlank_keeps
    | with_reducible apply State.layoutCheck_keeps

theorem State.updOwner_keeps {b₀ : State} (s : State) (ppn : Nat) (g : Partition → Partition) (h₀ : Keeps b₀ s) : Keeps b₀ (State.updOwner s ppn g) := by
  unfold State.updOwner
  repeat' first
    | with_reducible exact Keeps.refl _
    | with_reducible assumption
    | dsimp only
    | with_reducible apply State.updPart_keeps
    | split

theorem State.finishDrop_keeps {b₀ : State} (s : State) (tile ppn : Nat) (h₀ : Keeps b₀ s) : Keeps b₀ (State.finishDrop s tile ppn) := by
  unfold State.finishDrop
  repeat' first
    | with_reducible exact Keeps.refl _
    | with_reducible assumption
    | dsimp only
    | with_reducible apply State.updTile_keeps
    | with_reducible apply State.cacheSend_keeps
    | intro _
    | split

theorem State.readsEnd_keeps {b₀ : State} (s : State) (t : Nat) (h₀ : Keeps b₀ s) : Keeps b₀ (State.readsEnd s t) := by
  unfold State.readsEnd
  repeat' first
    | with_reducible exact Keeps.refl _
    | with_reducible assumption
    | dsimp only
    | with_reducible apply State.finishDrop_keeps
    | with_reducible apply State.updTile_keeps
    | with_reducible apply Keeps.foldl
    | with_reducible apply Keeps.foldlFst
    | intro _
    | split

theorem State.tileStops_keeps {b₀ : State} (s : State) (t : Nat) (h₀ : Keeps b₀ s) : Keeps b₀ (State.tileStops s t) := by
  unfold State.tileStops
  repeat' first
    | with_reducible exact Keeps.refl _
    | with_reducible assumption
    | dsimp only
    | with_reducible apply State.evict_keeps
    | with_reducible apply State.readsEnd_keeps
    | with_reducible apply State.updTile_keeps
    | with_reducible apply State.stallEnds_keeps
    | with_reducible apply State.cacheSend_keeps
    | with_reducible apply Keeps.foldl
    | with_reducible apply Keeps.foldlFst
    | intro _
    | split

theorem State.owePage_keeps {b₀ : State} (s : State) (op ppn : Nat) (h₀ : Keeps b₀ s) : Keeps b₀ (State.owePage s op ppn) := by
  unfold State.owePage
  repeat' first
    | with_reducible exact Keeps.refl _
    | with_reducible assumption
    | simp only [putOps_fold]
    | dsimp only
    | with_reducible apply Keeps.ops
    | intro _
    | split

theorem State.storeWrite_keeps {b₀ : State} : ∀ (n : Nat) (s : State) (k v : Nat), Keeps b₀ s → Keeps b₀ (s.storeWrite k n v)
  | 0, _, _, _, h₀ => h₀
  | n + 1, s, k, v, h₀ => by
    unfold State.storeWrite
    exact State.storeWrite_keeps n _ _ _ (Keeps.store h₀ (fun h => Table.wf_set h _ _))

theorem State.itemDispatched_keeps {b₀ : State} (s : State) (it : Item) (h₀ : Keeps b₀ s) : Keeps b₀ (State.itemDispatched s it) := by
  unfold State.itemDispatched
  repeat' first
    | with_reducible exact Keeps.refl _
    | with_reducible assumption
    | dsimp only
    | with_reducible apply State.rerunSettled_keeps
    | intro _

theorem State.keepViews_keeps {b₀ : State} (s : State) (it : Item) (h₀ : Keeps b₀ s) : Keeps b₀ (State.keepViews s it) := by
  unfold State.keepViews
  repeat' first
    | with_reducible exact Keeps.refl _
    | with_reducible assumption
    | dsimp only
    | with_reducible apply State.updSect_keeps
    | intro _

theorem State.startTask_keeps {b₀ : State} (s : State) (f : Nat) (b : Binding) (batch : List Item) (h₀ : Keeps b₀ s) : Keeps b₀ (State.startTask s f b batch) := by
  unfold State.startTask
  repeat' first
    | with_reducible exact Keeps.refl _
    | with_reducible assumption
    | dsimp only
    | with_reducible apply State.updBinding_keeps
    | with_reducible apply State.itemDispatched_keeps
    | with_reducible apply State.keepViews_keeps
    | with_reducible apply State.updFlank_keeps
    | with_reducible apply State.newOp_keeps
    | with_reducible apply State.newOpDue_keeps
    | with_reducible apply State.opWorks_keeps
    | with_reducible apply Keeps.foldl
    | with_reducible apply Keeps.foldlFst
    | intro _
    | split

theorem State.lateFall_keeps {b₀ : State} (s : State) (f : Nat) (it : Item) (h₀ : Keeps b₀ s) : Keeps b₀ (State.lateFall s f it) := by
  unfold State.lateFall
  repeat' first
    | with_reducible exact Keeps.refl _
    | with_reducible assumption
    | dsimp only
    | with_reducible apply State.fallAt_keeps
    | split

theorem State.lateFalls_keeps {b₀ : State} (s : State) (f : Nat) (h₀ : Keeps b₀ s) : Keeps b₀ (State.lateFalls s f) := by
  unfold State.lateFalls
  repeat' first
    | with_reducible exact Keeps.refl _
    | with_reducible assumption
    | dsimp only
    | with_reducible apply State.advance_keeps
    | with_reducible apply State.lateFall_keeps
    | with_reducible apply Keeps.foldl
    | intro _

theorem State.dispatch_keeps {b₀ : State} (s : State) (f : Nat) (h₀ : Keeps b₀ s) : Keeps b₀ (State.dispatch s f) := by
  unfold State.dispatch
  repeat' first
    | with_reducible exact Keeps.refl _
    | with_reducible assumption
    | dsimp only
    | with_reducible apply State.updFlank_keeps
    | with_reducible apply State.frogExit_keeps
    | with_reducible apply State.startTask_keeps
    | with_reducible apply State.lateFalls_keeps
    | with_reducible apply Keeps.foldl
    | intro _
    | split

theorem State.dispatchAll_keeps {b₀ : State} (s : State) (h₀ : Keeps b₀ s) : Keeps b₀ (State.dispatchAll s) := by
  unfold State.dispatchAll
  repeat' first
    | with_reducible exact Keeps.refl _
    | with_reducible assumption
    | with_reducible apply State.dispatch_keeps

theorem State.admitItem_keeps {b₀ : State} (s : State) (st : Stage) (obj n rows attended : Nat) (h₀ : Keeps b₀ s) : Keeps b₀ (State.admitItem s st obj n rows attended) := by
  unfold State.admitItem
  repeat' first
    | with_reducible exact Keeps.refl _
    | with_reducible assumption
    | dsimp only
    | with_reducible apply State.dispatch_keeps
    | with_reducible apply State.updFlank_keeps
    | intro _
    | split

theorem State.frogAll_keeps {b₀ : State} (s : State) (ks : List (Stage × Nat)) (cause : Nat) (h₀ : Keeps b₀ s) : Keeps b₀ (State.frogAll s ks cause) := by
  unfold State.frogAll
  repeat' first
    | with_reducible exact Keeps.refl _
    | with_reducible assumption
    | dsimp only
    | with_reducible apply State.frog_keeps
    | with_reducible apply Keeps.foldl
    | intro _

theorem State.abortTask_keeps {b₀ : State} (s : State) (f cause : Nat) (h₀ : Keeps b₀ s) : Keeps b₀ (State.abortTask s f cause) := by
  unfold State.abortTask
  repeat' first
    | with_reducible exact Keeps.refl _
    | with_reducible assumption
    | simp only [putOps_fold]
    | dsimp only
    | with_reducible apply State.tileStops_keeps
    | with_reducible apply State.updFlank_keeps
    | with_reducible apply State.frogAll_keeps
    | with_reducible apply State.leaveTask_keeps
    | with_reducible apply Keeps.ops
    | with_reducible apply Keeps.foldl
    | with_reducible apply Keeps.foldlFst
    | intro _
    | split

theorem State.ownerRecovers_keeps {b₀ : State} (s : State) (k : OpKind) (part cause : Nat) (h₀ : Keeps b₀ s) : Keeps b₀ (State.ownerRecovers s k part cause) := by
  unfold State.ownerRecovers
  repeat' first
    | with_reducible exact Keeps.refl _
    | with_reducible assumption
    | simp only [putLoads_fold]
    | dsimp only
    | with_reducible apply State.newOp_keeps
    | with_reducible apply State.newOpDue_keeps
    | with_reducible apply State.frogAll_keeps
    | with_reducible apply State.abortTask_keeps
    | with_reducible apply State.setSect_keeps
    | with_reducible apply State.beginCommit_keeps
    | with_reducible apply State.startCommit_keeps
    | with_reducible apply Keeps.loads
    | intro _
    | split

theorem State.abortOpAs_keeps {b₀ : State} (s : State) (id : Nat) (i : FaultInfo) (cause : Nat) (h₀ : Keeps b₀ s) : Keeps b₀ (State.abortOpAs s id i cause) := by
  unfold State.abortOpAs
  repeat' first
    | with_reducible exact Keeps.refl _
    | with_reducible assumption
    | simp only [putOps_fold]
    | dsimp only
    | with_reducible apply State.updFeeder_keeps
    | with_reducible apply State.journalWrite_keeps
    | with_reducible apply State.dropRequests_keeps
    | with_reducible apply State.reapOps_keeps
    | with_reducible apply State.ownerRecovers_keeps
    | with_reducible apply Keeps.ops
    | intro _
    | split

theorem State.abortOp_keeps {b₀ : State} (s : State) (id : Nat) (i : FaultInfo) (h₀ : Keeps b₀ s) : Keeps b₀ (State.abortOp s id i) := by
  unfold State.abortOp
  repeat' first
    | with_reducible exact Keeps.refl _
    | with_reducible assumption
    | with_reducible apply State.dispatchAll_keeps
    | with_reducible apply State.abortOpAs_keeps

theorem State.afterCastOuts_keeps {b₀ : State} (s : State) (h₀ : Keeps b₀ s) : Keeps b₀ (State.afterCastOuts s) := by
  unfold State.afterCastOuts
  repeat' first
    | with_reducible exact Keeps.refl _
    | with_reducible assumption
    | dsimp only
    | with_reducible apply State.releaseSlot_keeps
    | with_reducible apply Keeps.foldl
    | with_reducible apply Keeps.foldlFst
    | intro _

theorem State.freeRoom_keeps {b₀ : State} (f i : Nat) (need : List (Stage × Nat)) : ∀ (vs : List (Nat × Nat)) (s : State), Keeps b₀ s →
    Keeps b₀ (s.freeRoom f i need vs)
  | [], _, h₀ => h₀
  | v :: vs, s, h₀ => by
    unfold State.freeRoom
    split
    · exact h₀
    · split
      · exact State.freeRoom_keeps f i need vs _ (State.castOut_keeps _ _ _ h₀)
      · exact State.freeRoom_keeps f i need vs _ h₀

theorem State.holdToQuota_keeps {b₀ : State} (s : State) (f n : Nat) (x0 : List Nat) (h₀ : Keeps b₀ s) : Keeps b₀ (State.holdToQuota s f n x0) := by
  induction x0 generalizing s f n with
  | nil =>
    unfold State.holdToQuota
    exact h₀
  | cons y ys ih =>
    unfold State.holdToQuota
    repeat' first
      | with_reducible exact Keeps.refl _
      | with_reducible assumption
      | dsimp only
      | with_reducible apply ih
      | with_reducible apply State.afterCastOuts_keeps
      | with_reducible apply State.castOut_keeps
      | split

theorem State.startLoads_keeps {b₀ : State} (s : State) (i due : Nat) (ks : List (Stage × Nat)) (h₀ : Keeps b₀ s) : Keeps b₀ (State.startLoads s i due ks) := by
  unfold State.startLoads
  repeat' first
    | with_reducible exact Keeps.refl _
    | with_reducible assumption
    | dsimp only
    | with_reducible apply State.updStream_keeps
    | with_reducible apply State.newOpDue_keeps
    | with_reducible apply Keeps.foldl
    | with_reducible apply Keeps.foldlFst
    | intro _
    | split

theorem State.makeRoom_keeps {b₀ : State} (s : State) (i : Nat) (ks : List (Stage × Nat)) (h₀ : Keeps b₀ s) : Keeps b₀ (State.makeRoom s i ks) := by
  unfold State.makeRoom
  repeat' first
    | with_reducible exact Keeps.refl _
    | with_reducible assumption
    | dsimp only
    | with_reducible apply State.afterCastOuts_keeps
    | with_reducible apply State.freeRoom_keeps
    | with_reducible refine State.giveSlots_keeps _ _ (by assumption) ?_
    | with_reducible apply Keeps.foldl
    | with_reducible apply Keeps.foldlFst
    | intro _
    | split

theorem State.takeSlots_keeps {b₀ : State} (s : State) (i : Nat) (h₀ : Keeps b₀ s) : Keeps b₀ (State.takeSlots s i).2 := by
  unfold State.takeSlots
  repeat' first
    | with_reducible exact Keeps.refl _
    | with_reducible assumption
    | dsimp only
    | with_reducible apply State.afterCastOuts_keeps
    | with_reducible apply State.startLoads_keeps
    | with_reducible apply State.makeRoom_keeps
    | with_reducible refine State.giveSlots_keeps _ _ (by assumption) ?_
    | intro _
    | split

theorem State.serveSlots_keeps {b₀ : State} (s : State) (stop : State → Nat → Bool) (held : List Nat) (x0 : List Nat) (h₀ : Keeps b₀ s) : Keeps b₀ (State.serveSlots s stop held x0) := by
  induction x0 generalizing s stop held with
  | nil =>
    unfold State.serveSlots
    exact h₀
  | cons y ys ih =>
    unfold State.serveSlots
    repeat' first
      | with_reducible exact Keeps.refl _
      | with_reducible assumption
      | dsimp only
      | with_reducible apply ih
      | with_reducible apply State.takeSlots_keeps
      | split

theorem State.castInStart_keeps {b₀ : State} (s : State) (f : Nat) (h₀ : Keeps b₀ s) : Keeps b₀ (State.castInStart s f) := by
  unfold State.castInStart
  repeat' first
    | with_reducible exact Keeps.refl _
    | with_reducible assumption
    | dsimp only
    | with_reducible apply State.serveSlots_keeps
    | intro _
    | split

theorem State.serveRestores_keeps {b₀ : State} (s : State) (h₀ : Keeps b₀ s) : Keeps b₀ (State.serveRestores s) := by
  unfold State.serveRestores
  repeat' first
    | with_reducible exact Keeps.refl _
    | with_reducible assumption
    | dsimp only
    | with_reducible apply State.serveSlots_keeps
    | intro _
    | split

theorem State.endLoads_keeps {b₀ : State} (s : State) (i : Nat) (h₀ : Keeps b₀ s) : Keeps b₀ (State.endLoads s i) := by
  unfold State.endLoads
  repeat' first
    | with_reducible exact Keeps.refl _
    | with_reducible assumption
    | dsimp only
    | with_reducible apply State.endOps_keeps

theorem State.castInDone_keeps {b₀ : State} (s : State) (i : Nat) (h₀ : Keeps b₀ s) : Keeps b₀ (State.castInDone s i) := by
  unfold State.castInDone
  repeat' first
    | with_reducible exact Keeps.refl _
    | with_reducible assumption
    | dsimp only
    | with_reducible apply State.dispatchAll_keeps
    | with_reducible apply State.updStream_keeps
    | with_reducible apply State.endLoads_keeps
    | with_reducible apply State.postStream_keeps
    | with_reducible apply State.updSect_keeps
    | with_reducible apply State.advance_keeps
    | with_reducible apply Keeps.foldl
    | with_reducible apply Keeps.foldlFst
    | intro _
    | split

theorem State.restoreSect_keeps {b₀ : State} (s : State) (k : Stage × Nat) (h₀ : Keeps b₀ s) : Keeps b₀ (State.restoreSect s k) := by
  unfold State.restoreSect
  repeat' first
    | with_reducible exact Keeps.refl _
    | with_reducible assumption
    | dsimp only
    | with_reducible apply State.truncateDecoders_keeps
    | with_reducible apply State.updSect_keeps
    | intro _
    | split

theorem State.frogRestore_keeps {b₀ : State} (s : State) (i : Nat) (h₀ : Keeps b₀ s) : Keeps b₀ (State.frogRestore s i) := by
  unfold State.frogRestore
  repeat' first
    | with_reducible exact Keeps.refl _
    | with_reducible assumption
    | dsimp only
    | with_reducible apply State.dispatchAll_keeps
    | with_reducible apply State.updStream_keeps
    | with_reducible apply State.endLoads_keeps
    | with_reducible apply State.restoreSect_keeps
    | with_reducible apply State.updSect_keeps
    | with_reducible apply State.frog_keeps
    | with_reducible apply State.advance_keeps
    | with_reducible apply Keeps.foldl
    | with_reducible apply Keeps.foldlFst
    | intro _
    | split

theorem State.rebindOne_keeps {b₀ : State} (s : State) (g : Nat) (b : Binding) (h₀ : Keeps b₀ s) : Keeps b₀ (State.rebindOne s g b).1 := by
  unfold State.rebindOne
  repeat' first
    | with_reducible exact Keeps.refl _
    | with_reducible assumption
    | dsimp only
    | with_reducible apply State.updBinding_keeps
    | with_reducible apply State.layoutCheck_keeps
    | with_reducible apply State.updFlank_keeps
    | intro _
    | split

theorem State.rebindAll_keeps {b₀ : State} (g : Nat) : ∀ (bs : List Binding) (a : State × Nat), Keeps b₀ a.1 →
    Keeps b₀ (bs.foldl (fun (acc : State × Nat) b => let r := acc.1.rebindOne g b; (r.1, acc.2 + r.2 + 1)) a).1
  | [], _, h₀ => h₀
  | b :: bs, a, h₀ => State.rebindAll_keeps g bs _ (State.rebindOne_keeps a.1 g b h₀)

theorem State.rebind_keeps {b₀ : State} (s : State) (f : Nat) (h₀ : Keeps b₀ s) : Keeps b₀ (State.rebind s f).1 := by
  unfold State.rebind
  split
  · exact h₀
  · rename_i g _
    dsimp only
    split
    · exact h₀
    · have h := State.rebindAll_keeps g (s.flank f).bindings (s.frogAll (s.sectsOnFlank f) 5, 0) (State.frogAll_keeps _ _ _ h₀)
      exact Keeps.pipes (State.updFlank_keeps _ _ _ (State.updFlank_keeps _ _ _ h)) (fun h => Table.wf_mapVals h _)

theorem State.rebindWaiting_keeps {b₀ : State} (s : State) (h₀ : Keeps b₀ s) : Keeps b₀ (State.rebindWaiting s) := by
  unfold State.rebindWaiting
  repeat' first
    | with_reducible exact Keeps.refl _
    | with_reducible assumption
    | dsimp only
    | with_reducible apply State.rebind_keeps
    | with_reducible apply State.outOfService_keeps
    | with_reducible apply Keeps.foldl
    | intro _
    | split

end Sys2Proof.Machine
end

