-- ==== Sys2Proof/Laws/KeepsFabric.lean ====
section
/-!
SUPPORT. Laws/KeepsFabric.lean: that the fabric and the repair of flanks keep the queue and the invariant. One lemma per operation.
-/
namespace Sys2Proof.Machine

open Sys2Proof.Safety

theorem State.setRoute_keeps {b₀ : State} (s : State) (e : Nat) (r : Route) (h₀ : Keeps b₀ s) : Keeps b₀ (State.setRoute s e r) := by
  unfold State.setRoute
  repeat' first
    | with_reducible exact Keeps.refl _
    | with_reducible assumption
    | simp only [putFabric_fold]
    | dsimp only
    | with_reducible apply Keeps.fabric
    | with_reducible exact fun h => Table.wf_set h _ _
    | with_reducible exact id

theorem State.rebuildGroup_keeps {b₀ : State} (s : State) (f : Nat) (h₀ : Keeps b₀ s) : Keeps b₀ (State.rebuildGroup s f) := by
  unfold State.rebuildGroup
  repeat' first
    | with_reducible exact Keeps.refl _
    | with_reducible assumption
    | simp only [putFabric_fold]
    | dsimp only
    | with_reducible apply Keeps.fabric
    | with_reducible exact fun h => Table.wf_set h _ _
    | with_reducible exact id

theorem State.initRoutes_keeps {b₀ : State} (s : State) (h₀ : Keeps b₀ s) : Keeps b₀ (State.initRoutes s) := by
  unfold State.initRoutes
  repeat' first
    | with_reducible exact Keeps.refl _
    | with_reducible assumption
    | dsimp only
    | with_reducible apply State.setRoute_keeps
    | with_reducible apply State.rebuildGroup_keeps
    | with_reducible exact fun h => Table.sorted_set h _ _
    | with_reducible apply Keeps.foldl
    | intro _
    | split

theorem State.sendCtl_keeps {b₀ : State} (s : State) (kind src dst value : Nat) (h₀ : Keeps b₀ s) : Keeps b₀ (State.sendCtl s kind src dst value) := by
  unfold State.sendCtl
  repeat' first
    | with_reducible exact Keeps.refl _
    | with_reducible assumption
    | simp only [putFabric_fold]
    | dsimp only
    | with_reducible apply Keeps.fabric
    | with_reducible exact id

theorem State.enqueue_keeps {b₀ : State} (s : State) (key detours : Nat) (st : Stitch) (h₀ : Keeps b₀ s) : Keeps b₀ (State.enqueue s key detours st) := by
  unfold State.enqueue
  repeat' first
    | with_reducible exact Keeps.refl _
    | with_reducible assumption
    | dsimp only
    | with_reducible apply State.updLink_keeps

theorem State.unreachableTo_keeps {b₀ : State} (s : State) (st : Stitch) (h₀ : Keeps b₀ s) : Keeps b₀ (State.unreachableTo s st) := by
  unfold State.unreachableTo
  repeat' first
    | with_reducible exact Keeps.refl _
    | with_reducible assumption
    | with_reducible apply State.sendCtl_keeps

theorem State.detour_keeps {b₀ : State} (s : State) (t detours : Nat) (blocked : List Nat) (st : Stitch) (h₀ : Keeps b₀ s) : Keeps b₀ (State.detour s t detours blocked st) := by
  unfold State.detour
  repeat' first
    | with_reducible exact Keeps.refl _
    | with_reducible assumption
    | dsimp only
    | with_reducible apply State.updLink_keeps
    | with_reducible apply State.enqueue_keeps
    | with_reducible apply State.unreachableTo_keeps
    | intro _
    | split

theorem State.forward_keeps {b₀ : State} (s : State) (t detours : Nat) (st : Stitch) (h₀ : Keeps b₀ s) : Keeps b₀ (State.forward s t detours st) := by
  unfold State.forward
  repeat' first
    | with_reducible exact Keeps.refl _
    | with_reducible assumption
    | dsimp only
    | with_reducible apply drawFree_keeps
    | with_reducible apply State.updLink_keeps
    | with_reducible apply State.enqueue_keeps
    | with_reducible apply State.unreachableTo_keeps
    | with_reducible apply State.detour_keeps
    | with_reducible apply Keeps.foldl
    | intro _
    | split

theorem State.credit_keeps {b₀ : State} (s : State) (src dst : Nat) (h₀ : Keeps b₀ s) : Keeps b₀ (State.credit s src dst) := by
  unfold State.credit
  repeat' first
    | with_reducible exact Keeps.refl _
    | with_reducible assumption
    | dsimp only
    | with_reducible apply State.updNetif_keeps
    | with_reducible apply State.sendCtl_keeps
    | intro _
    | split

theorem State.bindContext_keeps {b₀ : State} (s : State) (src dst e : Nat) (h₀ : Keeps b₀ s) : Keeps b₀ (State.bindContext s src dst e) := by
  unfold State.bindContext
  repeat' first
    | with_reducible exact Keeps.refl _
    | with_reducible assumption
    | dsimp only
    | with_reducible apply State.updNetif_keeps
    | with_reducible apply State.credit_keeps

theorem State.reclaimAt_keeps {b₀ : State} (s : State) (dst : Nat) (h₀ : Keeps b₀ s) : Keeps b₀ (State.reclaimAt s dst) := by
  unfold State.reclaimAt
  repeat' first
    | with_reducible exact Keeps.refl _
    | with_reducible assumption
    | dsimp only
    | with_reducible apply State.sendCtl_keeps
    | with_reducible apply State.updNetif_keeps
    | with_reducible apply Keeps.foldl
    | with_reducible apply Keeps.foldlFst
    | intro _
    | split

theorem State.openAt_keeps {b₀ : State} (s : State) (src dst e : Nat) (h₀ : Keeps b₀ s) : Keeps b₀ (State.openAt s src dst e) := by
  unfold State.openAt
  repeat' first
    | with_reducible exact Keeps.refl _
    | with_reducible assumption
    | dsimp only
    | with_reducible apply State.credit_keeps
    | with_reducible apply State.bindContext_keeps
    | with_reducible apply State.reclaimAt_keeps
    | with_reducible apply State.updNetif_keeps
    | intro _
    | split

theorem State.serveOpen_keeps {b₀ : State} (s : State) (dst : Nat) (h₀ : Keeps b₀ s) : Keeps b₀ (State.serveOpen s dst) := by
  unfold State.serveOpen
  repeat' first
    | with_reducible exact Keeps.refl _
    | with_reducible assumption
    | dsimp only
    | with_reducible apply State.updNetif_keeps
    | with_reducible apply State.bindContext_keeps
    | intro _
    | split

theorem State.serveOpens_keeps {b₀ : State} (s : State) (h₀ : Keeps b₀ s) : Keeps b₀ (State.serveOpens s) := by
  unfold State.serveOpens
  repeat' first
    | with_reducible exact Keeps.refl _
    | with_reducible assumption
    | dsimp only
    | with_reducible apply State.reclaimAt_keeps
    | with_reducible apply State.serveOpen_keeps
    | with_reducible apply Keeps.foldl
    | with_reducible apply Keeps.foldlFst
    | intro _
    | split

theorem State.dropContext_keeps {b₀ : State} (s : State) (src dst : Nat) (h₀ : Keeps b₀ s) : Keeps b₀ (State.dropContext s src dst) := by
  unfold State.dropContext
  repeat' first
    | with_reducible exact Keeps.refl _
    | with_reducible assumption
    | dsimp only
    | with_reducible apply State.serveOpen_keeps
    | with_reducible apply State.updNetif_keeps
    | with_reducible apply State.updWindow_keeps
    | intro _

theorem State.deliverReady_keeps {b₀ : State} (src dst : Nat) : ∀ (n : Nat) (s : State), Keeps b₀ s → Keeps b₀ (s.deliverReady src dst n)
  | 0, _, h₀ => h₀
  | n + 1, s, h₀ => by
    unfold State.deliverReady
    dsimp only
    repeat' first
      | exact h₀
      | with_reducible apply State.deliverReady_keeps src dst n
      | with_reducible apply State.credit_keeps
      | with_reducible apply State.updNetif_keeps
      | split

theorem State.arriveAt_keeps {b₀ : State} (s : State) (e : Nat) (st : Stitch) (h₀ : Keeps b₀ s) : Keeps b₀ (State.arriveAt s e st) := by
  unfold State.arriveAt
  repeat' first
    | with_reducible exact Keeps.refl _
    | with_reducible assumption
    | dsimp only
    | with_reducible apply State.updNetif_keeps
    | with_reducible apply State.deliverReady_keeps
    | intro _
    | split

theorem State.retiredArrival_keeps {b₀ : State} (s : State) (e : Nat) (st : Stitch) (h₀ : Keeps b₀ s) : Keeps b₀ (State.retiredArrival s e st) := by
  unfold State.retiredArrival
  repeat' first
    | with_reducible exact Keeps.refl _
    | with_reducible assumption
    | dsimp only
    | with_reducible apply State.updNetif_keeps
    | with_reducible apply State.arriveAt_keeps

theorem State.creditArrives_keeps {b₀ : State} (s : State) (src dst value : Nat) (h₀ : Keeps b₀ s) : Keeps b₀ (State.creditArrives s src dst value) := by
  unfold State.creditArrives
  repeat' first
    | with_reducible exact Keeps.refl _
    | with_reducible assumption
    | dsimp only
    | with_reducible apply State.updFlank_keeps
    | with_reducible apply State.updFeeder_keeps
    | with_reducible apply State.updNetif_keeps
    | with_reducible apply State.updWindow_keeps
    | with_reducible apply step_keeps
    | with_reducible apply Keeps.foldl
    | with_reducible apply Keeps.foldlFst
    | intro _
    | split

theorem State.giveUp_keeps {b₀ : State} (s : State) (src dst : Nat) (h₀ : Keeps b₀ s) : Keeps b₀ (State.giveUp s src dst) := by
  unfold State.giveUp
  repeat' first
    | with_reducible exact Keeps.refl _
    | with_reducible assumption
    | dsimp only
    | with_reducible apply State.updNetif_keeps
    | with_reducible apply State.abortOp_keeps
    | with_reducible apply State.dropContext_keeps
    | with_reducible apply Keeps.foldl
    | intro _

theorem State.inject_keeps {b₀ : State} (s : State) (src dst op n : Nat) (h₀ : Keeps b₀ s) : Keeps b₀ (State.inject s src dst op n) := by
  unfold State.inject
  repeat' first
    | with_reducible exact Keeps.refl _
    | with_reducible assumption
    | dsimp only
    | with_reducible apply State.updWindow_keeps
    | intro _
    | split

theorem State.sendMessage_keeps {b₀ : State} (s : State) (src dst op cls kind tag n : Nat) (content : Nat) (h₀ : Keeps b₀ s) : Keeps b₀ (State.sendMessage s src dst op cls kind tag n content) := by
  unfold State.sendMessage
  repeat' first
    | with_reducible exact Keeps.refl _
    | with_reducible assumption
    | dsimp only
    | with_reducible apply State.enqueue_keeps
    | with_reducible apply State.inject_keeps
    | with_reducible apply State.payload_keeps
    | with_reducible apply State.updNetif_keeps
    | with_reducible apply Keeps.foldl
    | with_reducible apply Keeps.foldlFst
    | intro _
    | split

theorem State.windowWaits_keeps {b₀ : State} (s : State) (src dst : Nat) (h₀ : Keeps b₀ s) : Keeps b₀ (State.windowWaits s src dst) := by
  unfold State.windowWaits
  repeat' first
    | with_reducible exact Keeps.refl _
    | with_reducible assumption
    | dsimp only
    | with_reducible apply State.updWindow_keeps
    | intro _

theorem State.linkRecord_keeps {b₀ : State} (s : State) (t p : Nat) (h₀ : Keeps b₀ s) : Keeps b₀ (State.linkRecord s t p) := by
  unfold State.linkRecord
  repeat' first
    | with_reducible exact Keeps.refl _
    | with_reducible assumption
    | dsimp only
    | with_reducible apply State.postAll_keeps
    | with_reducible apply State.journalWrite_keeps

theorem State.agentCut_keeps {b₀ : State} (s : State) (e : Nat) (h₀ : Keeps b₀ s) : Keeps b₀ (State.agentCut s e) := by
  unfold State.agentCut
  repeat' first
    | with_reducible exact Keeps.refl _
    | with_reducible assumption
    | dsimp only
    | with_reducible apply State.updFlank_keeps
    | with_reducible apply State.degradedFault_keeps
    | with_reducible apply State.fatalFault_keeps
    | with_reducible apply State.dispatchAll_keeps
    | with_reducible apply State.abortOpAs_keeps
    | with_reducible apply State.rebind_keeps
    | with_reducible apply State.outOfService_keeps
    | intro _
    | split

theorem State.linkDown_keeps {b₀ : State} (s : State) (t p : Nat) (h₀ : Keeps b₀ s) : Keeps b₀ (State.linkDown s t p) := by
  unfold State.linkDown
  repeat' first
    | with_reducible exact Keeps.refl _
    | with_reducible assumption
    | dsimp only
    | with_reducible apply State.enqueue_keeps
    | with_reducible apply State.forward_keeps
    | with_reducible apply State.linkRecord_keeps
    | with_reducible apply State.agentCut_keeps
    | with_reducible apply State.updLink_keeps
    | with_reducible apply Keeps.foldl
    | with_reducible apply Keeps.foldlFst
    | intro _
    | split

theorem State.wantContext_keeps {b₀ : State} (s : State) (src dst : Nat) (h₀ : Keeps b₀ s) : Keeps b₀ (State.wantContext s src dst) := by
  unfold State.wantContext
  repeat' first
    | with_reducible exact Keeps.refl _
    | with_reducible assumption
    | dsimp only
    | with_reducible apply State.sendCtl_keeps
    | with_reducible apply State.updWindow_keeps
    | intro _
    | split

theorem State.hopReceive_keeps {b₀ : State} (s : State) (tile port : Nat) (word : HopWord) (h₀ : Keeps b₀ s) :
    Keeps b₀ (State.hopReceive s tile port word) := by
  unfold State.hopReceive
  extract_lets key far injected s0 je s1 errors s2 l s3
  have h0 : Keeps b₀ s0 := by
    show Keeps b₀ (if _ then _ else _)
    split
    · exact h₀
    · exact State.updLink_keeps _ _ _ h₀
  have h1 : Keeps b₀ s1 := by
    show Keeps b₀ (if _ then _ else _)
    split
    · exact h0
    · exact State.journalWrite_keeps _ _ h0
  have h2 : Keeps b₀ s2 := State.updLink_keeps _ _ _ h1
  have h3 : Keeps b₀ s3 := by
    show Keeps b₀ (if _ then _ else _)
    split
    · exact h2
    · exact State.updLink_keeps _ _ _ h2
  repeat' first
    | exact h₀
    | exact h2
    | exact State.updLink_keeps _ _ _ h2
    | exact State.updLink_keeps _ _ _ h3
    | exact State.forward_keeps _ _ _ _ (State.updLink_keeps _ _ _ h3)
    | split

theorem State.nakArrives_keeps {b₀ : State} (s : State) (tile port ackSeq : Nat) (h₀ : Keeps b₀ s) : Keeps b₀ (State.nakArrives s tile port ackSeq) := by
  unfold State.nakArrives
  repeat' first
    | with_reducible exact Keeps.refl _
    | with_reducible assumption
    | dsimp only
    | with_reducible apply State.updLink_keeps

theorem State.hopAckTimeout_keeps {b₀ : State} (s : State) (tile port : Nat) (h₀ : Keeps b₀ s) : Keeps b₀ (State.hopAckTimeout s tile port) := by
  unfold State.hopAckTimeout
  repeat' first
    | with_reducible exact Keeps.refl _
    | with_reducible assumption
    | with_reducible apply State.updLink_keeps

theorem State.linkGiveUp_keeps {b₀ : State} (s : State) (tile port : Nat) (h₀ : Keeps b₀ s) : Keeps b₀ (State.linkGiveUp s tile port) := by
  unfold State.linkGiveUp
  repeat' first
    | with_reducible exact Keeps.refl _
    | with_reducible assumption
    | with_reducible apply State.linkDown_keeps
    | split

theorem State.sidebandLimit_keeps {b₀ : State} (s : State) (tile port : Nat) (h₀ : Keeps b₀ s) : Keeps b₀ (State.sidebandLimit s tile port) := by
  unfold State.sidebandLimit
  repeat' first
    | with_reducible exact Keeps.refl _
    | with_reducible assumption
    | with_reducible apply State.linkDown_keeps
    | split

theorem State.stitchArrives_keeps {b₀ : State} (s : State) (endpoint : Nat) (st : Stitch) (h₀ : Keeps b₀ s) : Keeps b₀ (State.stitchArrives s endpoint st) := by
  unfold State.stitchArrives
  repeat' first
    | with_reducible exact Keeps.refl _
    | with_reducible assumption
    | with_reducible apply State.arriveAt_keeps
    | with_reducible apply State.retiredArrival_keeps
    | split

theorem State.creditReceived_keeps {b₀ : State} (s : State) (src dst value : Nat) (multicast : Bool) (h₀ : Keeps b₀ s) : Keeps b₀ (State.creditReceived s src dst value multicast) := by
  unfold State.creditReceived
  repeat' first
    | with_reducible exact Keeps.refl _
    | with_reducible assumption
    | dsimp only
    | with_reducible apply State.updNetif_keeps
    | with_reducible apply State.creditArrives_keeps
    | intro _
    | split

theorem State.creditTimer_keeps {b₀ : State} (s : State) (src dst : Nat) (h₀ : Keeps b₀ s) : Keeps b₀ (State.creditTimer s src dst) := by
  unfold State.creditTimer
  repeat' first
    | with_reducible exact Keeps.refl _
    | with_reducible assumption
    | dsimp only
    | with_reducible apply State.credit_keeps
    | intro _
    | split

theorem State.openReceived_keeps {b₀ : State} (s : State) (src dst : Nat) (h₀ : Keeps b₀ s) : Keeps b₀ (State.openReceived s src dst) := by
  unfold State.openReceived
  repeat' first
    | with_reducible exact Keeps.refl _
    | with_reducible assumption
    | with_reducible apply State.openAt_keeps

theorem State.closeReceived_keeps {b₀ : State} (s : State) (src dst : Nat) (h₀ : Keeps b₀ s) : Keeps b₀ (State.closeReceived s src dst) := by
  unfold State.closeReceived
  repeat' first
    | with_reducible exact Keeps.refl _
    | with_reducible assumption
    | dsimp only
    | with_reducible apply State.updWindow_keeps
    | with_reducible apply State.sendCtl_keeps
    | intro _
    | split

theorem State.closeAckReceived_keeps {b₀ : State} (s : State) (src dst : Nat) (h₀ : Keeps b₀ s) : Keeps b₀ (State.closeAckReceived s src dst) := by
  unfold State.closeAckReceived
  repeat' first
    | with_reducible exact Keeps.refl _
    | with_reducible assumption
    | dsimp only
    | with_reducible apply State.updNetif_keeps
    | with_reducible apply State.serveOpen_keeps
    | intro _
    | split

theorem State.probeReceived_keeps {b₀ : State} (s : State) (src dst : Nat) (h₀ : Keeps b₀ s) : Keeps b₀ (State.probeReceived s src dst) := by
  unfold State.probeReceived
  repeat' first
    | with_reducible exact Keeps.refl _
    | with_reducible assumption
    | with_reducible apply State.credit_keeps

theorem State.probeTimer_keeps {b₀ : State} (s : State) (src dst : Nat) (h₀ : Keeps b₀ s) : Keeps b₀ (State.probeTimer s src dst) := by
  unfold State.probeTimer
  repeat' first
    | with_reducible exact Keeps.refl _
    | with_reducible assumption
    | dsimp only
    | with_reducible apply State.sendCtl_keeps
    | with_reducible apply State.updNetif_keeps
    | with_reducible apply State.updWindow_keeps
    | intro _
    | split

theorem State.probeGiveUp_keeps {b₀ : State} (s : State) (src dst : Nat) (h₀ : Keeps b₀ s) : Keeps b₀ (State.probeGiveUp s src dst) := by
  unfold State.probeGiveUp
  repeat' first
    | with_reducible exact Keeps.refl _
    | with_reducible assumption
    | dsimp only
    | with_reducible apply State.giveUp_keeps
    | split

theorem State.unreachableReceived_keeps {b₀ : State} (s : State) (src dst sequence : Nat) (h₀ : Keeps b₀ s) : Keeps b₀ (State.unreachableReceived s src dst sequence) := by
  unfold State.unreachableReceived
  repeat' first
    | with_reducible exact Keeps.refl _
    | with_reducible assumption
    | dsimp only
    | with_reducible apply State.updNetif_keeps
    | with_reducible apply State.giveUp_keeps
    | intro _
    | split

theorem State.sendMulticast_keeps {b₀ u : State} (s : State) (k file lo hi tag n content : Nat) (hu : s.sendMulticast k file lo hi tag n content = some u) (h₀ : Keeps b₀ s) :
    Keeps b₀ u := by
  unfold State.sendMulticast at hu
  dsimp only at hu
  split at hu
  · cases hu
  · cases hu
    exact Keeps.foldl (State.updNetif_keeps _ _ _ h₀) (fun v st => State.enqueue_keeps _ _ _ _ (Keeps.refl v))

theorem State.multicastAt_keeps {b₀ : State} (s : State) (tile : Nat) (st : Stitch) (h₀ : Keeps b₀ s) : Keeps b₀ (State.multicastAt s tile st) := by
  unfold State.multicastAt
  repeat' first
    | with_reducible exact Keeps.refl _
    | with_reducible assumption
    | simp only [putFabric_fold]
    | dsimp only
    | with_reducible apply State.updNetif_keeps
    | with_reducible apply State.payload_keeps
    | with_reducible apply State.abortOp_keeps
    | with_reducible apply State.sendCtl_keeps
    | with_reducible apply State.enqueue_keeps
    | with_reducible apply State.unreachableTo_keeps
    | with_reducible apply Keeps.fabric
    | with_reducible exact id
    | intro _
    | split

theorem State.noticeReceived_keeps {b₀ : State} (s : State) (endpoint : Nat) (st : Stitch) (h₀ : Keeps b₀ s) : Keeps b₀ (State.noticeReceived s endpoint st) := by
  unfold State.noticeReceived
  repeat' first
    | with_reducible exact Keeps.refl _
    | with_reducible assumption
    | with_reducible apply State.arriveAt_keeps
    | with_reducible apply State.retiredArrival_keeps
    | split

theorem State.flankReset_keeps {b₀ : State} (s : State) (f : Nat) (h₀ : Keeps b₀ s) : Keeps b₀ (State.flankReset s f) := by
  unfold State.flankReset
  repeat' first
    | with_reducible exact Keeps.refl _
    | with_reducible assumption
    | simp only [putOps_fold, putBarriers_fold]
    | dsimp only
    | with_reducible apply State.updTile_keeps
    | with_reducible apply State.clearHolder_keeps
    | with_reducible apply State.dropRequests_keeps
    | with_reducible apply State.abortTask_keeps
    | with_reducible apply Keeps.ops
    | with_reducible apply Keeps.barriers
    | with_reducible exact fun h => Table.wf_clear h _
    | with_reducible exact id
    | with_reducible apply Keeps.foldl
    | intro _
    | split

theorem State.retire_keeps {b₀ : State} (s : State) (t : Nat) (injected : Bool) (h₀ : Keeps b₀ s) : Keeps b₀ (State.retire s t injected) := by
  unfold State.retire
  repeat' first
    | with_reducible exact Keeps.refl _
    | with_reducible assumption
    | simp only [putOps_fold]
    | dsimp only
    | with_reducible apply State.journalWrite_keeps
    | with_reducible apply State.updFlank_keeps
    | with_reducible apply State.updTile_keeps
    | with_reducible apply State.moveTile_keeps
    | with_reducible apply State.stallEnds_keeps
    | with_reducible apply State.frogAll_keeps
    | with_reducible apply State.abortTask_keeps
    | with_reducible apply State.updSect_keeps
    | with_reducible apply State.dropRequests_keeps
    | with_reducible apply State.frog_keeps
    | with_reducible apply Keeps.ops
    | with_reducible apply Keeps.foldl
    | with_reducible apply Keeps.foldlFst
    | intro _
    | split

theorem State.postRetired_keeps {b₀ : State} (s : State) (f : Nat) (r : Retire) (h₀ : Keeps b₀ s) : Keeps b₀ (State.postRetired s f r) := by
  unfold State.postRetired
  repeat' first
    | with_reducible exact Keeps.refl _
    | with_reducible assumption
    | dsimp only
    | with_reducible apply State.post_keeps
    | with_reducible apply Keeps.foldl
    | with_reducible apply Keeps.foldlFst
    | intro _

theorem State.reportRetires_keeps {b₀ : State} (s : State) (h₀ : Keeps b₀ s) : Keeps b₀ (State.reportRetires s) := by
  unfold State.reportRetires
  repeat' first
    | with_reducible exact Keeps.refl _
    | with_reducible assumption
    | dsimp only
    | with_reducible apply State.updFlank_keeps
    | with_reducible apply State.postRetired_keeps
    | with_reducible apply State.selfTest_keeps
    | with_reducible apply Keeps.foldl
    | intro _
    | split

theorem State.noteRepair_keeps {b₀ : State} (s : State) (f t spare moved : Nat) (h₀ : Keeps b₀ s) : Keeps b₀ (State.noteRepair s f t spare moved) := by
  unfold State.noteRepair
  repeat' first
    | with_reducible exact Keeps.refl _
    | with_reducible assumption
    | dsimp only
    | with_reducible apply State.updFlank_keeps
    | with_reducible apply State.outOfService_keeps
    | intro _
    | split

theorem State.outOfService_keeps {b₀ : State} (s : State) (f t : Nat) (h₀ : Keeps b₀ s) : Keeps b₀ (State.outOfService s f t) := by
  unfold State.outOfService
  repeat' first
    | with_reducible exact Keeps.refl _
    | with_reducible assumption
    | dsimp only
    | with_reducible apply State.updFlank_keeps
    | with_reducible apply State.dispatchAll_keeps
    | with_reducible apply State.rebind_keeps
    | with_reducible apply State.noteRepair_keeps

theorem State.reslice_keeps {b₀ : State} (s : State) (f n : Nat) (h₀ : Keeps b₀ s) : Keeps b₀ (State.reslice s f n).1 := by
  unfold State.reslice
  repeat' first
    | with_reducible exact Keeps.refl _
    | with_reducible assumption
    | dsimp only
    | with_reducible apply State.updFlank_keeps

theorem State.drained_keeps {b₀ : State} (s : State) (f t logical : Nat) (h₀ : Keeps b₀ s) : Keeps b₀ (State.drained s f t logical) := by
  unfold State.drained
  repeat' first
    | with_reducible exact Keeps.refl _
    | with_reducible assumption
    | dsimp only
    | with_reducible apply State.setRoute_keeps
    | with_reducible apply State.rebuildGroup_keeps
    | with_reducible apply State.updFlank_keeps
    | with_reducible apply State.updTile_keeps
    | with_reducible apply State.moveTile_keeps
    | with_reducible apply State.clearHolder_keeps
    | with_reducible apply State.flankReset_keeps
    | with_reducible apply State.outOfService_keeps
    | with_reducible apply Keeps.foldl
    | with_reducible apply Keeps.foldlFst
    | intro _
    | split

theorem State.repairDone_keeps {b₀ : State} (s : State) (f : Nat) (h₀ : Keeps b₀ s) : Keeps b₀ (State.repairDone s f) := by
  unfold State.repairDone
  repeat' first
    | with_reducible exact Keeps.refl _
    | with_reducible assumption
    | dsimp only
    | with_reducible apply State.updFlank_keeps
    | with_reducible apply State.outOfService_keeps
    | intro _
    | split

theorem State.resumeFlank_keeps {b₀ : State} (s : State) (f : Nat) (h₀ : Keeps b₀ s) : Keeps b₀ (State.resumeFlank s f) := by
  unfold State.resumeFlank
  repeat' first
    | with_reducible exact Keeps.refl _
    | with_reducible assumption
    | dsimp only
    | with_reducible apply State.dispatchAll_keeps
    | with_reducible apply State.updFlank_keeps
    | with_reducible apply State.rebindWaiting_keeps
    | with_reducible apply State.outOfService_keeps
    | intro _
    | split

theorem State.serveRepairs_keeps {b₀ : State} (s : State) (h₀ : Keeps b₀ s) : Keeps b₀ (State.serveRepairs s) := by
  unfold State.serveRepairs
  repeat' first
    | with_reducible exact Keeps.refl _
    | with_reducible assumption
    | dsimp only
    | with_reducible apply State.serveRestores_keeps
    | with_reducible apply State.resumeFlank_keeps

theorem State.drainComplete_keeps {b₀ : State} (s : State) (f : Nat) (h₀ : Keeps b₀ s) : Keeps b₀ (State.drainComplete s f) := by
  unfold State.drainComplete
  repeat' first
    | with_reducible exact Keeps.refl _
    | with_reducible assumption
    | dsimp only
    | with_reducible apply State.drained_keeps
    | split

theorem State.drainTimeout_keeps {b₀ : State} (s : State) (f : Nat) (h₀ : Keeps b₀ s) : Keeps b₀ (State.drainTimeout s f) := by
  unfold State.drainTimeout
  repeat' first
    | with_reducible exact Keeps.refl _
    | with_reducible assumption
    | dsimp only
    | with_reducible apply State.abortOp_keeps
    | with_reducible apply State.dropContext_keeps
    | with_reducible apply Keeps.foldl
    | intro _
    | split

theorem State.spareLoaded_keeps {b₀ : State} (s : State) (f : Nat) (h₀ : Keeps b₀ s) : Keeps b₀ (State.spareLoaded s f) := by
  unfold State.spareLoaded
  repeat' first
    | with_reducible exact Keeps.refl _
    | with_reducible assumption
    | dsimp only
    | with_reducible apply State.rebuildGroup_keeps
    | with_reducible apply State.moveTile_keeps
    | with_reducible apply State.noteRepair_keeps
    | with_reducible apply State.repairDone_keeps
    | split

theorem State.resliceLoaded_keeps {b₀ : State} (s : State) (f : Nat) (h₀ : Keeps b₀ s) : Keeps b₀ (State.resliceLoaded s f) := by
  unfold State.resliceLoaded
  repeat' first
    | with_reducible exact Keeps.refl _
    | with_reducible assumption
    | dsimp only
    | with_reducible apply State.rebuildGroup_keeps
    | with_reducible apply State.updFlank_keeps
    | with_reducible apply State.moveTile_keeps
    | with_reducible apply State.noteRepair_keeps
    | with_reducible apply State.reslice_keeps
    | with_reducible apply State.repairDone_keeps
    | with_reducible apply Keeps.foldl
    | with_reducible apply Keeps.foldlFst
    | intro _
    | split

theorem State.selfTestRetire_keeps {b₀ : State} (s : State) (f : Nat) (failing : List Nat) (h₀ : Keeps b₀ s) : Keeps b₀ (State.selfTestRetire s f failing) := by
  unfold State.selfTestRetire
  repeat' first
    | with_reducible exact Keeps.refl _
    | with_reducible assumption
    | dsimp only
    | with_reducible apply State.journalWrite_keeps
    | with_reducible apply State.updFlank_keeps
    | with_reducible apply State.updTile_keeps
    | with_reducible apply State.moveTile_keeps
    | with_reducible apply State.outOfService_keeps
    | with_reducible apply Keeps.foldl
    | with_reducible apply Keeps.foldlFst
    | intro _
    | split

theorem State.relayoutStart_keeps {b₀ : State} (s : State) (f : Nat) (h₀ : Keeps b₀ s) : Keeps b₀ (State.relayoutStart s f) := by
  unfold State.relayoutStart
  repeat' first
    | with_reducible exact Keeps.refl _
    | with_reducible assumption
    | dsimp only
    | with_reducible apply State.updFlank_keeps
    | with_reducible apply State.flankReset_keeps
    | intro _
    | split

theorem State.relayoutDone_keeps {b₀ : State} (s : State) (f : Nat) (h₀ : Keeps b₀ s) : Keeps b₀ (State.relayoutDone s f) := by
  unfold State.relayoutDone
  repeat' first
    | with_reducible exact Keeps.refl _
    | with_reducible assumption
    | dsimp only
    | with_reducible apply State.updFlank_keeps
    | with_reducible apply State.layoutCheck_keeps
    | with_reducible apply State.dispatch_keeps
    | intro _
    | split

theorem State.addProduct_keeps {b₀ : State} (s : State) (t id : Nat) (f : NumFormat) (begins : Bool) (y : List (List Int)) (h₀ : Keeps b₀ s) : Keeps b₀ (State.addProduct s t id f begins y) := by
  unfold State.addProduct
  repeat' first
    | with_reducible exact Keeps.refl _
    | with_reducible assumption
    | dsimp only
    | with_reducible apply State.updTile_keeps
    | intro _
    | split

theorem State.blockStep_keeps {b₀ : State} (s : State) (t : Nat) (f : NumFormat) (begins : Bool) (x w first again : List (List Int)) (h₀ : Keeps b₀ s) :
    Keeps b₀ (State.blockStep s t f begins x w first again) := by
  unfold State.blockStep
  repeat' first
    | with_reducible exact Keeps.refl _
    | with_reducible assumption
    | dsimp only
    | with_reducible apply State.addProduct_keeps
    | with_reducible apply State.updTile_keeps
    | with_reducible apply State.journalWrite_keeps
    | with_reducible apply State.retire_keeps
    | intro _
    | split

theorem State.updRun_keeps {b₀ : State} (s : State) (f : Nat) (g : RunTask → RunTask) (h₀ : Keeps b₀ s) : Keeps b₀ (State.updRun s f g) := by
  unfold State.updRun
  repeat' first
    | with_reducible exact Keeps.refl _
    | with_reducible assumption
    | dsimp only
    | with_reducible apply State.updFlank_keeps

theorem State.reloadSlices_keeps {b₀ : State} (s : State) (t : Nat) (h₀ : Keeps b₀ s) : Keeps b₀ (State.reloadSlices s t) := by
  unfold State.reloadSlices
  repeat' first
    | with_reducible exact Keeps.refl _
    | with_reducible assumption
    | dsimp only
    | with_reducible apply State.updFlank_keeps
    | with_reducible apply State.newOpOwing_keeps
    | intro _
    | split

theorem State.badWord_keeps {b₀ : State} (s : State) (t f address : Nat) (w : BadWord) (h₀ : Keeps b₀ s) : Keeps b₀ (State.badWord s t f address w) := by
  unfold State.badWord
  repeat' first
    | with_reducible exact Keeps.refl _
    | with_reducible assumption
    | dsimp only
    | with_reducible apply State.dispatchAll_keeps
    | with_reducible apply State.updTile_keeps
    | with_reducible apply State.frogAll_keeps
    | with_reducible apply State.abortOpAs_keeps
    | with_reducible apply State.reloadSlices_keeps
    | intro _
    | split

theorem State.roundAdvance_keeps {b₀ : State} (s : State) (f : Nat) (h₀ : Keeps b₀ s) : Keeps b₀ (State.roundAdvance s f) := by
  unfold State.roundAdvance
  repeat' first
    | with_reducible exact Keeps.refl _
    | with_reducible assumption
    | dsimp only
    | with_reducible apply State.updRun_keeps
    | with_reducible apply Keeps.foldl
    | with_reducible apply Keeps.foldlFst
    | intro _
    | split

theorem State.useSegment_keeps {b₀ : State} (s : State) (t f : Nat) (r : RunTask) (k : Package) (slice seg rows : Nat) (h₀ : Keeps b₀ s) : Keeps b₀ (State.useSegment s t f r k slice seg rows) := by
  unfold State.useSegment
  repeat' first
    | with_reducible exact Keeps.refl _
    | with_reducible assumption
    | dsimp only
    | with_reducible apply State.updNeedle_keeps
    | with_reducible apply State.updRun_keeps
    | with_reducible apply State.roundAdvance_keeps
    | intro _
    | split

theorem State.readPage_keeps {b₀ : State} (s : State) (t f : Nat) (r : RunTask) (fmt : NumFormat) (queries weights : List (List Nat)) (h₀ : Keeps b₀ s) : Keeps b₀ (State.readPage s t f r fmt queries weights).2 := by
  unfold State.readPage
  repeat' first
    | with_reducible exact Keeps.refl _
    | with_reducible assumption
    | dsimp only
    | with_reducible apply State.finishDrop_keeps
    | with_reducible apply State.owePage_keeps
    | with_reducible apply State.updTile_keeps
    | intro _
    | split

theorem State.attendRow_keeps {b₀ : State} (s : State) (t : Nat) (r : RunTask) (it : Item) (decoder : Bool) (idx row : Nat) (zq : Int) (queries : List (List Nat)) (h₀ : Keeps b₀ s) : Keeps b₀ (State.attendRow s t r it decoder idx row zq queries).2 := by
  unfold State.attendRow
  repeat' first
    | with_reducible exact Keeps.refl _
    | with_reducible assumption
    | dsimp only
    | with_reducible apply State.updTile_keeps
    | intro _
    | split

theorem State.vecOut_keeps {b₀ : State} (s : State) (t : Nat) (xs : List Int) (sat : Nat) (h₀ : Keeps b₀ s) : Keeps b₀ (State.vecOut s t xs sat) := by
  unfold State.vecOut
  repeat' first
    | with_reducible exact Keeps.refl _
    | with_reducible assumption
    | dsimp only
    | with_reducible apply State.updTile_keeps
    | intro _

theorem State.scanGroup_keeps {b₀ : State} (s : State) (t : Nat) (r : RunTask) (it : Item) (k : Package) (layer group : Nat) (steps context : List (List LaneStep)) (h₀ : Keeps b₀ s) : Keeps b₀ (State.scanGroup s t r it k layer group steps context).2 := by
  unfold State.scanGroup
  repeat' first
    | with_reducible exact Keeps.refl _
    | with_reducible assumption
    | dsimp only
    | with_reducible apply State.vecOut_keeps
    | with_reducible apply State.updSect_keeps
    | intro _
    | split

theorem State.channelState_keeps {b₀ : State} (s : State) (t : Nat) (r : RunTask) (it : Item) (k : Package) (layer index acc param : Nat) (input : GammaSource) (h₀ : Keeps b₀ s) : Keeps b₀ (State.channelState s t r it k layer index acc param input).2 := by
  unfold State.channelState
  repeat' first
    | with_reducible exact Keeps.refl _
    | with_reducible assumption
    | dsimp only
    | with_reducible apply State.updTile_keeps
    | with_reducible apply State.updSect_keeps
    | intro _
    | split

theorem State.requantOne_keeps {b₀ : State} (s : State) (t f : Nat) (r : RunTask) (k : Package) (acc param : Nat) (input : GammaSource) (track : Option (Nat × Nat)) (h₀ : Keeps b₀ s) : Keeps b₀ (State.requantOne s t f r k acc param input track) := by
  unfold State.requantOne
  repeat' first
    | with_reducible exact Keeps.refl _
    | with_reducible assumption
    | dsimp only
    | with_reducible apply State.updTile_keeps
    | with_reducible apply State.updRun_keeps
    | intro _
    | split

theorem State.storeCodes_keeps {b₀ : State} (s : State) (t : Nat) (fmt : NumFormat) (offset : Nat) (h₀ : Keeps b₀ s) : Keeps b₀ (State.storeCodes s t fmt offset) := by
  unfold State.storeCodes
  repeat' first
    | with_reducible exact Keeps.refl _
    | with_reducible assumption
    | dsimp only
    | with_reducible apply State.storeWrite_keeps
    | with_reducible apply State.updTile_keeps
    | intro _
    | split

theorem State.loadCodes_keeps {b₀ : State} (s : State) (t : Nat) (fmt : NumFormat) (offset count : Nat) (h₀ : Keeps b₀ s) : Keeps b₀ (State.loadCodes s t fmt offset count) := by
  unfold State.loadCodes
  repeat' first
    | with_reducible exact Keeps.refl _
    | with_reducible assumption
    | dsimp only
    | with_reducible apply State.updTile_keeps
    | intro _
    | split

theorem State.commitToken_keeps {b₀ : State} (s : State) (r : RunTask) (it : Item) (id : Nat) (rows : List (List Nat)) (h₀ : Keeps b₀ s) : Keeps b₀ (State.commitToken s r it id rows).2 := by
  unfold State.commitToken
  repeat' first
    | with_reducible exact Keeps.refl _
    | with_reducible assumption
    | dsimp only
    | with_reducible apply State.updBranch_keeps
    | with_reducible apply State.appendToken_keeps
    | with_reducible apply State.updSect_keeps
    | with_reducible refine Keeps.snd (by assumption) ?_
    | intro _
    | split

theorem State.appendRowsOf_keeps {b₀ : State} (s : State) (r : RunTask) (it : Item) (a : KvAppend) (h₀ : Keeps b₀ s) : Keeps b₀ (State.appendRowsOf s r it a).2 := by
  unfold State.appendRowsOf
  repeat' first
    | with_reducible exact Keeps.refl _
    | with_reducible assumption
    | dsimp only
    | with_reducible apply State.appendEncoder_keeps
    | with_reducible refine Keeps.snd (by assumption) ?_
    | split

theorem State.declareNeedle_keeps {b₀ : State} (s : State) (t pair base size : Nat) (outbound : Bool) (h₀ : Keeps b₀ s) : Keeps b₀ (State.declareNeedle s t pair base size outbound) := by
  unfold State.declareNeedle
  repeat' first
    | with_reducible exact Keeps.refl _
    | with_reducible assumption
    | dsimp only
    | with_reducible apply State.updTile_keeps
    | intro _
    | split

theorem State.armBarrier_keeps {b₀ : State} (s : State) (f index expect : Nat) (output : Bool) (owing : List Party) (h₀ : Keeps b₀ s) : Keeps b₀ (State.armBarrier s f index expect output owing) := by
  unfold State.armBarrier
  repeat' first
    | with_reducible exact Keeps.refl _
    | with_reducible assumption
    | dsimp only
    | with_reducible apply State.updBarrier_keeps
    | with_reducible apply State.updRun_keeps
    | intro _
    | split

theorem State.tileRefused_keeps {b₀ : State} (s : State) (t : Nat) (r : RunTask) (dst : Nat) (h₀ : Keeps b₀ s) : Keeps b₀ (State.tileRefused s t r dst) := by
  unfold State.tileRefused
  repeat' first
    | with_reducible exact Keeps.refl _
    | with_reducible assumption
    | dsimp only
    | with_reducible apply State.updNetif_keeps
    | with_reducible apply State.abortOp_keeps
    | intro _

theorem State.tileSend_keeps {b₀ : State} (s : State) (t : Nat) (r : RunTask) (dst cls kind n : Nat) (h₀ : Keeps b₀ s) : Keeps b₀ (State.tileSend s t r dst cls kind n).2 := by
  unfold State.tileSend
  repeat' first
    | with_reducible exact Keeps.refl _
    | with_reducible assumption
    | dsimp only
    | with_reducible apply State.sendMessage_keeps
    | with_reducible apply State.windowWaits_keeps
    | with_reducible apply State.wantContext_keeps
    | with_reducible apply State.tileRefused_keeps
    | split

theorem State.tileOp_keeps {b₀ : State} (s : State) (t f : Nat) (r : RunTask) (k : Package) (op : TileOp) (h₀ : Keeps b₀ s) : Keeps b₀ (State.tileOp s t f r k op).2 := by
  unfold State.tileOp
  repeat' first
    | with_reducible exact Keeps.refl _
    | with_reducible assumption
    | dsimp only
    | with_reducible apply State.complete_keeps
    | with_reducible apply State.updBarrier_keeps
    | with_reducible apply State.updTile_keeps
    | with_reducible apply State.badWord_keeps
    | with_reducible apply State.useSegment_keeps
    | with_reducible apply State.readPage_keeps
    | with_reducible apply State.attendRow_keeps
    | with_reducible apply State.vecOut_keeps
    | with_reducible apply State.scanGroup_keeps
    | with_reducible apply State.channelState_keeps
    | with_reducible apply State.requantOne_keeps
    | with_reducible apply State.storeCodes_keeps
    | with_reducible apply State.loadCodes_keeps
    | with_reducible apply State.commitToken_keeps
    | with_reducible apply State.appendRowsOf_keeps
    | with_reducible apply State.declareNeedle_keeps
    | with_reducible apply State.armBarrier_keeps
    | with_reducible apply State.tileRefused_keeps
    | with_reducible apply State.tileSend_keeps
    | with_reducible apply State.updSect_keeps
    | intro _
    | split

theorem State.programWaits_keeps {b₀ : State} (s : State) (t f : Nat) (r : RunTask) (op : TileOp) (c : Stall) (h₀ : Keeps b₀ s) : Keeps b₀ (State.programWaits s t f r op c) := by
  unfold State.programWaits
  repeat' first
    | with_reducible exact Keeps.refl _
    | with_reducible assumption
    | dsimp only
    | with_reducible apply State.stalls_keeps
    | with_reducible apply State.updRun_keeps
    | intro _
    | split

theorem State.tileWork_keeps {b₀ : State} (t f : Nat) : ∀ (ops : List TileOp) (s : State), Keeps b₀ s → Keeps b₀ (s.tileWork t f ops)
  | [], _, h₀ => by unfold State.tileWork; exact h₀
  | op :: rest, s, h₀ => by
    unfold State.tileWork
    split
    · exact h₀
    · split
      · exact h₀
      · rename_i r _ _ k _
        have h := State.tileOp_keeps (s.updTile t (fun x => x.forTask r.id)) t f r k op (State.updTile_keeps _ _ _ h₀)
        split
        · exact State.programWaits_keeps _ _ _ _ _ _ (Keeps.snd (by assumption) h)
        · have hu := Keeps.snd (by assumption) h
          refine State.tileWork_keeps t f rest _ (State.stallEnds_keeps _ _ ?_)
          split
          · exact State.updRun_keeps _ _ _ hu
          · exact hu

theorem State.chunkState_keeps {b₀ : State} (s : State) (r : RunTask) (it : Item) (h₀ : Keeps b₀ s) : Keeps b₀ (State.chunkState s r it) := by
  unfold State.chunkState
  repeat' first
    | with_reducible exact Keeps.refl _
    | with_reducible assumption
    | dsimp only
    | with_reducible apply State.updSect_keeps
    | intro _
    | split

theorem State.handOn_keeps {b₀ : State} (s : State) (it : Item) (res : ItemResult) (h₀ : Keeps b₀ s) : Keeps b₀ (State.handOn s it res) := by
  unfold State.handOn
  repeat' first
    | with_reducible exact Keeps.refl _
    | with_reducible assumption
    | dsimp only
    | with_reducible apply State.updStream_keeps
    | with_reducible apply State.leaveHorizon_keeps
    | with_reducible apply State.publishEncoder_keeps
    | with_reducible apply State.pushTr_keeps
    | with_reducible apply State.pushSp_keeps
    | with_reducible apply State.pushEg_keeps
    | with_reducible apply Keeps.foldl
    | with_reducible apply Keeps.foldlFst
    | intro _
    | split

theorem State.itemEnd_keeps {b₀ : State} (s : State) (r : RunTask) (results : List ItemResult) (it : Item) (h₀ : Keeps b₀ s) : Keeps b₀ (State.itemEnd s r results it) := by
  unfold State.itemEnd
  repeat' first
    | with_reducible exact Keeps.refl _
    | with_reducible assumption
    | dsimp only
    | with_reducible apply State.updStream_keeps
    | with_reducible apply State.chunkState_keeps
    | with_reducible apply State.handOn_keeps
    | with_reducible apply State.updSect_keeps
    | with_reducible apply State.chunkDone_keeps
    | intro _
    | split

theorem State.taskEnd_keeps {b₀ : State} (s : State) (f : Nat) (result : TaskResult) (h₀ : Keeps b₀ s) : Keeps b₀ (State.taskEnd s f result) := by
  unfold State.taskEnd
  repeat' first
    | with_reducible exact Keeps.refl _
    | with_reducible assumption
    | dsimp only
    | with_reducible apply State.updBinding_keeps
    | with_reducible apply State.tileStops_keeps
    | with_reducible apply State.dispatchAll_keeps
    | with_reducible apply State.updFlank_keeps
    | with_reducible apply State.endOps_keeps
    | with_reducible apply State.roundAdvance_keeps
    | with_reducible apply State.itemEnd_keeps
    | with_reducible apply State.leaveTask_keeps
    | with_reducible apply State.advance_keeps
    | with_reducible apply Keeps.foldl
    | with_reducible apply Keeps.foldlFst
    | intro _
    | split

theorem State.taskWatchdog_keeps {b₀ : State} (s : State) (f : Nat) (h₀ : Keeps b₀ s) : Keeps b₀ (State.taskWatchdog s f) := by
  unfold State.taskWatchdog
  repeat' first
    | with_reducible exact Keeps.refl _
    | with_reducible assumption
    | dsimp only
    | with_reducible apply State.updFlank_keeps
    | with_reducible apply State.journalWrite_keeps
    | with_reducible apply State.fatalFault_keeps
    | with_reducible apply State.dispatchAll_keeps
    | with_reducible apply State.abortOpAs_keeps
    | with_reducible apply State.flankReset_keeps
    | intro _
    | split

end Sys2Proof.Machine
end

