-- ==== Sys2Proof/Laws/KeepsFeeders.lean ====
section
/-!
SUPPORT. Laws/KeepsFeeders.lean: that the feeders, the memory controllers and the page cache keep the queue and the invariant. One lemma per operation.
-/
namespace Sys2Proof.Machine

open Sys2Proof.Safety

theorem State.arriveBarrier_keeps {b₀ : State} (s : State) (f index op : Nat) (who : Party) (feeder : Nat) (h₀ : Keeps b₀ s) : Keeps b₀ (State.arriveBarrier s f index op who feeder) := by
  unfold State.arriveBarrier
  repeat' first
    | with_reducible exact Keeps.refl _
    | with_reducible assumption
    | dsimp only
    | with_reducible apply State.updBarrier_keeps
    | with_reducible apply State.abortOp_keeps
    | intro _
    | split

theorem State.stalemateCheck_keeps {b₀ : State} (s : State) (f index : Nat) (h₀ : Keeps b₀ s) : Keeps b₀ (State.stalemateCheck s f index) := by
  unfold State.stalemateCheck
  repeat' first
    | with_reducible exact Keeps.refl _
    | with_reducible assumption
    | simp only [putBarriers_fold]
    | dsimp only
    | with_reducible apply State.updFeeder_keeps
    | with_reducible apply State.updBarrier_keeps
    | with_reducible apply State.postFault_keeps
    | with_reducible apply State.dispatchAll_keeps
    | with_reducible apply State.abortOpAs_keeps
    | with_reducible apply Keeps.barriers
    | with_reducible exact fun h => Table.wf_clear h _
    | with_reducible exact id
    | with_reducible apply Keeps.foldl
    | intro _
    | split

theorem State.writeRing_keeps {b₀ : State} (r : FRing) : ∀ (ds : List Nat) (i : Nat) (s : State), Keeps b₀ s → Keeps b₀ (s.writeRing r i ds)
  | [], _, _, h₀ => by unfold State.writeRing; exact h₀
  | d :: ds, i, s, h₀ => by
    unfold State.writeRing
    exact State.writeRing_keeps r ds (i + 1) _ (State.memWrite_keeps _ _ _ _ h₀)

theorem State.updRing_keeps {b₀ : State} (s : State) (f r : Nat) (g : FRing → FRing) (h₀ : Keeps b₀ s) : Keeps b₀ (State.updRing s f r g) := by
  unfold State.updRing
  repeat' first
    | with_reducible exact Keeps.refl _
    | with_reducible assumption
    | dsimp only
    | with_reducible apply State.updFeeder_keeps

theorem State.ringDoorbell_keeps {b₀ : State} (s : State) (f r tail deadline : Nat) (descs : List Nat) (h₀ : Keeps b₀ s) : Keeps b₀ (State.ringDoorbell s f r tail deadline descs) := by
  unfold State.ringDoorbell
  repeat' first
    | with_reducible exact Keeps.refl _
    | with_reducible assumption
    | dsimp only
    | with_reducible apply State.writeRing_keeps
    | with_reducible apply State.updRing_keeps
    | intro _
    | split

theorem State.servedAt_keeps {b₀ : State} (s : State) (c f : Nat) (h₀ : Keeps b₀ s) : Keeps b₀ (State.servedAt s c f) := by
  unfold State.servedAt
  repeat' first
    | with_reducible exact Keeps.refl _
    | with_reducible assumption
    | dsimp only
    | with_reducible apply State.updChannel_keeps
    | intro _

theorem State.ringBurstLost_keeps {b₀ : State} (s : State) (f burst kind : Nat) (h₀ : Keeps b₀ s) : Keeps b₀ (State.ringBurstLost s f burst kind) := by
  unfold State.ringBurstLost
  repeat' first
    | with_reducible exact Keeps.refl _
    | with_reducible assumption
    | simp only [putOps_fold]
    | dsimp only
    | with_reducible apply State.journalWrite_keeps
    | with_reducible apply State.memWrite_keeps
    | with_reducible apply State.dropRequests_keeps
    | with_reducible apply State.reapOps_keeps
    | with_reducible apply State.dispatchAll_keeps
    | with_reducible apply State.ownerRecovers_keeps
    | with_reducible apply Keeps.ops
    | intro _
    | split

theorem State.fetchSkein_keeps {b₀ : State} (s : State) (f r : Nat) (h₀ : Keeps b₀ s) : Keeps b₀ (State.fetchSkein s f r) := by
  unfold State.fetchSkein
  repeat' first
    | with_reducible exact Keeps.refl _
    | with_reducible assumption
    | dsimp only
    | with_reducible apply State.updRing_keeps
    | with_reducible apply State.servedAt_keeps
    | with_reducible apply State.ringBurstLost_keeps
    | with_reducible apply Keeps.foldl
    | with_reducible apply Keeps.foldlFst
    | intro _
    | split

theorem State.swapNeedle_keeps {b₀ : State} (s : State) (t p : Nat) (h₀ : Keeps b₀ s) : Keeps b₀ (State.swapNeedle s t p) := by
  unfold State.swapNeedle
  repeat' first
    | with_reducible exact Keeps.refl _
    | with_reducible assumption
    | dsimp only
    | with_reducible apply State.updNeedle_keeps
    | with_reducible apply State.stallEnds_keeps
    | with_reducible apply State.stalls_keeps
    | intro _
    | split

theorem State.pendingSwap_keeps {b₀ : State} (s : State) (t p : Nat) (h₀ : Keeps b₀ s) : Keeps b₀ (State.pendingSwap s t p) := by
  unfold State.pendingSwap
  repeat' first
    | with_reducible exact Keeps.refl _
    | with_reducible assumption
    | dsimp only
    | with_reducible apply State.swapNeedle_keeps
    | split

theorem State.countDesc_keeps {b₀ : State} (s : State) (d : Desc) (h₀ : Keeps b₀ s) : Keeps b₀ (State.countDesc s d) := by
  unfold State.countDesc
  repeat' first
    | with_reducible exact Keeps.refl _
    | with_reducible assumption
    | simp only [putOps_fold]
    | dsimp only
    | with_reducible apply Keeps.ops
    | intro _
    | split

theorem State.pageArrived_keeps {b₀ : State} (s : State) (d : Desc) (h₀ : Keeps b₀ s) : Keeps b₀ (State.pageArrived s d) := by
  unfold State.pageArrived
  repeat' first
    | with_reducible exact Keeps.refl _
    | with_reducible assumption
    | dsimp only
    | with_reducible apply State.finishDrop_keeps
    | with_reducible apply State.updTile_keeps
    | intro _
    | split

theorem State.descDone_keeps {b₀ : State} (s : State) (f : Nat) (p : Progress) (h₀ : Keeps b₀ s) : Keeps b₀ (State.descDone s f p) := by
  unfold State.descDone
  repeat' first
    | with_reducible exact Keeps.refl _
    | with_reducible assumption
    | dsimp only
    | with_reducible apply State.arriveBarrier_keeps
    | with_reducible apply State.pendingSwap_keeps
    | with_reducible apply State.countDesc_keeps
    | with_reducible apply State.pageArrived_keeps
    | with_reducible apply State.updNeedle_keeps
    | with_reducible apply State.progressGone_keeps
    | with_reducible apply State.updFeeder_keeps
    | with_reducible apply State.reapOps_keeps
    | intro _
    | split

theorem State.transferFault_keeps {b₀ : State} (s : State) (f : Nat) (d : Desc) (prog : Nat) (i : FaultInfo) (h₀ : Keeps b₀ s) : Keeps b₀ (State.transferFault s f d prog i) := by
  unfold State.transferFault
  repeat' first
    | with_reducible exact Keeps.refl _
    | with_reducible assumption
    | dsimp only
    | with_reducible apply State.sweepDropped_keeps
    | with_reducible apply State.updFeeder_keeps
    | with_reducible apply State.journalWrite_keeps
    | with_reducible apply State.abortOp_keeps
    | intro _
    | split

theorem State.startDesc_keeps {b₀ : State} (s : State) (f : Nat) (h₀ : Keeps b₀ s) : Keeps b₀ (State.startDesc s f) := by
  unfold State.startDesc
  repeat' first
    | with_reducible exact Keeps.refl _
    | with_reducible assumption
    | dsimp only
    | with_reducible apply State.updRing_keeps
    | with_reducible apply State.descDone_keeps
    | with_reducible apply State.transferFault_keeps
    | with_reducible apply State.updNeedle_keeps
    | with_reducible apply State.updFeeder_keeps
    | with_reducible apply State.reapOps_keeps
    | intro _
    | split

theorem State.addRequest_keeps {b₀ : State} (s : State) (f : Nat) (p : Progress) (r : Request) (h₀ : Keeps b₀ s) : Keeps b₀ (State.addRequest s f p r) := by
  unfold State.addRequest
  repeat' first
    | with_reducible exact Keeps.refl _
    | with_reducible assumption
    | dsimp only
    | with_reducible apply State.updFeeder_keeps

theorem State.hostRefused_keeps {b₀ : State} (s : State) (f : Nat) (p : Progress) (w : Nat) (write : Bool) (r : ApertureCheck) (h₀ : Keeps b₀ s) : Keeps b₀ (State.hostRefused s f p w write r) := by
  unfold State.hostRefused
  repeat' first
    | with_reducible exact Keeps.refl _
    | with_reducible assumption
    | dsimp only
    | with_reducible apply State.violate_keeps
    | with_reducible apply State.transferFault_keeps

theorem State.issueRequest_keeps {b₀ : State} (s : State) (f : Nat) (h₀ : Keeps b₀ s) : Keeps b₀ (State.issueRequest s f) := by
  unfold State.issueRequest
  repeat' first
    | with_reducible exact Keeps.refl _
    | with_reducible assumption
    | dsimp only
    | with_reducible apply State.sendMessage_keeps
    | with_reducible apply State.windowWaits_keeps
    | with_reducible apply State.wantContext_keeps
    | with_reducible apply State.transferFault_keeps
    | with_reducible apply State.addRequest_keeps
    | with_reducible apply State.hostRefused_keeps
    | with_reducible apply State.updPort_keeps
    | with_reducible apply State.updFeeder_keeps
    | with_reducible apply State.updNetif_keeps
    | intro _
    | split

theorem State.updRequest_keeps {b₀ : State} (s : State) (f tag : Nat) (g : Request → Request) (h₀ : Keeps b₀ s) : Keeps b₀ (State.updRequest s f tag g) := by
  unfold State.updRequest
  repeat' first
    | with_reducible exact Keeps.refl _
    | with_reducible assumption
    | dsimp only
    | with_reducible apply State.updFeeder_keeps

theorem State.returnTag_keeps {b₀ : State} (s : State) (f : Nat) (r : Request) (h₀ : Keeps b₀ s) : Keeps b₀ (State.returnTag s f r) := by
  unfold State.returnTag
  repeat' first
    | with_reducible exact Keeps.refl _
    | with_reducible assumption
    | dsimp only
    | with_reducible apply State.descDone_keeps
    | with_reducible apply State.updFeeder_keeps
    | with_reducible apply State.reapOps_keeps
    | intro _
    | split

theorem State.landData_keeps {b₀ : State} (s : State) (d : Desc) (half : Option Bool) (r : Request) (h₀ : Keeps b₀ s) : Keeps b₀ (State.landData s d half r) := by
  unfold State.landData
  repeat' first
    | with_reducible exact Keeps.refl _
    | with_reducible assumption
    | dsimp only
    | with_reducible apply State.updPort_keeps
    | with_reducible apply State.storeWrite_keeps
    | with_reducible apply Keeps.foldl
    | intro _
    | split

theorem State.dataArrives_keeps {b₀ : State} (s : State) (f tag : Nat) (h₀ : Keeps b₀ s) : Keeps b₀ (State.dataArrives s f tag) := by
  unfold State.dataArrives
  repeat' first
    | with_reducible exact Keeps.refl _
    | with_reducible assumption
    | dsimp only
    | with_reducible apply State.sendMessage_keeps
    | with_reducible apply State.updRequest_keeps
    | with_reducible apply State.returnTag_keeps
    | with_reducible apply State.landData_keeps
    | with_reducible apply State.updFeeder_keeps
    | intro _
    | split

theorem State.tagDone_keeps {b₀ : State} (s : State) (f tag : Nat) (h₀ : Keeps b₀ s) : Keeps b₀ (State.tagDone s f tag) := by
  unfold State.tagDone
  repeat' first
    | with_reducible exact Keeps.refl _
    | with_reducible assumption
    | dsimp only
    | with_reducible apply State.updFeeder_keeps
    | with_reducible apply State.returnTag_keeps
    | with_reducible apply State.landData_keeps
    | intro _
    | split

theorem State.memTimeout_keeps {b₀ : State} (s : State) (f tag : Nat) (h₀ : Keeps b₀ s) : Keeps b₀ (State.memTimeout s f tag) := by
  unfold State.memTimeout
  repeat' first
    | with_reducible exact Keeps.refl _
    | with_reducible assumption
    | dsimp only
    | with_reducible apply State.updFeeder_keeps
    | with_reducible apply State.transferFault_keeps
    | with_reducible apply State.updRequest_keeps
    | intro _
    | split

theorem State.requestFailed_keeps {b₀ : State} (s : State) (f tag : Nat) (h₀ : Keeps b₀ s) : Keeps b₀ (State.requestFailed s f tag) := by
  unfold State.requestFailed
  repeat' first
    | with_reducible exact Keeps.refl _
    | with_reducible assumption
    | dsimp only
    | with_reducible apply State.updRequest_keeps

theorem State.requestFault_keeps {b₀ : State} (s : State) (f : Nat) (r : Request) (i : FaultInfo) (h₀ : Keeps b₀ s) : Keeps b₀ (State.requestFault s f r i) := by
  unfold State.requestFault
  repeat' first
    | with_reducible exact Keeps.refl _
    | with_reducible assumption
    | dsimp only
    | with_reducible apply State.transferFault_keeps
    | split

theorem State.guardRefuses_keeps {b₀ : State} (s : State) (f : Nat) (r : Request) (h₀ : Keeps b₀ s) : Keeps b₀ (State.guardRefuses s f r) := by
  unfold State.guardRefuses
  repeat' first
    | with_reducible exact Keeps.refl _
    | with_reducible assumption
    | dsimp only
    | with_reducible apply State.violate_keeps
    | with_reducible apply State.journalWrite_keeps
    | with_reducible apply State.countRefusal_keeps
    | with_reducible apply State.requestFailed_keeps
    | with_reducible apply State.requestFault_keeps
    | intro _
    | split

theorem State.fwBurst_keeps {b₀ : State} (s : State) (burst kind : Nat) (h₀ : Keeps b₀ s) : Keeps b₀ (State.fwBurst s burst kind) := by
  unfold State.fwBurst
  repeat' first
    | with_reducible exact Keeps.refl _
    | with_reducible assumption
    | dsimp only
    | with_reducible apply State.journalWrite_keeps
    | with_reducible apply State.fatalFault_keeps
    | with_reducible apply State.memWrite_keeps
    | with_reducible apply State.ringBurstLost_keeps
    | split

theorem State.scrubBad_keeps {b₀ : State} (s : State) (b : Nat) (h₀ : Keeps b₀ s) : Keeps b₀ (State.scrubBad s b) := by
  unfold State.scrubBad
  repeat' first
    | with_reducible exact Keeps.refl _
    | with_reducible assumption
    | dsimp only
    | with_reducible apply State.post_keeps
    | with_reducible apply State.postAll_keeps
    | with_reducible apply State.journalWrite_keeps
    | with_reducible apply State.fwBurst_keeps
    | intro _
    | split

theorem State.noteSingle_keeps {b₀ : State} (s : State) (b : Nat) (h₀ : Keeps b₀ s) : Keeps b₀ (State.noteSingle s b) := by
  unfold State.noteSingle
  dsimp only
  split
  · exact State.journalWrite_keeps _ _ (Keeps.memory h₀ ⟨rfl, rfl⟩ (fun h => wf_parts.2 ⟨(wf_parts.1 h).1, Table.wf_set (wf_parts.1 h).2 _ _⟩))
  · exact h₀

theorem State.channelRead_keeps {b₀ : State} (s : State) (x n : Nat) (h₀ : Keeps b₀ s) : Keeps b₀ (State.channelRead s x n).1 := by
  unfold State.channelRead
  repeat' first
    | with_reducible exact Keeps.refl _
    | with_reducible assumption
    | dsimp only
    | with_reducible apply State.updChannel_keeps
    | with_reducible apply State.noteSingle_keeps
    | with_reducible apply Keeps.foldl
    | intro _

theorem State.readFails_keeps {b₀ : State} (s : State) (f : Nat) (r : Request) (bad : Nat) (h₀ : Keeps b₀ s) : Keeps b₀ (State.readFails s f r bad) := by
  unfold State.readFails
  repeat' first
    | with_reducible exact Keeps.refl _
    | with_reducible assumption
    | dsimp only
    | with_reducible apply State.updFeeder_keeps
    | with_reducible apply State.journalWrite_keeps
    | with_reducible apply State.abandonOps_keeps
    | with_reducible apply State.bindOff_keeps
    | with_reducible apply State.lifelineLost_keeps
    | with_reducible apply State.dispatchAll_keeps
    | with_reducible apply State.requestFailed_keeps
    | with_reducible apply State.requestFault_keeps
    | with_reducible apply State.fwBurst_keeps
    | intro _
    | split

theorem State.upset_keeps {b₀ : State} (s : State) (us : List (Nat × Nat)) (h₀ : Keeps b₀ s) : Keeps b₀ (s.upset us) :=
  Keeps.memory h₀ (upset_channels us s.mem) (fun h => wf_upset us h)

theorem State.readRequest_keeps {b₀ : State} (s : State) (f tag : Nat) (upset : List (Nat × Nat)) (h₀ : Keeps b₀ s) :
    Keeps b₀ (State.readRequest s f tag upset) := by
  unfold State.readRequest
  split
  · exact h₀
  · rename_i r _
    have hs := State.servedAt_keeps s (channelOf r.addr) f h₀
    dsimp only
    generalize s.servedAt (channelOf r.addr) f = v at hs
    have hq := State.channelRead_keeps _ r.addr r.bytes (State.upset_keeps v upset hs)
    repeat' first
      | exact h₀
      | exact hs
      | exact State.guardRefuses_keeps _ _ _ hs
      | exact State.readFails_keeps _ _ _ _ hq
      | exact State.updRequest_keeps _ _ _ _ hq
      | exact State.updRequest_keeps _ _ _ _ (State.sendMulticast_keeps _ _ _ _ _ _ _ _ (by assumption) hq)
      | split

theorem State.channelWrote_keeps {b₀ : State} (s : State) (x n : Nat) (h₀ : Keeps b₀ s) : Keeps b₀ (State.channelWrote s x n) := by
  unfold State.channelWrote
  repeat' first
    | with_reducible exact Keeps.refl _
    | with_reducible assumption
    | dsimp only
    | with_reducible apply State.updChannel_keeps

theorem State.writeRequest_keeps {b₀ : State} (s : State) (f tag : Nat) (h₀ : Keeps b₀ s) : Keeps b₀ (State.writeRequest s f tag) := by
  unfold State.writeRequest
  repeat' first
    | with_reducible exact Keeps.refl _
    | with_reducible assumption
    | dsimp only
    | with_reducible apply State.servedAt_keeps
    | with_reducible apply State.updRequest_keeps
    | with_reducible apply State.guardRefuses_keeps
    | with_reducible apply State.channelWrote_keeps
    | with_reducible apply State.memWrite_keeps
    | intro _
    | split

theorem State.zeroRequest_keeps {b₀ : State} (s : State) (f tag : Nat) (h₀ : Keeps b₀ s) : Keeps b₀ (State.zeroRequest s f tag) := by
  unfold State.zeroRequest
  repeat' first
    | with_reducible exact Keeps.refl _
    | with_reducible assumption
    | dsimp only
    | with_reducible apply State.servedAt_keeps
    | with_reducible apply State.updRequest_keeps
    | with_reducible apply State.guardRefuses_keeps
    | with_reducible apply State.channelWrote_keeps
    | with_reducible apply State.memZero_keeps
    | intro _
    | split

theorem State.put16Request_keeps {b₀ : State} (s : State) (f tag : Nat) (upset : List (Nat × Nat)) (h₀ : Keeps b₀ s) :
    Keeps b₀ (State.put16Request s f tag upset) := by
  unfold State.put16Request
  split
  · exact h₀
  · rename_i r _
    have hs := State.servedAt_keeps s (channelOf r.addr) f h₀
    dsimp only
    generalize s.servedAt (channelOf r.addr) f = v at hs
    have hq := State.channelRead_keeps _ (32 * (r.addr / 32)) 32 (State.upset_keeps v upset hs)
    repeat' first
      | exact h₀
      | exact State.guardRefuses_keeps _ _ _ hs
      | exact State.readFails_keeps _ _ _ _ hq
      | exact State.updRequest_keeps _ _ _ _ (State.channelWrote_keeps _ _ _ (State.memWrite_keeps _ _ _ _ (State.memWrite_keeps _ _ _ _ hq)))
      | split

theorem State.scrubWriteBack_keeps {b₀ : State} (s : State) (channel : Nat) (h₀ : Keeps b₀ s) : Keeps b₀ (State.scrubWriteBack s channel) := by
  unfold State.scrubWriteBack
  split
  · exact h₀
  · rename_i b _
    exact State.updChannel_keeps _ _ _ (Keeps.memory h₀ (correct_channels s.mem b) (fun h => wf_correct h b))

theorem scrubReported_keeps {b₀ : State} (s : State) (v : List Nat) (h₀ : Keeps b₀ s) : Keeps b₀ { s with mem := { s.mem with scrubReported := v } } :=
  Keeps.memory h₀ ⟨rfl, rfl⟩ id

theorem State.scrubRead_keeps {b₀ : State} (s : State) (channel : Nat) (upset : List (Nat × Nat)) (h₀ : Keeps b₀ s) :
    Keeps b₀ (State.scrubRead s channel upset) := by
  unfold State.scrubRead
  split
  · exact h₀
  · have ht := State.scrubWriteBack_keeps _ channel (State.upset_keeps s upset h₀)
    dsimp only
    generalize (s.upset upset).scrubWriteBack channel = t at ht
    generalize hb : scrubAddress channel (t.channel channel).scrubPosition / 32 = b
    generalize hn : ((t.channel channel).scrubPosition + 1) % channelBursts = next
    generalize hw : (t.updChannel channel fun c =>
      { c with scrubPosition := next, scrubSlots := bump 64 c.scrubSlots 1, scrubForced := bump 32 c.scrubForced (bit (s.scrubBehind channel)) }) = u
    have hu : Keeps b₀ u := by
      rw [← hw]
      exact State.updChannel_keeps _ _ _ ht
    generalize hx : (if next = 0 then
      ({ u with mem := { u.mem with scrubReported := u.mem.scrubReported.filter (fun (x : Nat) => channelOf (32 * x) != channel) } } : State) else u) = v
    have hv : Keeps b₀ v := by
      rw [← hx]
      split
      · exact scrubReported_keeps _ _ hu
      · exact hu
    repeat' first
      | exact hv
      | exact State.updChannel_keeps _ _ _ (State.noteSingle_keeps _ _ hv)
      | exact State.updChannel_keeps _ _ _ hv
      | exact State.scrubBad_keeps _ _ (scrubReported_keeps _ _ (State.updChannel_keeps _ _ _ hv))
      | split

theorem State.tagBack_keeps {b₀ : State} (s : State) (f tag : Nat) (h₀ : Keeps b₀ s) : Keeps b₀ (State.tagBack s f tag) := by
  unfold State.tagBack
  repeat' first
    | with_reducible exact Keeps.refl _
    | with_reducible assumption
    | dsimp only
    | with_reducible apply State.returnTag_keeps
    | split

theorem State.resetFails_keeps {b₀ : State} (s : State) (channel f : Nat) (r : Request) (h₀ : Keeps b₀ s) : Keeps b₀ (State.resetFails s channel f r) := by
  unfold State.resetFails
  repeat' first
    | with_reducible exact Keeps.refl _
    | with_reducible assumption
    | with_reducible apply State.requestFailed_keeps
    | with_reducible apply State.requestFault_keeps

theorem State.controllerReset_keeps {b₀ : State} (s : State) (channel : Nat) (h₀ : Keeps b₀ s) : Keeps b₀ (State.controllerReset s channel) := by
  unfold State.controllerReset
  repeat' first
    | with_reducible exact Keeps.refl _
    | with_reducible assumption
    | dsimp only
    | with_reducible apply State.updChannel_keeps
    | with_reducible apply State.journalWrite_keeps
    | with_reducible apply State.dispatchAll_keeps
    | with_reducible apply State.tagBack_keeps
    | with_reducible apply State.resetFails_keeps
    | with_reducible apply Keeps.foldl
    | intro _
    | split

theorem State.controllerResetDone_keeps {b₀ : State} (s : State) (channel : Nat) (h₀ : Keeps b₀ s) : Keeps b₀ (State.controllerResetDone s channel) := by
  unfold State.controllerResetDone
  repeat' first
    | with_reducible exact Keeps.refl _
    | with_reducible assumption
    | dsimp only
    | with_reducible apply State.updFlank_keeps
    | with_reducible apply State.updChannel_keeps
    | with_reducible apply Keeps.foldl
    | intro _
    | split

theorem State.refreshForced_keeps {b₀ : State} (s : State) (channel : Nat) (h₀ : Keeps b₀ s) : Keeps b₀ (State.refreshForced s channel) := by
  unfold State.refreshForced
  repeat' first
    | with_reducible exact Keeps.refl _
    | with_reducible assumption
    | dsimp only
    | with_reducible apply State.updChannel_keeps
    | intro _
    | split

theorem State.perBankRefresh_keeps {b₀ : State} (s : State) (channel : Nat) (h₀ : Keeps b₀ s) : Keeps b₀ (State.perBankRefresh s channel) := by
  unfold State.perBankRefresh
  repeat' first
    | with_reducible exact Keeps.refl _
    | with_reducible assumption
    | dsimp only
    | with_reducible apply State.updChannel_keeps
    | intro _
    | split

theorem State.stackReadout_keeps {b₀ : State} (s : State) (stack temp : Nat) (h₀ : Keeps b₀ s) : Keeps b₀ (State.stackReadout s stack temp) := by
  unfold State.stackReadout
  split
  · exact Keeps.mem h₀ id id (fun h => Table.wf_set h _ _)
  · exact h₀

theorem State.cacheTake_keeps {b₀ : State} (s : State) (m : CacheMsg) (h₀ : Keeps b₀ s) : Keeps b₀ (State.cacheTake s m) := by
  unfold State.cacheTake
  repeat' first
    | with_reducible exact Keeps.refl _
    | with_reducible assumption
    | simp only [putPages_fold]
    | dsimp only
    | with_reducible apply Keeps.pages
    | with_reducible exact id

theorem State.lookup_keeps {b₀ : State} (s : State) (tile ppn : Nat) (h₀ : Keeps b₀ s) : Keeps b₀ (State.lookup s tile ppn) := by
  unfold State.lookup
  repeat' first
    | with_reducible exact Keeps.refl _
    | with_reducible assumption
    | dsimp only
    | with_reducible apply State.updOwner_keeps
    | with_reducible apply State.setDir_keeps
    | with_reducible apply State.updTile_keeps
    | with_reducible apply State.answerLookup_keeps
    | intro _
    | split

theorem State.holderAnswer_keeps {b₀ : State} (s : State) (tile ppn holder : Nat) (h₀ : Keeps b₀ s) : Keeps b₀ (State.holderAnswer s tile ppn holder) := by
  unfold State.holderAnswer
  repeat' first
    | with_reducible exact Keeps.refl _
    | with_reducible assumption
    | dsimp only
    | with_reducible apply State.updTile_keeps
    | with_reducible apply State.cacheTake_keeps
    | with_reducible apply State.lookup_keeps
    | intro _
    | split

theorem State.takeFrame_keeps {b₀ : State} (s : State) (tile ppn : Nat) (h₀ : Keeps b₀ s) : Keeps b₀ (State.takeFrame s tile ppn) := by
  unfold State.takeFrame
  repeat' first
    | with_reducible exact Keeps.refl _
    | with_reducible assumption
    | dsimp only
    | with_reducible apply State.evict_keeps
    | with_reducible apply State.updTile_keeps
    | with_reducible apply State.cacheSend_keeps
    | intro _
    | split

theorem State.noneAnswer_keeps {b₀ : State} (s : State) (tile ppn : Nat) (h₀ : Keeps b₀ s) : Keeps b₀ (State.noneAnswer s tile ppn) := by
  unfold State.noneAnswer
  repeat' first
    | with_reducible exact Keeps.refl _
    | with_reducible assumption
    | dsimp only
    | with_reducible apply State.cacheTake_keeps
    | with_reducible apply State.lookup_keeps
    | with_reducible apply State.takeFrame_keeps
    | with_reducible apply State.evict_keeps
    | with_reducible apply State.owePage_keeps
    | with_reducible apply State.updTile_keeps
    | with_reducible apply State.cacheSend_keeps
    | intro _
    | split

theorem State.peerRead_keeps {b₀ : State} (s : State) (holder ppn requester : Nat) (h₀ : Keeps b₀ s) : Keeps b₀ (State.peerRead s holder ppn requester) := by
  unfold State.peerRead
  repeat' first
    | with_reducible exact Keeps.refl _
    | with_reducible assumption
    | dsimp only
    | with_reducible apply State.finishDrop_keeps
    | with_reducible apply State.updTile_keeps
    | intro _
    | split

theorem State.evict_keeps {b₀ : State} (s : State) (tile ppn : Nat) (h₀ : Keeps b₀ s) : Keeps b₀ (State.evict s tile ppn) := by
  unfold State.evict
  repeat' first
    | with_reducible exact Keeps.refl _
    | with_reducible assumption
    | dsimp only
    | with_reducible apply State.putDir_keeps
    | with_reducible apply State.holderAnswered_keeps
    | with_reducible apply State.cacheTake_keeps
    | split

theorem State.invalidateAt_keeps {b₀ : State} (s : State) (tile ppn : Nat) (h₀ : Keeps b₀ s) : Keeps b₀ (State.invalidateAt s tile ppn) := by
  unfold State.invalidateAt
  repeat' first
    | with_reducible exact Keeps.refl _
    | with_reducible assumption
    | dsimp only
    | with_reducible apply State.updTile_keeps
    | with_reducible apply State.cacheSend_keeps
    | with_reducible apply State.invalidate_keeps
    | with_reducible apply State.cacheTake_keeps
    | with_reducible apply State.finishDrop_keeps
    | intro _
    | split

theorem State.droppedAnswer_keeps {b₀ : State} (s : State) (tile ppn : Nat) (h₀ : Keeps b₀ s) : Keeps b₀ (State.droppedAnswer s tile ppn) := by
  unfold State.droppedAnswer
  repeat' first
    | with_reducible exact Keeps.refl _
    | with_reducible assumption
    | dsimp only
    | with_reducible apply State.holderAnswered_keeps
    | with_reducible apply State.cacheTake_keeps
    | split

theorem State.notHeldAnswer_keeps {b₀ : State} (s : State) (tile ppn : Nat) (h₀ : Keeps b₀ s) : Keeps b₀ (State.notHeldAnswer s tile ppn) := by
  unfold State.notHeldAnswer
  repeat' first
    | with_reducible exact Keeps.refl _
    | with_reducible assumption
    | dsimp only
    | with_reducible apply State.holderAnswered_keeps
    | with_reducible apply State.cacheTake_keeps
    | with_reducible apply State.updOwner_keeps
    | intro _
    | split

theorem State.sweepStart_keeps {b₀ : State} (s : State) (ppn : Nat) (h₀ : Keeps b₀ s) : Keeps b₀ (State.sweepStart s ppn) := by
  unfold State.sweepStart
  repeat' first
    | with_reducible exact Keeps.refl _
    | with_reducible assumption
    | dsimp only
    | with_reducible apply drawFree_keeps
    | with_reducible apply State.updPart_keeps
    | with_reducible apply State.updPage_keeps
    | with_reducible apply State.updChannel_keeps
    | intro _
    | split

theorem State.sweepComplete_keeps {b₀ : State} (s : State) (ppn : Nat) (h₀ : Keeps b₀ s) : Keeps b₀ (State.sweepComplete s ppn) := by
  unfold State.sweepComplete
  repeat' first
    | with_reducible exact Keeps.refl _
    | with_reducible assumption
    | dsimp only
    | with_reducible apply State.updPart_keeps
    | with_reducible apply State.updPage_keeps
    | with_reducible apply State.memZero_keeps
    | with_reducible apply State.endEpisodes_keeps
    | intro _
    | split

theorem State.renameEntry_keeps {b₀ : State} (s : State) (c : Copy) (h₀ : Keeps b₀ s) : Keeps b₀ (State.renameEntry s c) := by
  unfold State.renameEntry
  repeat' first
    | with_reducible exact Keeps.refl _
    | with_reducible assumption
    | simp only [putPages_fold]
    | dsimp only
    | with_reducible apply Keeps.pages
    | with_reducible exact id
    | intro _
    | split

theorem State.endCopy_keeps {b₀ : State} (s : State) (c : Copy) (h₀ : Keeps b₀ s) : Keeps b₀ (State.endCopy s c) := by
  unfold State.endCopy
  repeat' first
    | with_reducible exact Keeps.refl _
    | with_reducible assumption
    | simp only [putPages_fold]
    | dsimp only
    | with_reducible apply State.endOps_keeps
    | with_reducible apply Keeps.pages
    | with_reducible exact id
    | intro _

theorem State.copyDone_keeps {b₀ : State} (s : State) (ppn : Nat) (h₀ : Keeps b₀ s) : Keeps b₀ (State.copyDone s ppn) := by
  unfold State.copyDone
  repeat' first
    | with_reducible exact Keeps.refl _
    | with_reducible assumption
    | dsimp only
    | with_reducible apply State.renameEntry_keeps
    | with_reducible apply State.endCopy_keeps
    | with_reducible apply State.updOwner_keeps
    | with_reducible apply State.updPage_keeps
    | with_reducible apply State.dropRef_keeps
    | with_reducible apply State.giveEntry_keeps
    | intro _
    | split

end Sys2Proof.Machine
end

