-- ==== Sys2Proof/Laws/KeepsRun.lean ====
section
/-!
SUPPORT. Laws/KeepsRun.lean: that audio, setup, boot and translation keep the queue and the invariant. One lemma per operation.
-/
namespace Sys2Proof.Machine

open Sys2Proof.Safety

theorem State.unmapIn_keeps {b₀ : State} (s : State) (i : Nat) (h₀ : Keeps b₀ s) : Keeps b₀ (State.unmapIn s i) := by
  unfold State.unmapIn
  repeat' first
    | with_reducible exact Keeps.refl _
    | with_reducible assumption
    | simp only [putAudio_fold]
    | dsimp only
    | with_reducible apply Keeps.audio
    | with_reducible exact fun h => Table.wf_mapVals h _
    | with_reducible exact id

theorem State.mapIn_keeps {b₀ : State} (s : State) (i : Nat) (src : Source) (h₀ : Keeps b₀ s) : Keeps b₀ (State.mapIn s i src) := by
  unfold State.mapIn
  repeat' first
    | with_reducible exact Keeps.refl _
    | with_reducible assumption
    | dsimp only
    | with_reducible apply State.updIn_keeps
    | intro _
    | split

theorem State.countIdle_keeps {b₀ : State} (s : State) (t : Nat) (h₀ : Keeps b₀ s) : Keeps b₀ (State.countIdle s t) := by
  unfold State.countIdle
  repeat' first
    | with_reducible exact Keeps.refl _
    | with_reducible assumption
    | dsimp only
    | with_reducible apply State.updTdm_keeps
    | with_reducible apply State.updOut_keeps
    | with_reducible apply Keeps.foldl
    | intro _
    | split

theorem State.mapOut_keeps {b₀ : State} (s : State) (b port slot : Nat) (h₀ : Keeps b₀ s) : Keeps b₀ (State.mapOut s b port slot) := by
  unfold State.mapOut
  repeat' first
    | with_reducible exact Keeps.refl _
    | with_reducible assumption
    | dsimp only
    | with_reducible apply State.updOut_keeps
    | with_reducible apply State.countIdle_keeps

theorem State.unmapOut_keeps {b₀ : State} (s : State) (port slot : Nat) (count : Bool) (h₀ : Keeps b₀ s) : Keeps b₀ (State.unmapOut s port slot count) := by
  unfold State.unmapOut
  repeat' first
    | with_reducible exact Keeps.refl _
    | with_reducible assumption
    | dsimp only
    | with_reducible apply State.updTdm_keeps
    | with_reducible apply State.updOut_keeps
    | with_reducible apply State.countIdle_keeps

theorem State.unmapBranch_keeps {b₀ : State} (s : State) (b : Nat) (h₀ : Keeps b₀ s) : Keeps b₀ (State.unmapBranch s b) := by
  unfold State.unmapBranch
  repeat' first
    | with_reducible exact Keeps.refl _
    | with_reducible assumption
    | dsimp only
    | with_reducible apply State.updBranch_keeps
    | with_reducible apply State.unmapOut_keeps
    | with_reducible apply Keeps.foldl
    | intro _

theorem State.closeFrame_keeps {b₀ : State} (s : State) (i : Nat) (h₀ : Keeps b₀ s) : Keeps b₀ (State.closeFrame s i) := by
  unfold State.closeFrame
  repeat' first
    | with_reducible exact Keeps.refl _
    | with_reducible assumption
    | dsimp only
    | with_reducible apply State.updStream_keeps
    | with_reducible apply State.updTdm_keeps
    | with_reducible apply State.updIn_keeps
    | with_reducible apply State.queueCastIn_keeps
    | intro _
    | split

theorem State.frameClose_keeps {b₀ : State} (s : State) (i : Nat) (h₀ : Keeps b₀ s) : Keeps b₀ (State.frameClose s i) := by
  unfold State.frameClose
  repeat' first
    | with_reducible exact Keeps.refl _
    | with_reducible assumption
    | dsimp only
    | with_reducible apply State.closeFrame_keeps
    | split

theorem State.fillGaps_keeps {b₀ : State} (i : Nat) : ∀ (n : Nat) (s : State), Keeps b₀ s → Keeps b₀ (s.fillGaps i n)
  | 0, _, h₀ => h₀
  | n + 1, s, h₀ => by
    unfold State.fillGaps
    split
    · exact h₀
    · exact State.fillGaps_keeps i n _ (State.closeFrame_keeps _ _ h₀)

theorem State.enterPaused_keeps {b₀ : State} (s : State) (i m : Nat) (h₀ : Keeps b₀ s) : Keeps b₀ (State.enterPaused s i m) := by
  unfold State.enterPaused
  repeat' first
    | with_reducible exact Keeps.refl _
    | with_reducible assumption
    | dsimp only
    | with_reducible apply State.completeKey_keeps
    | with_reducible apply State.updStream_keeps
    | with_reducible apply State.postStream_keeps
    | with_reducible apply State.queueWaiting_keeps
    | intro _
    | split

theorem State.chunkClose_keeps {b₀ : State} (s : State) (i : Nat) (h₀ : Keeps b₀ s) : Keeps b₀ (State.chunkClose s i) := by
  unfold State.chunkClose
  repeat' first
    | with_reducible exact Keeps.refl _
    | with_reducible assumption
    | dsimp only
    | with_reducible apply State.fillGaps_keeps
    | with_reducible apply State.enterPaused_keeps
    | with_reducible apply State.updStream_keeps
    | with_reducible apply State.pushEnc_keeps
    | with_reducible apply State.advance_keeps
    | intro _
    | split

theorem State.conditioned_keeps {b₀ : State} (s : State) (i : Nat) (h₀ : Keeps b₀ s) : Keeps b₀ (State.conditioned s i) := by
  unfold State.conditioned
  repeat' first
    | with_reducible exact Keeps.refl _
    | with_reducible assumption
    | dsimp only
    | with_reducible apply State.updStream_keeps
    | with_reducible apply State.advance_keeps
    | with_reducible apply State.queueCastIn_keeps
    | intro _
    | split

theorem State.inputSwitch_keeps {b₀ : State} (s : State) (i : Nat) (h₀ : Keeps b₀ s) : Keeps b₀ (State.inputSwitch s i) := by
  unfold State.inputSwitch
  repeat' first
    | with_reducible exact Keeps.refl _
    | with_reducible assumption
    | dsimp only
    | with_reducible apply State.unmapIn_keeps
    | with_reducible apply State.mapIn_keeps
    | with_reducible apply State.completeKey_keeps
    | with_reducible apply State.updStream_keeps
    | intro _
    | split

theorem State.playPort_keeps {b₀ : State} (s : State) (t start : Nat) (h₀ : Keeps b₀ s) : Keeps b₀ (State.playPort s t start) := by
  unfold State.playPort
  repeat' first
    | with_reducible exact Keeps.refl _
    | with_reducible assumption
    | dsimp only
    | with_reducible apply State.updTdm_keeps
    | with_reducible apply State.updOut_keeps
    | with_reducible apply Keeps.foldl
    | intro _

theorem State.takeInputs_keeps {b₀ : State} (s : State) (t start : Nat) (words : List Nat) (h₀ : Keeps b₀ s) : Keeps b₀ (State.takeInputs s t start words) := by
  unfold State.takeInputs
  repeat' first
    | with_reducible exact Keeps.refl _
    | with_reducible assumption
    | dsimp only
    | with_reducible apply State.updStream_keeps
    | with_reducible apply Keeps.foldl
    | intro _
    | split

theorem State.gapInputs_keeps {b₀ : State} (s : State) (t : Nat) (h₀ : Keeps b₀ s) : Keeps b₀ (State.gapInputs s t) := by
  unfold State.gapInputs
  repeat' first
    | with_reducible exact Keeps.refl _
    | with_reducible assumption
    | dsimp only
    | with_reducible apply State.updStream_keeps
    | with_reducible apply Keeps.foldl
    | intro _

theorem State.realInputs_keeps {b₀ : State} (s : State) (t : Nat) (h₀ : Keeps b₀ s) : Keeps b₀ (State.realInputs s t) := by
  unfold State.realInputs
  repeat' first
    | with_reducible exact Keeps.refl _
    | with_reducible assumption
    | dsimp only
    | with_reducible apply State.updStream_keeps
    | with_reducible apply Keeps.foldl
    | intro _

theorem State.postTdm_keeps {b₀ : State} (s : State) (t code data : Nat) (h₀ : Keeps b₀ s) : Keeps b₀ (State.postTdm s t code data) := by
  unfold State.postTdm
  repeat' first
    | with_reducible exact Keeps.refl _
    | with_reducible assumption
    | dsimp only
    | with_reducible apply State.post_keeps
    | split

theorem State.tdmRuns_keeps {b₀ : State} (s : State) (t : Nat) (h₀ : Keeps b₀ s) : Keeps b₀ (State.tdmRuns s t) := by
  unfold State.tdmRuns
  repeat' first
    | with_reducible exact Keeps.refl _
    | with_reducible assumption
    | dsimp only
    | with_reducible apply State.updTdm_keeps
    | with_reducible apply State.updOut_keeps
    | with_reducible apply State.realInputs_keeps
    | with_reducible apply State.postTdm_keeps
    | with_reducible apply Keeps.foldl
    | intro _
    | split

theorem State.tdmDown_keeps {b₀ : State} (s : State) (t : Nat) (h₀ : Keeps b₀ s) : Keeps b₀ (State.tdmDown s t) := by
  unfold State.tdmDown
  repeat' first
    | with_reducible exact Keeps.refl _
    | with_reducible assumption
    | dsimp only
    | with_reducible apply State.updTdm_keeps
    | with_reducible apply State.gapInputs_keeps
    | with_reducible apply State.postTdm_keeps

theorem State.sentinel_keeps {b₀ : State} (s : State) (t word : Nat) (h₀ : Keeps b₀ s) : Keeps b₀ (State.sentinel s t word) := by
  unfold State.sentinel
  repeat' first
    | with_reducible exact Keeps.refl _
    | with_reducible assumption
    | dsimp only
    | with_reducible apply State.updTdm_keeps
    | with_reducible apply State.tdmRuns_keeps
    | with_reducible apply State.tdmDown_keeps
    | intro _
    | split

theorem State.tdmFrame_keeps {b₀ : State} (s : State) (t : Nat) (words : List Nat) (h₀ : Keeps b₀ s) : Keeps b₀ (State.tdmFrame s t words) := by
  unfold State.tdmFrame
  repeat' first
    | with_reducible exact Keeps.refl _
    | with_reducible assumption
    | dsimp only
    | with_reducible apply State.playPort_keeps
    | with_reducible apply State.takeInputs_keeps
    | with_reducible apply State.sentinel_keeps
    | intro _
    | split

theorem State.enableEffect_keeps {b₀ : State} (s : State) (t : Nat) (h₀ : Keeps b₀ s) : Keeps b₀ (State.enableEffect s t) := by
  unfold State.enableEffect
  repeat' first
    | with_reducible exact Keeps.refl _
    | with_reducible assumption
    | dsimp only
    | with_reducible apply State.updTdm_keeps
    | with_reducible apply State.updOut_keeps
    | with_reducible apply State.completeKey_keeps
    | with_reducible apply State.countIdle_keeps
    | with_reducible apply State.gapInputs_keeps
    | with_reducible apply State.tdmRuns_keeps
    | with_reducible apply Keeps.foldl
    | intro _
    | split

theorem State.loopEffect_keeps {b₀ : State} (s : State) (t : Nat) (h₀ : Keeps b₀ s) : Keeps b₀ (State.loopEffect s t) := by
  unfold State.loopEffect
  repeat' first
    | with_reducible exact Keeps.refl _
    | with_reducible assumption
    | dsimp only
    | with_reducible apply State.updTdm_keeps
    | with_reducible apply State.completeKey_keeps
    | intro _
    | split

theorem State.chunkStart_keeps {b₀ : State} (s : State) (b : Nat) (h₀ : Keeps b₀ s) : Keeps b₀ (State.chunkStart s b) := by
  unfold State.chunkStart
  repeat' first
    | with_reducible exact Keeps.refl _
    | with_reducible assumption
    | dsimp only
    | with_reducible apply State.updBranch_keeps
    | intro _
    | split

theorem State.signalTimes_keeps {b₀ : State} (s : State) (n v k : Nat) (h₀ : Keeps b₀ s) : Keeps b₀ (State.signalTimes s n v k) := by
  unfold State.signalTimes
  repeat' first
    | with_reducible exact Keeps.refl _
    | with_reducible assumption
    | dsimp only
    | with_reducible apply State.updPort_keeps
    | with_reducible apply Keeps.foldl
    | intro _

theorem State.fetchFrame_keeps {b₀ : State} (s : State) (i : Nat) (h₀ : Keeps b₀ s) : Keeps b₀ (State.fetchFrame s i) := by
  unfold State.fetchFrame
  repeat' first
    | with_reducible exact Keeps.refl _
    | with_reducible assumption
    | dsimp only
    | with_reducible apply State.updPort_keeps
    | with_reducible apply State.updStream_keeps
    | with_reducible apply State.newOp_keeps
    | with_reducible apply Keeps.foldl
    | with_reducible apply Keeps.foldlFst
    | intro _
    | split

theorem State.frameFetched_keeps {b₀ : State} (s : State) (i f field0 : Nat) (samples : List Int) (h₀ : Keeps b₀ s) : Keeps b₀ (State.frameFetched s i f field0 samples) := by
  unfold State.frameFetched
  repeat' first
    | with_reducible exact Keeps.refl _
    | with_reducible assumption
    | dsimp only
    | with_reducible apply State.updPort_keeps
    | with_reducible apply State.updStream_keeps
    | intro _
    | split

theorem State.frameArrives_keeps {b₀ : State} (s : State) (i f first bytes value : Nat) (h₀ : Keeps b₀ s) : Keeps b₀ (State.frameArrives s i f first bytes value) := by
  unfold State.frameArrives
  repeat' first
    | with_reducible exact Keeps.refl _
    | with_reducible assumption
    | dsimp only
    | with_reducible apply State.frameFetched_keeps
    | with_reducible apply State.updStream_keeps
    | with_reducible apply Keeps.foldl
    | with_reducible apply Keeps.foldlFst
    | intro _
    | split

theorem State.ringWrite_keeps {b₀ : State} (s : State) (b : Nat) (header frame : Nat → Nat) (h₀ : Keeps b₀ s) : Keeps b₀ (State.ringWrite s b header frame) := by
  unfold State.ringWrite
  repeat' first
    | with_reducible exact Keeps.refl _
    | with_reducible assumption
    | dsimp only
    | with_reducible apply State.signalTimes_keeps
    | with_reducible apply State.updPort_keeps
    | with_reducible apply State.updBranch_keeps
    | intro _
    | split

theorem State.tokenFrames_keeps {b₀ : State} (b row : Nat) : ∀ (n : Nat) (ids : List Nat) (s : State), Keeps b₀ s → Keeps b₀ (s.tokenFrames b row n ids)
  | 0, _, _, h₀ => by unfold State.tokenFrames; exact h₀
  | n + 1, ids, s, h₀ => by
    unfold State.tokenFrames
    dsimp only
    split
    · exact State.ringWrite_keeps _ _ _ _ h₀
    · exact State.tokenFrames_keeps b row n _ _ (State.ringWrite_keeps _ _ _ _ h₀)

theorem State.tokensWrite_keeps {b₀ : State} (s : State) (b : Nat) (h₀ : Keeps b₀ s) : Keeps b₀ (State.tokensWrite s b) := by
  unfold State.tokensWrite
  repeat' first
    | with_reducible exact Keeps.refl _
    | with_reducible assumption
    | dsimp only
    | with_reducible apply State.updBranch_keeps
    | with_reducible apply State.tokenFrames_keeps
    | intro _
    | split

theorem State.ringFrameWrite_keeps {b₀ : State} (s : State) (b consumed : Nat) (h₀ : Keeps b₀ s) : Keeps b₀ (State.ringFrameWrite s b consumed) := by
  unfold State.ringFrameWrite
  repeat' first
    | with_reducible exact Keeps.refl _
    | with_reducible assumption
    | dsimp only
    | with_reducible apply State.updBranch_keeps
    | with_reducible apply State.ringWrite_keeps
    | with_reducible apply State.tokensWrite_keeps
    | intro _
    | split

theorem State.setOutputs_keeps {b₀ : State} (s : State) (b block : Nat) (outs : List (Nat × Nat)) (ring : Option HostRing) (gain : Int) (h₀ : Keeps b₀ s) : Keeps b₀ (State.setOutputs s b block outs ring gain) := by
  unfold State.setOutputs
  repeat' first
    | with_reducible exact Keeps.refl _
    | with_reducible assumption
    | dsimp only
    | with_reducible apply State.updBranch_keeps
    | with_reducible apply State.mapOut_keeps
    | with_reducible apply State.unmapOut_keeps
    | with_reducible apply Keeps.foldl
    | intro _
    | split

theorem State.outputSwitch_keeps {b₀ : State} (s : State) (b : Nat) (h₀ : Keeps b₀ s) : Keeps b₀ (State.outputSwitch s b) := by
  unfold State.outputSwitch
  repeat' first
    | with_reducible exact Keeps.refl _
    | with_reducible assumption
    | dsimp only
    | with_reducible apply State.completeKey_keeps
    | with_reducible apply State.setOutputs_keeps
    | split

theorem answered_keeps {b₀ : State} (s : State) (a : Answer) (h₀ : Keeps b₀ s) : Keeps b₀ (answered s a).1 := by
  unfold answered
  repeat' first
    | with_reducible exact Keeps.refl _
    | with_reducible assumption

theorem succeeded_keeps {b₀ : State} (s : State) (h₀ : Keeps b₀ s) : Keeps b₀ (succeeded s).1 := by
  unfold succeeded
  repeat' first
    | with_reducible exact Keeps.refl _
    | with_reducible assumption
    | with_reducible apply answered_keeps

theorem checked_keeps {b₀ : State} (s : State) (checks : List (Bool × Answer)) (f : Unit → State × Reply) (h₀ : Keeps b₀ s) (hf : Keeps b₀ (f ()).1) :
    Keeps b₀ (checked s checks f).1 := by
  unfold checked
  split
  · exact answered_keeps _ _ h₀
  · exact hf

theorem named_keeps {b₀ : State} (s : State) (o : Option Nat) (f : Nat → State × Reply) (h₀ : Keeps b₀ s) (hf : ∀ i, Keeps b₀ (f i).1) :
    Keeps b₀ (named s o f).1 := by
  unfold named
  split
  · exact hf _
  · exact answered_keeps _ _ h₀

theorem State.partitionQuery_keeps {b₀ : State} (s : State) (c : Call) (pl : Nat) (h₀ : Keeps b₀ s) : Keeps b₀ (State.partitionQuery s c pl).1 := by
  unfold State.partitionQuery
  repeat' first
    | with_reducible exact Keeps.refl _
    | with_reducible assumption
    | dsimp only
    | with_reducible apply drawFree_keeps
    | with_reducible apply State.respond_keeps
    | with_reducible apply checked_keeps
    | with_reducible apply named_keeps
    | intro _

theorem State.clearTdmCounters_keeps {b₀ : State} (s : State) (t : Nat) (h₀ : Keeps b₀ s) : Keeps b₀ (State.clearTdmCounters s t) := by
  unfold State.clearTdmCounters
  repeat' first
    | with_reducible exact Keeps.refl _
    | with_reducible assumption
    | simp only [putAudio_fold]
    | dsimp only
    | with_reducible apply State.updTdm_keeps
    | with_reducible apply Keeps.audio
    | with_reducible exact fun h => Table.wf_mapVals h _
    | with_reducible exact id

theorem State.shareChange_keeps {b₀ : State} (s : State) (n : Nat) (old : Partition) (h₀ : Keeps b₀ s) : Keeps b₀ (State.shareChange s n old) := by
  unfold State.shareChange
  repeat' first
    | with_reducible exact Keeps.refl _
    | with_reducible assumption
    | dsimp only
    | with_reducible apply State.holdToQuota_keeps
    | with_reducible apply Keeps.foldl
    | with_reducible apply Keeps.foldlFst
    | intro _
    | split

theorem State.partitionQuotaSet_keeps {b₀ : State} (s : State) (c : Call) (pl : Nat) (h₀ : Keeps b₀ s) : Keeps b₀ (State.partitionQuotaSet s c pl).1 := by
  unfold State.partitionQuotaSet
  repeat' first
    | with_reducible exact Keeps.refl _
    | with_reducible assumption
    | dsimp only
    | with_reducible apply State.dispatchAll_keeps
    | with_reducible apply State.post_keeps
    | with_reducible apply State.updPart_keeps
    | with_reducible apply succeeded_keeps
    | with_reducible apply checked_keeps
    | with_reducible apply named_keeps
    | with_reducible apply State.clearTdmCounters_keeps
    | with_reducible apply State.shareChange_keeps
    | with_reducible apply Keeps.foldl
    | with_reducible apply Keeps.foldlFst
    | intro _
    | split

theorem State.partitionHostLossSet_keeps {b₀ : State} (s : State) (c : Call) (pl : Nat) (h₀ : Keeps b₀ s) : Keeps b₀ (State.partitionHostLossSet s c pl).1 := by
  unfold State.partitionHostLossSet
  repeat' first
    | with_reducible exact Keeps.refl _
    | with_reducible assumption
    | dsimp only
    | with_reducible apply State.updPart_keeps
    | with_reducible apply succeeded_keeps
    | with_reducible apply checked_keeps
    | with_reducible apply named_keeps
    | intro _

theorem State.partitionTrimSet_keeps {b₀ : State} (s : State) (c : Call) (pl : Nat) (h₀ : Keeps b₀ s) : Keeps b₀ (State.partitionTrimSet s c pl).1 := by
  unfold State.partitionTrimSet
  repeat' first
    | with_reducible exact Keeps.refl _
    | with_reducible assumption
    | dsimp only
    | with_reducible apply State.updPart_keeps
    | with_reducible apply State.trimCheck_keeps
    | with_reducible apply succeeded_keeps
    | with_reducible apply checked_keeps
    | with_reducible apply named_keeps
    | intro _

theorem State.siteQuery_keeps {b₀ : State} (s : State) (c : Call) (pl : Nat) (h₀ : Keeps b₀ s) : Keeps b₀ (State.siteQuery s c pl).1 := by
  unfold State.siteQuery
  repeat' first
    | with_reducible exact Keeps.refl _
    | with_reducible assumption
    | dsimp only
    | with_reducible apply State.respond_keeps
    | with_reducible apply checked_keeps

theorem State.apertureRegister_keeps {b₀ : State} (s : State) (c : Call) (pl : Nat) (h₀ : Keeps b₀ s) : Keeps b₀ (State.apertureRegister s c pl).1 := by
  unfold State.apertureRegister
  repeat' first
    | with_reducible exact Keeps.refl _
    | with_reducible assumption
    | dsimp only
    | with_reducible apply State.updPort_keeps
    | with_reducible apply answered_keeps
    | with_reducible apply checked_keeps

theorem State.apertureDeregister_keeps {b₀ : State} (s : State) (c : Call) (h₀ : Keeps b₀ s) : Keeps b₀ (State.apertureDeregister s c).1 := by
  unfold State.apertureDeregister
  repeat' first
    | with_reducible exact Keeps.refl _
    | with_reducible assumption
    | dsimp only
    | with_reducible apply State.updPort_keeps
    | with_reducible apply answered_keeps
    | with_reducible exact fun h => Table.wf_set h _ _
    | intro _
    | split

theorem State.finishAperture_keeps {b₀ : State} (s : State) (n : Nat) (e : Accepted) (h₀ : Keeps b₀ s) : Keeps b₀ (State.finishAperture s n e) := by
  unfold State.finishAperture
  repeat' first
    | with_reducible exact Keeps.refl _
    | with_reducible assumption
    | dsimp only
    | with_reducible apply State.updPort_keeps
    | with_reducible apply State.complete_keeps
    | with_reducible exact fun h => Table.wf_set h _ _
    | intro _
    | split

theorem State.addLoad_keeps {b₀ : State} (s : State) (l : ModelLoad) (h₀ : Keeps b₀ s) : Keeps b₀ (s.addLoad l) :=
  h₀.trans ⟨rfl, fun ⟨a, b, c, d⟩ => ⟨a, b, c, { d with }⟩⟩

theorem State.modelLoad_keeps {b₀ : State} (s : State) (c : Call) (pl id dt : Nat) (h₀ : Keeps b₀ s) : Keeps b₀ (State.modelLoad s c pl id dt).1 := by
  unfold State.modelLoad
  repeat' first
    | with_reducible exact Keeps.refl _
    | with_reducible assumption
    | simp only [putPages_fold]
    | dsimp only
    | with_reducible apply State.apertureViolation_keeps
    | with_reducible apply State.newOp_keeps
    | with_reducible apply State.newOpDue_keeps
    | with_reducible apply answered_keeps
    | with_reducible apply checked_keeps
    | with_reducible apply State.addLoad_keeps
    | with_reducible apply Keeps.pages
    | with_reducible exact id
    | intro _
    | split

theorem State.endLoad_keeps {b₀ : State} (s : State) (l : ModelLoad) (h₀ : Keeps b₀ s) : Keeps b₀ (State.endLoad s l) := by
  unfold State.endLoad
  repeat' first
    | with_reducible exact Keeps.refl _
    | with_reducible assumption
    | simp only [putLoads_fold]
    | dsimp only
    | with_reducible apply State.endOps_keeps
    | with_reducible apply Keeps.loads
    | intro _
    | split

theorem State.releaseLoad_keeps {b₀ : State} (s : State) (l : ModelLoad) (h₀ : Keeps b₀ s) : Keeps b₀ (State.releaseLoad s l) := by
  unfold State.releaseLoad
  repeat' first
    | with_reducible exact Keeps.refl _
    | with_reducible assumption
    | simp only [putLoads_fold]
    | dsimp only
    | with_reducible apply State.newOpOwing_keeps
    | with_reducible apply State.endOps_keeps
    | with_reducible apply Keeps.loads
    | intro _
    | split

theorem State.failLoad_keeps {b₀ : State} (s : State) (l : ModelLoad) (h₀ : Keeps b₀ s) : Keeps b₀ (State.failLoad s l) := by
  unfold State.failLoad
  repeat' first
    | with_reducible exact Keeps.refl _
    | with_reducible assumption
    | dsimp only
    | with_reducible apply State.complete_keeps
    | with_reducible apply State.releaseLoad_keeps

theorem State.sweepLoads_keeps {b₀ : State} (s : State) (h₀ : Keeps b₀ s) : Keeps b₀ (State.sweepLoads s) := by
  unfold State.sweepLoads
  repeat' first
    | with_reducible exact Keeps.refl _
    | with_reducible assumption
    | dsimp only
    | with_reducible apply State.endLoad_keeps
    | with_reducible apply State.failLoad_keeps
    | with_reducible apply Keeps.foldl
    | with_reducible apply Keeps.foldlFst
    | intro _

theorem State.newContent_keeps {b₀ : State} (s : State) (v : Content) (h₀ : Keeps b₀ s) : Keeps b₀ (State.newContent s v).1 := by
  unfold State.newContent
  repeat' first
    | with_reducible exact Keeps.refl _
    | with_reducible assumption
    | simp only [putNextContent_fold]
    | dsimp only
    | with_reducible apply State.setContent_keeps
    | with_reducible apply Keeps.nextContent

theorem State.placePackage_keeps {b₀ : State} (s : State) (l : ModelLoad) (k : Package) (h₀ : Keeps b₀ s) : Keeps b₀ (State.placePackage s l k).1 := by
  unfold State.placePackage
  repeat' first
    | with_reducible exact Keeps.refl _
    | with_reducible assumption
    | simp only [putPages_fold]
    | dsimp only
    | with_reducible apply State.newContent_keeps
    | with_reducible apply Keeps.pages
    | with_reducible exact id
    | intro _
    | split

theorem State.modelPlacement_keeps {b₀ : State} (s : State) (n load : Nat) (image : PackageImage) (h₀ : Keeps b₀ s) : Keeps b₀ (State.modelPlacement s n load image) := by
  unfold State.modelPlacement
  repeat' first
    | with_reducible exact Keeps.refl _
    | with_reducible assumption
    | dsimp only
    | with_reducible apply State.complete_keeps
    | with_reducible apply State.setModel_keeps
    | with_reducible apply State.endLoad_keeps
    | with_reducible apply State.releaseLoad_keeps
    | with_reducible apply State.failLoad_keeps
    | with_reducible apply State.placePackage_keeps
    | intro _
    | split

theorem State.modelQuery_keeps {b₀ : State} (s : State) (c : Call) (pl : Nat) (h₀ : Keeps b₀ s) : Keeps b₀ (State.modelQuery s c pl).1 := by
  unfold State.modelQuery
  repeat' first
    | with_reducible exact Keeps.refl _
    | with_reducible assumption
    | dsimp only
    | with_reducible apply State.respond_keeps
    | with_reducible apply checked_keeps
    | with_reducible apply named_keeps
    | intro _

theorem State.modelUnload_keeps {b₀ : State} (s : State) (c : Call) (h₀ : Keeps b₀ s) : Keeps b₀ (State.modelUnload s c).1 := by
  unfold State.modelUnload
  repeat' first
    | with_reducible exact Keeps.refl _
    | with_reducible assumption
    | dsimp only
    | with_reducible apply State.setModel_keeps
    | with_reducible apply State.newOpDue_keeps
    | with_reducible apply answered_keeps
    | with_reducible apply succeeded_keeps
    | with_reducible apply named_keeps
    | intro _
    | split

theorem State.finishUnload_keeps {b₀ : State} (s : State) (n : Nat) (e : Accepted) (h₀ : Keeps b₀ s) : Keeps b₀ (State.finishUnload s n e) := by
  unfold State.finishUnload
  repeat' first
    | with_reducible exact Keeps.refl _
    | with_reducible assumption
    | dsimp only
    | with_reducible apply State.complete_keeps
    | with_reducible apply State.setContent_keeps
    | with_reducible apply State.endOps_keeps
    | intro _
    | split

theorem State.modelList_keeps {b₀ : State} (s : State) (c : Call) (pl : Nat) (h₀ : Keeps b₀ s) : Keeps b₀ (State.modelList s c pl).1 := by
  unfold State.modelList
  repeat' first
    | with_reducible exact Keeps.refl _
    | with_reducible assumption
    | dsimp only
    | with_reducible apply State.respond_keeps
    | with_reducible apply checked_keeps

theorem State.bindStages_keeps {b₀ : State} (n pl slot : Nat) : ∀ (s : State) (sts : List Stage) {u : State}, s.bindStages n pl slot sts = .inr u → Keeps b₀ s →
    Keeps b₀ u
  | _, [], _, hu, h₀ => by cases hu; exact h₀
  | s, st :: rest, _, hu, h₀ => by
    unfold State.bindStages at hu
    dsimp only at hu
    split at hu
    · cases hu; exact h₀
    · split at hu
      · cases hu
      · rename_i t e
        have ht := State.bindStage_keeps _ _ _ _ _ _ _ e h₀
        refine State.bindStages_keeps n pl slot _ rest hu ?_
        split
        · exact ht
        · exact State.newOpOwing_keeps _ _ _ _ ht

theorem State.pipelineCreate_keeps {b₀ : State} (s : State) (c : Call) (pl : Nat) (h₀ : Keeps b₀ s) : Keeps b₀ (State.pipelineCreate s c pl).1 := by
  unfold State.pipelineCreate
  repeat' first
    | with_reducible exact Keeps.refl _
    | with_reducible assumption
    | dsimp only
    | with_reducible apply State.setPipe_keeps
    | with_reducible apply State.outOfService_keeps
    | with_reducible apply answered_keeps
    | with_reducible apply checked_keeps
    | with_reducible refine State.bindStages_keeps _ _ _ _ _ (by assumption) ?_
    | intro _
    | split

theorem State.bindingReady_keeps {b₀ : State} (s : State) (pipe : Nat) (h₀ : Keeps b₀ s) : Keeps b₀ (State.bindingReady s pipe) := by
  unfold State.bindingReady
  repeat' first
    | with_reducible exact Keeps.refl _
    | with_reducible assumption
    | dsimp only
    | with_reducible apply State.updBinding_keeps
    | with_reducible apply State.dispatchAll_keeps
    | with_reducible apply State.completeKey_keeps
    | with_reducible apply State.setPipe_keeps
    | with_reducible apply State.endOps_keeps
    | with_reducible apply Keeps.foldl
    | with_reducible apply Keeps.foldlFst
    | intro _
    | split

theorem State.pipelineQuery_keeps {b₀ : State} (s : State) (c : Call) (pl : Nat) (h₀ : Keeps b₀ s) : Keeps b₀ (State.pipelineQuery s c pl).1 := by
  unfold State.pipelineQuery
  repeat' first
    | with_reducible exact Keeps.refl _
    | with_reducible assumption
    | dsimp only
    | with_reducible apply State.respond_keeps
    | with_reducible apply checked_keeps
    | with_reducible apply named_keeps
    | intro _

theorem State.pipelineList_keeps {b₀ : State} (s : State) (c : Call) (pl : Nat) (h₀ : Keeps b₀ s) : Keeps b₀ (State.pipelineList s c pl).1 := by
  unfold State.pipelineList
  repeat' first
    | with_reducible exact Keeps.refl _
    | with_reducible assumption
    | dsimp only
    | with_reducible apply State.respond_keeps
    | with_reducible apply checked_keeps

theorem State.dropPrefix_keeps {b₀ : State} (s : State) (pipe : Nat) (h₀ : Keeps b₀ s) : Keeps b₀ (State.dropPrefix s pipe) := by
  unfold State.dropPrefix
  repeat' first
    | with_reducible exact Keeps.refl _
    | with_reducible assumption
    | dsimp only
    | with_reducible apply State.setPipe_keeps
    | with_reducible apply State.updPage_keeps
    | with_reducible apply State.dropOwner_keeps
    | with_reducible apply Keeps.foldl
    | intro _

theorem State.takePages_keeps {b₀ : State} (part : Nat) : ∀ (n : Nat) (s : State) (r : List Nat × State), s.takePages part n = some r → Keeps b₀ s → Keeps b₀ r.2
  | 0, _, _, hr, h₀ => by cases hr; exact h₀
  | n + 1, s, r, hr, h₀ => by
    unfold State.takePages at hr
    split at hr
    · cases hr
    · rename_i ppn t e
      rw [Option.map_eq_some_iff] at hr
      obtain ⟨q, hq, rfl⟩ := hr
      exact State.takePages_keeps part n t q hq (State.takePage_keeps s part e h₀)

theorem State.computedPage_keeps {b₀ : State} (s : State) (ppn fill : Nat) (h₀ : Keeps b₀ s) : Keeps b₀ (State.computedPage s ppn fill) := by
  unfold State.computedPage
  repeat' first
    | with_reducible exact Keeps.refl _
    | with_reducible assumption
    | dsimp only
    | with_reducible apply State.memWrite_keeps
    | with_reducible apply drawFree_keeps
    | with_reducible apply State.updPage_keeps
    | with_reducible apply State.clearRows_keeps
    | intro _

theorem State.setPrefix_keeps {b₀ u : State} (s : State) (pipe tokens : Nat) (hu : s.setPrefix pipe tokens = some u) (h₀ : Keeps b₀ s) : Keeps b₀ u := by
  unfold State.setPrefix at hu
  dsimp only at hu
  split at hu
  · cases hu
  · split at hu
    · cases hu
    · rename_i ppns t e
      have ht : Keeps b₀ t := State.takePages_keeps _ _ _ _ e (State.updPart_keeps _ _ _ h₀)
      cases hu
      refine State.setPipe_keeps _ _ _ (Keeps.foldl (Keeps.foldl (State.dropPrefix_keeps _ _ ht) (fun v p => State.computedPage_keeps _ _ _ (Keeps.refl v))) ?_)
      exact fun w q => Keeps.foldl (State.setSeq_keeps _ _ (Keeps.refl w)) (fun y e => State.sealEntry_keeps _ _ _ _ (Keeps.refl y))

theorem State.pipelinePrefixSet_keeps {b₀ : State} (s : State) (c : Call) (pl : Nat) (h₀ : Keeps b₀ s) : Keeps b₀ (State.pipelinePrefixSet s c pl).1 := by
  unfold State.pipelinePrefixSet
  repeat' first
    | with_reducible exact Keeps.refl _
    | with_reducible assumption
    | dsimp only
    | with_reducible apply State.updPart_keeps
    | with_reducible apply State.apertureViolation_keeps
    | with_reducible apply answered_keeps
    | with_reducible apply succeeded_keeps
    | with_reducible apply checked_keeps
    | with_reducible apply named_keeps
    | with_reducible apply State.dropPrefix_keeps
    | intro _
    | split

theorem State.dropReserved_keeps {b₀ : State} (s : State) (pipe tokens : Nat) (h₀ : Keeps b₀ s) : Keeps b₀ (State.dropReserved s pipe tokens) := by
  unfold State.dropReserved
  repeat' first
    | with_reducible exact Keeps.refl _
    | with_reducible assumption
    | dsimp only
    | with_reducible apply State.updPart_keeps
    | intro _

theorem State.finishPrefix_keeps {b₀ : State} (s : State) (n : Nat) (e : Accepted) (tokens : Nat) (h₀ : Keeps b₀ s) : Keeps b₀ (State.finishPrefix s n e tokens) := by
  unfold State.finishPrefix
  repeat' first
    | with_reducible exact Keeps.refl _
    | with_reducible assumption
    | dsimp only
    | with_reducible apply State.complete_keeps
    | with_reducible refine State.setPrefix_keeps _ _ _ (by assumption) ?_
    | split

theorem State.pipelineDelete_keeps {b₀ : State} (s : State) (c : Call) (h₀ : Keeps b₀ s) : Keeps b₀ (State.pipelineDelete s c).1 := by
  unfold State.pipelineDelete
  repeat' first
    | with_reducible exact Keeps.refl _
    | with_reducible assumption
    | dsimp only
    | with_reducible apply State.setPipe_keeps
    | with_reducible apply answered_keeps
    | with_reducible apply named_keeps
    | with_reducible apply State.dropPrefix_keeps
    | intro _
    | split

theorem State.finishDelete_keeps {b₀ : State} (s : State) (n : Nat) (e : Accepted) (h₀ : Keeps b₀ s) : Keeps b₀ (State.finishDelete s n e) := by
  unfold State.finishDelete
  repeat' first
    | with_reducible exact Keeps.refl _
    | with_reducible assumption
    | dsimp only
    | with_reducible apply State.setPipe_keeps
    | with_reducible apply State.complete_keeps
    | with_reducible apply State.unbind_keeps
    | with_reducible apply Keeps.foldl
    | intro _
    | split

theorem State.updBoot_keeps {b₀ : State} (s : State) (g : Boot → Boot) (h₀ : Keeps b₀ s) : Keeps b₀ (State.updBoot s g) := by
  unfold State.updBoot
  repeat' first
    | with_reducible exact Keeps.refl _
    | with_reducible assumption
    | simp only [putBoot_fold]
    | dsimp only
    | with_reducible apply Keeps.boot

theorem State.updDir_keeps {b₀ : State} (s : State) (g : Directory → Directory) (h₀ : Keeps b₀ s) : Keeps b₀ (State.updDir s g) := by
  unfold State.updDir
  repeat' first
    | with_reducible exact Keeps.refl _
    | with_reducible assumption
    | dsimp only
    | with_reducible apply State.updBoot_keeps

theorem State.applySite_keeps {b₀ : State} (s : State) (c : SiteConfig) (h₀ : Keeps b₀ s) : Keeps b₀ (State.applySite s c) := by
  unfold State.applySite
  repeat' first
    | with_reducible exact Keeps.refl _
    | with_reducible assumption
    | simp only [putSite_fold]
    | dsimp only
    | with_reducible apply State.updPart_keeps
    | with_reducible apply Keeps.site
    | with_reducible apply Keeps.streams
    | with_reducible apply Keeps.branches
    | with_reducible apply Keeps.models
    | with_reducible exact id
    | with_reducible apply Keeps.foldl
    | intro _
    | split

/-- The power state after a reset (R567, R571). -/
theorem governor_reset (on locked tripped prochot : Bool) : GovernorOk { clocksOn := on, locked := locked, tripped := tripped, prochot := prochot } := by
  refine ⟨?_, ?_, ?_, ?_, ?_, ?_, ?_, ?_⟩ <;> simp [Power.ceiling, capCeiling]

theorem State.enterReset_keeps {b₀ : State} (s : State) (cause : DevCause) (h₀ : Keeps b₀ s) : Keeps b₀ (State.enterReset s cause) := by
  refine h₀.trans ⟨rfl, fun i => ?_⟩
  have hm := (State.dropHostMedia_keeps s (Keeps.refl s)).2 i
  obtain ⟨_, _, c, d⟩ := i
  exact ⟨governor_reset .., ⟨rfl, rfl⟩, ⟨Nat.zero_le _, Nat.zero_le _, c.2.2.1, Nat.two_pow_pos 64⟩,
    { ports := Table.wf_mapVals d.ports (fun _ (p : HostPort) => { perst := p.perst }), parts := rfl, contents := rfl, models := rfl, pipes := rfl, streams := rfl, branches := rfl, tiles := rfl,
      flanks := rfl, feeders := rfl, barriers := rfl, pages := rfl, dir := rfl, links := rfl, routes := rfl, windows := rfl, netifs := rfl,
      channels := rfl, stackRegs := rfl, tdm := rfl, inputs := rfl, outputs := rfl, sensors := rfl, media := hm.2.2.2.media,
      watches := hm.2.2.2.watches }⟩

theorem State.coldReset_keeps {b₀ : State} (s : State) (straps : Nat) (h₀ : Keeps b₀ s) : Keeps b₀ (State.coldReset s straps) := by
  refine h₀.trans ⟨rfl, fun ⟨_, _, _, d⟩ => ?_⟩
  exact ⟨governor_reset .., ⟨rfl, rfl⟩, ⟨Nat.zero_le _, Nat.zero_le _, Nat.two_pow_pos 156, Nat.two_pow_pos 64⟩,
    { ports := Table.wf_mapVals d.ports (fun _ (p : HostPort) => { perst := p.perst }), parts := rfl, contents := rfl, models := rfl, pipes := rfl, streams := rfl, branches := rfl, tiles := rfl,
      flanks := rfl, feeders := rfl, barriers := rfl, pages := rfl, dir := rfl, links := rfl, routes := rfl, windows := rfl, netifs := rfl,
      channels := rfl, stackRegs := rfl, tdm := rfl, inputs := rfl, outputs := rfl, sensors := rfl, media := rfl, watches := rfl }⟩

theorem State.sysReset_keeps {b₀ : State} (s : State) (ns : Nat) (h₀ : Keeps b₀ s) : Keeps b₀ (State.sysReset s ns) := by
  unfold State.sysReset
  repeat' first
    | with_reducible exact Keeps.refl _
    | with_reducible assumption
    | with_reducible apply State.enterReset_keeps
    | split

theorem State.resetEnd_keeps {b₀ : State} (s : State) (h₀ : Keeps b₀ s) : Keeps b₀ (State.resetEnd s) := by
  unfold State.resetEnd
  split
  · exact h₀.trans ⟨rfl, fun ⟨a, b, c, d⟩ => ⟨a, b, ⟨c.1, c.2.1, c.2.2.1, Nat.two_pow_pos 64⟩, { d with }⟩⟩
  · exact h₀

theorem State.thermalTrip_keeps {b₀ : State} (s : State) (h₀ : Keeps b₀ s) : Keeps b₀ (State.thermalTrip s) := by
  unfold State.thermalTrip
  split
  · exact h₀
  · exact (State.enterReset_keeps s .thermalTrip h₀).trans ⟨rfl, fun ⟨a, b, c, d⟩ => ⟨a, b, c, { d with }⟩⟩

theorem State.lossOfLock_keeps {b₀ : State} (s : State) (h₀ : Keeps b₀ s) : Keeps b₀ (State.lossOfLock s) := by
  unfold State.lossOfLock
  split
  · exact h₀
  · exact (State.enterReset_keeps s .clockLoss h₀).trans ⟨rfl, fun ⟨a, b, c, d⟩ => ⟨a, b, c, { d with }⟩⟩

theorem State.lockRegained_keeps {b₀ : State} (s : State) (h₀ : Keeps b₀ s) : Keeps b₀ (State.lockRegained s) := by
  unfold State.lockRegained
  split
  · exact h₀
  · exact State.resetEnd_keeps _ (h₀.trans ⟨rfl, fun ⟨a, b, c, d⟩ => ⟨a, b, c, { d with }⟩⟩)

theorem State.fwWatchdog_keeps {b₀ : State} (s : State) (h₀ : Keeps b₀ s) : Keeps b₀ (State.fwWatchdog s) := by
  unfold State.fwWatchdog
  repeat' first
    | with_reducible exact Keeps.refl _
    | with_reducible assumption
    | with_reducible apply State.enterReset_keeps
    | split

theorem State.refreshStop_keeps {b₀ : State} (s : State) (h₀ : Keeps b₀ s) : Keeps b₀ (State.refreshStop s) := by
  unfold State.refreshStop
  repeat' first
    | with_reducible exact Keeps.refl _
    | with_reducible assumption
    | dsimp only
    | with_reducible apply State.updBoot_keeps
    | intro _
    | split

theorem State.bootTimeout_keeps {b₀ : State} (s : State) (h₀ : Keeps b₀ s) : Keeps b₀ (State.bootTimeout s) := by
  unfold State.bootTimeout
  repeat' first
    | with_reducible exact Keeps.refl _
    | with_reducible assumption
    | dsimp only
    | with_reducible apply State.updBoot_keeps
    | with_reducible apply State.enterReset_keeps
    | with_reducible apply State.training_keeps
    | with_reducible apply State.selfTest_keeps
    | intro _
    | split

theorem State.resetDtReached_keeps {b₀ : State} (s : State) (h₀ : Keeps b₀ s) : Keeps b₀ (State.resetDtReached s) := by
  unfold State.resetDtReached
  repeat' first
    | with_reducible exact Keeps.refl _
    | with_reducible assumption
    | dsimp only
    | with_reducible apply State.enterReset_keeps
    | split

theorem State.allFwState_keeps {b₀ : State} (s : State) (v : Nat) (h₀ : Keeps b₀ s) : Keeps b₀ (State.allFwState s v) := by
  unfold State.allFwState
  repeat' first
    | with_reducible exact Keeps.refl _
    | with_reducible assumption
    | dsimp only
    | with_reducible apply State.updPort_keeps
    | with_reducible apply Keeps.foldl
    | intro _

theorem State.bootFails_keeps {b₀ : State} (s : State) (reason stack : Nat) (h₀ : Keeps b₀ s) : Keeps b₀ (State.bootFails s reason stack) := by
  unfold State.bootFails
  repeat' first
    | with_reducible exact Keeps.refl _
    | with_reducible assumption
    | dsimp only
    | with_reducible apply State.updBoot_keeps
    | with_reducible apply State.allFwState_keeps

theorem State.noteTimeout_keeps {b₀ : State} (s : State) (h₀ : Keeps b₀ s) : Keeps b₀ (State.noteTimeout s) := by
  unfold State.noteTimeout
  repeat' first
    | with_reducible exact Keeps.refl _
    | with_reducible assumption
    | dsimp only
    | with_reducible apply State.updBoot_keeps
    | with_reducible apply State.updDir_keeps
    | intro _
    | split

theorem State.reportTrip_keeps {b₀ : State} (s : State) (h₀ : Keeps b₀ s) : Keeps b₀ (State.reportTrip s) := by
  unfold State.reportTrip
  repeat' first
    | with_reducible exact Keeps.refl _
    | with_reducible assumption
    | dsimp only
    | with_reducible apply State.updBoot_keeps
    | with_reducible apply State.thermalTrip_keeps
    | intro _
    | split

theorem State.romDone_keeps {b₀ : State} (s : State) (readable : Bool) (h₀ : Keeps b₀ s) : Keeps b₀ (State.romDone s readable) := by
  unfold State.romDone
  repeat' first
    | with_reducible exact Keeps.refl _
    | with_reducible assumption
    | dsimp only
    | with_reducible apply State.updBoot_keeps
    | with_reducible apply State.updDir_keeps
    | with_reducible apply State.bootFails_keeps
    | with_reducible apply State.noteTimeout_keeps
    | with_reducible apply State.reportTrip_keeps
    | with_reducible apply State.imageCheck_keeps
    | intro _
    | split

theorem State.imageCheck_keeps {b₀ : State} (s : State) (passed : Bool) (h₀ : Keeps b₀ s) : Keeps b₀ (State.imageCheck s passed) := by
  unfold State.imageCheck
  repeat' first
    | with_reducible exact Keeps.refl _
    | with_reducible assumption
    | dsimp only
    | with_reducible apply State.updBoot_keeps
    | with_reducible apply State.updDir_keeps
    | with_reducible apply State.bootFails_keeps
    | with_reducible apply State.training_keeps
    | intro _
    | split

theorem State.training_keeps {b₀ : State} (s : State) (failing : Option Nat) (h₀ : Keeps b₀ s) : Keeps b₀ (State.training s failing) := by
  unfold State.training
  repeat' first
    | with_reducible exact Keeps.refl _
    | with_reducible assumption
    | dsimp only
    | with_reducible apply State.updBoot_keeps
    | with_reducible apply State.bootFails_keeps
    | intro _
    | split

theorem State.clearDone_keeps {b₀ : State} (s : State) (h₀ : Keeps b₀ s) : Keeps b₀ (State.clearDone s) := by
  unfold State.clearDone
  split
  · exact h₀
  · exact h₀.trans ⟨rfl, fun ⟨a, _, c, d⟩ => ⟨a, ⟨rfl, rfl⟩, c, { d with }⟩⟩

theorem State.selfTest_keeps {b₀ : State} (s : State) (failing : List Nat) (h₀ : Keeps b₀ s) : Keeps b₀ (State.selfTest s failing) := by
  unfold State.selfTest
  repeat' first
    | with_reducible exact Keeps.refl _
    | with_reducible assumption
    | dsimp only
    | with_reducible apply State.selfTestRetire_keeps
    | with_reducible apply State.updBoot_keeps
    | with_reducible apply Keeps.foldl
    | intro _
    | split

theorem State.postSelfTest_keeps {b₀ : State} (s : State) (h₀ : Keeps b₀ s) : Keeps b₀ (State.postSelfTest s) := by
  unfold State.postSelfTest
  repeat' first
    | with_reducible exact Keeps.refl _
    | with_reducible assumption
    | dsimp only
    | with_reducible apply State.updFlank_keeps
    | with_reducible apply State.postRetired_keeps
    | with_reducible apply State.selfTest_keeps
    | with_reducible apply Keeps.foldl
    | intro _

theorem State.setRings_keeps {b₀ : State} (s : State) (rings : List RingSetup) (h₀ : Keeps b₀ s) : Keeps b₀ (State.setRings s rings) := by
  unfold State.setRings
  repeat' first
    | with_reducible exact Keeps.refl _
    | with_reducible assumption
    | dsimp only
    | with_reducible apply State.updFeeder_keeps
    | with_reducible apply Keeps.foldl
    | with_reducible apply Keeps.foldlFst
    | intro _
    | split

theorem State.configDone_keeps {b₀ : State} (s : State) (rings : List RingSetup) (h₀ : Keeps b₀ s) : Keeps b₀ (State.configDone s rings) := by
  unfold State.configDone
  repeat' first
    | with_reducible exact Keeps.refl _
    | with_reducible assumption
    | simp only [putMem_fold]
    | dsimp only
    | with_reducible apply State.updFlank_keeps
    | with_reducible apply State.takeCap_keeps
    | with_reducible apply State.initRoutes_keeps
    | with_reducible apply State.updBoot_keeps
    | with_reducible apply State.updDir_keeps
    | with_reducible apply State.applySite_keeps
    | with_reducible apply State.allFwState_keeps
    | with_reducible apply State.postSelfTest_keeps
    | with_reducible apply State.setRings_keeps
    | with_reducible apply Keeps.mem
    | exact fun h => h
    | with_reducible exact id
    | exact fun _ => rfl
    | with_reducible apply Keeps.foldl
    | intro _
    | split

theorem State.startImage_keeps {b₀ : State} (s : State) (port cmd version length : Nat) (h₀ : Keeps b₀ s) : Keeps b₀ (State.startImage s port cmd version length) := by
  unfold State.startImage
  repeat' first
    | with_reducible exact Keeps.refl _
    | with_reducible assumption
    | dsimp only
    | with_reducible apply State.updBoot_keeps
    | with_reducible apply State.updDir_keeps

theorem State.startSite_keeps {b₀ : State} (s : State) (port cmd image : Nat) (h₀ : Keeps b₀ s) : Keeps b₀ (State.startSite s port cmd image) := by
  unfold State.startSite
  repeat' first
    | with_reducible exact Keeps.refl _
    | with_reducible assumption
    | dsimp only
    | with_reducible apply State.updBoot_keeps

theorem State.flashWriteDone_keeps {b₀ : State} (s : State) (ok : Bool) (h₀ : Keeps b₀ s) : Keeps b₀ (State.flashWriteDone s ok) := by
  unfold State.flashWriteDone
  repeat' first
    | with_reducible exact Keeps.refl _
    | with_reducible assumption
    | dsimp only
    | with_reducible apply State.complete_keeps
    | with_reducible apply State.updBoot_keeps
    | with_reducible apply State.updDir_keeps
    | intro _
    | split

theorem State.withRing_keeps {b₀ : State} (s : State) (c : Call) (r : Option HostRing) (f : Unit → State × Reply) (h₀ : Keeps b₀ s)
    (hf : Keeps b₀ (f ()).1) : Keeps b₀ (State.withRing s c r f).1 := by
  unfold State.withRing
  split
  · exact hf
  · exact answered_keeps _ _ (State.apertureViolation_keeps _ _ _ _ _ _ h₀)

theorem State.streamCastOn_keeps {b₀ : State} (s : State) (c : Call) (pl id dt : Nat) (h₀ : Keeps b₀ s) : Keeps b₀ (State.streamCastOn s c pl id dt).1 := by
  unfold State.streamCastOn
  repeat' first
    | with_reducible exact Keeps.refl _
    | with_reducible assumption
    | dsimp only
    | with_reducible apply State.setStream_keeps
    | with_reducible apply State.mapIn_keeps
    | with_reducible apply checked_keeps
    | with_reducible apply named_keeps
    | with_reducible apply State.withRing_keeps
    | intro _

theorem State.applyLoss_keeps {b₀ : State} (s : State) (i v : Nat) (h₀ : Keeps b₀ s) : Keeps b₀ (State.applyLoss s i v) := by
  unfold State.applyLoss
  repeat' first
    | with_reducible exact Keeps.refl _
    | with_reducible assumption
    | dsimp only
    | with_reducible apply State.updStream_keeps
    | with_reducible apply State.bindOff_keeps
    | intro _
    | split

theorem State.castOnRefused_keeps {b₀ : State} (s : State) (i status : Nat) (h₀ : Keeps b₀ s) : Keeps b₀ (State.castOnRefused s i status) := by
  unfold State.castOnRefused
  repeat' first
    | with_reducible exact Keeps.refl _
    | with_reducible assumption
    | dsimp only
    | with_reducible apply State.setStream_keeps
    | with_reducible apply State.complete_keeps
    | with_reducible apply State.completeKey_keeps
    | with_reducible apply State.unmapIn_keeps

theorem State.castOnDone_keeps {b₀ : State} (s : State) (i : Nat) (h₀ : Keeps b₀ s) : Keeps b₀ (State.castOnDone s i) := by
  unfold State.castOnDone
  repeat' first
    | with_reducible exact Keeps.refl _
    | with_reducible assumption
    | dsimp only
    | with_reducible apply State.updPart_keeps
    | with_reducible apply State.updStream_keeps
    | with_reducible apply State.complete_keeps
    | with_reducible apply State.bindOff_keeps
    | with_reducible apply State.applyLoss_keeps
    | with_reducible apply State.castOnRefused_keeps
    | with_reducible refine State.giveSlots_keeps _ _ (by assumption) ?_
    | intro _
    | split

theorem State.streamFeed_keeps {b₀ : State} (s : State) (c : Call) (pl : Nat) (h₀ : Keeps b₀ s) : Keeps b₀ (State.streamFeed s c pl).1 := by
  unfold State.streamFeed
  repeat' first
    | with_reducible exact Keeps.refl _
    | with_reducible assumption
    | dsimp only
    | with_reducible apply State.signalTimes_keeps
    | with_reducible apply State.updStream_keeps
    | with_reducible apply answered_keeps
    | with_reducible apply named_keeps
    | intro _
    | split

theorem State.streamPause_keeps {b₀ : State} (s : State) (c : Call) (h₀ : Keeps b₀ s) : Keeps b₀ (State.streamPause s c).1 := by
  unfold State.streamPause
  repeat' first
    | with_reducible exact Keeps.refl _
    | with_reducible assumption
    | dsimp only
    | with_reducible apply State.updStream_keeps
    | with_reducible apply answered_keeps
    | with_reducible apply named_keeps
    | intro _
    | split

theorem State.streamResume_keeps {b₀ : State} (s : State) (c : Call) (h₀ : Keeps b₀ s) : Keeps b₀ (State.streamResume s c).1 := by
  unfold State.streamResume
  repeat' first
    | with_reducible exact Keeps.refl _
    | with_reducible assumption
    | dsimp only
    | with_reducible apply answered_keeps
    | with_reducible apply named_keeps
    | intro _
    | split

theorem State.finishResume_keeps {b₀ : State} (s : State) (n : Nat) (e : Accepted) (h₀ : Keeps b₀ s) : Keeps b₀ (State.finishResume s n e) := by
  unfold State.finishResume
  repeat' first
    | with_reducible exact Keeps.refl _
    | with_reducible assumption
    | dsimp only
    | with_reducible apply State.complete_keeps
    | with_reducible apply State.updStream_keeps
    | with_reducible apply State.queueWaiting_keeps
    | intro _
    | split

theorem State.streamRewind_keeps {b₀ : State} (s : State) (c : Call) (h₀ : Keeps b₀ s) : Keeps b₀ (State.streamRewind s c).1 := by
  unfold State.streamRewind
  repeat' first
    | with_reducible exact Keeps.refl _
    | with_reducible assumption
    | dsimp only
    | with_reducible apply State.frog_keeps
    | with_reducible apply answered_keeps
    | with_reducible apply named_keeps
    | intro _
    | split

theorem State.streamBindOff_keeps {b₀ : State} (s : State) (c : Call) (pl : Nat) (h₀ : Keeps b₀ s) : Keeps b₀ (State.streamBindOff s c pl).1 := by
  unfold State.streamBindOff
  repeat' first
    | with_reducible exact Keeps.refl _
    | with_reducible assumption
    | dsimp only
    | with_reducible apply State.updStream_keeps
    | with_reducible apply State.bindOff_keeps
    | with_reducible apply answered_keeps
    | with_reducible apply checked_keeps
    | with_reducible apply named_keeps
    | intro _
    | split

theorem State.streamInputSet_keeps {b₀ : State} (s : State) (c : Call) (pl dt : Nat) (h₀ : Keeps b₀ s) : Keeps b₀ (State.streamInputSet s c pl dt).1 := by
  unfold State.streamInputSet
  repeat' first
    | with_reducible exact Keeps.refl _
    | with_reducible assumption
    | dsimp only
    | with_reducible apply State.updStream_keeps
    | with_reducible apply checked_keeps
    | with_reducible apply named_keeps
    | with_reducible apply State.withRing_keeps
    | intro _

theorem State.streamQuery_keeps {b₀ : State} (s : State) (c : Call) (pl : Nat) (h₀ : Keeps b₀ s) : Keeps b₀ (State.streamQuery s c pl).1 := by
  unfold State.streamQuery
  repeat' first
    | with_reducible exact Keeps.refl _
    | with_reducible assumption
    | dsimp only
    | with_reducible apply State.respond_keeps
    | with_reducible apply checked_keeps
    | with_reducible apply named_keeps
    | intro _

theorem State.streamList_keeps {b₀ : State} (s : State) (c : Call) (pl : Nat) (h₀ : Keeps b₀ s) : Keeps b₀ (State.streamList s c pl).1 := by
  unfold State.streamList
  repeat' first
    | with_reducible exact Keeps.refl _
    | with_reducible assumption
    | dsimp only
    | with_reducible apply State.respond_keeps
    | with_reducible apply checked_keeps

theorem State.branchAttach_keeps {b₀ : State} (s : State) (c : Call) (pl id : Nat) (h₀ : Keeps b₀ s) : Keeps b₀ (State.branchAttach s c pl id).1 := by
  unfold State.branchAttach
  repeat' first
    | with_reducible exact Keeps.refl _
    | with_reducible assumption
    | dsimp only
    | with_reducible apply State.setOutputs_keeps
    | with_reducible apply State.setBranch_keeps
    | with_reducible apply State.withRing_keeps
    | with_reducible apply checked_keeps
    | with_reducible apply named_keeps
    | intro _
    | split

theorem State.giveViews_keeps {b₀ : State} (s : State) (b : Nat) (h₀ : Keeps b₀ s) : Keeps b₀ (State.giveViews s b) := by
  unfold State.giveViews
  repeat' first
    | with_reducible exact Keeps.refl _
    | with_reducible assumption
    | dsimp only
    | with_reducible apply State.wantStep_keeps
    | with_reducible apply Keeps.foldl
    | with_reducible apply Keeps.foldlFst
    | intro _

theorem State.giveContext_keeps {b₀ : State} (s : State) (b : Nat) (h₀ : Keeps b₀ s) : Keeps b₀ (State.giveContext s b) := by
  unfold State.giveContext
  repeat' first
    | with_reducible exact Keeps.refl _
    | with_reducible assumption
    | dsimp only
    | with_reducible apply State.setSeq_keeps
    | with_reducible apply State.wantStep_keeps
    | with_reducible apply Keeps.foldl
    | with_reducible apply Keeps.foldlFst
    | intro _

theorem State.attachRefused_keeps {b₀ : State} (s : State) (b status : Nat) (h₀ : Keeps b₀ s) : Keeps b₀ (State.attachRefused s b status) := by
  unfold State.attachRefused
  repeat' first
    | with_reducible exact Keeps.refl _
    | with_reducible assumption
    | dsimp only
    | with_reducible apply State.unmapBranch_keeps
    | with_reducible apply State.complete_keeps
    | with_reducible apply State.setBranch_keeps
    | with_reducible apply State.dropOwner_keeps
    | with_reducible apply State.dropCopies_keeps
    | with_reducible apply State.abandonOps_keeps
    | intro _
    | split

theorem State.allocateBranch_keeps {b₀ : State} (s : State) (b : Nat) (h₀ : Keeps b₀ s) : Keeps b₀ (State.allocateBranch s b) := by
  unfold State.allocateBranch
  repeat' first
    | with_reducible exact Keeps.refl _
    | with_reducible assumption
    | dsimp only
    | with_reducible apply State.updBranch_keeps
    | with_reducible apply State.giveViews_keeps
    | with_reducible apply State.giveContext_keeps
    | intro _
    | split

theorem State.attachSlots_keeps {b₀ : State} (s : State) (b : Nat) (h₀ : Keeps b₀ s) : Keeps b₀ (State.attachSlots s b).2 := by
  unfold State.attachSlots
  repeat' first
    | with_reducible exact Keeps.refl _
    | with_reducible assumption
    | dsimp only
    | with_reducible apply State.updStream_keeps
    | with_reducible apply State.afterCastOuts_keeps
    | with_reducible apply State.makeRoom_keeps
    | with_reducible refine State.giveSlots_keeps _ _ (by assumption) ?_
    | with_reducible apply State.castOut_keeps
    | with_reducible apply State.frog_keeps
    | intro _
    | split

theorem State.activate_keeps {b₀ : State} (s : State) (b : Nat) (h₀ : Keeps b₀ s) : Keeps b₀ (State.activate s b) := by
  unfold State.activate
  repeat' first
    | with_reducible exact Keeps.refl _
    | with_reducible assumption
    | simp only [putAttachSeq_fold]
    | dsimp only
    | with_reducible apply State.complete_keeps
    | with_reducible apply State.updBranch_keeps
    | with_reducible apply Keeps.attachSeq
    | intro _

theorem State.attachDone_keeps {b₀ : State} (s : State) (b : Nat) (h₀ : Keeps b₀ s) : Keeps b₀ (State.attachDone s b) := by
  unfold State.attachDone
  repeat' first
    | with_reducible exact Keeps.refl _
    | with_reducible assumption
    | dsimp only
    | with_reducible apply State.attachRefused_keeps
    | with_reducible apply State.allocateBranch_keeps
    | with_reducible apply State.attachSlots_keeps
    | with_reducible apply State.activate_keeps
    | split

theorem State.branchDetach_keeps {b₀ : State} (s : State) (c : Call) (h₀ : Keeps b₀ s) : Keeps b₀ (State.branchDetach s c).1 := by
  unfold State.branchDetach
  repeat' first
    | with_reducible exact Keeps.refl _
    | with_reducible assumption
    | dsimp only
    | with_reducible apply State.updPart_keeps
    | with_reducible apply State.detach_keeps
    | with_reducible apply answered_keeps
    | with_reducible apply named_keeps
    | intro _
    | split

theorem State.resumeSect_keeps {b₀ : State} (s : State) (st : Stage) (b first : Nat) (h₀ : Keeps b₀ s) : Keeps b₀ (State.resumeSect s st b first) := by
  unfold State.resumeSect
  repeat' first
    | with_reducible exact Keeps.refl _
    | with_reducible assumption
    | dsimp only
    | with_reducible apply State.setSect_keeps
    | with_reducible apply State.updSect_keeps
    | with_reducible apply State.startCommit_keeps
    | intro _
    | split

theorem State.branchResume_keeps {b₀ : State} (s : State) (c : Call) (h₀ : Keeps b₀ s) : Keeps b₀ (State.branchResume s c).1 := by
  unfold State.branchResume
  repeat' first
    | with_reducible exact Keeps.refl _
    | with_reducible assumption
    | dsimp only
    | with_reducible apply State.updBranch_keeps
    | with_reducible apply State.resumeSect_keeps
    | with_reducible apply answered_keeps
    | with_reducible apply named_keeps
    | intro _
    | split

theorem State.branchOutputSet_keeps {b₀ : State} (s : State) (c : Call) (pl dt : Nat) (h₀ : Keeps b₀ s) : Keeps b₀ (State.branchOutputSet s c pl dt).1 := by
  unfold State.branchOutputSet
  repeat' first
    | with_reducible exact Keeps.refl _
    | with_reducible assumption
    | dsimp only
    | with_reducible apply State.updBranch_keeps
    | with_reducible apply checked_keeps
    | with_reducible apply named_keeps
    | with_reducible apply State.withRing_keeps
    | intro _

theorem State.branchQuery_keeps {b₀ : State} (s : State) (c : Call) (pl : Nat) (h₀ : Keeps b₀ s) : Keeps b₀ (State.branchQuery s c pl).1 := by
  unfold State.branchQuery
  repeat' first
    | with_reducible exact Keeps.refl _
    | with_reducible assumption
    | dsimp only
    | with_reducible apply State.respond_keeps
    | with_reducible apply checked_keeps
    | with_reducible apply named_keeps
    | intro _

theorem State.wipeBranch_keeps {b₀ : State} (s : State) (b : Nat) (h₀ : Keeps b₀ s) : Keeps b₀ (State.wipeBranch s b).1 := by
  unfold State.wipeBranch
  repeat' first
    | with_reducible exact Keeps.refl _
    | with_reducible assumption
    | dsimp only
    | with_reducible apply State.updBranch_keeps
    | with_reducible apply State.dropOwner_keeps
    | with_reducible apply State.dropCopies_keeps
    | intro _
    | split

theorem State.beginZeroise_keeps {b₀ : State} (s : State) (ofBranch : Bool) (slot part accepted : Nat) (bs : List Nat) (h₀ : Keeps b₀ s) : Keeps b₀ (State.beginZeroise s ofBranch slot part accepted bs) := by
  unfold State.beginZeroise
  repeat' first
    | with_reducible exact Keeps.refl _
    | with_reducible assumption
    | dsimp only
    | with_reducible apply State.newOpDue_keeps
    | with_reducible apply State.abandonOps_keeps
    | intro _
    | split

theorem State.zeroisationStart_keeps {b₀ : State} (s : State) (ofBranch : Bool) (slot : Nat) (h₀ : Keeps b₀ s) : Keeps b₀ (State.zeroisationStart s ofBranch slot) := by
  unfold State.zeroisationStart
  repeat' first
    | with_reducible exact Keeps.refl _
    | with_reducible assumption
    | simp only [putFree_fold]
    | simp only [putPages_fold]
    | dsimp only
    | with_reducible apply State.updStream_keeps
    | with_reducible apply State.updBranch_keeps
    | with_reducible apply State.dropOwner_keeps
    | with_reducible apply State.dropCopies_keeps
    | with_reducible apply State.dropStaged_keeps
    | with_reducible apply State.wipeBranch_keeps
    | with_reducible apply State.beginZeroise_keeps
    | with_reducible apply Keeps.free
    | with_reducible apply Keeps.pages
    | with_reducible exact id
    | with_reducible apply Keeps.foldl
    | with_reducible apply Keeps.foldlFst
    | intro _
    | split

theorem State.endZeroise_keeps {b₀ : State} (s : State) (ofBranch : Bool) (slot : Nat) (h₀ : Keeps b₀ s) : Keeps b₀ (State.endZeroise s ofBranch slot) := by
  unfold State.endZeroise
  repeat' first
    | with_reducible exact Keeps.refl _
    | with_reducible assumption
    | dsimp only
    | with_reducible apply State.endOps_keeps

theorem State.branchGone_keeps {b₀ : State} (s : State) (b : Nat) (h₀ : Keeps b₀ s) : Keeps b₀ (State.branchGone s b) := by
  unfold State.branchGone
  repeat' first
    | with_reducible exact Keeps.refl _
    | with_reducible assumption
    | dsimp only
    | with_reducible apply State.unmapBranch_keeps
    | with_reducible apply State.post_keeps
    | with_reducible apply State.completeKey_keeps
    | with_reducible apply State.setBranch_keeps
    | split

theorem State.branchZeroised_keeps {b₀ : State} (s : State) (b : Nat) (h₀ : Keeps b₀ s) : Keeps b₀ (State.branchZeroised s b) := by
  unfold State.branchZeroised
  repeat' first
    | with_reducible exact Keeps.refl _
    | with_reducible assumption
    | dsimp only
    | with_reducible apply State.updBranch_keeps
    | with_reducible apply State.endZeroise_keeps
    | with_reducible apply State.branchGone_keeps
    | intro _
    | split

theorem State.zeroisationDone_keeps {b₀ : State} (s : State) (i : Nat) (h₀ : Keeps b₀ s) : Keeps b₀ (State.zeroisationDone s i) := by
  unfold State.zeroisationDone
  repeat' first
    | with_reducible exact Keeps.refl _
    | with_reducible assumption
    | dsimp only
    | with_reducible apply State.updPart_keeps
    | with_reducible apply State.setStream_keeps
    | with_reducible apply State.post_keeps
    | with_reducible apply State.completeKey_keeps
    | with_reducible apply State.postStream_keeps
    | with_reducible apply State.dispatchAll_keeps
    | with_reducible apply State.unmapIn_keeps
    | with_reducible apply State.endZeroise_keeps
    | with_reducible apply State.branchGone_keeps
    | with_reducible apply Keeps.foldl
    | intro _
    | split

end Sys2Proof.Machine
end

