-- ==== Sys2Proof/Laws/KeepsLerad.lean ====
section
/-!
SUPPORT. Laws/KeepsLerad.lean: that the commands that stay on a port, the sensors and the Lerad rounds keep the queue and the invariant. One lemma per operation.
-/
namespace Sys2Proof.Machine

open Sys2Proof.Safety

theorem State.withRange_keeps {b₀ : State} (s : State) (c : Call) (ap off bytes : Nat) (write : Bool) (f : Unit → State × Reply) (h₀ : Keeps b₀ s)
    (hf : Keeps b₀ (f ()).1) : Keeps b₀ (State.withRange s c ap off bytes write f).1 := by
  unfold State.withRange
  split
  · exact hf
  · exact answered_keeps _ _ (State.apertureViolation_keeps _ _ _ _ _ _ h₀)

theorem State.ringPairCreate_keeps {b₀ : State} (s : State) (c : Call) (pl : Nat) (h₀ : Keeps b₀ s) : Keeps b₀ (State.ringPairCreate s c pl).1 := by
  unfold State.ringPairCreate
  repeat' first
    | with_reducible exact Keeps.refl _
    | with_reducible assumption
    | dsimp only
    | with_reducible apply State.updPort_keeps
    | with_reducible apply succeeded_keeps
    | with_reducible apply checked_keeps
    | with_reducible apply State.withRange_keeps

theorem State.ringPairDelete_keeps {b₀ : State} (s : State) (c : Call) (pl : Nat) (h₀ : Keeps b₀ s) : Keeps b₀ (State.ringPairDelete s c pl).1 := by
  unfold State.ringPairDelete
  repeat' first
    | with_reducible exact Keeps.refl _
    | with_reducible assumption
    | dsimp only
    | with_reducible apply State.updPort_keeps
    | with_reducible apply checked_keeps

theorem State.finishPair_keeps {b₀ : State} (s : State) (n : Nat) (e : Accepted) (h₀ : Keeps b₀ s) : Keeps b₀ (State.finishPair s n e) := by
  unfold State.finishPair
  repeat' first
    | with_reducible exact Keeps.refl _
    | with_reducible assumption
    | dsimp only
    | with_reducible apply State.updPort_keeps
    | with_reducible apply State.complete_keeps
    | intro _
    | split

theorem State.eventRingSet_keeps {b₀ : State} (s : State) (c : Call) (pl : Nat) (h₀ : Keeps b₀ s) : Keeps b₀ (State.eventRingSet s c pl).1 := by
  unfold State.eventRingSet
  repeat' first
    | with_reducible exact Keeps.refl _
    | with_reducible assumption
    | dsimp only
    | with_reducible apply State.setPort_keeps
    | with_reducible apply answered_keeps
    | with_reducible apply checked_keeps
    | with_reducible apply State.withRange_keeps

theorem State.coalesceSet_keeps {b₀ : State} (s : State) (c : Call) (pl : Nat) (h₀ : Keeps b₀ s) : Keeps b₀ (State.coalesceSet s c pl).1 := by
  unfold State.coalesceSet
  repeat' first
    | with_reducible exact Keeps.refl _
    | with_reducible assumption
    | dsimp only
    | with_reducible apply State.updPort_keeps
    | with_reducible apply succeeded_keeps
    | with_reducible apply checked_keeps

theorem State.portConfigure_keeps {b₀ : State} (s : State) (c : Call) (pl : Nat) (h₀ : Keeps b₀ s) : Keeps b₀ (State.portConfigure s c pl).1 := by
  unfold State.portConfigure
  repeat' first
    | with_reducible exact Keeps.refl _
    | with_reducible assumption
    | dsimp only
    | with_reducible apply State.updTdm_keeps
    | with_reducible apply succeeded_keeps
    | with_reducible apply checked_keeps
    | with_reducible apply named_keeps
    | intro _

theorem State.portEnable_keeps {b₀ : State} (s : State) (c : Call) (pl dt : Nat) (h₀ : Keeps b₀ s) : Keeps b₀ (State.portEnable s c pl dt).1 := by
  unfold State.portEnable
  repeat' first
    | with_reducible exact Keeps.refl _
    | with_reducible assumption
    | dsimp only
    | with_reducible apply State.updTdm_keeps
    | with_reducible apply answered_keeps
    | with_reducible apply checked_keeps
    | with_reducible apply named_keeps
    | intro _
    | split

theorem State.portQuery_keeps {b₀ : State} (s : State) (c : Call) (pl : Nat) (h₀ : Keeps b₀ s) : Keeps b₀ (State.portQuery s c pl).1 := by
  unfold State.portQuery
  repeat' first
    | with_reducible exact Keeps.refl _
    | with_reducible assumption
    | dsimp only
    | with_reducible apply State.respond_keeps
    | with_reducible apply checked_keeps
    | with_reducible apply named_keeps
    | intro _

theorem State.tdmLoopback_keeps {b₀ : State} (s : State) (c : Call) (pl dt : Nat) (h₀ : Keeps b₀ s) : Keeps b₀ (State.tdmLoopback s c pl dt).1 := by
  unfold State.tdmLoopback
  repeat' first
    | with_reducible exact Keeps.refl _
    | with_reducible assumption
    | dsimp only
    | with_reducible apply State.updTdm_keeps
    | with_reducible apply checked_keeps
    | with_reducible apply named_keeps
    | intro _

theorem State.telemetryRead_keeps {b₀ : State} (s : State) (c : Call) (pl : Nat) (h₀ : Keeps b₀ s) : Keeps b₀ (State.telemetryRead s c pl).1 := by
  unfold State.telemetryRead
  repeat' first
    | with_reducible exact Keeps.refl _
    | with_reducible assumption
    | dsimp only
    | with_reducible apply State.respond_keeps
    | with_reducible apply checked_keeps

theorem State.journalRead_keeps {b₀ : State} (s : State) (c : Call) (pl : Nat) (h₀ : Keeps b₀ s) : Keeps b₀ (State.journalRead s c pl).1 := by
  unfold State.journalRead
  repeat' first
    | with_reducible exact Keeps.refl _
    | with_reducible assumption
    | dsimp only
    | with_reducible apply drawFree_keeps
    | with_reducible apply State.respond_keeps
    | with_reducible apply checked_keeps
    | intro _
    | split

theorem State.updErr_keeps {b₀ : State} (s : State) (b : Nat) (g : BurstErr → BurstErr) (h₀ : Keeps b₀ s) : Keeps b₀ (State.updErr s b g) :=
  Keeps.memory h₀ ⟨rfl, rfl⟩ (fun h => wf_parts.2 ⟨(wf_parts.1 h).1, Table.wf_set (wf_parts.1 h).2 _ _⟩)

theorem State.addressRefused_keeps {b₀ : State} (s : State) (c : Call) (x : Nat) (h₀ : Keeps b₀ s) : Keeps b₀ (State.addressRefused s c x) := by
  unfold State.addressRefused
  repeat' first
    | with_reducible exact Keeps.refl _
    | with_reducible assumption
    | dsimp only
    | with_reducible apply State.violate_keeps
    | with_reducible apply State.journalWrite_keeps
    | with_reducible apply State.countRefusal_keeps

theorem State.diagInject_keeps {b₀ : State} (s : State) (c : Call) (pl : Nat) (h₀ : Keeps b₀ s) : Keeps b₀ (State.diagInject s c pl).1 := by
  unfold State.diagInject
  repeat' first
    | with_reducible exact Keeps.refl _
    | with_reducible assumption
    | dsimp only
    | with_reducible apply State.updLink_keeps
    | with_reducible apply State.updTile_keeps
    | with_reducible apply State.inject_keeps
    | with_reducible apply answered_keeps
    | with_reducible apply succeeded_keeps
    | with_reducible apply checked_keeps
    | with_reducible apply State.updErr_keeps
    | with_reducible apply State.addressRefused_keeps
    | intro _
    | split

theorem State.deviceQuery_keeps {b₀ : State} (s : State) (c : Call) (pl : Nat) (h₀ : Keeps b₀ s) : Keeps b₀ (State.deviceQuery s c pl).1 := by
  unfold State.deviceQuery
  repeat' first
    | with_reducible exact Keeps.refl _
    | with_reducible assumption
    | dsimp only
    | with_reducible apply State.respond_keeps
    | with_reducible apply checked_keeps

theorem State.powerCapSet_keeps {b₀ : State} (s : State) (c : Call) (pl : Nat) (h₀ : Keeps b₀ s) : Keeps b₀ (State.powerCapSet s c pl).1 := by
  unfold State.powerCapSet
  repeat' first
    | with_reducible exact Keeps.refl _
    | with_reducible assumption
    | dsimp only
    | with_reducible apply State.setCap_keeps
    | with_reducible apply succeeded_keeps
    | with_reducible apply checked_keeps

theorem State.unstage_keeps {b₀ : State} (s : State) (h₀ : Keeps b₀ s) : Keeps b₀ (State.unstage s) := by
  unfold State.unstage
  repeat' first
    | with_reducible exact Keeps.refl _
    | with_reducible assumption
    | dsimp only
    | with_reducible apply State.updDir_keeps
    | intro _
    | split

theorem State.firmwareStage_keeps {b₀ : State} (s : State) (c : Call) (pl id : Nat) (h₀ : Keeps b₀ s) : Keeps b₀ (State.firmwareStage s c pl id).1 := by
  unfold State.firmwareStage
  repeat' first
    | with_reducible exact Keeps.refl _
    | with_reducible assumption
    | dsimp only
    | with_reducible apply answered_keeps
    | with_reducible apply checked_keeps
    | with_reducible apply State.startImage_keeps
    | with_reducible apply State.withRange_keeps
    | with_reducible apply State.unstage_keeps
    | intro _
    | split

theorem State.firmwareActivate_keeps {b₀ : State} (s : State) (c : Call) (h₀ : Keeps b₀ s) : Keeps b₀ (State.firmwareActivate s c).1 := by
  unfold State.firmwareActivate
  repeat' first
    | with_reducible exact Keeps.refl _
    | with_reducible assumption
    | dsimp only
    | with_reducible apply answered_keeps
    | with_reducible apply checked_keeps
    | with_reducible apply State.updDir_keeps

theorem State.deviceReset_keeps {b₀ : State} (s : State) (c : Call) (pl dt : Nat) (h₀ : Keeps b₀ s) : Keeps b₀ (State.deviceReset s c pl dt).1 := by
  unfold State.deviceReset
  repeat' first
    | with_reducible exact Keeps.refl _
    | with_reducible assumption
    | dsimp only
    | with_reducible apply State.postAll_keeps
    | with_reducible apply answered_keeps
    | with_reducible apply checked_keeps
    | with_reducible apply State.updBoot_keeps
    | intro _
    | split

theorem State.siteConfigStage_keeps {b₀ : State} (s : State) (c : Call) (pl id : Nat) (h₀ : Keeps b₀ s) : Keeps b₀ (State.siteConfigStage s c pl id).1 := by
  unfold State.siteConfigStage
  repeat' first
    | with_reducible exact Keeps.refl _
    | with_reducible assumption
    | dsimp only
    | with_reducible apply answered_keeps
    | with_reducible apply checked_keeps
    | with_reducible apply State.startSite_keeps
    | with_reducible apply State.withRange_keeps
    | intro _
    | split

theorem State.updWatch_keeps {b₀ : State} (s : State) (k : Nat) (g : SensorState → SensorState) (h₀ : Keeps b₀ s) : Keeps b₀ (State.updWatch s k g) := by
  unfold State.updWatch
  repeat' first
    | with_reducible exact Keeps.refl _
    | with_reducible assumption
    | simp only [putMgmt_fold]
    | dsimp only
    | with_reducible apply Keeps.mgmt
    | with_reducible exact fun h => Table.wf_set h _ _
    | with_reducible exact id

theorem State.platformEvent_keeps {b₀ : State} (s : State) (k new previous : Nat) (h₀ : Keeps b₀ s) : Keeps b₀ (State.platformEvent s k new previous) := by
  unfold State.platformEvent
  repeat' first
    | with_reducible exact Keeps.refl _
    | with_reducible assumption
    | simp only [putMgmt_fold]
    | dsimp only
    | with_reducible apply State.sendMgmt_keeps
    | with_reducible apply State.updWatch_keeps
    | with_reducible apply Keeps.mgmt
    | with_reducible exact id
    | intro _
    | split

theorem State.evalSensor_keeps {b₀ : State} (s : State) (k : Nat) (h₀ : Keeps b₀ s) : Keeps b₀ (State.evalSensor s k) := by
  unfold State.evalSensor
  repeat' first
    | with_reducible exact Keeps.refl _
    | with_reducible assumption
    | dsimp only
    | with_reducible apply State.updWatch_keeps
    | with_reducible apply State.platformEvent_keeps
    | intro _
    | split

theorem State.watchSensors_keeps {b₀ : State} (s : State) (h₀ : Keeps b₀ s) : Keeps b₀ (State.watchSensors s) := by
  unfold State.watchSensors
  repeat' first
    | with_reducible exact Keeps.refl _
    | with_reducible assumption
    | with_reducible apply State.evalSensor_keeps
    | with_reducible apply Keeps.foldl
    | intro _
    | split

theorem State.rateIntervalEnd_keeps {b₀ : State} (s : State) (k : Nat) (h₀ : Keeps b₀ s) : Keeps b₀ (State.rateIntervalEnd s k) := by
  unfold State.rateIntervalEnd
  repeat' first
    | with_reducible exact Keeps.refl _
    | with_reducible assumption
    | dsimp only
    | with_reducible apply State.updWatch_keeps
    | with_reducible apply State.platformEvent_keeps
    | intro _
    | split

theorem State.eventAcked_keeps {b₀ : State} (s : State) (m : Medium) (k : Nat) (h₀ : Keeps b₀ s) : Keeps b₀ (State.eventAcked s m k) := by
  unfold State.eventAcked
  repeat' first
    | with_reducible exact Keeps.refl _
    | with_reducible assumption
    | simp only [putMgmt_fold]
    | dsimp only
    | with_reducible apply Keeps.mgmt
    | with_reducible exact id
    | intro _
    | split

theorem State.eventRetry_keeps {b₀ : State} (s : State) (k : Nat) (h₀ : Keeps b₀ s) : Keeps b₀ (State.eventRetry s k) := by
  unfold State.eventRetry
  repeat' first
    | with_reducible exact Keeps.refl _
    | with_reducible assumption
    | simp only [putMgmt_fold]
    | dsimp only
    | with_reducible apply State.sendMgmt_keeps
    | with_reducible apply State.platformEvent_keeps
    | with_reducible apply Keeps.mgmt
    | with_reducible exact id
    | intro _
    | split

theorem State.screen_keeps {b₀ : State} (s : State) (c : Call) (h₀ : Keeps b₀ s) : Keeps b₀ (State.screen s c).1 := by
  unfold State.screen
  repeat' first
    | with_reducible exact Keeps.refl _
    | with_reducible assumption
    | dsimp only
    | with_reducible apply State.payload_keeps
    | split

theorem State.accept_keeps {b₀ : State} (s : State) (c : Call) (h₀ : Keeps b₀ s) : Keeps b₀ (State.accept s c) := by
  unfold State.accept
  repeat' first
    | with_reducible exact Keeps.refl _
    | with_reducible assumption
    | dsimp only
    | with_reducible apply State.setPort_keeps
    | with_reducible apply State.complete_keeps
    | with_reducible apply State.screen_keeps
    | with_reducible apply Keeps.dt
    | with_reducible exact id
    | split

theorem State.runTransport_keeps {b₀ : State} (s : State) (e : Accepted) (pl : Nat) (h₀ : Keeps b₀ s) : Keeps b₀ (State.runTransport s e pl).1 := by
  unfold State.runTransport
  repeat' first
    | with_reducible exact Keeps.refl _
    | with_reducible assumption
    | dsimp only
    | with_reducible apply answered_keeps
    | with_reducible apply State.ringPairCreate_keeps
    | with_reducible apply State.ringPairDelete_keeps
    | with_reducible apply State.eventRingSet_keeps
    | with_reducible apply State.coalesceSet_keeps
    | split

theorem State.runSetup_keeps {b₀ : State} (s : State) (e : Accepted) (pl : Nat) (h₀ : Keeps b₀ s) : Keeps b₀ (State.runSetup s e pl).1 := by
  unfold State.runSetup
  repeat' first
    | with_reducible exact Keeps.refl _
    | with_reducible assumption
    | dsimp only
    | with_reducible apply State.partitionQuery_keeps
    | with_reducible apply State.partitionQuotaSet_keeps
    | with_reducible apply State.partitionHostLossSet_keeps
    | with_reducible apply State.partitionTrimSet_keeps
    | with_reducible apply State.siteQuery_keeps
    | with_reducible apply State.apertureRegister_keeps
    | with_reducible apply State.apertureDeregister_keeps
    | with_reducible apply State.modelLoad_keeps
    | with_reducible apply State.modelQuery_keeps
    | with_reducible apply State.modelUnload_keeps
    | with_reducible apply State.modelList_keeps
    | with_reducible apply State.pipelineCreate_keeps
    | with_reducible apply State.pipelineQuery_keeps
    | with_reducible apply State.pipelineList_keeps
    | with_reducible apply State.pipelinePrefixSet_keeps
    | with_reducible apply State.pipelineDelete_keeps
    | split

theorem State.runStreams_keeps {b₀ : State} (s : State) (e : Accepted) (pl : Nat) (h₀ : Keeps b₀ s) : Keeps b₀ (State.runStreams s e pl).1 := by
  unfold State.runStreams
  repeat' first
    | with_reducible exact Keeps.refl _
    | with_reducible assumption
    | dsimp only
    | with_reducible apply State.streamCastOn_keeps
    | with_reducible apply State.streamFeed_keeps
    | with_reducible apply State.streamPause_keeps
    | with_reducible apply State.streamResume_keeps
    | with_reducible apply State.streamRewind_keeps
    | with_reducible apply State.streamBindOff_keeps
    | with_reducible apply State.streamInputSet_keeps
    | with_reducible apply State.streamQuery_keeps
    | with_reducible apply State.streamList_keeps
    | with_reducible apply State.branchAttach_keeps
    | with_reducible apply State.branchDetach_keeps
    | with_reducible apply State.branchResume_keeps
    | with_reducible apply State.branchOutputSet_keeps
    | with_reducible apply State.branchQuery_keeps
    | split

theorem State.runDevice_keeps {b₀ : State} (s : State) (e : Accepted) (pl : Nat) (h₀ : Keeps b₀ s) : Keeps b₀ (State.runDevice s e pl).1 := by
  unfold State.runDevice
  repeat' first
    | with_reducible exact Keeps.refl _
    | with_reducible assumption
    | dsimp only
    | with_reducible apply answered_keeps
    | with_reducible apply State.portConfigure_keeps
    | with_reducible apply State.portEnable_keeps
    | with_reducible apply State.portQuery_keeps
    | with_reducible apply State.tdmLoopback_keeps
    | with_reducible apply State.telemetryRead_keeps
    | with_reducible apply State.journalRead_keeps
    | with_reducible apply State.diagInject_keeps
    | with_reducible apply State.deviceQuery_keeps
    | with_reducible apply State.powerCapSet_keeps
    | with_reducible apply State.firmwareStage_keeps
    | with_reducible apply State.firmwareActivate_keeps
    | with_reducible apply State.deviceReset_keeps
    | with_reducible apply State.siteConfigStage_keeps
    | split

theorem State.runCall_keeps {b₀ : State} (s : State) (e : Accepted) (h₀ : Keeps b₀ s) : Keeps b₀ (State.runCall s e).1 := by
  unfold State.runCall
  repeat' first
    | with_reducible exact Keeps.refl _
    | with_reducible assumption
    | dsimp only
    | with_reducible apply State.runTransport_keeps
    | with_reducible apply State.runSetup_keeps
    | with_reducible apply State.runStreams_keeps
    | with_reducible apply State.runDevice_keeps
    | split

theorem State.startCall_keeps {b₀ : State} (s : State) (n : Nat) (e : Accepted) (h₀ : Keeps b₀ s) : Keeps b₀ (State.startCall s n e) := by
  unfold State.startCall
  repeat' first
    | with_reducible exact Keeps.refl _
    | with_reducible assumption
    | dsimp only
    | with_reducible apply State.updPort_keeps
    | with_reducible apply State.complete_keeps
    | with_reducible apply State.runCall_keeps
    | intro _
    | split

theorem State.finishCall_keeps {b₀ : State} (s : State) (n : Nat) (e : Accepted) (h₀ : Keeps b₀ s) : Keeps b₀ (State.finishCall s n e) := by
  unfold State.finishCall
  repeat' first
    | with_reducible exact Keeps.refl _
    | with_reducible assumption
    | dsimp only
    | with_reducible apply State.finishPair_keeps
    | with_reducible apply State.finishResume_keeps
    | with_reducible apply State.finishAperture_keeps
    | with_reducible apply State.finishUnload_keeps
    | with_reducible apply State.finishPrefix_keeps
    | with_reducible apply State.finishDelete_keeps
    | split

theorem State.settlePort_keeps {b₀ : State} (s : State) (n : Nat) (h₀ : Keeps b₀ s) : Keeps b₀ (State.settlePort s n) := by
  unfold State.settlePort
  repeat' first
    | with_reducible exact Keeps.refl _
    | with_reducible assumption
    | dsimp only
    | with_reducible apply State.startCall_keeps
    | with_reducible apply State.finishCall_keeps
    | with_reducible apply Keeps.foldl
    | intro _
    | split

theorem State.settleRounds_keeps {b₀ : State} : ∀ (k : Nat) (s : State), Keeps b₀ s → Keeps b₀ (s.settleRounds k)
  | 0, _, h₀ => h₀
  | k + 1, s, h₀ => by
    unfold State.settleRounds
    exact State.settleRounds_keeps k _ (Keeps.foldl h₀ (fun t n => State.settlePort_keeps t n (Keeps.refl t)))

theorem State.settle_keeps {b₀ : State} (s : State) (h₀ : Keeps b₀ s) : Keeps b₀ (State.settle s) := by
  unfold State.settle
  repeat' first
    | with_reducible exact Keeps.refl _
    | with_reducible assumption
    | dsimp only
    | with_reducible apply State.serveOpens_keeps
    | with_reducible apply State.settleRounds_keeps
    | with_reducible apply State.serveWants_keeps
    | with_reducible apply State.reportRetires_keeps
    | with_reducible apply State.serveRepairs_keeps
    | with_reducible apply State.sweepLoads_keeps
    | with_reducible apply State.watchSensors_keeps

theorem State.goMailbox_keeps {b₀ : State} (s : State) (n : Nat) (extBytes : Option Nat) (data : HostData) (h₀ : Keeps b₀ s) : Keeps b₀ (State.goMailbox s n extBytes data) := by
  unfold State.goMailbox
  repeat' first
    | with_reducible exact Keeps.refl _
    | with_reducible assumption
    | dsimp only
    | with_reducible apply State.updPort_keeps
    | with_reducible apply State.violate_keeps
    | with_reducible apply State.accept_keeps
    | intro _
    | split

theorem State.takeEntry_keeps {b₀ : State} (s : State) (n k : Nat) (c : Call) (h₀ : Keeps b₀ s) : Keeps b₀ (State.takeEntry s n k c) := by
  unfold State.takeEntry
  repeat' first
    | with_reducible exact Keeps.refl _
    | with_reducible assumption
    | dsimp only
    | with_reducible apply State.setPort_keeps
    | with_reducible apply State.accept_keeps
    | split

theorem State.lerad_keeps {b₀ : State} (s : State) (c : Call) (op : Nat) (h₀ : Keeps b₀ s) : Keeps b₀ (State.lerad s c op) := by
  unfold State.lerad
  repeat' first
    | with_reducible exact Keeps.refl _
    | with_reducible assumption
    | dsimp only
    | with_reducible apply State.updPort_keeps
    | with_reducible apply State.settle_keeps
    | with_reducible apply State.goMailbox_keeps
    | with_reducible apply State.takeEntry_keeps
    | intro _
    | split

end Sys2Proof.Machine
end

