-- ==== Sys2Proof/Laws/KeepsRows.lean ====
section
/-!
SUPPORT. Laws/KeepsRows.lean: that what the rows of the table do keep the queue and the invariant. One lemma per operation.
-/
namespace Sys2Proof.Machine

open Sys2Proof.Safety

theorem State.commitComplete_keeps {b₀ : State} (s : State) (st : Stage) (obj : Nat) (h₀ : Keeps b₀ s) : Keeps b₀ (State.commitComplete s st obj) := by
  unfold State.commitComplete
  repeat' first
    | with_reducible exact Keeps.refl _
    | with_reducible assumption
    | dsimp only
    | with_reducible apply State.dispatchAll_keeps
    | with_reducible apply State.updStream_keeps
    | with_reducible apply State.endOps_keeps
    | with_reducible apply State.pagesAdvance_keeps
    | with_reducible apply State.setSect_keeps
    | with_reducible apply State.releaseEntries_keeps
    | with_reducible apply State.beginCommit_keeps
    | with_reducible apply State.commitDue_keeps
    | with_reducible apply State.advance_keeps
    | intro _
    | split

theorem State.flagFall_keeps {b₀ : State} (s : State) (b : Nat) (st : Stage) (row : Nat) (h₀ : Keeps b₀ s) : Keeps b₀ (State.flagFall s b st row) := by
  unfold State.flagFall
  repeat' first
    | with_reducible exact Keeps.refl _
    | with_reducible assumption
    | dsimp only
    | with_reducible apply State.dispatchAll_keeps
    | with_reducible apply State.fallAt_keeps
    | with_reducible apply State.advance_keeps
    | split

theorem State.postMerged_keeps {b₀ : State} (s : State) (part b gen : Nat) (r : FlagReport) (h₀ : Keeps b₀ s) : Keeps b₀ (State.postMerged s part b gen r) := by
  unfold State.postMerged
  repeat' first
    | with_reducible exact Keeps.refl _
    | with_reducible assumption
    | dsimp only
    | with_reducible apply State.post_keeps

theorem State.flagIntervalEnd_keeps {b₀ : State} (s : State) (b : Nat) (h₀ : Keeps b₀ s) : Keeps b₀ (State.flagIntervalEnd s b) := by
  unfold State.flagIntervalEnd
  repeat' first
    | with_reducible exact Keeps.refl _
    | with_reducible assumption
    | dsimp only
    | with_reducible apply State.updBranch_keeps
    | with_reducible apply State.postMerged_keeps
    | with_reducible apply Keeps.foldl
    | with_reducible apply Keeps.foldlFst
    | intro _
    | split

theorem State.castingInEnds_keeps {b₀ : State} (s : State) (i : Nat) (h₀ : Keeps b₀ s) : Keeps b₀ (State.castingInEnds s i) := by
  unfold State.castingInEnds
  repeat' first
    | with_reducible exact Keeps.refl _
    | with_reducible assumption
    | with_reducible apply State.castInDone_keeps
    | split

theorem State.restoreEnds_keeps {b₀ : State} (s : State) (i : Nat) (h₀ : Keeps b₀ s) : Keeps b₀ (State.restoreEnds s i) := by
  unfold State.restoreEnds
  repeat' first
    | with_reducible exact Keeps.refl _
    | with_reducible assumption
    | with_reducible apply State.frogRestore_keeps
    | split

theorem State.timeLimit_keeps {b₀ : State} (s : State) (n id : Nat) (h₀ : Keeps b₀ s) : Keeps b₀ (State.timeLimit s n id) := by
  unfold State.timeLimit
  repeat' first
    | with_reducible exact Keeps.refl _
    | with_reducible assumption
    | dsimp only
    | with_reducible apply State.complete_keeps
    | with_reducible apply State.castOnRefused_keeps
    | with_reducible apply State.attachRefused_keeps
    | with_reducible apply State.releaseLoad_keeps
    | with_reducible apply State.dropReserved_keeps
    | intro _
    | split

theorem State.taskAt_keeps {b₀ : State} (s : State) (t : Nat) (work : List TileOp) (h₀ : Keeps b₀ s) : Keeps b₀ (State.taskAt s t work) := by
  unfold State.taskAt
  repeat' first
    | with_reducible exact Keeps.refl _
    | with_reducible assumption
    | with_reducible apply State.tileWork_keeps
    | split

theorem State.timerExpires_keeps {b₀ : State} (s : State) (f : Nat) (h₀ : Keeps b₀ s) : Keeps b₀ (State.timerExpires s f) := by
  unfold State.timerExpires
  repeat' first
    | with_reducible exact Keeps.refl _
    | with_reducible assumption
    | dsimp only
    | with_reducible apply State.updFlank_keeps
    | with_reducible apply State.dispatch_keeps
    | intro _
    | split

theorem State.readFailed_keeps {b₀ : State} (s : State) (n k first count attempts : Nat) (lost : Bool) (h₀ : Keeps b₀ s) : Keeps b₀ (State.readFailed s n k first count attempts lost) := by
  unfold State.readFailed
  repeat' first
    | with_reducible exact Keeps.refl _
    | with_reducible assumption
    | dsimp only
    | with_reducible apply State.updPort_keeps
    | with_reducible apply State.post_keeps
    | intro _
    | split

theorem State.hostFails_keeps {b₀ : State} (s : State) (n : Nat) (r : HostRequest) (kind : Nat) (keepTag lost : Bool) (h₀ : Keeps b₀ s) : Keeps b₀ (State.hostFails s n r kind keepTag lost) := by
  unfold State.hostFails
  repeat' first
    | with_reducible exact Keeps.refl _
    | with_reducible assumption
    | dsimp only
    | with_reducible apply State.updFeeder_keeps
    | with_reducible apply State.abortOp_keeps
    | with_reducible apply State.updRequest_keeps
    | with_reducible apply State.returnTag_keeps
    | with_reducible apply State.requestFault_keeps
    | with_reducible apply State.readFailed_keeps
    | intro _
    | split

theorem State.failPort_keeps {b₀ : State} (s : State) (n : Nat) (h₀ : Keeps b₀ s) : Keeps b₀ (State.failPort s n) := by
  unfold State.failPort
  repeat' first
    | with_reducible exact Keeps.refl _
    | with_reducible assumption
    | dsimp only
    | with_reducible apply State.updPort_keeps
    | with_reducible apply State.requestFault_keeps
    | with_reducible apply State.hostFails_keeps
    | with_reducible apply Keeps.foldl
    | intro _

theorem State.leaveReset_keeps {b₀ : State} (s : State) (n : Nat) (h₀ : Keeps b₀ s) : Keeps b₀ (State.leaveReset s n) := by
  unfold State.leaveReset
  repeat' first
    | with_reducible exact Keeps.refl _
    | with_reducible assumption
    | dsimp only
    | with_reducible apply State.setPort_keeps
    | with_reducible apply State.hotReset_keeps
    | split

theorem State.dlUp_keeps {b₀ : State} (s : State) (n : Nat) (h₀ : Keeps b₀ s) : Keeps b₀ (State.dlUp s n) := by
  unfold State.dlUp
  repeat' first
    | with_reducible exact Keeps.refl _
    | with_reducible assumption
    | dsimp only
    | with_reducible apply State.setPort_keeps
    | with_reducible apply State.notifyDiscovery_keeps
    | with_reducible apply State.post_keeps
    | with_reducible apply State.training_keeps
    | split

theorem State.dlDown_keeps {b₀ : State} (s : State) (n : Nat) (h₀ : Keeps b₀ s) : Keeps b₀ (State.dlDown s n) := by
  unfold State.dlDown
  repeat' first
    | with_reducible exact Keeps.refl _
    | with_reducible assumption
    | dsimp only
    | with_reducible apply State.setPort_keeps
    | with_reducible apply State.dropMedium_keeps
    | with_reducible apply State.failPort_keeps
    | split

theorem State.enterD3_keeps {b₀ : State} (s : State) (n : Nat) (h₀ : Keeps b₀ s) : Keeps b₀ (State.enterD3 s n) := by
  unfold State.enterD3
  repeat' first
    | with_reducible exact Keeps.refl _
    | with_reducible assumption
    | dsimp only
    | with_reducible apply State.setPort_keeps
    | split

theorem State.withConfig_keeps {b₀ : State} (s : State) (n : Nat) (g : PortConfig → PortConfig) (h₀ : Keeps b₀ s) : Keeps b₀ (State.withConfig s n g) := by
  unfold State.withConfig
  repeat' first
    | with_reducible exact Keeps.refl _
    | with_reducible assumption
    | dsimp only
    | with_reducible apply State.setPort_keeps

theorem State.leaveD3_keeps {b₀ : State} (s : State) (n : Nat) (h₀ : Keeps b₀ s) : Keeps b₀ (State.leaveD3 s n) := by
  unfold State.leaveD3
  repeat' first
    | with_reducible exact Keeps.refl _
    | with_reducible assumption
    | dsimp only
    | with_reducible apply State.withConfig_keeps
    | intro _
    | split

theorem State.setBusMaster_keeps {b₀ : State} (s : State) (n : Nat) (on : Bool) (h₀ : Keeps b₀ s) : Keeps b₀ (State.setBusMaster s n on) := by
  unfold State.setBusMaster
  repeat' first
    | with_reducible exact Keeps.refl _
    | with_reducible assumption
    | dsimp only
    | with_reducible apply State.withConfig_keeps
    | intro _
    | split

theorem State.removeRings_keeps {b₀ : State} (s : State) (n : Nat) (h₀ : Keeps b₀ s) : Keeps b₀ (State.removeRings s n) := by
  refine h₀.trans ⟨rfl, fun ⟨a, b, c, d⟩ => ⟨a, b, c, ?_⟩⟩
  have hs : Table.wf {} (s.removeRings n).streams = true := by unfold State.removeRings; dsimp only; exact Table.wf_mapVals d.streams _
  have hb : Table.wf {} (s.removeRings n).branches = true := by unfold State.removeRings; dsimp only; exact Table.wf_mapVals d.branches _
  exact { d with streams := hs, branches := hb }

theorem State.failLoads_keeps {b₀ : State} (s : State) (n : Nat) (h₀ : Keeps b₀ s) : Keeps b₀ (State.failLoads s n) := by
  unfold State.failLoads
  repeat' first
    | with_reducible exact Keeps.refl _
    | with_reducible assumption
    | simp only [putLoads_fold]
    | dsimp only
    | with_reducible apply State.dropRequests_keeps
    | with_reducible apply Keeps.loads
    | with_reducible apply Keeps.foldl
    | intro _

theorem State.portReset_keeps {b₀ : State} (s : State) (n : Nat) (cause : ResetCause) (h₀ : Keeps b₀ s) : Keeps b₀ (State.portReset s n cause) := by
  unfold State.portReset
  repeat' first
    | with_reducible exact Keeps.refl _
    | with_reducible assumption
    | dsimp only
    | with_reducible apply State.updPort_keeps
    | with_reducible apply State.dropMedium_keeps
    | with_reducible apply State.failPort_keeps
    | with_reducible apply State.removeRings_keeps
    | with_reducible apply State.failLoads_keeps
    | with_reducible apply State.flr_keeps
    | intro _
    | split

theorem State.perstOn_keeps {b₀ : State} (s : State) (n : Nat) (h₀ : Keeps b₀ s) : Keeps b₀ (State.perstOn s n) := by
  unfold State.perstOn
  repeat' first
    | with_reducible exact Keeps.refl _
    | with_reducible assumption
    | dsimp only
    | with_reducible apply State.updPort_keeps
    | with_reducible apply State.portReset_keeps
    | with_reducible apply State.hotReset_keeps
    | intro _
    | split

theorem State.perstOff_keeps {b₀ : State} (s : State) (n : Nat) (h₀ : Keeps b₀ s) : Keeps b₀ (State.perstOff s n) := by
  unfold State.perstOff
  repeat' first
    | with_reducible exact Keeps.refl _
    | with_reducible assumption
    | dsimp only
    | with_reducible apply State.updPort_keeps
    | with_reducible apply State.leaveReset_keeps
    | intro _
    | split

theorem State.hotReset_keeps {b₀ : State} (s : State) (n : Nat) (h₀ : Keeps b₀ s) : Keeps b₀ (State.hotReset s n) := by
  unfold State.hotReset
  repeat' first
    | with_reducible exact Keeps.refl _
    | with_reducible assumption
    | dsimp only
    | with_reducible apply State.updPort_keeps
    | with_reducible apply State.portReset_keeps
    | intro _
    | split

theorem State.hotResetExit_keeps {b₀ : State} (s : State) (n : Nat) (h₀ : Keeps b₀ s) : Keeps b₀ (State.hotResetExit s n) := by
  unfold State.hotResetExit
  repeat' first
    | with_reducible exact Keeps.refl _
    | with_reducible assumption
    | dsimp only
    | with_reducible apply State.updPort_keeps
    | with_reducible apply State.leaveReset_keeps
    | with_reducible apply State.hotReset_keeps
    | intro _
    | split

theorem State.flr_keeps {b₀ : State} (s : State) (n : Nat) (h₀ : Keeps b₀ s) : Keeps b₀ (State.flr s n) := by
  unfold State.flr
  repeat' first
    | with_reducible exact Keeps.refl _
    | with_reducible assumption
    | dsimp only
    | with_reducible apply State.updPort_keeps
    | with_reducible apply State.portReset_keeps
    | intro _
    | split

theorem State.configSpaceReady_keeps {b₀ : State} (s : State) (n : Nat) (h₀ : Keeps b₀ s) : Keeps b₀ (State.configSpaceReady s n) := by
  unfold State.configSpaceReady
  repeat' first
    | with_reducible exact Keeps.refl _
    | with_reducible assumption
    | dsimp only
    | with_reducible apply State.setPort_keeps
    | split

theorem State.hostLossApply_keeps {b₀ : State} (s : State) (n : Nat) (h₀ : Keeps b₀ s) : Keeps b₀ (State.hostLossApply s n) := by
  unfold State.hostLossApply
  repeat' first
    | with_reducible exact Keeps.refl _
    | with_reducible assumption
    | dsimp only
    | with_reducible apply State.setPort_keeps
    | with_reducible apply State.applyLoss_keeps
    | with_reducible apply State.hotReset_keeps
    | with_reducible apply State.flr_keeps
    | with_reducible apply Keeps.dt
    | with_reducible exact id
    | with_reducible apply Keeps.foldl
    | intro _
    | split

theorem State.issueRead_keeps {b₀ : State} (s : State) (n k first count attempts : Nat) (h₀ : Keeps b₀ s) : Keeps b₀ (State.issueRead s n k first count attempts) := by
  unfold State.issueRead
  repeat' first
    | with_reducible exact Keeps.refl _
    | with_reducible assumption
    | dsimp only
    | with_reducible apply State.updPort_keeps
    | with_reducible apply State.newOp_keeps
    | intro _
    | split

theorem State.entryFetch_keeps {b₀ : State} (s : State) (n : Nat) (h₀ : Keeps b₀ s) : Keeps b₀ (State.entryFetch s n) := by
  unfold State.entryFetch
  repeat' first
    | with_reducible exact Keeps.refl _
    | with_reducible assumption
    | dsimp only
    | with_reducible apply State.updPort_keeps
    | with_reducible apply State.issueRead_keeps
    | intro _
    | split

theorem State.fetchRetry_keeps {b₀ : State} (s : State) (n k : Nat) (h₀ : Keeps b₀ s) : Keeps b₀ (State.fetchRetry s n k) := by
  unfold State.fetchRetry
  repeat' first
    | with_reducible exact Keeps.refl _
    | with_reducible assumption
    | dsimp only
    | with_reducible apply State.updPort_keeps
    | with_reducible apply State.issueRead_keeps
    | intro _
    | split

theorem State.acceptEntries_keeps {b₀ : State} (n k : Nat) : ∀ (es : List SqEntry) (s : State), Keeps b₀ s → Keeps b₀ (s.acceptEntries n k es)
  | [], _, h₀ => by unfold State.acceptEntries; exact h₀
  | e :: es, s, h₀ => by
    unfold State.acceptEntries
    exact State.acceptEntries_keeps n k es _ (State.accept_keeps _ _ (State.updPort_keeps _ _ _ h₀))

theorem State.drainReads_keeps {b₀ : State} (n k : Nat) : ∀ (fuel : Nat) (s : State), Keeps b₀ s → Keeps b₀ (s.drainReads n k fuel)
  | 0, _, h₀ => h₀
  | fuel + 1, s, h₀ => by
    unfold State.drainReads
    dsimp only
    split
    · exact h₀
    · exact State.drainReads_keeps n k fuel _ (State.acceptEntries_keeps n k _ _ (State.updPort_keeps _ _ _ h₀))

theorem State.entriesArrive_keeps {b₀ : State} (s : State) (n k first : Nat) (es : List SqEntry) (h₀ : Keeps b₀ s) : Keeps b₀ (State.entriesArrive s n k first es) := by
  unfold State.entriesArrive
  repeat' first
    | with_reducible exact Keeps.refl _
    | with_reducible assumption
    | dsimp only
    | with_reducible apply State.updPort_keeps
    | with_reducible apply State.drainReads_keeps
    | intro _
    | split

theorem State.hostData_keeps {b₀ : State} (s : State) (tag value : Nat) (h₀ : Keeps b₀ s) : Keeps b₀ (State.hostData s tag value) := by
  unfold State.hostData
  repeat' first
    | with_reducible exact Keeps.refl _
    | with_reducible assumption
    | dsimp only
    | with_reducible apply State.updFeeder_keeps
    | with_reducible apply State.inject_keeps
    | with_reducible apply State.updRequest_keeps
    | with_reducible apply State.returnTag_keeps
    | intro _
    | split

theorem State.hostBrings_keeps {b₀ : State} (s : State) (r : HostRequest) (n : Nat) (data : CplData) (h₀ : Keeps b₀ s) : Keeps b₀ (State.hostBrings s r n data) := by
  unfold State.hostBrings
  repeat' first
    | with_reducible exact Keeps.refl _
    | with_reducible assumption
    | dsimp only
    | with_reducible apply State.frameArrives_keeps
    | with_reducible apply State.entriesArrive_keeps
    | with_reducible apply State.hostData_keeps
    | with_reducible apply State.endOps_keeps
    | intro _
    | split

theorem State.hostCompletion_keeps {b₀ : State} (s : State) (n tag : Nat) (status : CplStatus) (poisoned : Bool) (data : CplData) (h₀ : Keeps b₀ s) : Keeps b₀ (State.hostCompletion s n tag status poisoned data) := by
  unfold State.hostCompletion
  repeat' first
    | with_reducible exact Keeps.refl _
    | with_reducible assumption
    | dsimp only
    | with_reducible apply State.hostFails_keeps
    | with_reducible apply State.hostBrings_keeps
    | with_reducible apply State.setPort_keeps
    | with_reducible apply State.updPort_keeps
    | with_reducible apply State.updFeeder_keeps
    | intro _
    | split

theorem State.completionTimeout_keeps {b₀ : State} (s : State) (n tag : Nat) (h₀ : Keeps b₀ s) : Keeps b₀ (State.completionTimeout s n tag) := by
  unfold State.completionTimeout
  repeat' first
    | with_reducible exact Keeps.refl _
    | with_reducible assumption
    | dsimp only
    | with_reducible apply State.setPort_keeps
    | with_reducible apply State.updPort_keeps
    | with_reducible apply State.hostFails_keeps
    | intro _
    | split

theorem State.quarantineEnd_keeps {b₀ : State} (s : State) (n tag : Nat) (h₀ : Keeps b₀ s) : Keeps b₀ (State.quarantineEnd s n tag) := by
  unfold State.quarantineEnd
  repeat' first
    | with_reducible exact Keeps.refl _
    | with_reducible assumption
    | dsimp only
    | with_reducible apply State.setPort_keeps
    | with_reducible apply State.returnTag_keeps
    | intro _
    | split

theorem State.aggExpires_keeps {b₀ : State} (s : State) (n v : Nat) (h₀ : Keeps b₀ s) : Keeps b₀ (State.aggExpires s n v) := by
  unfold State.aggExpires
  repeat' first
    | with_reducible exact Keeps.refl _
    | with_reducible assumption
    | dsimp only
    | with_reducible apply State.updPort_keeps
    | intro _
    | split

theorem State.inboundWrite_keeps {b₀ : State} (s : State) (n off size value : Nat) (h₀ : Keeps b₀ s) : Keeps b₀ (State.inboundWrite s n off size value) := by
  unfold State.inboundWrite
  repeat' first
    | with_reducible exact Keeps.refl _
    | with_reducible assumption
    | dsimp only
    | with_reducible apply State.setPort_keeps
    | with_reducible apply State.violate_keeps
    | split

theorem State.statusWrite_keeps {b₀ : State} (s : State) (n value : Nat) (h₀ : Keeps b₀ s) : Keeps b₀ (State.statusWrite s n value) := by
  unfold State.statusWrite
  repeat' first
    | with_reducible exact Keeps.refl _
    | with_reducible assumption
    | dsimp only
    | with_reducible apply State.updPort_keeps

theorem State.doorbellRefused_keeps {b₀ : State} (s : State) (n kind off value : Nat) (h₀ : Keeps b₀ s) : Keeps b₀ (State.doorbellRefused s n kind off value) := by
  unfold State.doorbellRefused
  repeat' first
    | with_reducible exact Keeps.refl _
    | with_reducible assumption
    | with_reducible apply State.violate_keeps

theorem State.sqDoorbell_keeps {b₀ : State} (s : State) (n k value : Nat) (h₀ : Keeps b₀ s) : Keeps b₀ (State.sqDoorbell s n k value) := by
  unfold State.sqDoorbell
  repeat' first
    | with_reducible exact Keeps.refl _
    | with_reducible assumption
    | dsimp only
    | with_reducible apply State.setPort_keeps
    | with_reducible apply State.doorbellRefused_keeps
    | split

theorem State.cqDoorbell_keeps {b₀ : State} (s : State) (n k value : Nat) (h₀ : Keeps b₀ s) : Keeps b₀ (State.cqDoorbell s n k value) := by
  unfold State.cqDoorbell
  repeat' first
    | with_reducible exact Keeps.refl _
    | with_reducible assumption
    | dsimp only
    | with_reducible apply State.setPort_keeps
    | with_reducible apply State.doorbellRefused_keeps
    | split

theorem State.eventDoorbell_keeps {b₀ : State} (s : State) (n value : Nat) (h₀ : Keeps b₀ s) : Keeps b₀ (State.eventDoorbell s n value) := by
  unfold State.eventDoorbell
  repeat' first
    | with_reducible exact Keeps.refl _
    | with_reducible assumption
    | dsimp only
    | with_reducible apply State.setPort_keeps
    | with_reducible apply State.doorbellRefused_keeps
    | split

theorem State.vectorUnmask_keeps {b₀ : State} (s : State) (n : Nat) (what : Unmask) (h₀ : Keeps b₀ s) : Keeps b₀ (State.vectorUnmask s n what) := by
  unfold State.vectorUnmask
  repeat' first
    | with_reducible exact Keeps.refl _
    | with_reducible assumption
    | dsimp only
    | with_reducible apply State.setPort_keeps
    | intro _
    | split

theorem State.dwordWrite_keeps {b₀ : State} (s : State) (n off value : Nat) (ext : Option Nat) (data : HostData) (h₀ : Keeps b₀ s) : Keeps b₀ (State.dwordWrite s n off value ext data) := by
  unfold State.dwordWrite
  repeat' first
    | with_reducible exact Keeps.refl _
    | with_reducible assumption
    | dsimp only
    | with_reducible apply State.updPort_keeps
    | with_reducible apply State.goMailbox_keeps
    | with_reducible apply State.inboundWrite_keeps
    | with_reducible apply State.statusWrite_keeps
    | with_reducible apply State.sqDoorbell_keeps
    | with_reducible apply State.cqDoorbell_keeps
    | with_reducible apply State.eventDoorbell_keeps
    | intro _
    | split

theorem State.bar0Write_keeps {b₀ : State} (s : State) (n off size value : Nat) (ext : Option Nat) (data : HostData) (h₀ : Keeps b₀ s) : Keeps b₀ (State.bar0Write s n off size value ext data) := by
  unfold State.bar0Write
  repeat' first
    | with_reducible exact Keeps.refl _
    | with_reducible assumption
    | with_reducible apply State.violate_keeps
    | with_reducible apply State.inboundWrite_keeps
    | with_reducible apply State.dwordWrite_keeps
    | split

theorem State.bar0Access_keeps {b₀ : State} (s : State) (n off size : Nat) (h₀ : Keeps b₀ s) : Keeps b₀ (State.bar0Access s n off size) := by
  unfold State.bar0Access
  repeat' first
    | with_reducible exact Keeps.refl _
    | with_reducible assumption
    | dsimp only
    | with_reducible apply State.updPort_keeps
    | with_reducible apply State.violate_keeps
    | intro _
    | split

theorem State.reservedAccess_keeps {b₀ : State} (s : State) (n : Nat) (write : Bool) (off size : Nat) (h₀ : Keeps b₀ s) : Keeps b₀ (State.reservedAccess s n write off size) := by
  unfold State.reservedAccess
  repeat' first
    | with_reducible exact Keeps.refl _
    | with_reducible assumption
    | with_reducible apply State.violate_keeps
    | split

theorem State.sizeAccess_keeps {b₀ : State} (s : State) (n : Nat) (write : Bool) (off size : Nat) (h₀ : Keeps b₀ s) : Keeps b₀ (State.sizeAccess s n write off size) := by
  unfold State.sizeAccess
  repeat' first
    | with_reducible exact Keeps.refl _
    | with_reducible assumption
    | with_reducible apply State.violate_keeps
    | split

theorem State.poisonedWrite_keeps {b₀ : State} (s : State) (n off : Nat) (h₀ : Keeps b₀ s) : Keeps b₀ (State.poisonedWrite s n off) := by
  unfold State.poisonedWrite
  repeat' first
    | with_reducible exact Keeps.refl _
    | with_reducible assumption
    | dsimp only
    | with_reducible apply State.updPort_keeps
    | with_reducible apply State.violate_keeps
    | intro _
    | split

theorem State.snapshotRefresh_keeps {b₀ : State} (s : State) (h₀ : Keeps b₀ s) : Keeps b₀ (State.snapshotRefresh s) := by
  unfold State.snapshotRefresh
  repeat' first
    | with_reducible exact Keeps.refl _
    | with_reducible assumption
    | simp only [putDt_fold]
    | dsimp only
    | with_reducible apply State.updPort_keeps
    | with_reducible apply Keeps.dt
    | with_reducible exact id
    | with_reducible apply Keeps.foldl
    | intro _
    | split

theorem State.sendResponse_keeps {b₀ : State} (s : State) (m : Medium) (dst inst code : Nat) (fields : List (Nat × Nat)) (h₀ : Keeps b₀ s) : Keeps b₀ (State.sendResponse s m dst inst code fields) := by
  unfold State.sendResponse
  repeat' first
    | with_reducible exact Keeps.refl _
    | with_reducible assumption
    | dsimp only
    | with_reducible apply State.sendMgmt_keeps

theorem State.refuseHeads_keeps {b₀ : State} (m : Medium) : ∀ (n : Nat) (s : State), Keeps b₀ s → Keeps b₀ (s.refuseHeads m n)
  | 0, _, h₀ => h₀
  | n + 1, s, h₀ => by
    unfold State.refuseHeads
    split
    · exact h₀
    · split
      · exact h₀
      · exact State.refuseHeads_keeps m n _ (State.sendResponse_keeps _ _ _ _ _ _ (State.updMedium_keeps _ _ _ h₀))

theorem State.serveRequest_keeps {b₀ : State} (s : State) (r : MgmtReq) (f : State → State × Nat × List (Nat × Nat)) (h₀ : Keeps b₀ s)
    (hf : ∀ t, Keeps t (f t).1) : Keeps b₀ (State.serveRequest s r f) := by
  unfold State.serveRequest
  split
  · exact h₀
  · exact State.refuseHeads_keeps _ _ _ (State.sendResponse_keeps _ _ _ _ _ _ ((State.updMedium_keeps s _ _ h₀).trans (hf _)))

theorem State.answerRequest_keeps {b₀ : State} (s : State) (r : MgmtReq) (f : State → Nat × List (Nat × Nat)) (h₀ : Keeps b₀ s) :
    Keeps b₀ (State.answerRequest s r f) := State.serveRequest_keeps s r _ h₀ (fun t => Keeps.refl t)

theorem State.messageDone_keeps {b₀ : State} (s : State) (m : Medium) (x : Message) (h₀ : Keeps b₀ s) : Keeps b₀ (State.messageDone s m x) := by
  unfold State.messageDone
  repeat' first
    | with_reducible exact Keeps.refl _
    | with_reducible assumption
    | dsimp only
    | with_reducible apply State.updMedium_keeps
    | with_reducible apply State.refuseHeads_keeps
    | intro _
    | split

theorem State.packetArrives_keeps {b₀ : State} (s : State) (m : Medium) (p : MctpPacket) (h₀ : Keeps b₀ s) : Keeps b₀ (State.packetArrives s m p) := by
  unfold State.packetArrives
  repeat' first
    | with_reducible exact Keeps.refl _
    | with_reducible assumption
    | dsimp only
    | with_reducible apply State.updMedium_keeps
    | with_reducible apply State.payload_keeps
    | with_reducible apply State.messageDone_keeps
    | with_reducible apply Keeps.parts
    | with_reducible exact id
    | exact fun _ => rfl
    | intro _
    | split

theorem State.smbusRetry_keeps {b₀ : State} (s : State) (lost : Bool) (h₀ : Keeps b₀ s) : Keeps b₀ (State.smbusRetry s lost) := by
  unfold State.smbusRetry
  repeat' first
    | with_reducible exact Keeps.refl _
    | with_reducible assumption
    | simp only [putMgmt_fold]
    | dsimp only
    | with_reducible apply State.updMedium_keeps
    | with_reducible apply Keeps.mgmt
    | with_reducible exact id
    | intro _
    | split

theorem State.smbusTimeout_keeps {b₀ : State} (s : State) (h₀ : Keeps b₀ s) : Keeps b₀ (State.smbusTimeout s) := by
  unfold State.smbusTimeout
  repeat' first
    | with_reducible exact Keeps.refl _
    | with_reducible assumption
    | dsimp only
    | with_reducible apply State.updMedium_keeps
    | intro _
    | split

theorem clearReceiver_keeps {b₀ : State} (s : State) (h₀ : Keeps b₀ s) : Keeps b₀ { s with mgmt := s.mgmt.clearReceiver } :=
  Keeps.mgmt h₀ id (clearReceiver_sensors _)

theorem State.setEid_keeps {b₀ : State} (s : State) (m : Medium) (op eid : Nat) (h₀ : Keeps b₀ s) : Keeps b₀ (State.setEid s m op eid).1 := by
  unfold State.setEid
  split
  · exact h₀
  · dsimp only
    split
    · exact clearReceiver_keeps _ (State.updMedium_keeps _ _ _ h₀)
    · exact State.updMedium_keeps _ _ _ h₀

theorem State.setTidTo_keeps {b₀ : State} (s : State) (tid : Nat) (h₀ : Keeps b₀ s) : Keeps b₀ (State.setTidTo s tid).1 := by
  unfold State.setTidTo
  repeat' first
    | with_reducible exact Keeps.refl _
    | with_reducible assumption
    | simp only [putMgmt_fold]
    | dsimp only
    | with_reducible apply Keeps.mgmt
    | with_reducible exact id
    | split

theorem State.setReceiver_keeps {b₀ : State} (s : State) (m : Medium) (enable eid : Nat) (h₀ : Keeps b₀ s) :
    Keeps b₀ (State.setReceiver s m enable eid).1 := by
  unfold State.setReceiver
  split
  · exact clearReceiver_keeps s h₀
  · split
    · exact h₀
    · split
      · exact h₀
      · exact Keeps.mgmt h₀ id (clearReceiver_sensors _)

theorem State.portsTrain_keeps {b₀ : State} (s : State) (h₀ : Keeps b₀ s) : Keeps b₀ (State.portsTrain s) := by
  unfold State.portsTrain
  repeat' first
    | with_reducible exact Keeps.refl _
    | with_reducible assumption
    | with_reducible apply State.leaveReset_keeps
    | with_reducible apply Keeps.foldl
    | intro _

theorem State.resetEnds_keeps {b₀ : State} (s : State) (h₀ : Keeps b₀ s) : Keeps b₀ (State.resetEnds s) := by
  unfold State.resetEnds
  repeat' first
    | with_reducible exact Keeps.refl _
    | with_reducible assumption
    | with_reducible apply State.resetEnd_keeps
    | with_reducible apply State.portsTrain_keeps
    | split

theorem State.lockReturns_keeps {b₀ : State} (s : State) (h₀ : Keeps b₀ s) : Keeps b₀ (State.lockReturns s) := by
  unfold State.lockReturns
  repeat' first
    | with_reducible exact Keeps.refl _
    | with_reducible assumption
    | with_reducible apply State.lockRegained_keeps
    | with_reducible apply State.portsTrain_keeps

theorem State.aonLost_keeps {b₀ : State} (s : State) (h₀ : Keeps b₀ s) : Keeps b₀ (State.powerRemoval s true) := by
  refine h₀.trans ⟨rfl, fun ⟨_, _, _, d⟩ => ?_⟩
  exact ⟨governor_reset .., ⟨rfl, rfl⟩, ⟨Nat.zero_le _, Nat.zero_le _, Nat.two_pow_pos 156, Nat.two_pow_pos 64⟩,
    { ports := Table.wf_mapVals d.ports (fun _ (p : HostPort) => { perst := p.perst }), parts := rfl, contents := rfl, models := rfl, pipes := rfl, streams := rfl, branches := rfl, tiles := rfl,
      flanks := rfl, feeders := rfl, barriers := rfl, pages := rfl, dir := rfl, links := rfl, routes := rfl, windows := rfl, netifs := rfl,
      channels := rfl, stackRegs := rfl, tdm := rfl, inputs := rfl, outputs := rfl, sensors := rfl, media := rfl, watches := rfl }⟩

theorem State.powerRemoval_keeps {b₀ : State} (s : State) (aon : Bool) (h₀ : Keeps b₀ s) : Keeps b₀ (State.powerRemoval s aon) := by
  cases aon
  · exact State.updBoot_keeps _ _ h₀
  · exact State.aonLost_keeps s h₀

theorem State.ioReturns_keeps {b₀ : State} (s : State) (h₀ : Keeps b₀ s) : Keeps b₀ (State.ioReturns s) := by
  unfold State.ioReturns
  repeat' first
    | with_reducible exact Keeps.refl _
    | with_reducible assumption
    | dsimp only
    | with_reducible apply State.updBoot_keeps
    | intro _
    | split

theorem State.instructionUpdated_keeps {b₀ : State} (s : State) (code cells : Nat) (h₀ : Keeps b₀ s) : Keeps b₀ (State.instructionUpdated s code cells) := by
  unfold State.instructionUpdated
  split
  · exact Keeps.pins h₀ (fun _ => Nat.mod_lt _ (Nat.two_pow_pos 156))
  · exact h₀

theorem State.testLogicReset_keeps {b₀ : State} (s : State) (h₀ : Keeps b₀ s) : Keeps b₀ (State.testLogicReset s) := by
  unfold State.testLogicReset
  repeat' first
    | with_reducible exact Keeps.refl _
    | with_reducible assumption
    | simp only [putPins_fold]
    | dsimp only
    | with_reducible apply Keeps.pins
    | with_reducible exact id

end Sys2Proof.Machine
end

