-- ==== Sys2Proof/Laws/KeepsExec.lean ====
section
/-!
SUPPORT. Laws/KeepsExec.lean: that every row of the table answers a next state which keeps the queue and the invariant. One lemma per row.
-/
namespace Sys2Proof.Machine

open Sys2Proof.Safety

/-- The outcome is a next state, and it keeps the queue and the invariant. -/
def Answers (o : Host.Outcome State Fault Refusal) (s : State) : Prop := ∃ t, o = .next t ∧ Keeps s t

theorem answers_of {o : Host.Outcome State Fault Refusal} {s t : State} (h : o = .next t) (k : Keeps s t) : Answers o s := ⟨t, h, k⟩

theorem execRingPairCreate_answers (c : Call) (s : State) : Answers (execRingPairCreate c s) s := by
  refine answers_of rfl ?_
  with_reducible apply State.lerad_keeps
  exact Keeps.refl _

theorem execRingPairDelete_answers (c : Call) (s : State) : Answers (execRingPairDelete c s) s := by
  refine answers_of rfl ?_
  with_reducible apply State.lerad_keeps
  exact Keeps.refl _

theorem execEventRingSet_answers (c : Call) (s : State) : Answers (execEventRingSet c s) s := by
  refine answers_of rfl ?_
  with_reducible apply State.lerad_keeps
  exact Keeps.refl _

theorem execCoalesceSet_answers (c : Call) (s : State) : Answers (execCoalesceSet c s) s := by
  refine answers_of rfl ?_
  with_reducible apply State.lerad_keeps
  exact Keeps.refl _

theorem execNop_answers (c : Call) (s : State) : Answers (execNop c s) s := by
  refine answers_of rfl ?_
  with_reducible apply State.lerad_keeps
  exact Keeps.refl _

theorem execPartitionQuery_answers (c : Call) (s : State) : Answers (execPartitionQuery c s) s := by
  refine answers_of rfl ?_
  with_reducible apply State.lerad_keeps
  exact Keeps.refl _

theorem execPartitionQuotaSet_answers (c : Call) (s : State) : Answers (execPartitionQuotaSet c s) s := by
  refine answers_of rfl ?_
  with_reducible apply State.lerad_keeps
  exact Keeps.refl _

theorem execPartitionHostLossSet_answers (c : Call) (s : State) : Answers (execPartitionHostLossSet c s) s := by
  refine answers_of rfl ?_
  with_reducible apply State.lerad_keeps
  exact Keeps.refl _

theorem execPartitionTrimSet_answers (c : Call) (s : State) : Answers (execPartitionTrimSet c s) s := by
  refine answers_of rfl ?_
  with_reducible apply State.lerad_keeps
  exact Keeps.refl _

theorem execSiteQuery_answers (c : Call) (s : State) : Answers (execSiteQuery c s) s := by
  refine answers_of rfl ?_
  with_reducible apply State.lerad_keeps
  exact Keeps.refl _

theorem execApertureRegister_answers (c : Call) (s : State) : Answers (execApertureRegister c s) s := by
  refine answers_of rfl ?_
  with_reducible apply State.lerad_keeps
  exact Keeps.refl _

theorem execApertureDeregister_answers (c : Call) (s : State) : Answers (execApertureDeregister c s) s := by
  refine answers_of rfl ?_
  with_reducible apply State.lerad_keeps
  exact Keeps.refl _

theorem execModelLoad_answers (c : Call) (s : State) : Answers (execModelLoad c s) s := by
  refine answers_of rfl ?_
  with_reducible apply State.lerad_keeps
  exact Keeps.refl _

theorem execModelPlacement_answers (port load : Nat) (image : PackageImage) (s : State) : Answers (execModelPlacement port load image s) s := by
  refine answers_of rfl ?_
  with_reducible apply State.settle_keeps
  with_reducible apply State.modelPlacement_keeps
  exact Keeps.refl _

theorem execModelQuery_answers (c : Call) (s : State) : Answers (execModelQuery c s) s := by
  refine answers_of rfl ?_
  with_reducible apply State.lerad_keeps
  exact Keeps.refl _

theorem execModelUnload_answers (c : Call) (s : State) : Answers (execModelUnload c s) s := by
  refine answers_of rfl ?_
  with_reducible apply State.lerad_keeps
  exact Keeps.refl _

theorem execModelList_answers (c : Call) (s : State) : Answers (execModelList c s) s := by
  refine answers_of rfl ?_
  with_reducible apply State.lerad_keeps
  exact Keeps.refl _

theorem execPipelineCreate_answers (c : Call) (s : State) : Answers (execPipelineCreate c s) s := by
  refine answers_of rfl ?_
  with_reducible apply State.lerad_keeps
  exact Keeps.refl _

theorem execBindingReady_answers (pipe : Nat) (s : State) : Answers (execBindingReady pipe s) s := by
  refine answers_of rfl ?_
  with_reducible apply State.settle_keeps
  with_reducible apply State.bindingReady_keeps
  exact Keeps.refl _

theorem execRelayout_answers (flank : Nat) (s : State) : Answers (execRelayout flank s) s := by
  refine answers_of rfl ?_
  with_reducible apply State.settle_keeps
  with_reducible apply State.relayoutStart_keeps
  exact Keeps.refl _

theorem execPipelineQuery_answers (c : Call) (s : State) : Answers (execPipelineQuery c s) s := by
  refine answers_of rfl ?_
  with_reducible apply State.lerad_keeps
  exact Keeps.refl _

theorem execPipelinePrefixSet_answers (c : Call) (s : State) : Answers (execPipelinePrefixSet c s) s := by
  refine answers_of rfl ?_
  with_reducible apply State.lerad_keeps
  exact Keeps.refl _

theorem execPipelineDelete_answers (c : Call) (s : State) : Answers (execPipelineDelete c s) s := by
  refine answers_of rfl ?_
  with_reducible apply State.lerad_keeps
  exact Keeps.refl _

theorem execPipelineList_answers (c : Call) (s : State) : Answers (execPipelineList c s) s := by
  refine answers_of rfl ?_
  with_reducible apply State.lerad_keeps
  exact Keeps.refl _

theorem execStreamCastOn_answers (c : Call) (s : State) : Answers (execStreamCastOn c s) s := by
  refine answers_of rfl ?_
  with_reducible apply State.lerad_keeps
  exact Keeps.refl _

theorem execCastOnAllocationDone_answers (stream : Nat) (s : State) : Answers (execCastOnAllocationDone stream s) s := by
  refine answers_of rfl ?_
  with_reducible apply State.settle_keeps
  with_reducible apply State.castOnDone_keeps
  exact Keeps.refl _

theorem execStreamFeed_answers (c : Call) (s : State) : Answers (execStreamFeed c s) s := by
  refine answers_of rfl ?_
  with_reducible apply State.lerad_keeps
  exact Keeps.refl _

theorem execStreamPause_answers (c : Call) (s : State) : Answers (execStreamPause c s) s := by
  refine answers_of rfl ?_
  with_reducible apply State.lerad_keeps
  exact Keeps.refl _

theorem execStreamResume_answers (c : Call) (s : State) : Answers (execStreamResume c s) s := by
  refine answers_of rfl ?_
  with_reducible apply State.lerad_keeps
  exact Keeps.refl _

theorem execStreamRewind_answers (c : Call) (s : State) : Answers (execStreamRewind c s) s := by
  refine answers_of rfl ?_
  with_reducible apply State.lerad_keeps
  exact Keeps.refl _

theorem execStreamBindOff_answers (c : Call) (s : State) : Answers (execStreamBindOff c s) s := by
  refine answers_of rfl ?_
  with_reducible apply State.lerad_keeps
  exact Keeps.refl _

theorem execStreamInputSet_answers (c : Call) (s : State) : Answers (execStreamInputSet c s) s := by
  refine answers_of rfl ?_
  with_reducible apply State.lerad_keeps
  exact Keeps.refl _

theorem execStreamInputSetEffect_answers (stream : Nat) (s : State) : Answers (execStreamInputSetEffect stream s) s := by
  refine answers_of rfl ?_
  with_reducible apply State.settle_keeps
  with_reducible apply State.inputSwitch_keeps
  exact Keeps.refl _

theorem execStreamQuery_answers (c : Call) (s : State) : Answers (execStreamQuery c s) s := by
  refine answers_of rfl ?_
  with_reducible apply State.lerad_keeps
  exact Keeps.refl _

theorem execStreamList_answers (c : Call) (s : State) : Answers (execStreamList c s) s := by
  refine answers_of rfl ?_
  with_reducible apply State.lerad_keeps
  exact Keeps.refl _

theorem execBranchAttach_answers (c : Call) (s : State) : Answers (execBranchAttach c s) s := by
  refine answers_of rfl ?_
  with_reducible apply State.lerad_keeps
  exact Keeps.refl _

theorem execAttachAllocationDone_answers (branch : Nat) (s : State) : Answers (execAttachAllocationDone branch s) s := by
  refine answers_of rfl ?_
  with_reducible apply State.settle_keeps
  with_reducible apply State.attachDone_keeps
  exact Keeps.refl _

theorem execBranchDetach_answers (c : Call) (s : State) : Answers (execBranchDetach c s) s := by
  refine answers_of rfl ?_
  with_reducible apply State.lerad_keeps
  exact Keeps.refl _

theorem execBranchResume_answers (c : Call) (s : State) : Answers (execBranchResume c s) s := by
  refine answers_of rfl ?_
  with_reducible apply State.lerad_keeps
  exact Keeps.refl _

theorem execBranchOutputSet_answers (c : Call) (s : State) : Answers (execBranchOutputSet c s) s := by
  refine answers_of rfl ?_
  with_reducible apply State.lerad_keeps
  exact Keeps.refl _

theorem execBranchOutputSetEffect_answers (branch : Nat) (s : State) : Answers (execBranchOutputSetEffect branch s) s := by
  refine answers_of rfl ?_
  with_reducible apply State.settle_keeps
  with_reducible apply State.outputSwitch_keeps
  exact Keeps.refl _

theorem execBranchQuery_answers (c : Call) (s : State) : Answers (execBranchQuery c s) s := by
  refine answers_of rfl ?_
  with_reducible apply State.lerad_keeps
  exact Keeps.refl _

theorem execPortConfigure_answers (c : Call) (s : State) : Answers (execPortConfigure c s) s := by
  refine answers_of rfl ?_
  with_reducible apply State.lerad_keeps
  exact Keeps.refl _

theorem execPortEnable_answers (c : Call) (s : State) : Answers (execPortEnable c s) s := by
  refine answers_of rfl ?_
  with_reducible apply State.lerad_keeps
  exact Keeps.refl _

theorem execPortEnableEffect_answers (tdm : Nat) (s : State) : Answers (execPortEnableEffect tdm s) s := by
  refine answers_of rfl ?_
  with_reducible apply State.settle_keeps
  with_reducible apply State.enableEffect_keeps
  exact Keeps.refl _

theorem execPortQuery_answers (c : Call) (s : State) : Answers (execPortQuery c s) s := by
  refine answers_of rfl ?_
  with_reducible apply State.lerad_keeps
  exact Keeps.refl _

theorem execTelemetryRead_answers (c : Call) (s : State) : Answers (execTelemetryRead c s) s := by
  refine answers_of rfl ?_
  with_reducible apply State.lerad_keeps
  exact Keeps.refl _

theorem execDiagJournalRead_answers (c : Call) (s : State) : Answers (execDiagJournalRead c s) s := by
  refine answers_of rfl ?_
  with_reducible apply State.lerad_keeps
  exact Keeps.refl _

theorem execDiagInject_answers (c : Call) (s : State) : Answers (execDiagInject c s) s := by
  refine answers_of rfl ?_
  with_reducible apply State.lerad_keeps
  exact Keeps.refl _

theorem execDiagTdmLoopback_answers (c : Call) (s : State) : Answers (execDiagTdmLoopback c s) s := by
  refine answers_of rfl ?_
  with_reducible apply State.lerad_keeps
  exact Keeps.refl _

theorem execLoopbackEffect_answers (tdm : Nat) (s : State) : Answers (execLoopbackEffect tdm s) s := by
  refine answers_of rfl ?_
  with_reducible apply State.settle_keeps
  with_reducible apply State.loopEffect_keeps
  exact Keeps.refl _

theorem execDeviceQuery_answers (c : Call) (s : State) : Answers (execDeviceQuery c s) s := by
  refine answers_of rfl ?_
  with_reducible apply State.lerad_keeps
  exact Keeps.refl _

theorem execPowerCapSet_answers (c : Call) (s : State) : Answers (execPowerCapSet c s) s := by
  refine answers_of rfl ?_
  with_reducible apply State.lerad_keeps
  exact Keeps.refl _

theorem execFirmwareStage_answers (c : Call) (s : State) : Answers (execFirmwareStage c s) s := by
  refine answers_of rfl ?_
  with_reducible apply State.lerad_keeps
  exact Keeps.refl _

theorem execFlashWriteDone_answers (ok : Bool) (s : State) : Answers (execFlashWriteDone ok s) s := by
  refine answers_of rfl ?_
  with_reducible apply State.settle_keeps
  with_reducible apply State.flashWriteDone_keeps
  exact Keeps.refl _

theorem execFirmwareActivate_answers (c : Call) (s : State) : Answers (execFirmwareActivate c s) s := by
  refine answers_of rfl ?_
  with_reducible apply State.lerad_keeps
  exact Keeps.refl _

theorem execDeviceReset_answers (c : Call) (s : State) : Answers (execDeviceReset c s) s := by
  refine answers_of rfl ?_
  with_reducible apply State.lerad_keeps
  exact Keeps.refl _

theorem execResetDtReached_answers (s : State) : Answers (execResetDtReached s) s := by
  refine answers_of rfl ?_
  with_reducible apply State.settle_keeps
  with_reducible apply State.resetDtReached_keeps
  exact Keeps.refl _

theorem execSiteConfigStage_answers (c : Call) (s : State) : Answers (execSiteConfigStage c s) s := by
  refine answers_of rfl ?_
  with_reducible apply State.lerad_keeps
  exact Keeps.refl _

theorem execCommandTimeLimit_answers (port id : Nat) (s : State) : Answers (execCommandTimeLimit port id s) s := by
  refine answers_of rfl ?_
  with_reducible apply State.settle_keeps
  with_reducible apply State.timeLimit_keeps
  exact Keeps.refl _

theorem execGo_answers (port : Nat) (extBytes : Option Nat) (data : HostData) (s : State) : Answers (execGo port extBytes data s) s := by
  refine answers_of rfl ?_
  with_reducible apply State.settle_keeps
  with_reducible apply State.bar0Write_keeps
  exact Keeps.refl _

theorem execDoneClear_answers (port : Nat) (irqEn : Bool) (s : State) : Answers (execDoneClear port irqEn s) s := by
  refine answers_of rfl ?_
  with_reducible apply State.settle_keeps
  with_reducible apply State.bar0Write_keeps
  exact Keeps.refl _

theorem execInboundWrite_answers (port offset size value : Nat) (s : State) : Answers (execInboundWrite port offset size value s) s := by
  refine answers_of rfl ?_
  with_reducible apply State.settle_keeps
  with_reducible apply State.bar0Write_keeps
  exact Keeps.refl _

theorem execSubmissionTailDoorbell_answers (port pair value : Nat) (s : State) : Answers (execSubmissionTailDoorbell port pair value s) s := by
  refine answers_of rfl ?_
  with_reducible apply State.settle_keeps
  with_reducible apply State.bar0Write_keeps
  exact Keeps.refl _

theorem execCompletionHeadDoorbell_answers (port pair value : Nat) (s : State) : Answers (execCompletionHeadDoorbell port pair value s) s := by
  refine answers_of rfl ?_
  with_reducible apply State.settle_keeps
  with_reducible apply State.bar0Write_keeps
  exact Keeps.refl _

theorem execEventRingHeadDoorbell_answers (port value : Nat) (s : State) : Answers (execEventRingHeadDoorbell port value s) s := by
  refine answers_of rfl ?_
  with_reducible apply State.settle_keeps
  with_reducible apply State.bar0Write_keeps
  exact Keeps.refl _

theorem execDtLoRead_answers (port : Nat) (s : State) : Answers (execDtLoRead port s) s := by
  refine answers_of rfl ?_
  with_reducible apply State.settle_keeps
  with_reducible apply State.bar0Access_keeps
  exact Keeps.refl _

theorem execReservedOffsetAccess_answers (port : Nat) (write : Bool) (offset size : Nat) (s : State) : Answers (execReservedOffsetAccess port write offset size s) s := by
  refine answers_of rfl ?_
  with_reducible apply State.settle_keeps
  with_reducible apply State.reservedAccess_keeps
  exact Keeps.refl _

theorem execMmioSize_answers (port : Nat) (write : Bool) (offset size : Nat) (s : State) : Answers (execMmioSize port write offset size s) s := by
  refine answers_of rfl ?_
  with_reducible apply State.settle_keeps
  with_reducible apply State.sizeAccess_keeps
  exact Keeps.refl _

theorem execMmioPoisoned_answers (port offset size : Nat) (s : State) : Answers (execMmioPoisoned port offset size s) s := by
  refine answers_of rfl ?_
  with_reducible apply State.settle_keeps
  with_reducible apply State.poisonedWrite_keeps
  exact Keeps.refl _

theorem execRegisterWrite_answers (port offset size value : Nat) (s : State) : Answers (execRegisterWrite port offset size value s) s := by
  refine answers_of rfl ?_
  with_reducible apply State.settle_keeps
  with_reducible apply State.bar0Write_keeps
  exact Keeps.refl _

theorem execVectorUnmask_answers (port : Nat) (what : Unmask) (s : State) : Answers (execVectorUnmask port what s) s := by
  refine answers_of rfl ?_
  with_reducible apply State.settle_keeps
  with_reducible apply State.vectorUnmask_keeps
  exact Keeps.refl _

theorem execPerstAsserted_answers (port : Nat) (s : State) : Answers (execPerstAsserted port s) s := by
  refine answers_of rfl ?_
  with_reducible apply State.settle_keeps
  with_reducible apply State.perstOn_keeps
  exact Keeps.refl _

theorem execPerstReleased_answers (port : Nat) (s : State) : Answers (execPerstReleased port s) s := by
  refine answers_of rfl ?_
  with_reducible apply State.settle_keeps
  with_reducible apply State.perstOff_keeps
  exact Keeps.refl _

theorem execHotReset_answers (port : Nat) (s : State) : Answers (execHotReset port s) s := by
  refine answers_of rfl ?_
  with_reducible apply State.settle_keeps
  with_reducible apply State.hotReset_keeps
  exact Keeps.refl _

theorem execFlr_answers (port : Nat) (s : State) : Answers (execFlr port s) s := by
  refine answers_of rfl ?_
  with_reducible apply State.settle_keeps
  with_reducible apply State.flr_keeps
  exact Keeps.refl _

theorem execConfigSpaceReady_answers (port : Nat) (s : State) : Answers (execConfigSpaceReady port s) s := by
  refine answers_of rfl ?_
  with_reducible apply State.settle_keeps
  with_reducible apply State.configSpaceReady_keeps
  exact Keeps.refl _

theorem execHostLossApply_answers (port : Nat) (s : State) : Answers (execHostLossApply port s) s := by
  refine answers_of rfl ?_
  with_reducible apply State.settle_keeps
  with_reducible apply State.hostLossApply_keeps
  exact Keeps.refl _

theorem execDlUp_answers (port : Nat) (s : State) : Answers (execDlUp port s) s := by
  refine answers_of rfl ?_
  with_reducible apply State.settle_keeps
  with_reducible apply State.dlUp_keeps
  exact Keeps.refl _

theorem execDlDown_answers (port : Nat) (s : State) : Answers (execDlDown port s) s := by
  refine answers_of rfl ?_
  with_reducible apply State.settle_keeps
  with_reducible apply State.dlDown_keeps
  exact Keeps.refl _

theorem execD3hot_answers (port : Nat) (s : State) : Answers (execD3hot port s) s := by
  refine answers_of rfl ?_
  with_reducible apply State.settle_keeps
  with_reducible apply State.enterD3_keeps
  exact Keeps.refl _

theorem execD0Return_answers (port : Nat) (s : State) : Answers (execD0Return port s) s := by
  refine answers_of rfl ?_
  with_reducible apply State.settle_keeps
  with_reducible apply State.leaveD3_keeps
  exact Keeps.refl _

theorem execBusMasterEnable_answers (port : Nat) (on : Bool) (s : State) : Answers (execBusMasterEnable port on s) s := by
  refine answers_of rfl ?_
  with_reducible apply State.settle_keeps
  with_reducible apply State.setBusMaster_keeps
  exact Keeps.refl _

theorem execEntryFetch_answers (port : Nat) (s : State) : Answers (execEntryFetch port s) s := by
  refine answers_of rfl ?_
  with_reducible apply State.settle_keeps
  with_reducible apply State.entryFetch_keeps
  exact Keeps.refl _

theorem execEntryFetchRetry_answers (port pair : Nat) (s : State) : Answers (execEntryFetchRetry port pair s) s := by
  refine answers_of rfl ?_
  with_reducible apply State.settle_keeps
  with_reducible apply State.fetchRetry_keeps
  exact Keeps.refl _

theorem execAggTimeExpiry_answers (port vector : Nat) (s : State) : Answers (execAggTimeExpiry port vector s) s := by
  refine answers_of rfl ?_
  with_reducible apply State.settle_keeps
  with_reducible apply State.aggExpires_keeps
  exact Keeps.refl _

theorem execHostCompletion_answers (port tag : Nat) (status : CplStatus) (poisoned : Bool) (data : CplData) (s : State) :
    Answers (execHostCompletion port tag status poisoned data s) s := by
  refine answers_of rfl ?_
  with_reducible apply State.settle_keeps
  with_reducible apply State.hostCompletion_keeps
  exact Keeps.refl _

theorem execCompletionTimeout_answers (port tag : Nat) (s : State) : Answers (execCompletionTimeout port tag s) s := by
  refine answers_of rfl ?_
  with_reducible apply State.settle_keeps
  with_reducible apply State.completionTimeout_keeps
  exact Keeps.refl _

theorem execQuarantineEnd_answers (port tag : Nat) (s : State) : Answers (execQuarantineEnd port tag s) s := by
  refine answers_of rfl ?_
  with_reducible apply State.settle_keeps
  with_reducible apply State.quarantineEnd_keeps
  exact Keeps.refl _

theorem execFeederRingDoorbell_answers (feeder ring tail deadline : Nat) (descs : List Nat) (s : State) : Answers (execFeederRingDoorbell feeder ring tail deadline descs s) s := by
  refine answers_of rfl ?_
  with_reducible apply State.settle_keeps
  with_reducible apply State.ringDoorbell_keeps
  exact Keeps.refl _

theorem execSkein_answers (feeder ring : Nat) (s : State) : Answers (execSkein feeder ring s) s := by
  refine answers_of rfl ?_
  with_reducible apply State.settle_keeps
  with_reducible apply State.fetchSkein_keeps
  exact Keeps.refl _

theorem execDescriptorStart_answers (feeder : Nat) (s : State) : Answers (execDescriptorStart feeder s) s := by
  refine answers_of rfl ?_
  with_reducible apply State.settle_keeps
  with_reducible apply State.startDesc_keeps
  exact Keeps.refl _

theorem execRequestIssue_answers (feeder : Nat) (s : State) : Answers (execRequestIssue feeder s) s := by
  refine answers_of rfl ?_
  with_reducible apply State.settle_keeps
  with_reducible apply State.issueRequest_keeps
  exact Keeps.refl _

theorem execDone_answers (feeder tag : Nat) (s : State) : Answers (execDone feeder tag s) s := by
  refine answers_of rfl ?_
  with_reducible apply State.settle_keeps
  with_reducible apply State.tagDone_keeps
  exact Keeps.refl _

theorem execData_answers (feeder tag : Nat) (s : State) : Answers (execData feeder tag s) s := by
  refine answers_of rfl ?_
  with_reducible apply State.settle_keeps
  with_reducible apply State.dataArrives_keeps
  exact Keeps.refl _

theorem execSwap_answers (tile pair : Nat) (s : State) : Answers (execSwap tile pair s) s := by
  refine answers_of rfl ?_
  with_reducible apply State.settle_keeps
  with_reducible apply State.swapNeedle_keeps
  exact Keeps.refl _

theorem execArrive_answers (flank index op : Nat) (s : State) : Answers (execArrive flank index op s) s := by
  refine answers_of rfl ?_
  with_reducible apply State.settle_keeps
  with_reducible apply State.arriveBarrier_keeps
  exact Keeps.refl _

theorem execStalemateCheck_answers (flank index : Nat) (s : State) : Answers (execStalemateCheck flank index s) s := by
  refine answers_of rfl ?_
  with_reducible apply State.settle_keeps
  with_reducible apply State.stalemateCheck_keeps
  exact Keeps.refl _

theorem execMemTimeout_answers (feeder tag : Nat) (s : State) : Answers (execMemTimeout feeder tag s) s := by
  refine answers_of rfl ?_
  with_reducible apply State.settle_keeps
  with_reducible apply State.memTimeout_keeps
  exact Keeps.refl _

theorem execRead_answers (feeder tag : Nat) (upset : List (Nat × Nat)) (s : State) : Answers (execRead feeder tag upset s) s := by
  refine answers_of rfl ?_
  with_reducible apply State.settle_keeps
  with_reducible apply State.readRequest_keeps
  exact Keeps.refl _

theorem execWrite_answers (feeder tag : Nat) (s : State) : Answers (execWrite feeder tag s) s := by
  refine answers_of rfl ?_
  with_reducible apply State.settle_keeps
  with_reducible apply State.writeRequest_keeps
  exact Keeps.refl _

theorem execPut16_answers (feeder tag : Nat) (upset : List (Nat × Nat)) (s : State) : Answers (execPut16 feeder tag upset s) s := by
  refine answers_of rfl ?_
  with_reducible apply State.settle_keeps
  with_reducible apply State.put16Request_keeps
  exact Keeps.refl _

theorem execZero_answers (feeder tag : Nat) (s : State) : Answers (execZero feeder tag s) s := by
  refine answers_of rfl ?_
  with_reducible apply State.settle_keeps
  with_reducible apply State.zeroRequest_keeps
  exact Keeps.refl _

theorem execRefreshForced_answers (channel : Nat) (s : State) : Answers (execRefreshForced channel s) s := by
  refine answers_of rfl ?_
  with_reducible apply State.settle_keeps
  with_reducible apply State.refreshForced_keeps
  exact Keeps.refl _

theorem execScrubRead_answers (channel : Nat) (upset : List (Nat × Nat)) (s : State) : Answers (execScrubRead channel upset s) s := by
  refine answers_of rfl ?_
  with_reducible apply State.settle_keeps
  with_reducible apply State.scrubRead_keeps
  exact Keeps.refl _

theorem execStackTemperatureReadout_answers (stack temp : Nat) (s : State) : Answers (execStackTemperatureReadout stack temp s) s := by
  refine answers_of rfl ?_
  with_reducible apply State.settle_keeps
  with_reducible apply State.stackReadout_keeps
  exact Keeps.refl _

theorem execControllerReset_answers (channel : Nat) (s : State) : Answers (execControllerReset channel s) s := by
  refine answers_of rfl ?_
  with_reducible apply State.settle_keeps
  with_reducible apply State.controllerReset_keeps
  exact Keeps.refl _

theorem execControllerResetDone_answers (channel : Nat) (s : State) : Answers (execControllerResetDone channel s) s := by
  refine answers_of rfl ?_
  with_reducible apply State.settle_keeps
  with_reducible apply State.controllerResetDone_keeps
  exact Keeps.refl _

theorem execHopReceive_answers (tile port : Nat) (word : HopWord) (s : State) : Answers (execHopReceive tile port word s) s := by
  refine answers_of rfl ?_
  with_reducible apply State.settle_keeps
  with_reducible apply State.hopReceive_keeps
  exact Keeps.refl _

theorem execNak_answers (tile port ackSeq : Nat) (s : State) : Answers (execNak tile port ackSeq s) s := by
  refine answers_of rfl ?_
  with_reducible apply State.settle_keeps
  with_reducible apply State.nakArrives_keeps
  exact Keeps.refl _

theorem execHopAckTimeout_answers (tile port : Nat) (s : State) : Answers (execHopAckTimeout tile port s) s := by
  refine answers_of rfl ?_
  with_reducible apply State.settle_keeps
  with_reducible apply State.hopAckTimeout_keeps
  exact Keeps.refl _

theorem execLinkGiveUp_answers (tile port : Nat) (s : State) : Answers (execLinkGiveUp tile port s) s := by
  refine answers_of rfl ?_
  with_reducible apply State.settle_keeps
  with_reducible apply State.linkGiveUp_keeps
  exact Keeps.refl _

theorem execInvalidSidebandLimit_answers (tile port : Nat) (s : State) : Answers (execInvalidSidebandLimit tile port s) s := by
  refine answers_of rfl ?_
  with_reducible apply State.settle_keeps
  with_reducible apply State.sidebandLimit_keeps
  exact Keeps.refl _

theorem execE2eStitchArrival_answers (endpoint : Nat) (st : Stitch) (s : State) : Answers (execE2eStitchArrival endpoint st s) s := by
  refine answers_of rfl ?_
  with_reducible apply State.settle_keeps
  with_reducible apply State.stitchArrives_keeps
  exact Keeps.refl _

theorem execCredit_answers (src dst value : Nat) (multicast : Bool) (s : State) : Answers (execCredit src dst value multicast s) s := by
  refine answers_of rfl ?_
  with_reducible apply State.settle_keeps
  with_reducible apply State.creditReceived_keeps
  exact Keeps.refl _

theorem execCreditTimer_answers (src dst : Nat) (s : State) : Answers (execCreditTimer src dst s) s := by
  refine answers_of rfl ?_
  with_reducible apply State.settle_keeps
  with_reducible apply State.creditTimer_keeps
  exact Keeps.refl _

theorem execOpenCtx_answers (src dst : Nat) (s : State) : Answers (execOpenCtx src dst s) s := by
  refine answers_of rfl ?_
  with_reducible apply State.settle_keeps
  with_reducible apply State.openReceived_keeps
  exact Keeps.refl _

theorem execCloseCtx_answers (src dst : Nat) (s : State) : Answers (execCloseCtx src dst s) s := by
  refine answers_of rfl ?_
  with_reducible apply State.settle_keeps
  with_reducible apply State.closeReceived_keeps
  exact Keeps.refl _

theorem execCloseAck_answers (src dst : Nat) (s : State) : Answers (execCloseAck src dst s) s := by
  refine answers_of rfl ?_
  with_reducible apply State.settle_keeps
  with_reducible apply State.closeAckReceived_keeps
  exact Keeps.refl _

theorem execProbe_answers (src dst : Nat) (s : State) : Answers (execProbe src dst s) s := by
  refine answers_of rfl ?_
  with_reducible apply State.settle_keeps
  with_reducible apply State.probeReceived_keeps
  exact Keeps.refl _

theorem execProbeTimer_answers (src dst : Nat) (s : State) : Answers (execProbeTimer src dst s) s := by
  refine answers_of rfl ?_
  with_reducible apply State.settle_keeps
  with_reducible apply State.probeTimer_keeps
  exact Keeps.refl _

theorem execProbeGiveUp_answers (src dst : Nat) (s : State) : Answers (execProbeGiveUp src dst s) s := by
  refine answers_of rfl ?_
  with_reducible apply State.settle_keeps
  with_reducible apply State.probeGiveUp_keeps
  exact Keeps.refl _

theorem execUnreachable_answers (src dst sequence : Nat) (s : State) : Answers (execUnreachable src dst sequence s) s := by
  refine answers_of rfl ?_
  with_reducible apply State.settle_keeps
  with_reducible apply State.unreachableReceived_keeps
  exact Keeps.refl _

theorem execMulticastStitch_answers (tile : Nat) (st : Stitch) (s : State) : Answers (execMulticastStitch tile st s) s := by
  refine answers_of rfl ?_
  with_reducible apply State.settle_keeps
  with_reducible apply State.multicastAt_keeps
  exact Keeps.refl _

theorem execNotice_answers (endpoint : Nat) (st : Stitch) (s : State) : Answers (execNotice endpoint st s) s := by
  refine answers_of rfl ?_
  with_reducible apply State.settle_keeps
  with_reducible apply State.noticeReceived_keeps
  exact Keeps.refl _

theorem execLookup_answers (tile ppn : Nat) (s : State) : Answers (execLookup tile ppn s) s := by
  refine answers_of rfl ?_
  with_reducible apply State.settle_keeps
  with_reducible apply State.lookup_keeps
  exact Keeps.refl _

theorem execHolder_answers (tile ppn holder : Nat) (s : State) : Answers (execHolder tile ppn holder s) s := by
  refine answers_of rfl ?_
  with_reducible apply State.settle_keeps
  with_reducible apply State.holderAnswer_keeps
  exact Keeps.refl _

theorem execNoneAnswer_answers (tile ppn : Nat) (s : State) : Answers (execNoneAnswer tile ppn s) s := by
  refine answers_of rfl ?_
  with_reducible apply State.settle_keeps
  with_reducible apply State.noneAnswer_keeps
  exact Keeps.refl _

theorem execPeerRead_answers (holder ppn requester : Nat) (s : State) : Answers (execPeerRead holder ppn requester s) s := by
  refine answers_of rfl ?_
  with_reducible apply State.settle_keeps
  with_reducible apply State.peerRead_keeps
  exact Keeps.refl _

theorem execEvict_answers (tile ppn : Nat) (s : State) : Answers (execEvict tile ppn s) s := by
  refine answers_of rfl ?_
  with_reducible apply State.settle_keeps
  with_reducible apply State.evict_keeps
  exact Keeps.refl _

theorem execInvalidate_answers (tile ppn : Nat) (s : State) : Answers (execInvalidate tile ppn s) s := by
  refine answers_of rfl ?_
  with_reducible apply State.settle_keeps
  with_reducible apply State.invalidateAt_keeps
  exact Keeps.refl _

theorem execDropped_answers (tile ppn : Nat) (s : State) : Answers (execDropped tile ppn s) s := by
  refine answers_of rfl ?_
  with_reducible apply State.settle_keeps
  with_reducible apply State.droppedAnswer_keeps
  exact Keeps.refl _

theorem execNotHeld_answers (tile ppn : Nat) (s : State) : Answers (execNotHeld tile ppn s) s := by
  refine answers_of rfl ?_
  with_reducible apply State.settle_keeps
  with_reducible apply State.notHeldAnswer_keeps
  exact Keeps.refl _

theorem execSweepStart_answers (ppn : Nat) (s : State) : Answers (execSweepStart ppn s) s := by
  refine answers_of rfl ?_
  with_reducible apply State.settle_keeps
  with_reducible apply State.sweepStart_keeps
  exact Keeps.refl _

theorem execSweepComplete_answers (ppn : Nat) (s : State) : Answers (execSweepComplete ppn s) s := by
  refine answers_of rfl ?_
  with_reducible apply State.settle_keeps
  with_reducible apply State.sweepComplete_keeps
  exact Keeps.refl _

theorem execCopyOnWriteDone_answers (ppn : Nat) (s : State) : Answers (execCopyOnWriteDone ppn s) s := by
  refine answers_of rfl ?_
  with_reducible apply State.settle_keeps
  with_reducible apply State.copyDone_keeps
  exact Keeps.refl _

theorem execItemEligible_answers (stage : Stage) (obj row rows attended : Nat) (s : State) : Answers (execItemEligible stage obj row rows attended s) s := by
  refine answers_of rfl ?_
  with_reducible apply State.settle_keeps
  with_reducible apply State.admitItem_keeps
  exact Keeps.refl _

theorem execDispatchTimer_answers (flank : Nat) (s : State) : Answers (execDispatchTimer flank s) s := by
  refine answers_of rfl ?_
  with_reducible apply State.settle_keeps
  with_reducible apply State.timerExpires_keeps
  exact Keeps.refl _

theorem execTask_answers (tile : Nat) (work : List TileOp) (s : State) : Answers (execTask tile work s) s := by
  refine answers_of rfl ?_
  with_reducible apply State.settle_keeps
  with_reducible apply State.taskAt_keeps
  exact Keeps.refl _

theorem execBlockProduct_answers (tile : Nat) (head : BlockHead) (x w first rerun : List (List Int)) (s : State) :
    Answers (execBlockProduct tile head x w first rerun s) s := by
  refine answers_of rfl ?_
  with_reducible apply State.settle_keeps
  with_reducible apply State.blockStep_keeps
  exact Keeps.refl _

theorem execDrainComplete_answers (flank : Nat) (s : State) : Answers (execDrainComplete flank s) s := by
  refine answers_of rfl ?_
  with_reducible apply State.settle_keeps
  with_reducible apply State.drainComplete_keeps
  exact Keeps.refl _

theorem execSpareLoaded_answers (flank : Nat) (s : State) : Answers (execSpareLoaded flank s) s := by
  refine answers_of rfl ?_
  with_reducible apply State.settle_keeps
  with_reducible apply State.spareLoaded_keeps
  exact Keeps.refl _

theorem execResliceLoaded_answers (flank : Nat) (s : State) : Answers (execResliceLoaded flank s) s := by
  refine answers_of rfl ?_
  with_reducible apply State.settle_keeps
  with_reducible apply State.resliceLoaded_keeps
  exact Keeps.refl _

theorem execTaskEnd_answers (flank : Nat) (result : TaskResult) (s : State) : Answers (execTaskEnd flank result s) s := by
  refine answers_of rfl ?_
  with_reducible apply State.settle_keeps
  with_reducible apply State.taskEnd_keeps
  exact Keeps.refl _

theorem execTaskWatchdog_answers (flank : Nat) (s : State) : Answers (execTaskWatchdog flank s) s := by
  refine answers_of rfl ?_
  with_reducible apply State.settle_keeps
  with_reducible apply State.taskWatchdog_keeps
  exact Keeps.refl _

theorem execFlagFall_answers (branch : Nat) (stage : Stage) (row : Nat) (s : State) : Answers (execFlagFall branch stage row s) s := by
  refine answers_of rfl ?_
  with_reducible apply State.settle_keeps
  with_reducible apply State.flagFall_keeps
  exact Keeps.refl _

theorem execFlagFallIntervalEnd_answers (branch : Nat) (s : State) : Answers (execFlagFallIntervalEnd branch s) s := by
  refine answers_of rfl ?_
  with_reducible apply State.settle_keeps
  with_reducible apply State.flagIntervalEnd_keeps
  exact Keeps.refl _

theorem execChunkClose_answers (stream : Nat) (s : State) : Answers (execChunkClose stream s) s := by
  refine answers_of rfl ?_
  with_reducible apply State.settle_keeps
  with_reducible apply State.chunkClose_keeps
  exact Keeps.refl _

theorem execFrameClose_answers (stream : Nat) (s : State) : Answers (execFrameClose stream s) s := by
  refine answers_of rfl ?_
  with_reducible apply State.settle_keeps
  with_reducible apply State.frameClose_keeps
  exact Keeps.refl _

theorem execIngressConditioningDone_answers (stream : Nat) (s : State) : Answers (execIngressConditioningDone stream s) s := by
  refine answers_of rfl ?_
  with_reducible apply State.settle_keeps
  with_reducible apply State.conditioned_keeps
  exact Keeps.refl _

theorem execCastlingInStart_answers (flank : Nat) (s : State) : Answers (execCastlingInStart flank s) s := by
  refine answers_of rfl ?_
  with_reducible apply State.settle_keeps
  with_reducible apply State.castInStart_keeps
  exact Keeps.refl _

theorem execCastlingInDone_answers (stream : Nat) (s : State) : Answers (execCastlingInDone stream s) s := by
  refine answers_of rfl ?_
  with_reducible apply State.settle_keeps
  with_reducible apply State.castingInEnds_keeps
  exact Keeps.refl _

theorem execCommitComplete_answers (stage : Stage) (obj : Nat) (s : State) : Answers (execCommitComplete stage obj s) s := by
  refine answers_of rfl ?_
  with_reducible apply State.settle_keeps
  with_reducible apply State.commitComplete_keeps
  exact Keeps.refl _

theorem execFrogRestoreDone_answers (stream : Nat) (s : State) : Answers (execFrogRestoreDone stream s) s := by
  refine answers_of rfl ?_
  with_reducible apply State.settle_keeps
  with_reducible apply State.restoreEnds_keeps
  exact Keeps.refl _

theorem execZeroisationStart_answers (ofBranch : Bool) (slot : Nat) (s : State) : Answers (execZeroisationStart ofBranch slot s) s := by
  refine answers_of rfl ?_
  with_reducible apply State.settle_keeps
  with_reducible apply State.zeroisationStart_keeps
  exact Keeps.refl _

theorem execZeroisationDone_answers (stream : Nat) (s : State) : Answers (execZeroisationDone stream s) s := by
  refine answers_of rfl ?_
  with_reducible apply State.settle_keeps
  with_reducible apply State.zeroisationDone_keeps
  exact Keeps.refl _

theorem execBranchZeroised_answers (branch : Nat) (s : State) : Answers (execBranchZeroised branch s) s := by
  refine answers_of rfl ?_
  with_reducible apply State.settle_keeps
  with_reducible apply State.branchZeroised_keeps
  exact Keeps.refl _

theorem execOutputChunkStart_answers (branch : Nat) (s : State) : Answers (execOutputChunkStart branch s) s := by
  refine answers_of rfl ?_
  with_reducible apply State.settle_keeps
  with_reducible apply State.chunkStart_keeps
  exact Keeps.refl _

theorem execTdmFrame_answers (tdm : Nat) (words : List Nat) (s : State) : Answers (execTdmFrame tdm words s) s := by
  refine answers_of rfl ?_
  with_reducible apply State.settle_keeps
  with_reducible apply State.tdmFrame_keeps
  exact Keeps.refl _

theorem execHostFrameFetch_answers (stream : Nat) (s : State) : Answers (execHostFrameFetch stream s) s := by
  refine answers_of rfl ?_
  with_reducible apply State.settle_keeps
  with_reducible apply State.fetchFrame_keeps
  exact Keeps.refl _

theorem execOutputRingFrameWrite_answers (branch consumed : Nat) (s : State) : Answers (execOutputRingFrameWrite branch consumed s) s := by
  refine answers_of rfl ?_
  with_reducible apply State.settle_keeps
  with_reducible apply State.ringFrameWrite_keeps
  exact Keeps.refl _

theorem execGovernorWindow_answers (m : Measurement) (s : State) : Answers (execGovernorWindow m s) s := by
  refine answers_of rfl ?_
  with_reducible apply State.settle_keeps
  with_reducible apply State.governorWindow_keeps
  exact Keeps.refl _

theorem execTrimUpdate_answers (trim : Int) (s : State) : Answers (execTrimUpdate trim s) s := by
  refine answers_of rfl ?_
  with_reducible apply State.settle_keeps
  with_reducible apply State.trimUpdate_keeps
  exact Keeps.refl _

theorem execAvsTargetReached_answers (s : State) : Answers (execAvsTargetReached s) s := by
  refine answers_of rfl ?_
  with_reducible apply State.settle_keeps
  with_reducible apply State.targetReached_keeps
  exact Keeps.refl _

theorem execVoltageWaitTimeout_answers (s : State) : Answers (execVoltageWaitTimeout s) s := by
  refine answers_of rfl ?_
  with_reducible apply State.settle_keeps
  with_reducible apply State.voltageTimeout_keeps
  exact Keeps.refl _

theorem execAvsTransactionFail_answers (s : State) : Answers (execAvsTransactionFail s) s := by
  refine answers_of rfl ?_
  with_reducible apply State.settle_keeps
  with_reducible apply State.avsFail_keeps
  exact Keeps.refl _

theorem execRegulatorFault_answers (s : State) : Answers (execRegulatorFault s) s := by
  refine answers_of rfl ?_
  with_reducible apply State.settle_keeps
  with_reducible apply State.regulatorFault_keeps
  exact Keeps.refl _

theorem execProchotAsserted_answers (s : State) : Answers (execProchotAsserted s) s := by
  refine answers_of rfl ?_
  with_reducible apply State.settle_keeps
  with_reducible apply State.prochotOn_keeps
  exact Keeps.refl _

theorem execProchotDeasserted_answers (s : State) : Answers (execProchotDeasserted s) s := by
  refine answers_of rfl ?_
  with_reducible apply State.settle_keeps
  with_reducible apply State.prochotOff_keeps
  exact Keeps.refl _

theorem execSensorRecalibration_answers (sensor : Nat) (s : State) : Answers (execSensorRecalibration sensor s) s := by
  refine answers_of rfl ?_
  with_reducible apply State.settle_keeps
  with_reducible apply State.recalibrate_keeps
  exact Keeps.refl _

theorem execThermalTrip_answers (s : State) : Answers (execThermalTrip s) s := by
  refine answers_of rfl ?_
  with_reducible apply State.settle_keeps
  with_reducible apply State.thermalTrip_keeps
  exact Keeps.refl _

theorem execLossOfLock_answers (s : State) : Answers (execLossOfLock s) s := by
  refine answers_of rfl ?_
  with_reducible apply State.settle_keeps
  with_reducible apply State.lossOfLock_keeps
  exact Keeps.refl _

theorem execLockRegained_answers (s : State) : Answers (execLockRegained s) s := by
  refine answers_of rfl ?_
  with_reducible apply State.settle_keeps
  with_reducible apply State.lockReturns_keeps
  exact Keeps.refl _

theorem execColdReset_answers (straps : Nat) (s : State) : Answers (execColdReset straps s) s := by
  refine answers_of rfl ?_
  with_reducible apply State.settle_keeps
  with_reducible apply State.coldReset_keeps
  exact Keeps.refl _

theorem execSysReset_answers (nanoseconds : Nat) (s : State) : Answers (execSysReset nanoseconds s) s := by
  refine answers_of rfl ?_
  with_reducible apply State.settle_keeps
  with_reducible apply State.sysReset_keeps
  exact Keeps.refl _

theorem execResetEnd_answers (s : State) : Answers (execResetEnd s) s := by
  refine answers_of rfl ?_
  with_reducible apply State.settle_keeps
  with_reducible apply State.resetEnds_keeps
  exact Keeps.refl _

theorem execRom_answers (flashReadable : Bool) (s : State) : Answers (execRom flashReadable s) s := by
  refine answers_of rfl ?_
  with_reducible apply State.settle_keeps
  with_reducible apply State.romDone_keeps
  exact Keeps.refl _

theorem execImageCheck_answers (passed : Bool) (s : State) : Answers (execImageCheck passed s) s := by
  refine answers_of rfl ?_
  with_reducible apply State.settle_keeps
  with_reducible apply State.imageCheck_keeps
  exact Keeps.refl _

theorem execTraining_answers (failing : Option Nat) (s : State) : Answers (execTraining failing s) s := by
  refine answers_of rfl ?_
  with_reducible apply State.settle_keeps
  with_reducible apply State.training_keeps
  exact Keeps.refl _

theorem execClear_answers (s : State) : Answers (execClear s) s := by
  refine answers_of rfl ?_
  with_reducible apply State.settle_keeps
  with_reducible apply State.clearDone_keeps
  exact Keeps.refl _

theorem execSelfTest_answers (failing : List Nat) (s : State) : Answers (execSelfTest failing s) s := by
  refine answers_of rfl ?_
  with_reducible apply State.settle_keeps
  with_reducible apply State.selfTest_keeps
  exact Keeps.refl _

theorem execConfig_answers (rings : List RingSetup) (s : State) : Answers (execConfig rings s) s := by
  refine answers_of rfl ?_
  with_reducible apply State.settle_keeps
  with_reducible apply State.configDone_keeps
  exact Keeps.refl _

theorem execFwWatchdog_answers (s : State) : Answers (execFwWatchdog s) s := by
  refine answers_of rfl ?_
  with_reducible apply State.settle_keeps
  with_reducible apply State.fwWatchdog_keeps
  exact Keeps.refl _

theorem execBootTimeout_answers (s : State) : Answers (execBootTimeout s) s := by
  refine answers_of rfl ?_
  with_reducible apply State.settle_keeps
  with_reducible apply State.bootTimeout_keeps
  exact Keeps.refl _

theorem execWatchdogRefreshStop_answers (s : State) : Answers (execWatchdogRefreshStop s) s := by
  refine answers_of rfl ?_
  with_reducible apply State.settle_keeps
  with_reducible apply State.refreshStop_keeps
  exact Keeps.refl _

theorem execSnapshotRefresh_answers (s : State) : Answers (execSnapshotRefresh s) s := by
  refine answers_of rfl ?_
  with_reducible apply State.settle_keeps
  with_reducible apply State.snapshotRefresh_keeps
  exact Keeps.refl _

theorem execMctpPacket_answers (medium : Medium) (packet : MctpPacket) (s : State) : Answers (execMctpPacket medium packet s) s := by
  refine answers_of rfl ?_
  with_reducible apply State.settle_keeps
  with_reducible apply State.packetArrives_keeps
  exact Keeps.refl _

theorem execSetEndpointId_answers (r : MgmtReq) (operation eid : Nat) (s : State) : Answers (execSetEndpointId r operation eid s) s := by
  refine answers_of rfl ?_
  repeat' first
    | with_reducible exact Keeps.refl _
    | with_reducible apply State.settle_keeps
    | with_reducible apply State.serveRequest_keeps
    | with_reducible apply State.setEid_keeps
    | dsimp only
    | intro _
    | split

theorem execGetEndpointId_answers (r : MgmtReq) (s : State) : Answers (execGetEndpointId r s) s := by
  refine answers_of rfl ?_
  repeat' first
    | with_reducible exact Keeps.refl _
    | with_reducible apply State.settle_keeps
    | with_reducible apply State.answerRequest_keeps
    | dsimp only
    | intro _
    | split

theorem execGetEndpointUuid_answers (r : MgmtReq) (s : State) : Answers (execGetEndpointUuid r s) s := by
  refine answers_of rfl ?_
  repeat' first
    | with_reducible exact Keeps.refl _
    | with_reducible apply State.settle_keeps
    | with_reducible apply State.answerRequest_keeps
    | dsimp only
    | intro _
    | split

theorem execGetMctpVersionSupport_answers (r : MgmtReq) (type : Nat) (s : State) : Answers (execGetMctpVersionSupport r type s) s := by
  refine answers_of rfl ?_
  repeat' first
    | with_reducible exact Keeps.refl _
    | with_reducible apply State.settle_keeps
    | with_reducible apply State.answerRequest_keeps
    | dsimp only
    | intro _
    | split

theorem execGetMessageTypeSupport_answers (r : MgmtReq) (s : State) : Answers (execGetMessageTypeSupport r s) s := by
  refine answers_of rfl ?_
  repeat' first
    | with_reducible exact Keeps.refl _
    | with_reducible apply State.settle_keeps
    | with_reducible apply State.answerRequest_keeps
    | dsimp only
    | intro _
    | split

theorem execGetVendorDefinedMessageSupport_answers (r : MgmtReq) (s : State) : Answers (execGetVendorDefinedMessageSupport r s) s := by
  refine answers_of rfl ?_
  repeat' first
    | with_reducible exact Keeps.refl _
    | with_reducible apply State.settle_keeps
    | with_reducible apply State.answerRequest_keeps
    | dsimp only
    | intro _
    | split

theorem execPrepareForEndpointDiscovery_answers (r : MgmtReq) (s : State) : Answers (execPrepareForEndpointDiscovery r s) s := by
  refine answers_of rfl ?_
  repeat' first
    | with_reducible exact Keeps.refl _
    | with_reducible apply State.settle_keeps
    | with_reducible apply State.answerRequest_keeps
    | dsimp only
    | intro _
    | split

theorem execEndpointDiscovery_answers (r : MgmtReq) (s : State) : Answers (execEndpointDiscovery r s) s := by
  refine answers_of rfl ?_
  repeat' first
    | with_reducible exact Keeps.refl _
    | with_reducible apply State.settle_keeps
    | with_reducible apply State.answerRequest_keeps
    | dsimp only
    | intro _
    | split

theorem execGetNetworkId_answers (r : MgmtReq) (s : State) : Answers (execGetNetworkId r s) s := by
  refine answers_of rfl ?_
  repeat' first
    | with_reducible exact Keeps.refl _
    | with_reducible apply State.settle_keeps
    | with_reducible apply State.answerRequest_keeps
    | dsimp only
    | intro _
    | split

theorem execSetTid_answers (r : MgmtReq) (tid : Nat) (s : State) : Answers (execSetTid r tid s) s := by
  refine answers_of rfl ?_
  repeat' first
    | with_reducible exact Keeps.refl _
    | with_reducible apply State.settle_keeps
    | with_reducible apply State.serveRequest_keeps
    | with_reducible apply State.setTidTo_keeps
    | dsimp only
    | intro _
    | split

theorem execGetTid_answers (r : MgmtReq) (s : State) : Answers (execGetTid r s) s := by
  refine answers_of rfl ?_
  repeat' first
    | with_reducible exact Keeps.refl _
    | with_reducible apply State.settle_keeps
    | with_reducible apply State.answerRequest_keeps
    | dsimp only
    | intro _
    | split

theorem execGetPldmVersion_answers (r : MgmtReq) (type : Nat) (s : State) : Answers (execGetPldmVersion r type s) s := by
  refine answers_of rfl ?_
  repeat' first
    | with_reducible exact Keeps.refl _
    | with_reducible apply State.settle_keeps
    | with_reducible apply State.answerRequest_keeps
    | dsimp only
    | intro _
    | split

theorem execGetPldmTypes_answers (r : MgmtReq) (s : State) : Answers (execGetPldmTypes r s) s := by
  refine answers_of rfl ?_
  repeat' first
    | with_reducible exact Keeps.refl _
    | with_reducible apply State.settle_keeps
    | with_reducible apply State.answerRequest_keeps
    | dsimp only
    | intro _
    | split

theorem execGetPldmCommands_answers (r : MgmtReq) (type : Nat) (s : State) : Answers (execGetPldmCommands r type s) s := by
  refine answers_of rfl ?_
  repeat' first
    | with_reducible exact Keeps.refl _
    | with_reducible apply State.settle_keeps
    | with_reducible apply State.answerRequest_keeps
    | dsimp only
    | intro _
    | split

theorem execSetEventReceiver_answers (r : MgmtReq) (enable eid : Nat) (s : State) : Answers (execSetEventReceiver r enable eid s) s := by
  refine answers_of rfl ?_
  repeat' first
    | with_reducible exact Keeps.refl _
    | with_reducible apply State.settle_keeps
    | with_reducible apply State.serveRequest_keeps
    | with_reducible apply State.setReceiver_keeps
    | dsimp only
    | intro _
    | split

theorem execGetEventReceiver_answers (r : MgmtReq) (s : State) : Answers (execGetEventReceiver r s) s := by
  refine answers_of rfl ?_
  repeat' first
    | with_reducible exact Keeps.refl _
    | with_reducible apply State.settle_keeps
    | with_reducible apply State.answerRequest_keeps
    | dsimp only
    | intro _
    | split

theorem execGetSensorReading_answers (r : MgmtReq) (sensor : Nat) (s : State) : Answers (execGetSensorReading r sensor s) s := by
  refine answers_of rfl ?_
  repeat' first
    | with_reducible exact Keeps.refl _
    | with_reducible apply State.settle_keeps
    | with_reducible apply State.answerRequest_keeps
    | dsimp only
    | intro _
    | split

theorem execGetSensorThresholds_answers (r : MgmtReq) (sensor : Nat) (s : State) : Answers (execGetSensorThresholds r sensor s) s := by
  refine answers_of rfl ?_
  repeat' first
    | with_reducible exact Keeps.refl _
    | with_reducible apply State.settle_keeps
    | with_reducible apply State.answerRequest_keeps
    | dsimp only
    | intro _
    | split

theorem execGetStateSensorReadings_answers (r : MgmtReq) (sensor : Nat) (s : State) : Answers (execGetStateSensorReadings r sensor s) s := by
  refine answers_of rfl ?_
  repeat' first
    | with_reducible exact Keeps.refl _
    | with_reducible apply State.settle_keeps
    | with_reducible apply State.answerRequest_keeps
    | dsimp only
    | intro _
    | split

theorem execGetPdrRepositoryInfo_answers (r : MgmtReq) (s : State) : Answers (execGetPdrRepositoryInfo r s) s := by
  refine answers_of rfl ?_
  repeat' first
    | with_reducible exact Keeps.refl _
    | with_reducible apply State.settle_keeps
    | with_reducible apply State.answerRequest_keeps
    | dsimp only
    | intro _
    | split

theorem execGetPdr_answers (r : MgmtReq) (record : Nat) (s : State) : Answers (execGetPdr r record s) s := by
  refine answers_of rfl ?_
  repeat' first
    | with_reducible exact Keeps.refl _
    | with_reducible apply State.settle_keeps
    | with_reducible apply State.answerRequest_keeps
    | dsimp only
    | intro _
    | split

theorem execPlatformEventAck_answers (medium : Medium) (sensor : Nat) (s : State) : Answers (execPlatformEventAck medium sensor s) s := by
  refine answers_of rfl ?_
  with_reducible apply State.settle_keeps
  with_reducible apply State.eventAcked_keeps
  exact Keeps.refl _

theorem execPlatformEventRetry_answers (sensor : Nat) (s : State) : Answers (execPlatformEventRetry sensor s) s := by
  refine answers_of rfl ?_
  with_reducible apply State.settle_keeps
  with_reducible apply State.eventRetry_keeps
  exact Keeps.refl _

theorem execEventRateIntervalEnd_answers (sensor : Nat) (s : State) : Answers (execEventRateIntervalEnd sensor s) s := by
  refine answers_of rfl ?_
  with_reducible apply State.settle_keeps
  with_reducible apply State.rateIntervalEnd_keeps
  exact Keeps.refl _

theorem execSmbusRetry_answers (lost : Bool) (s : State) : Answers (execSmbusRetry lost s) s := by
  refine answers_of rfl ?_
  with_reducible apply State.settle_keeps
  with_reducible apply State.smbusRetry_keeps
  exact Keeps.refl _

theorem execInstructionUpdate_answers (code cells : Nat) (s : State) : Answers (execInstructionUpdate code cells s) s := by
  refine answers_of rfl ?_
  with_reducible apply State.settle_keeps
  with_reducible apply State.instructionUpdated_keeps
  exact Keeps.refl _

theorem execTestLogicReset_answers (s : State) : Answers (execTestLogicReset s) s := by
  refine answers_of rfl ?_
  with_reducible apply State.settle_keeps
  with_reducible apply State.testLogicReset_keeps
  exact Keeps.refl _

theorem execPowerRemoval_answers (aon : Bool) (s : State) : Answers (execPowerRemoval aon s) s := by
  refine answers_of rfl ?_
  with_reducible apply State.settle_keeps
  with_reducible apply State.powerRemoval_keeps
  exact Keeps.refl _

theorem execVddIoReturn_answers (s : State) : Answers (execVddIoReturn s) s := by
  refine answers_of rfl ?_
  with_reducible apply State.settle_keeps
  with_reducible apply State.ioReturns_keeps
  exact Keeps.refl _

theorem execHotResetExit_answers (port : Nat) (s : State) : Answers (execHotResetExit port s) s := by
  refine answers_of rfl ?_
  with_reducible apply State.settle_keeps
  with_reducible apply State.hotResetExit_keeps
  exact Keeps.refl _

theorem execDrainTimeout_answers (flank : Nat) (s : State) : Answers (execDrainTimeout flank s) s := by
  refine answers_of rfl ?_
  with_reducible apply State.settle_keeps
  with_reducible apply State.drainTimeout_keeps
  exact Keeps.refl _

theorem execPerBankRefresh_answers (channel : Nat) (s : State) : Answers (execPerBankRefresh channel s) s := by
  refine answers_of rfl ?_
  with_reducible apply State.settle_keeps
  with_reducible apply State.perBankRefresh_keeps
  exact Keeps.refl _

theorem execRelayoutDone_answers (flank : Nat) (s : State) : Answers (execRelayoutDone flank s) s := by
  refine answers_of rfl ?_
  with_reducible apply State.settle_keeps
  with_reducible apply State.relayoutDone_keeps
  exact Keeps.refl _

theorem execSmbusBusTimeout_answers (s : State) : Answers (execSmbusBusTimeout s) s := by
  refine answers_of rfl ?_
  with_reducible apply State.settle_keeps
  with_reducible apply State.smbusTimeout_keeps
  exact Keeps.refl _

end Sys2Proof.Machine
end

