-- ==== Sys2Proof/Laws/Lerad.lean ====
section
/-!
SUPPORT. Laws/Lerad.lean: a Lerad command through a free mailbox of a quiet device: it is accepted, starts at once, and what its effect answers is all that follows.
-/
namespace Sys2Proof.Machine

open Sys2Proof.Safety

/-! ## Messages -/

/-- R433: a message written to the inbound area is read back whole. -/
theorem ofBytes_callMessage (c : Call) (h : c.wellFormed = true) : Call.ofBytes c.port .mailbox (callMessage c) c.extBytes c.data = { c with chan := .mailbox } := by
  simp only [Call.wellFormed, Bool.and_eq_true, decide_eq_true_eq] at h
  obtain ⟨_, h1, h2, h3, h4, h5, h6, h7⟩ := h
  have lt : ∀ {x n : Nat}, x < 2 ^ n → x % 2 ^ n = x := fun hx => Nat.mod_eq_of_lt hx
  have e_opcode : field (callMessage c) 0 16 = c.opcode := by
    unfold callMessage
    simp only [field_pack_first, lt h1]
  have e_ext : flag (callMessage c) 16 = c.ext := by
    unfold callMessage
    change flag (pack _) (16 + 0) = _
    simp only [flag_pack_next, flag_pack_first]
  have e_fence : flag (callMessage c) 17 = c.fence := by
    unfold callMessage
    change flag (pack _) (16 + (1 + 0)) = _
    simp only [flag_pack_next, flag_pack_first]
  have e_resFlags : field (callMessage c) 18 6 = c.resFlags := by
    unfold callMessage
    change field (pack _) (16 + (1 + (1 + 0))) 6 = _
    simp only [field_pack_next, field_pack_first, lt h2]
  have e_version : field (callMessage c) 24 8 = c.version := by
    unfold callMessage
    change field (pack _) (16 + (1 + (1 + (6 + 0)))) 8 = _
    simp only [field_pack_next, field_pack_first, lt h3]
  have e_tag : field (callMessage c) 32 16 = c.tag := by
    unfold callMessage
    change field (pack _) (16 + (1 + (1 + (6 + (8 + 0))))) 16 = _
    simp only [field_pack_next, field_pack_first, lt h4]
  have e_length : field (callMessage c) 48 16 = c.length := by
    unfold callMessage
    change field (pack _) (16 + (1 + (1 + (6 + (8 + (16 + 0)))))) 16 = _
    simp only [field_pack_next, field_pack_first, lt h5]
  have e_handle : field (callMessage c) 64 32 = c.handle := by
    unfold callMessage
    change field (pack _) (16 + (1 + (1 + (6 + (8 + (16 + (16 + 0))))))) 32 = _
    simp only [field_pack_next, field_pack_first, lt h6]
  have e_body : callMessage c / 2 ^ 128 = c.body := by
    unfold callMessage
    change pack _ / 2 ^ (16 + (1 + (1 + (6 + (8 + (16 + (16 + (32 + (32 + 0))))))))) = _
    simp only [pack_div, pow_zero, Nat.div_one]
    rw [pack, pack, Nat.mul_zero, Nat.add_zero]
    exact lt h7
  unfold Call.ofBytes
  rw [e_opcode, e_ext, e_fence, e_resFlags, e_version, e_tag, e_length, e_handle, e_body]

/-! ## Acceptance -/

theorem setPort_setPort (s : State) (h : Table.sortedFrom 0 s.ports = true) (n : Nat) (a b : HostPort) : (s.setPort n a).setPort n b = s.setPort n b := by
  simp only [State.setPort, Table.set_set h]

theorem sorted_setPort (s : State) (h : Table.sortedFrom 0 s.ports = true) (n : Nat) (v : HostPort) : Table.sortedFrom 0 (s.setPort n v).ports = true :=
  Table.sorted_set h n v

/-- A command's maximum time depends on the port's configuration and accepted commands only, as far as ports go. -/
theorem maxTicks_setPort (s : State) (c : Call) (h : Table.sortedFrom 0 s.ports = true) (v : HostPort) (hc : v.cfg = (s.port c.port).cfg)
    (ha : v.accepted = (s.port c.port).accepted) : (s.setPort c.port v).maxTicks c = s.maxTicks c := by
  unfold State.maxTicks State.extraTicks
  simp only [State.port_setPort s h, hc, ha]
  rfl

/-- The payload depends on the port's apertures only, as long as it can be read. -/
theorem payload_setPort (s : State) (c : Call) (h : Table.sortedFrom 0 s.ports = true) (v : HostPort) (hv : v.apertures = (s.port c.port).apertures) (x : Nat)
    (hp : s.payload c = (s, .inr x)) : (s.setPort c.port v).payload c = (s.setPort c.port v, .inr x) := by
  have hap : ∀ a b d e f, v.checkAperture a b d e f = (s.port c.port).checkAperture a b d e f := by
    intro a b d e f
    unfold HostPort.checkAperture HostPort.aperture
    rw [hv]
  unfold State.payload at hp ⊢
  simp only [State.port_setPort s h, hap]
  split
  · rename_i hext
    rw [if_pos hext] at hp
    split
    · rename_i a ha; rw [ha] at hp; simp at hp
    · rename_i ha
      rw [ha] at hp
      dsimp only at hp ⊢
      split
      · rename_i hok
        rw [hok] at hp
        dsimp only at hp
        split
        · rename_i b hb; rw [hb] at hp; simp only [Prod.mk.injEq, true_and] at hp ⊢; exact hp
        · rename_i hb; rw [hb] at hp; simp at hp
      · rename_i hbad
        exfalso
        revert hp hbad
        generalize (s.port c.port).checkAperture (field c.body 0 12) (field c.body 32 32) c.length true false = r
        cases r <;> simp
  · rename_i hext
    rw [if_neg hext] at hp
    simp only [Prod.mk.injEq, true_and] at hp ⊢
    exact hp

theorem port_lt_of_wellFormed {c : Call} (h : c.wellFormed = true) : c.port < 4 := by
  unfold Call.wellFormed at h
  rw [Bool.and_eq_true, Bool.and_eq_true] at h
  exact of_decide_eq_true h.1.1

/-- The state after acceptance, as acceptance writes it. -/
theorem accept_clean (s : State) (c : Call) (x : Nat) (hs : Table.sortedFrom 0 s.ports = true) (hhead : headerCheck c = none) (hpay : s.payload c = (s, .inr x))
    (hfatal : s.boot.fatal = none) :
    s.accept c = s.setPort c.port { s.port c.port with
      accepted := (s.port c.port).accepted ++ [{ id := (s.port c.port).nextId, call := c, dt := s.dt, maxTicks := s.maxTicks c, started := false, discarded := false, key := 0 }],
      nextId := (s.port c.port).nextId + 1, cnt := { (s.port c.port).cnt with commandsAccepted := bump 64 (s.port c.port).cnt.commandsAccepted 1 } } := by
  unfold State.accept
  dsimp only
  generalize hv : ({ s.port c.port with
      accepted := (s.port c.port).accepted ++ [{ id := (s.port c.port).nextId, call := c, dt := s.dt, maxTicks := s.maxTicks c, started := false, discarded := false, key := 0 }],
      nextId := (s.port c.port).nextId + 1, cnt := { (s.port c.port).cnt with commandsAccepted := bump 64 (s.port c.port).cnt.commandsAccepted 1 } } : HostPort) = v
  have hp : (s.setPort c.port v).payload c = (s.setPort c.port v, .inr x) := payload_setPort s c hs v (by rw [← hv]) x hpay
  have hscreen : (s.setPort c.port v).screen c = (s.setPort c.port v, none) := by
    unfold State.screen
    rw [hhead]
    dsimp only
    rw [hp]
    dsimp only
    rw [State.setPort_boot, hfatal]
    rfl
  rw [hscreen]

/-- R441, R450: GO with the message in place: the command is taken. -/
theorem goMailbox_takes (s : State) (c : Call) (op : Nat) (h : MailboxFree s c op) :
    (s.updPort c.port (fun q => { q with mbx := { q.mbx with inbound := callMessage { c with opcode := op } } })).goMailbox c.port c.extBytes c.data = taken s c op := by
  obtain ⟨hwf, hch, hre, hfw, hbusy, hdone, hfatal, hq, hs, hhead, hpay⟩ := h
  have hmsg := ofBytes_callMessage { c with opcode := op } hwf
  have hm : ({ { c with opcode := op } with chan := .mailbox } : Call) = { c with opcode := op } := by rw [← hch]
  rw [hm] at hmsg
  generalize hmm : ({ c with opcode := op } : Call) = m at *
  have hport : m.port = c.port := by rw [← hmm]
  have hext : m.extBytes = c.extBytes := by rw [← hmm]
  have hdata : m.data = c.data := by rw [← hmm]
  rw [hport, hext, hdata] at hmsg
  unfold State.goMailbox
  rw [State.port_updPort s hs]
  dsimp only
  have hre' : ∀ x : Mailbox, ({ s.port c.port with mbx := x } : HostPort).reachable = true := fun _ => hre
  rw [hre', hfw, hbusy, hdone]
  simp only [Bool.not_true, Bool.false_or, bne_self_eq_false, Bool.false_eq_true, if_false]
  rw [hmsg]
  have e : (s.updPort c.port (fun q => { q with mbx := { q.mbx with inbound := callMessage m } })).updPort c.port (fun q => { q with mbx := { q.mbx with busy := true } }) =
      s.setPort c.port { s.port c.port with mbx := { (s.port c.port).mbx with inbound := callMessage m, busy := true } } := by
    unfold State.updPort
    rw [State.port_setPort s hs, setPort_setPort s hs]
  rw [e]
  have hpay' := payload_setPort s m hs { s.port c.port with mbx := { (s.port c.port).mbx with inbound := callMessage m, busy := true } } (by rw [hport]) _ hpay
  have hmax := maxTicks_setPort s m hs { s.port c.port with mbx := { (s.port c.port).mbx with inbound := callMessage m, busy := true } } (by rw [hport]) (by rw [hport])
  rw [hport] at hpay' hmax
  rw [accept_clean _ m _ (sorted_setPort s hs _ _) hhead hpay' hfatal, hport, State.port_setPort s hs, setPort_setPort s hs, hmax]
  unfold taken entryOf State.updPort
  rw [hmm, hq.1 c.port (hport ▸ port_lt_of_wellFormed hwf)]
  rfl

/-! ## The round that follows -/

theorem taken_port (s : State) (c : Call) (op : Nat) (hs : Table.sortedFrom 0 s.ports = true) :
    (taken s c op).port c.port =
      { s.port c.port with mbx := { (s.port c.port).mbx with inbound := callMessage { c with opcode := op }, busy := true }, accepted := [entryOf s c op],
                           nextId := (s.port c.port).nextId + 1,
                           cnt := { (s.port c.port).cnt with commandsAccepted := bump 64 (s.port c.port).cnt.commandsAccepted 1 } } :=
  State.port_updPort s hs c.port _

theorem taken_port_other (s : State) (c : Call) (op : Nat) (hs : Table.sortedFrom 0 s.ports = true) {q : Nat} (hq : q ≠ c.port) :
    (taken s c op).port q = s.port q :=
  State.port_updPort_other s hs c.port _ hq

theorem settlePort_empty (s : State) (n : Nat) (h : (s.port n).accepted = []) : s.settlePort n = s := by
  unfold State.settlePort
  simp only [h, List.filter_nil, List.foldl_nil, nextToRun]

theorem settlePort_one (s : State) (n : Nat) (e : Accepted) (h : (s.port n).accepted = [e]) (he : e.started = false) : s.settlePort n = s.startCall n e := by
  have hrun : mayRun [] e = true := by unfold mayRun; simp [he]
  have hf : [e].filter (·.started) = [] := by simp [he]
  unfold State.settlePort
  rw [h, hf, List.foldl_nil]
  dsimp only
  rw [h]
  simp only [nextToRun, hrun, if_true]

/-- One accepted command in an otherwise quiet device: one round runs it. -/
theorem settle_one (s : State) (n : Nat) (hn : n < 4) (e : Accepted) (he : e.started = false) (h : (s.port n).accepted = [e])
    (hbefore : ∀ q, q < 4 → q ≠ n → (s.port q).accepted = []) (hl : s.loads = []) (hr : ∀ f, f < 3 → (s.flank f).reports = [])
    (hst : Still s) (hafter : ∀ q, q < 4 → q ≠ n → ((s.startCall n e).port q).accepted = []) : s.settle = (s.startCall n e).watchSensors := by
  have hcount : s.acceptedCount = 1 := by
    unfold State.acceptedCount
    rw [show List.range 4 = [0, 1, 2, 3] from rfl]
    have hz : ∀ q, q < 4 → q ≠ n → (s.port q).accepted.length = 0 := fun q h4 hne => by rw [hbefore q h4 hne]; rfl
    have ho : (s.port n).accepted.length = 1 := by rw [h]; rfl
    simp only [List.foldl_cons, List.foldl_nil]
    interval_cases n
    · rw [ho, hz 1 (by omega) (by omega), hz 2 (by omega) (by omega), hz 3 (by omega) (by omega)]
    · rw [ho, hz 0 (by omega) (by omega), hz 2 (by omega) (by omega), hz 3 (by omega) (by omega)]
    · rw [ho, hz 0 (by omega) (by omega), hz 1 (by omega) (by omega), hz 3 (by omega) (by omega)]
    · rw [ho, hz 0 (by omega) (by omega), hz 1 (by omega) (by omega), hz 2 (by omega) (by omega)]
  have hround : (List.range 4).foldl State.settlePort s = s.startCall n e := by
    rw [show List.range 4 = [0, 1, 2, 3] from rfl]
    have hb : ∀ q, q < 4 → q ≠ n → s.settlePort q = s := fun q h4 hne => settlePort_empty s q (hbefore q h4 hne)
    have ha : ∀ q, q < 4 → q ≠ n → (s.startCall n e).settlePort q = s.startCall n e := fun q h4 hne => settlePort_empty _ q (hafter q h4 hne)
    have ho := settlePort_one s n e h he
    simp only [List.foldl_cons, List.foldl_nil]
    interval_cases n
    · rw [ho, ha 1 (by omega) (by omega), ha 2 (by omega) (by omega), ha 3 (by omega) (by omega)]
    · rw [hb 0 (by omega) (by omega), ho, ha 2 (by omega) (by omega), ha 3 (by omega) (by omega)]
    · rw [hb 0 (by omega) (by omega), hb 1 (by omega) (by omega), ho, ha 3 (by omega) (by omega)]
    · rw [hb 0 (by omega) (by omega), hb 1 (by omega) (by omega), hb 2 (by omega) (by omega), ho]
  unfold State.settle
  rw [served_quiet s hl hst, reportRetires_quiet s hr]
  dsimp only
  rw [hcount]
  unfold State.settleRounds State.settleRounds
  rw [hround]

/-- A command through a free mailbox: it is taken, starts at once, and the sensors are evaluated. -/
theorem lerad_mailbox (s : State) (c : Call) (op : Nat) (h : MailboxFree s c op)
    (hafter : ∀ q, q < 4 → q ≠ c.port → (((taken s c op).startCall c.port (entryOf s c op)).port q).accepted = []) :
    s.lerad c op = ((taken s c op).startCall c.port (entryOf s c op)).watchSensors := by
  have hgo := goMailbox_takes s c op h
  obtain ⟨hwf, hch, hre, hfw, hbusy, hdone, hfatal, hq, hs, hhead, hpay⟩ := h
  have hn : c.port < 4 := port_lt_of_wellFormed (c := { c with opcode := op }) hwf
  have e : s.lerad c op = (taken s c op).settle := by
    rw [← hgo]
    unfold State.lerad
    split
    · dsimp only
      rw [if_pos (by rw [hre, hbusy, hdone]; rfl)]
    · rename_i k hk; rw [hch] at hk; exact absurd hk (by simp)
  rw [e]
  refine settle_one _ c.port hn (entryOf s c op) rfl ?_ ?_ hq.2.1 hq.2.2.1 hq.2.2.2 hafter
  · rw [taken_port s c op hs]
  · intro q h4 hne
    rw [taken_port_other s c op hs hne]
    exact hq.1 q h4

/-- An effect that answers at once and leaves the accepted commands alone: the response is all that is left to write. -/
theorem lerad_answers (s : State) (c : Call) (op : Nat) (h : MailboxFree s c op) (u : State) (a : Answer)
    (hrun : (taken s c op).runCall (entryOf s c op) = (u, .done a)) (hu : Table.sortedFrom 0 u.ports = true)
    (hacc : ∀ q, (u.port q).accepted = ((taken s c op).port q).accepted) :
    s.lerad c op = (u.updPort c.port (fun p => p.finish u.dt (entryOf s c op) a)).watchSensors := by
  have hs : Table.sortedFrom 0 s.ports = true := h.2.2.2.2.2.2.2.2.1
  have hq : Quiet s := h.2.2.2.2.2.2.2.1
  have hstart : (taken s c op).startCall c.port (entryOf s c op) = u.updPort c.port (fun p => p.finish u.dt (entryOf s c op) a) := by
    unfold State.startCall
    rw [hrun]
    dsimp only
    unfold State.complete
    have e : (u.port c.port).accepted = [entryOf s c op] := by rw [hacc, taken_port s c op hs]
    rw [e]
    simp
  rw [lerad_mailbox s c op h, hstart]
  intro q h4 hne
  rw [hstart, State.port_updPort_other u hu c.port _ hne, hacc, taken_port_other s c op hs hne]
  exact hq.1 q h4

/-! ## The response -/

/-- R441: a mailbox command's end: the accepted list is without it, BUSY is clear, DONE set, the response in the outbound area. -/
theorem finish_mailbox (dt : Nat) (p : HostPort) (e : Accepted) (a : Answer) (hd : e.discarded = false) (hc : e.call.chan = .mailbox) :
    (p.finish dt e a).accepted = p.accepted.filter (fun x => x.id != e.id) ∧ (p.finish dt e a).mbx.busy = false ∧ (p.finish dt e a).mbx.done = true ∧
      (p.finish dt e a).mbx.outbound = mailboxResponse e.call a (if a.handle = 0 then e.call.handle else a.handle) := by
  unfold HostPort.finish
  dsimp only
  rw [hd, if_neg (by simp), hc]
  dsimp only
  split <;> split <;> simp

/-- What a command through a free mailbox leaves: the response, and in every field but the ports and the management endpoint what its effect left. -/
theorem lerad_completes (s : State) (c : Call) (op : Nat) (h : MailboxFree s c op) (u : State) (a : Answer)
    (hrun : (taken s c op).runCall (entryOf s c op) = (u, .done a)) (hu : Table.sortedFrom 0 u.ports = true)
    (hacc : ∀ q, (u.port q).accepted = ((taken s c op).port q).accepted) :
    ∃ ports mgmt, s.lerad c op = { u with ports := ports, mgmt := mgmt } ∧ Answered (s.lerad c op) c op a := by
  have hs : Table.sortedFrom 0 s.ports = true := h.2.2.2.2.2.2.2.2.1
  have hch : c.chan = .mailbox := h.2.1
  rw [lerad_answers s c op h u a hrun hu hacc]
  obtain ⟨m, hm⟩ := watchSensors_frame (u.updPort c.port (fun p => p.finish u.dt (entryOf s c op) a))
  rw [hm]
  refine ⟨(u.updPort c.port (fun p => p.finish u.dt (entryOf s c op) a)).ports, m, rfl, ?_⟩
  have hport : ({ u.updPort c.port (fun p => p.finish u.dt (entryOf s c op) a) with mgmt := m } : State).port c.port =
      (u.port c.port).finish u.dt (entryOf s c op) a := State.port_updPort u hu c.port (fun p => p.finish u.dt (entryOf s c op) a)
  have hf := finish_mailbox u.dt (u.port c.port) (entryOf s c op) a rfl hch
  have ha : (u.port c.port).accepted = [entryOf s c op] := by rw [hacc, taken_port s c op hs]
  unfold Answered
  rw [hport]
  refine ⟨hf.2.1, hf.2.2.1, ?_, hf.2.2.2⟩
  rw [hf.1, ha]
  simp

/-! ## Answers and waits -/

/-- What a command through a free mailbox is shown to reply, from what its effect is shown to do. -/
theorem replies_of {i : Instr} {s : State} {c : Call} {op : Nat} {u : State} {a : Answer} (h : MailboxFree s c op)
    (hexec : exec i s = .next (s.lerad c op)) (hrun : (taken s c op).runCall (entryOf s c op) = (u, .done a)) (hu : Table.sortedFrom 0 u.ports = true)
    (hacc : ∀ q, (u.port q).accepted = ((taken s c op).port q).accepted) : Replies i s c op u a := by
  unfold Replies
  rw [hexec, lerad_answers s c op h u a hrun hu hacc]

/-- What a command through a free mailbox is shown to wait for. -/
theorem waits_of {i : Instr} {s : State} {c : Call} {op : Nat} {u : State} {k : Nat} (h : MailboxFree s c op)
    (hexec : exec i s = .next (s.lerad c op)) (hrun : (taken s c op).runCall (entryOf s c op) = (u, .wait k)) (hu : Table.sortedFrom 0 u.ports = true)
    (hacc : ∀ q, (u.port q).accepted = ((taken s c op).port q).accepted) : Waits i s c op u k := by
  have hs : Table.sortedFrom 0 s.ports = true := h.2.2.2.2.2.2.2.2.1
  have hq : Quiet s := h.2.2.2.2.2.2.2.1
  have e : (u.port c.port).accepted = [entryOf s c op] := by rw [hacc, taken_port s c op hs]
  have hstart : (taken s c op).startCall c.port (entryOf s c op) =
      u.updPort c.port (fun p => { p with accepted := [{ entryOf s c op with started := true, key := k }] }) := by
    unfold State.startCall
    rw [hrun]
    dsimp only
    unfold State.updPort
    dsimp only
    rw [e]
    simp
  unfold Waits
  rw [hexec, lerad_mailbox s c op h, hstart]
  intro q h4 hne
  rw [hstart, State.port_updPort_other u hu c.port _ hne, hacc, taken_port_other s c op hs hne]
  exact hq.1 q h4

/-- A command through a free mailbox starts in the round that follows. -/
theorem starts_of {i : Instr} {s : State} {c : Call} {op : Nat} {u : State} {r : Reply} (h : MailboxFree s c op)
    (hexec : exec i s = .next (s.lerad c op)) (hrun : (taken s c op).runCall (entryOf s c op) = (u, r)) : Starts i s c op u r := by
  refine ⟨?_, hrun⟩
  rw [hexec, ← goMailbox_takes s c op h]
  obtain ⟨_, hch, hre, _, hbusy, hdone, _⟩ := h
  unfold State.lerad
  split
  · dsimp only
    rw [if_pos (by rw [hre, hbusy, hdone]; rfl)]
  · rename_i k hk; rw [hch] at hk; exact absurd hk (by simp)

theorem sorted_taken (s : State) (c : Call) (op : Nat) (hs : Table.sortedFrom 0 s.ports = true) : Table.sortedFrom 0 (taken s c op).ports = true :=
  sorted_setPort s hs _ _

/-- An effect that leaves the ports alone leaves the accepted commands alone. -/
theorem accepted_of_ports {u t : State} (h : u.ports = t.ports) (q : Nat) : (u.port q).accepted = (t.port q).accepted := by
  unfold State.port
  rw [h]

/-- An effect on one port that keeps its accepted commands. -/
theorem accepted_updPort (t : State) (h : Table.sortedFrom 0 t.ports = true) (n : Nat) (g : HostPort → HostPort) (hg : (g (t.port n)).accepted = (t.port n).accepted)
    (q : Nat) : ((t.updPort n g).port q).accepted = (t.port q).accepted := by
  by_cases hq : q = n
  · subst hq; rw [State.port_updPort t h]; exact hg
  · rw [State.port_updPort_other t h n g hq]

/-- Events delivered one after another leave the accepted commands alone. -/
theorem deliverHeld_accepted (dt : Nat) : ∀ (es : List Event) (a : HostPort × Nat), (HostPort.deliverHeld dt es a).1.accepted = a.1.accepted
  | [], _ => rfl
  | e :: es, a => by
    unfold HostPort.deliverHeld
    dsimp only
    rw [deliverHeld_accepted dt es]
    exact deliver_accepted dt a.1 e

/-! ## The shared shape of an effect -/

/-- Checks that all pass let the effect run. -/
theorem checked_ok {s : State} {xs : List (Bool × Answer)} {f : Unit → State × Reply} (h : firstFail xs = none) : checked s xs f = f () := by
  unfold checked
  rw [h]

/-- The first failing check is the answer, and nothing else happens. -/
theorem checked_fail {s : State} {xs : List (Bool × Answer)} {f : Unit → State × Reply} {a : Answer} (h : firstFail xs = some a) :
    checked s xs f = (s, .done a) := by
  unfold checked
  rw [h]
  rfl

/-- A live object is passed on. -/
theorem named_some {s : State} {o : Option Nat} {f : Nat → State × Reply} {i : Nat} (h : o = some i) : named s o f = f i := by
  rw [h]
  rfl

/-- No live object: HANDLE_INVALID, and nothing else (R438). -/
theorem named_none {s : State} {o : Option Nat} {f : Nat → State × Reply} (h : o = none) : named s o f = (s, .done (Answer.fail 0x0401)) := by
  rw [h]
  rfl

/-- A range in order lets the effect run. -/
theorem withRange_ok {s : State} {c : Call} {ap off bytes : Nat} {w : Bool} {f : Unit → State × Reply}
    (h : (s.port c.port).checkAperture ap off bytes (!w) w = .ok) : s.withRange c ap off bytes w f = f () := by
  unfold State.withRange
  rw [h]

/-- A ring whose aperture is in order lets the effect run. -/
theorem withRing_ok {s : State} {c : Call} {r : Option HostRing} {f : Unit → State × Reply} (h : s.ringAperture c.port r = .ok) : s.withRing c r f = f () := by
  unfold State.withRing
  rw [h]

/-- Acceptance changes no aperture. -/
theorem checkAperture_taken {s : State} (c : Call) (op : Nat) (hs : Table.sortedFrom 0 s.ports = true) (i offset bytes : Nat) (r w : Bool) :
    ((taken s c op).port c.port).checkAperture i offset bytes r w = (s.port c.port).checkAperture i offset bytes r w := by
  rw [taken_port s c op hs]
  unfold HostPort.checkAperture HostPort.aperture
  rfl

/-- Acceptance changes no ring's aperture. -/
theorem ringAperture_taken {s : State} (c : Call) (op : Nat) (hs : Table.sortedFrom 0 s.ports = true) (r : Option HostRing) :
    (taken s c op).ringAperture c.port r = s.ringAperture c.port r := by
  unfold State.ringAperture
  split
  · rfl
  · exact checkAperture_taken c op hs _ _ _ _ _

theorem sorted_of_free {s : State} {c : Call} {op : Nat} (h : MailboxFree s c op) : Table.sortedFrom 0 s.ports = true := h.2.2.2.2.2.2.2.2.1

/-! ## Responses -/

/-- R478: a response inline. -/
theorem respond_inline {s : State} {c : Call} {pl len v : Nat} {r : Option Nat} (h : field pl 64 32 = 0) (hl : len ≤ 232) : s.respond c pl len v r = (s, .done { result := r.getD len, extra := v, extraBytes := len }) := by
  unfold State.respond State.bufferRange
  simp [h, Nat.not_lt.2 hl]

/-- R479: a response that does not fit the mailbox. -/
theorem respond_small {s : State} {c : Call} {pl len v : Nat} {r : Option Nat} (h : field pl 64 32 = 0) (hl : 232 < len) : s.respond c pl len v r = (s, .done { status := 0x0309, result := len }) := by
  unfold State.respond State.bufferRange
  simp [h, hl]

/-- R478: a response through the buffer. -/
theorem respond_buffer {s : State} {c : Call} {pl len v : Nat} {r : Option Nat} (h : field pl 64 32 ≠ 0) (hap : (s.port c.port).checkAperture (field pl 0 12) (field pl 32 32) (field pl 64 32) false true = .ok) (hl : len ≤ field pl 64 32) :
   s.respond c pl len v r = (s.updPort c.port (fun p => p.hostWrite (field pl 0 12) (field pl 32 32) len v), .done { result := r.getD len }) := by
  unfold State.respond State.bufferRange
  simp [h, hap, Nat.not_lt.2 hl]

/-- R479: a response that does not fit the buffer. -/
theorem respond_short {s : State} {c : Call} {pl len v : Nat} {r : Option Nat} (h : field pl 64 32 ≠ 0) (hap : (s.port c.port).checkAperture (field pl 0 12) (field pl 32 32) (field pl 64 32) false true = .ok) (hl : field pl 64 32 < len) :
   s.respond c pl len v r = (s, .done { status := 0x0309, result := len }) := by
  unfold State.respond State.bufferRange
  simp [h, hap, hl]

/-- What a query through a free mailbox is shown to respond. -/
theorem responds_of {i : Instr} {s : State} {c : Call} {op : Nat} {u : State} {len v : Nat} {r : Option Nat} (h : MailboxFree s c op)
    (hexec : exec i s = .next (s.lerad c op)) (hrun : (taken s c op).runCall (entryOf s c op) = u.respond { c with opcode := op } (callPayload c) len v r)
    (hp : u.ports = (taken s c op).ports) : Responds i s c op u len v r := by
  have hs := sorted_of_free h
  have hu : Table.sortedFrom 0 u.ports = true := by rw [hp]; exact sorted_taken s c op hs
  have hport : u.port c.port = (taken s c op).port c.port := by unfold State.port; rw [hp]
  refine ⟨?_, ?_, ?_⟩
  · intro h0 hl
    exact replies_of h hexec (hrun.trans (respond_inline h0 hl)) hu (accepted_of_ports hp)
  · intro h0 hl
    exact replies_of h hexec (hrun.trans (respond_small h0 hl)) hu (accepted_of_ports hp)
  · intro h0 hap
    have hap' : (u.port c.port).checkAperture (field (callPayload c) 0 12) (field (callPayload c) 32 32) (field (callPayload c) 64 32) false true = .ok := by
      rw [hport, checkAperture_taken c op hs]; exact hap
    refine ⟨?_, ?_⟩
    · intro hl
      refine replies_of h hexec (hrun.trans (respond_buffer h0 hap' hl)) (sorted_setPort _ hu _ _) ?_
      intro q
      rw [← accepted_of_ports hp q]
      exact accepted_updPort _ hu _ _ (hostWrite_accepted ..) q
    · intro hl
      exact replies_of h hexec (hrun.trans (respond_short h0 hap' hl)) hu (accepted_of_ports hp)

/-- R478: a descriptor in order passes its checks. -/
theorem bufferChecks_ok {c : Call} (hb : BufferOk c) (hc : c.chan = .mailbox) (op : Nat) :
    firstFail (bufferChecks { c with opcode := op } (callPayload c)) = none := by
  obtain ⟨h1, h2, h3, h4⟩ := hb
  simp [bufferChecks, firstFail, resZero, alignFail, rangeFail, h1, h2, h3, Nat.not_lt.2 h4, hc]

/-- Acceptance changes no ring pair, no ring and no range. -/
theorem pair_taken {s : State} (c : Call) (op : Nat) (hs : Table.sortedFrom 0 s.ports = true) (k : Nat) :
    ((taken s c op).port c.port).pair k = (s.port c.port).pair k := by
  rw [taken_port s c op hs]
  unfold HostPort.pair
  rfl

theorem span_taken {s : State} (c : Call) (op : Nat) (hs : Table.sortedFrom 0 s.ports = true) (a o b : Nat) :
    ((taken s c op).port c.port).span a o b = (s.port c.port).span a o b := by
  rw [taken_port s c op hs]
  unfold HostPort.span
  rfl

theorem ringSpans_taken {s : State} (c : Call) (op : Nat) (hs : Table.sortedFrom 0 s.ports = true) :
    ((taken s c op).port c.port).ringSpans = (s.port c.port).ringSpans := by
  rw [taken_port s c op hs]
  unfold HostPort.ringSpans HostPort.span
  rfl

/-! ## Commands of the plan authority -/

theorem run_diagInject {s : State} {c : Call} (h : s.isPlan c.port = true) :
    (taken s c 0x0802).runCall (entryOf s c 0x0802) = (taken s c 0x0802).diagInject { c with opcode := 0x0802 } (callPayload c) := by
  have h' : (taken s c 0x0802).isPlan c.port = true := h
  change (if (true && !(taken s c 0x0802).isPlan c.port) = true then _ else _) = _
  rw [h']
  rfl

theorem run_powerCapSet {s : State} {c : Call} (h : s.isPlan c.port = true) :
    (taken s c 0x0902).runCall (entryOf s c 0x0902) = (taken s c 0x0902).powerCapSet { c with opcode := 0x0902 } (callPayload c) := by
  have h' : (taken s c 0x0902).isPlan c.port = true := h
  change (if (true && !(taken s c 0x0902).isPlan c.port) = true then _ else _) = _
  rw [h']
  rfl

theorem run_firmwareStage {s : State} {c : Call} (h : s.isPlan c.port = true) :
    (taken s c 0x0903).runCall (entryOf s c 0x0903) = (taken s c 0x0903).firmwareStage { c with opcode := 0x0903 } (callPayload c) (s.port c.port).nextId := by
  have h' : (taken s c 0x0903).isPlan c.port = true := h
  change (if (true && !(taken s c 0x0903).isPlan c.port) = true then _ else _) = _
  rw [h']
  rfl

theorem run_firmwareActivate {s : State} {c : Call} (h : s.isPlan c.port = true) :
    (taken s c 0x0904).runCall (entryOf s c 0x0904) = (taken s c 0x0904).firmwareActivate { c with opcode := 0x0904 } := by
  have h' : (taken s c 0x0904).isPlan c.port = true := h
  change (if (true && !(taken s c 0x0904).isPlan c.port) = true then _ else _) = _
  rw [h']
  rfl

theorem run_deviceReset {s : State} {c : Call} (h : s.isPlan c.port = true) :
    (taken s c 0x0905).runCall (entryOf s c 0x0905) = (taken s c 0x0905).deviceReset { c with opcode := 0x0905 } (callPayload c) s.dt := by
  have h' : (taken s c 0x0905).isPlan c.port = true := h
  change (if (true && !(taken s c 0x0905).isPlan c.port) = true then _ else _) = _
  rw [h']
  rfl

theorem run_siteConfigStage {s : State} {c : Call} (h : s.isPlan c.port = true) :
    (taken s c 0x0906).runCall (entryOf s c 0x0906) = (taken s c 0x0906).siteConfigStage { c with opcode := 0x0906 } (callPayload c) (s.port c.port).nextId := by
  have h' : (taken s c 0x0906).isPlan c.port = true := h
  change (if (true && !(taken s c 0x0906).isPlan c.port) = true then _ else _) = _
  rw [h']
  rfl

/-! ## Boundaries -/

/-- A command that starts when it is accepted takes effect at the next 10 ms boundary. -/
theorem effectBoundary_self (t : Nat) : effectBoundary t t = nextBoundary t := by
  unfold effectBoundary nextBoundary roundUp
  rw [if_neg (by decide)]
  refine Nat.max_eq_left ?_
  have := Nat.div_add_mod t 245760
  have h2 : (t + 245760 - 1) / 245760 ≤ t / 245760 + 1 := by omega
  exact Nat.mul_le_mul_right _ h2

end Sys2Proof.Machine
end

