-- ==== Sys2Proof/Laws/Ports.lean ====
section
/-!
SUPPORT. Laws/Ports.lean: rows that change one host port: what keeps a state quiet, and what a port's operations leave alone.
-/
namespace Sys2Proof.Machine

open Sys2Proof.Safety

/-- A change of one port that keeps its accepted commands keeps a state quiet. -/
theorem quiet_updPort {s : State} (hs : Table.sortedFrom 0 s.ports = true) (hq : Quiet s) (n : Nat) (g : HostPort → HostPort)
    (hg : (g (s.port n)).accepted = (s.port n).accepted) : Quiet (s.updPort n g) :=
  ⟨fun q h4 => by rw [accepted_updPort s hs n g hg]; exact hq.1 q h4, hq.2⟩

/-- Another device memory leaves a state quiet. -/
theorem quiet_mem {s : State} (hq : Quiet s) (m : Memory) : Quiet { s with mem := m } := hq
/-- Other feeders leave a state quiet. -/
theorem quiet_feeders {s : State} (hq : Quiet s) (v : Table Feeder) : Quiet { s with feeders := v } := hq

theorem quiet_memWrite {s : State} (hq : Quiet s) (x n v : Nat) : Quiet (s.memWrite x n v) := quiet_mem hq _
theorem quiet_memZero {s : State} (hq : Quiet s) (x n : Nat) : Quiet (s.memZero x n) := quiet_mem hq _
theorem quiet_updChannel {s : State} (hq : Quiet s) (c : Nat) (g : PseudoChannel → PseudoChannel) : Quiet (s.updChannel c g) := quiet_mem hq _
theorem quiet_channelWrote {s : State} (hq : Quiet s) (x n : Nat) : Quiet (s.channelWrote x n) := quiet_mem hq _
theorem quiet_updFeeder {s : State} (hq : Quiet s) (f : Nat) (g : Feeder → Feeder) : Quiet (s.updFeeder f g) := quiet_feeders hq _
theorem quiet_updRequest {s : State} (hq : Quiet s) (f tag : Nat) (g : Request → Request) : Quiet (s.updRequest f tag g) := quiet_feeders hq _

/-- A violation keeps a state quiet. -/
theorem quiet_violate {s : State} (hs : Table.sortedFrom 0 s.ports = true) (hq : Quiet s) (n kind : Nat) (src : ViolationSource) (w : Bool)
    (addr opcode data : Nat) : Quiet (s.violate n kind src w addr opcode data) :=
  quiet_updPort hs hq n _ (violate_accepted ..)

/-- A row whose effect is `u`, shown equal to the quiet state `t`. -/
theorem leaves_of {i : Instr} {s t u : State} (h : exec i s = .next u.settle) (e : u = t) (hq : Quiet t) : Leaves i s t := by
  unfold Leaves
  rw [h, e, settle_quiet t hq]

/-- A row whose effect is `u`, shown equal to `t`. -/
theorem becomes_of {i : Instr} {s t u : State} (h : exec i s = .next u.settle) (e : u = t) : Becomes i s t := by
  unfold Becomes
  rw [h, e]

@[simp] theorem rang_accepted (p : HostPort) : p.rang.accepted = p.accepted := rfl
@[simp] theorem storeCompletion_accepted (dt : Nat) (p : HostPort) (c : Completion) : (p.storeCompletion dt c).accepted = p.accepted := rfl
@[simp] theorem noteCapacity_accepted (p : HostPort) : p.noteCapacity.accepted = p.accepted := rfl

@[simp] theorem unmask_accepted (p : HostPort) (v : Nat) : (p.unmask v).accepted = p.accepted := by
  unfold HostPort.unmask
  split <;> simp

@[simp] theorem tableWrite_accepted (p : HostPort) (off value : Nat) : (p.tableWrite off value).accepted = p.accepted := by
  unfold HostPort.tableWrite
  dsimp only
  rw [unmask_accepted]
  rfl

@[simp] theorem sendPending_accepted (p : HostPort) : p.sendPending.accepted = p.accepted := by
  unfold HostPort.sendPending
  generalize List.range 64 = l
  induction l generalizing p with
  | nil => rfl
  | cons a l ih => rw [List.foldl_cons, ih]; split <;> simp

@[simp] theorem flushHeld_accepted (dt : Nat) (p : HostPort) : (p.flushHeld dt).accepted = p.accepted := by
  unfold HostPort.flushHeld
  generalize hq : ({ p with heldOut := [] } : HostPort) = q
  have hp : q.accepted = p.accepted := by rw [← hq]
  rw [← hp]
  clear hq hp
  generalize p.heldOut = l
  induction l generalizing q with
  | nil => rfl
  | cons a l ih => rw [List.foldl_cons, ih]; split <;> rfl

@[simp] theorem release_accepted (dt : Nat) (p : HostPort) : (p.release dt).accepted = p.accepted := by
  unfold HostPort.release
  simp

/-- An aligned access of 4 bytes. -/
theorem sizeOk_four {off : Nat} (h : off % 4 = 0) : sizeOk off 4 = true := by simp [sizeOk, h]

/-- A write to read-only registers changes nothing (R673). -/
theorem dwordWrite_readOnly (s : State) (n off value : Nat) (ext : Option Nat) (data : HostData)
    (h : off < 0x1000 ∨ 0x1100 ≤ off ∧ off < 0x1200 ∨ 0x3000 ≤ off ∧ off < 0x10000 ∨ 0x10400 ≤ off) : s.dwordWrite n off value ext data = s := by
  unfold State.dwordWrite
  rw [if_neg (by omega), if_neg (by omega), if_neg (by omega), if_neg (by omega), if_neg (by omega), if_neg (by omega), if_neg (by omega)]

end Sys2Proof.Machine
end

