-- ==== Sys2Proof/Tests/Slice0.lean ====
section
/-!
SUPPORT. Tests/Slice0.lean: the model's own tests. `test_` theorems check single results against the manual; `witness_` theorems show, for each obligation, states and
operands that meet its hypotheses, clause by clause.
-/
namespace Sys2Proof.Tests

-- One theorem at a time: each witness waits for the kernel, and a waiting thread keeps its stack.
set_option Elab.async false

open Sys2Proof.Machine Sys2Proof.Safety

/-! ## Ill-formed terms -/

/-- A mailbox message of `len` bytes on port 0. -/
def call (op len handle body : Nat) : Call :=
  { port := 0, chan := .mailbox, opcode := op, ext := false, fence := false, resFlags := 0, version := 1, tag := 7, length := len, handle := handle, body := body,
    extBytes := none, data := .nothing }

def stitch (src seq : Nat) : Stitch := { dest := 5, source := src, seq := seq, last := true, cls := 0, multicast := false, kind := 1, length := 32, fence := false, tag := 0, payload := 0 }

def request (m : Medium) (eid : Nat) : MgmtReq := { medium := m, dstEid := eid, srcEid := 9, inst := 3 }

def packet (som eom : Bool) (seq : Nat) (bytes : List Nat) : MctpPacket :=
  { dstEid := 0, srcEid := 9, som := som, eom := eom, pktSeq := seq, msgTag := 1, pecOk := true, slave := 0x3A, payload := bytes }

theorem test_ill_port : Instr.wellFormed (.dtLoRead 4) = false := by decide
theorem test_ill_call_port : Instr.wellFormed (.nop { call 0x0914 0 0 0 with port := 4 }) = false := by decide
theorem test_ill_call_pair : Instr.wellFormed (.nop { call 0x0914 0 0 0 with chan := .pair 32 }) = false := by decide
theorem test_ill_call_header : Instr.wellFormed (.nop { call 0x0914 0 0 0 with tag := 65536 }) = false := by decide
theorem test_ill_flank : Instr.wellFormed (.dispatchTimer 3) = false := by decide
theorem test_ill_tile : Instr.wellFormed (.lookup 144 0) = false := by decide
theorem test_ill_tdm : Instr.wellFormed (.portEnableEffect 16) = false := by decide
theorem test_ill_tag : Instr.wellFormed (.done 0 32768) = false := by decide
theorem test_ill_feeder : Instr.wellFormed (.requestIssue 4) = false := by decide
theorem test_ill_ring : Instr.wellFormed (.skein 0 256) = false := by decide
theorem test_ill_channel : Instr.wellFormed (.refreshForced 192) = false := by decide
theorem test_ill_endpoint : Instr.wellFormed (.creditTimer 1024 0) = false := by decide
theorem test_ill_page : Instr.wellFormed (.sweepStart (2 ^ 25)) = false := by decide
theorem test_ill_stream : Instr.wellFormed (.chunkClose 1024) = false := by decide
theorem test_ill_branch : Instr.wellFormed (.flagFall 2048 .encode 0) = false := by decide
theorem test_ill_slot : Instr.wellFormed (.commitComplete .encode 1024) = false ∧ Instr.wellFormed (.commitComplete .speak 1024) = true := by decide
theorem test_ill_upset : Instr.wellFormed (.read 0 0 [(0, 256)]) = false := by decide
theorem test_ill_upset_zero : Instr.wellFormed (.read 0 0 [(0, 0)]) = false := by decide
theorem test_ill_stitch : Instr.wellFormed (.notice 0 (stitch 1 4096)) = false := by decide
theorem test_ill_hop_word : Instr.wellFormed (.hopReceive 0 0
    { stitch := none, fwdParity := true, revParity := true, byteErrors := 0, hopSeq := 256, ackSeq := 0, detours := 0, nak := false, credits := 0 }) = false := by decide
theorem test_ill_link_port : Instr.wellFormed (.hopAckTimeout 0 5) = false := by decide
theorem test_ill_bar0 : Instr.wellFormed (.inboundWrite 0 1048576 4 0) = false := by decide
theorem test_ill_bar0_size : Instr.wellFormed (.registerWrite 0 0 9 0) = false := by decide
theorem test_ill_bar0_value : Instr.wellFormed (.registerWrite 0 0 4 (2 ^ 32)) = false := by decide
theorem test_ill_doorbell_pair : Instr.wellFormed (.submissionTailDoorbell 0 32 0) = false := by decide
theorem test_ill_vector : Instr.wellFormed (.aggTimeExpiry 0 64) = false := by decide
theorem test_ill_pcie_tag : Instr.wellFormed (.quarantineEnd 0 1024) = false := by decide
theorem test_ill_barrier : Instr.wellFormed (.arrive 0 256 0) = false := by decide
theorem test_ill_needle : Instr.wellFormed (.swap 0 64) = false := by decide
theorem test_ill_stack : Instr.wellFormed (.stackTemperatureReadout 6 0) = false := by decide
theorem test_ill_holder : Instr.wellFormed (.holder 0 0 256) = false := by decide
theorem test_ill_pipe : Instr.wellFormed (.bindingReady 32) = false := by decide
theorem test_ill_trim : Instr.wellFormed (.trimUpdate 51) = false := by decide
theorem test_ill_sensor : Instr.wellFormed (.sensorRecalibration 16) = false := by decide
theorem test_ill_straps : Instr.wellFormed (.coldReset 4) = false := by decide
theorem test_ill_training : Instr.wellFormed (.training (some 6)) = false := by decide
theorem test_ill_medium : Instr.wellFormed (.platformEventAck (.host 4) 1) = false := by decide
theorem test_ill_request : Instr.wellFormed (.getTid (request .smbus 256)) = false := by decide
theorem test_ill_packet : Instr.wellFormed (.mctpPacket .smbus (packet true true 4 [])) = false := by decide
theorem test_ill_packet_byte : Instr.wellFormed (.mctpPacket .smbus (packet true true 0 [256])) = false := by decide
theorem test_ill_operation : Instr.wellFormed (.setEndpointId (request .smbus 0) 4 8) = false := by decide
theorem test_ill_tid : Instr.wellFormed (.setTid (request .smbus 0) 256) = false := by decide
theorem test_ill_record : Instr.wellFormed (.getPdr (request .smbus 0) (2 ^ 32)) = false := by decide
theorem test_ill_jtag : Instr.wellFormed (.instructionUpdate 256 0) = false ∧ Instr.wellFormed (.instructionUpdate 0 (2 ^ 156)) = false := by decide

/-! ## A device at READY -/

/-- Port 0 UP and READY, with one aperture of 16 MiB. -/
def port0 : HostPort :=
  { link := .up, perst := false, configReady := true, fwState := 2, cfg := { busMaster := true, memorySpace := true, msixEnable := true },
    apertures := [(0, some { base := 0, bytes := 16777216, read := true, write := true })] }

def part0 : Partition :=
  { streams := 8, branches := 8, pipelines := 4, models := 8, memBytes := 4294967296, tdmPorts := 15, windowBase := 2147483648, windowMib := 8192, nPool := 4096 }

/-- The device at READY, with nothing in it but partition 0's quota. -/
def ready : State := { State.reset with boot := { State.reset.boot with stage := .ready }, ports := [(0, port0)], parts := [(0, part0)] }

/-- The device at READY with port 0 as it is. -/
def at0 (g : HostPort → HostPort) : State := { ready with ports := [(0, g port0)] }

/-- A command with the length its definition requires. -/
def cmd (op handle body : Nat) : Call := call op (((cmdSpec op).map (·.length)).getD 0) handle body

theorem quiet_lists {s : State}
    (h : (∀ n, n < 4 → (s.port n).accepted = []) ∧ s.loads = [] ∧ (∀ f, f < 3 → (s.flank f).reports = []) ∧ s.pages.wants = [] ∧ s.restoresWait = [] ∧
      (∀ f, f < 3 → (s.flank f).repair ≠ .restoring) ∧ s.opensWait = []) : Quiet s := h

/-- The mailbox of a quiet device is free for a well-formed message that passes the header checks. -/
theorem free_of {s : State} {c : Call} {op : Nat}
    (h : ((∀ n, n < 4 → (s.port n).accepted = []) ∧ s.loads = [] ∧ (∀ f, f < 3 → (s.flank f).reports = []) ∧ s.pages.wants = [] ∧ s.restoresWait = [] ∧
        (∀ f, f < 3 → (s.flank f).repair ≠ .restoring) ∧ s.opensWait = []) ∧ s.boot.fatal = none ∧
      Table.sortedFrom 0 s.ports = true ∧ c.chan = .mailbox ∧ c.ext = false ∧ (s.port c.port).reachable = true ∧ (s.port c.port).fwState = 2 ∧
      (s.port c.port).mbx.busy = false ∧ (s.port c.port).mbx.done = false ∧ ({ c with opcode := op } : Call).wellFormed = true ∧
      headerCheck { c with opcode := op } = none) : MailboxFree s c op := by
  obtain ⟨hq, hf, hs, hc, hx, hr, hw2, hb, hd, hw, hh⟩ := h
  refine ⟨hw, hc, hr, hw2, hb, hd, hf, hq, hs, hh, ?_⟩
  unfold State.payload
  dsimp only
  rw [hx]
  rfl

/-- A recurrent layer with 61 groups of state: F = 4,096 bytes (R169). -/
def layer0 : Layer := { outChannels := 1952, groupBytes := 1024, kind := .elementwise, precision := List.replicate 61 true }

def package (kind : Nat) : Package :=
  { kind := kind, format := 0, periods := 15, laMin := 0, rowLimit := 16, rowsPerItem := [1], seqs := 1, actKib := 64, weightBytes := 65536,
    entryBytes := 128, inputBytes := 64, digest := 0, layers := [layer0], gauges := [], requants := [], renormPeriod := none, preEmphasis := 0, initGroups := [], initChannels := [],
    attention := [], bucketMode := false, languages := [1], voices := [2], vocabulary := 1000 }

def pipe0 : Pipeline :=
  { live := true, period := 983040, fanout := 4, encode := { present := true, flank := 0, model := 0, content := 1, budget := 491520 },
    translate := { present := true, flank := 1, model := 1, content := 2, budget := 491520 },
    speak := { present := true, flank := 2, model := 2, content := 3, budget := 491520 }, ready := true }

/-- Three models with a pipeline of them, an unused fourth model, and a free-running stream 0 with branch 0. -/
def full : State :=
  { ready with
    contents := [(1, { live := true, pkg := some (package 0), pages := 16 }), (2, { live := true, pkg := some (package 1), pages := 16 }),
                 (3, { live := true, pkg := some (package 2), pages := 16 }), (4, { live := true, pkg := some (package 0), pages := 16 })],
    models := [(0, { live := true, content := 1 }), (1, { live := true, content := 2 }), (2, { live := true, content := 3 }), (3, { live := true, content := 4 })],
    pipes := [(0, pipe0)],
    streams := [(0, { state := .resident, source := .tdm 0 0 })],
    branches := [(0, { state := .active, outs := [(1, 0)] })],
    audio := { inputs := [(0, { stream := some 0 })], outputs := [(32, { branch := some 0 })] } }

/-- The same, with stream 0 changed. -/
def fullS (g : Stream → Stream) : State := { full with streams := [(0, g { state := .resident, source := .tdm 0 0 })] }

/-- The same, with branch 0 changed. -/
def fullB (g : Branch → Branch) : State := { full with branches := [(0, g { state := .active, outs := [(1, 0)] })] }

def hostRing : HostRing := { aperture := 0, offset := 0, log := 4, rate := 16, vector := 0, notify := 4, consumed := 8, produced := 8 }

/-- A site configuration image with its CRC still zero: no streams, cap 700 W, scrub every 24 hours. -/
def siteRaw : Nat :=
  0x53434E31 + 1 * 2 ^ 32 + 1024 * 2 ^ 48 + (24 * 2 ^ 8 + 28 * 2 ^ 24) * 2 ^ 128 +
    (2 ^ 384 + 2 ^ 896 + 2 ^ 1408 + 2 ^ 1920) * (0x010101 * 2 ^ 128)

/-- The image with its CRC-32, computed outside the model (zlib). -/
def siteImage : Nat := siteRaw + 2 ^ 96 * 0x9F4783F6

/-- A fold over consecutive indices, every intermediate value evaluated. -/
def forced (g : Nat → Nat → Nat) : Nat → Nat → Nat → Nat
  | 0, _, c => c
  | k + 1, i, c => match g c i with
    | 0 => forced g k (i + 1) 0
    | m + 1 => forced g k (i + 1) (m + 1)

theorem forced_eq (g : Nat → Nat → Nat) : ∀ k i c, forced g k i c = (List.range' i k).foldl g c
  | 0, _, _ => rfl
  | k + 1, i, c => by
    rw [List.range'_succ, List.foldl_cons, ← forced_eq g k, forced]
    split <;> rename_i h <;> rw [h]

theorem crc32_eq (n v : Nat) : crc32 n v = Nat.xor (forced (fun c i => crcByte c (field v (8 * i) 8)) n 0 0xFFFFFFFF) 0xFFFFFFFF := by
  simp only [crc32, forced_eq, List.range_eq_range']

theorem inr_elim {α β : Type} (b : β) {x : α ⊕ β} (h : x.isRight = true) : x = .inr (x.elim (fun _ => b) id) := by cases x <;> simp_all

theorem some_elim {x : Option State} (h : x.isSome = true) : x = some (x.getD State.reset) := by cases x <;> simp_all

theorem true_elim {α : Type} {x : Bool × α} (h : x.1 = true) : x = (true, x.2) := by cases x; simp_all

theorem false_elim {α : Type} {x : Bool × α} (h : x.1 = false) : x = (false, x.2) := by cases x; simp_all

theorem taken_elim {x : Turn × State} (h : x.1 = .taken) : x = (.taken, x.2) := by cases x; simp_all

theorem some_nat {x : Option Nat} (h : x.isSome = true) : x = some (x.getD 0) := by cases x <;> simp_all

/-- The machine after reset at PACE_LEVEL 1. -/
def slow : State := { State.reset with power := { pace := 1 } }

theorem inv_slow : Inv slow := by
  refine ⟨⟨by decide, by decide, by decide, by decide, by decide, ?_, by decide, by decide⟩, ⟨rfl, rfl⟩, by unfold BoundsOk; decide, ?_⟩
  · intro t d h
    exact absurd (show (none : Option (Nat × Nat)) = some (t, d) from h) (by simp)
  · constructor <;> rfl

/-- R618, Table 16-10: an image with the right CRC-32 passes every check. -/
theorem test_site_image : siteValid siteImage = true := by
  unfold siteValid siteHeaderOk
  rw [crc32_eq]
  decide +kernel

/-! ## Witnesses: states and operands that meet the hypotheses of each obligation, clause by clause -/

theorem witness_TransportCommandsReply :
    (∃ (s : State) (c : Call) (x : Nat), x = callPayload c ∧ MailboxFree s c 0x0914) ∧
    (∃ (s : State) (c : Call) (x : Nat), x = callPayload c ∧ MailboxFree s c 0x0913 ∧ field x 6 2 = 0 ∧ field x 16 16 = 0 ∧ field x 32 32 ≤ 245760) ∧
    (∃ (s : State) (c : Call) (x : Nat), x = callPayload c ∧ MailboxFree s c 0x0910 ∧ field x 5 3 = 0 ∧ field x 30 2 = 0 ∧ field x 44 4 = 0 ∧ field x 60 4 = 0 ∧ 4 ≤ field x 8 8 ∧ field x 8 8 ≤ 12 ∧ 4 ≤ field x 16 8 ∧ field x 16 8 ≤ 12 ∧ (s.port c.port).checkAperture (field x 32 12) (field x 64 32) (64 * 2 ^ field x 8 8) true false = .ok ∧ (s.port c.port).checkAperture (field x 48 12) (field x 96 32) (32 * 2 ^ field x 16 8) false true = .ok ∧ field x 64 32 % 256 = 0 ∧ field x 96 32 % 256 = 0 ∧ ((s.port c.port).pair (field x 0 5)).live = false ∧ overlaps ((s.port c.port).span (field x 32 12) (field x 64 32) (64 * 2 ^ field x 8 8)) ((s.port c.port).span (field x 48 12) (field x 96 32) (32 * 2 ^ field x 16 8)) = false ∧ (∀ r ∈ (s.port c.port).ringSpans, overlaps ((s.port c.port).span (field x 32 12) (field x 64 32) (64 * 2 ^ field x 8 8)) r = false ∧ overlaps ((s.port c.port).span (field x 48 12) (field x 96 32) (32 * 2 ^ field x 16 8)) r = false)) ∧
    (∃ (s : State) (c : Call) (x : Nat), x = callPayload c ∧ MailboxFree s c 0x0910 ∧ field x 5 3 = 0 ∧ field x 30 2 = 0 ∧ field x 44 4 = 0 ∧ field x 60 4 = 0 ∧ 4 ≤ field x 8 8 ∧ field x 8 8 ≤ 12 ∧ 4 ≤ field x 16 8 ∧ field x 16 8 ≤ 12 ∧ (s.port c.port).checkAperture (field x 32 12) (field x 64 32) (64 * 2 ^ field x 8 8) true false = .ok ∧ (s.port c.port).checkAperture (field x 48 12) (field x 96 32) (32 * 2 ^ field x 16 8) false true = .ok ∧ field x 64 32 % 256 = 0 ∧ field x 96 32 % 256 = 0 ∧ ((s.port c.port).pair (field x 0 5)).live = false ∧ overlaps ((s.port c.port).span (field x 32 12) (field x 64 32) (64 * 2 ^ field x 8 8)) ((s.port c.port).span (field x 48 12) (field x 96 32) (32 * 2 ^ field x 16 8)) = false ∧ (∀ r ∈ (s.port c.port).ringSpans, overlaps ((s.port c.port).span (field x 32 12) (field x 64 32) (64 * 2 ^ field x 8 8)) r = false ∧ overlaps ((s.port c.port).span (field x 48 12) (field x 96 32) (32 * 2 ^ field x 16 8)) r = false)) ∧
    (∃ (s : State) (c : Call) (x : Nat) (r : _), x = callPayload c ∧ MailboxFree s c 0x0912 ∧ field x 20 12 = 0 ∧ 4 ≤ field x 0 8 ∧ field x 0 8 ≤ 14 ∧ (s.port c.port).checkAperture (field x 8 12) (field x 32 32) (32 * 2 ^ field x 0 8) false true = .ok ∧ field x 32 32 % 256 = 0 ∧ (s.port c.port).events.live = false ∧ r = HostPort.deliverHeld s.dt ((s.port c.port).resetEvent.toList ++ (s.port c.port).heldEvents) ({ (taken s c 0x0912).port c.port with events := { (s.port c.port).events with live := true, log := field x 0 8, aperture := field x 8 12, offset := field x 32 32, head := 0, tail := 0, phase := true, capAtLoss := 2 ^ field x 0 8 - 1 }, heldEvents := [], resetEvent := none }, 0)) ∧
    (∃ (s : State) (c : Call) (x : Nat) (r : _), x = callPayload c ∧ MailboxFree s c 0x0912 ∧ field x 20 12 = 0 ∧ 4 ≤ field x 0 8 ∧ field x 0 8 ≤ 14 ∧ (s.port c.port).checkAperture (field x 8 12) (field x 32 32) (32 * 2 ^ field x 0 8) false true = .ok ∧ field x 32 32 % 256 = 0 ∧ (s.port c.port).events.live = false ∧ r = HostPort.deliverHeld s.dt ((s.port c.port).resetEvent.toList ++ (s.port c.port).heldEvents) ({ (taken s c 0x0912).port c.port with events := { (s.port c.port).events with live := true, log := field x 0 8, aperture := field x 8 12, offset := field x 32 32, head := 0, tail := 0, phase := true, capAtLoss := 2 ^ field x 0 8 - 1 }, heldEvents := [], resetEvent := none }, 0)) := by
  refine ⟨
    ⟨ready, (cmd 0x0914 (0) (0)), _, rfl, free_of (by decide +kernel)⟩,
    ⟨ready, (cmd 0x0913 (0) (1 + 4 * 2 ^ 8 + 245760 * 2 ^ 32)), _, rfl, free_of (by decide +kernel), by decide +kernel⟩,
    ⟨ready, (cmd 0x0910 (0) (1 + 4 * 2 ^ 8 + 12 * 2 ^ 16 + 4096 * 2 ^ 96)), _, rfl, free_of (by decide +kernel), by decide +kernel⟩,
    ⟨ready, (cmd 0x0910 (0) (31 + 12 * 2 ^ 8 + 4 * 2 ^ 16 + 524288 * 2 ^ 96)), _, rfl, free_of (by decide +kernel), by decide +kernel⟩,
    ⟨ready, (cmd 0x0912 (0) (4)), _, _, rfl, free_of (by decide +kernel), by decide +kernel, by decide +kernel, by decide +kernel, by decide +kernel, by decide +kernel, (by decide +kernel), rfl⟩,
    ⟨ready, (cmd 0x0912 (0) (14)), _, _, rfl, free_of (by decide +kernel), by decide +kernel, by decide +kernel, by decide +kernel, by decide +kernel, by decide +kernel, (by decide +kernel), rfl⟩⟩

theorem witness_QueriesRespond :
    (∃ (s : State) (c : Call) (n : _), BufferOk c ∧ MailboxFree s c 0x0101 ∧ s.partOf c.port c.handle true = some n) ∧
    (∃ (s : State) (c : Call), BufferOk c ∧ MailboxFree s c 0x0105) ∧
    (∃ (s : State) (c : Call) (m : _), BufferOk c ∧ MailboxFree s c 0x0302 ∧ s.modelOf c.port c.handle = some m) ∧
    (∃ (s : State) (c : Call) (hs : _), BufferOk c ∧ MailboxFree s c 0x0304 ∧ hs = (s.models.filter (fun e => e.2.live && e.2.part == c.port)).map (fun e => modelHandle e.1 e.2.gen)) ∧
    (∃ (s : State) (c : Call) (i : _), BufferOk c ∧ MailboxFree s c 0x0402 ∧ s.pipeOf c.port c.handle = some i) ∧
    (∃ (s : State) (c : Call) (hs : _), BufferOk c ∧ MailboxFree s c 0x0405 ∧ hs = (s.pipes.filter (fun e => e.2.live && e.2.ready && !e.2.deleting && e.2.part == c.port)).map (fun e => pipeHandle e.1 e.2.gen)) ∧
    (∃ (s : State) (c : Call) (i : _), BufferOk c ∧ MailboxFree s c 0x0508 ∧ s.streamOf c.port c.handle = some i) ∧
    (∃ (s : State) (c : Call) (is : _), BufferOk c ∧ MailboxFree s c 0x0509 ∧ is = (s.streams.filter (fun e => e.2.part == c.port && e.2.state != .closed)).map (·.1)) ∧
    (∃ (s : State) (c : Call) (b : _), BufferOk c ∧ MailboxFree s c 0x0515 ∧ s.branchOf c.port c.handle = some b) ∧
    (∃ (s : State) (c : Call) (t : _), BufferOk c ∧ MailboxFree s c 0x0603 ∧ s.tdmOf c.port c.handle = some t) ∧
    (∃ (s : State) (c : Call), BufferOk c ∧ MailboxFree s c 0x0901) := by
  refine ⟨
    ⟨full, (cmd 0x0101 (0x01000000) (0)), 0, (by unfold BufferOk; decide +kernel), free_of (by decide +kernel), by decide +kernel⟩,
    ⟨full, (cmd 0x0105 (0) (0)), (by unfold BufferOk; decide +kernel), free_of (by decide +kernel)⟩,
    ⟨full, (cmd 0x0302 (0x03000000) (0)), 0, (by unfold BufferOk; decide +kernel), free_of (by decide +kernel), by decide +kernel⟩,
    ⟨full, (cmd 0x0304 (0) (0)), _, (by unfold BufferOk; decide +kernel), free_of (by decide +kernel), rfl⟩,
    ⟨full, (cmd 0x0402 (0x04000000) (0)), 0, (by unfold BufferOk; decide +kernel), free_of (by decide +kernel), by decide +kernel⟩,
    ⟨full, (cmd 0x0405 (0) (0)), _, (by unfold BufferOk; decide +kernel), free_of (by decide +kernel), rfl⟩,
    ⟨full, (cmd 0x0508 (0x05000000) (0)), 0, (by unfold BufferOk; decide +kernel), free_of (by decide +kernel), by decide +kernel⟩,
    ⟨full, (cmd 0x0509 (0) (0)), _, (by unfold BufferOk; decide +kernel), free_of (by decide +kernel), rfl⟩,
    ⟨full, (cmd 0x0515 (0x06000000) (0)), 0, (by unfold BufferOk; decide +kernel), free_of (by decide +kernel), by decide +kernel⟩,
    ⟨full, (cmd 0x0603 (0x07000000) (0)), 0, (by unfold BufferOk; decide +kernel), free_of (by decide +kernel), by decide +kernel⟩,
    ⟨full, (cmd 0x0901 (0) (0)), (by unfold BufferOk; decide +kernel), free_of (by decide +kernel)⟩⟩

theorem witness_TelemetryAndJournalRespond :
    (∃ (s : State) (c : Call) (x : Nat) (r : _), x = callPayload c ∧ BufferOk c ∧ MailboxFree s c 0x0701 ∧ field x 104 24 = 0 ∧ (groupLast (field x 96 8)).isSome = true ∧ (List.range' (field x 128 16) (field x 144 16)).all (groupHas (field x 96 8)) = true ∧ 0 < field x 144 16 ∧ field x 144 16 ≤ 1024 ∧ r = joinRecords ((List.range' (field x 128 16) (field x 144 16)).map ((taken s c 0x0701).groupRecord c.port (field x 96 8)))) ∧
    (∃ (s : State) (c : Call) (x : Nat) (r : _), x = callPayload c ∧ BufferOk c ∧ MailboxFree s c 0x0701 ∧ field x 104 24 = 0 ∧ (groupLast (field x 96 8)).isSome = true ∧ (List.range' (field x 128 16) (field x 144 16)).all (groupHas (field x 96 8)) = true ∧ 0 < field x 144 16 ∧ field x 144 16 ≤ 1024 ∧ r = joinRecords ((List.range' (field x 128 16) (field x 144 16)).map ((taken s c 0x0701).groupRecord c.port (field x 96 8)))) ∧
    (∃ (s : State) (c : Call) (x : Nat) (e : _) (es : _) (rs : _), x = callPayload c ∧ BufferOk c ∧ MailboxFree s c 0x0801 ∧ s.journal.entries = e :: es ∧ rs = (s.journalFor c.port (field x 96 32)).take (field x 128 32)) ∧
    (∃ (s : State) (c : Call) (x : Nat), x = callPayload c ∧ BufferOk c ∧ MailboxFree s c 0x0801 ∧ s.journal.entries = []) := by
  refine ⟨
    ⟨full, (cmd 0x0701 (0) (1 * 2 ^ 96 + 143 * 2 ^ 128 + 1 * 2 ^ 144)), _, _, rfl, (by unfold BufferOk; decide +kernel), free_of (by decide +kernel), by decide +kernel, by decide +kernel, by decide +kernel, by decide +kernel, by decide +kernel, rfl⟩,
    ⟨full, (cmd 0x0701 (0) (0x0B * 2 ^ 96 + 2048 * 2 ^ 128 + 1024 * 2 ^ 144)), _, _, rfl, (by unfold BufferOk; decide +kernel), free_of (by decide +kernel), by decide +kernel, by decide +kernel, by decide +kernel, by decide +kernel, by decide +kernel, rfl⟩,
    ⟨{ full with journal := { entries := [JEntry.blank 0x10] } }, (cmd 0x0801 (0) (16 * 2 ^ 128)), _, _, _, _, rfl, (by unfold BufferOk; decide +kernel), free_of (by decide +kernel), rfl, rfl⟩,
    ⟨full, (cmd 0x0801 (0) (16 * 2 ^ 128)), _, rfl, (by unfold BufferOk; decide +kernel), free_of (by decide +kernel), by decide +kernel⟩⟩

theorem witness_PartitionCommandsReply :
    (∃ (s : State) (c : Call) (x : Nat) (n : _), x = callPayload c ∧ MailboxFree s c 0x0103 ∧ field x 4 28 = 0 ∧ field x 0 2 ≠ 3 ∧ field x 2 2 ≠ 3 ∧ s.partOf c.port c.handle false = some n) ∧
    (∃ (s : State) (c : Call) (x : Nat) (n : _), x = callPayload c ∧ MailboxFree s c 0x0104 ∧ s.partOf c.port c.handle true = some n ∧ s.isPlan c.port = true ∧ field x 1 31 = 0) ∧
    (∃ (s : State) (c : Call) (x : Nat) (n : _), x = callPayload c ∧ MailboxFree s c 0x0104 ∧ s.partOf c.port c.handle true = some n ∧ s.isPlan c.port = true ∧ field x 1 31 = 0 ∧ flag x 0 = true ∧ Table.sortedFrom 0 s.parts = true) ∧
    (∃ (s : State) (c : Call) (x : Nat), x = callPayload c ∧ MailboxFree s c 0x0902 ∧ s.isPlan c.port = true ∧ field x 5 27 = 0 ∧ (field x 0 5 = 0 ∨ 14 ≤ field x 0 5 ∧ field x 0 5 ≤ 28)) ∧
    (∃ (s : State) (c : Call) (x : Nat), x = callPayload c ∧ MailboxFree s c 0x0902 ∧ s.isPlan c.port = true ∧ field x 5 27 = 0 ∧ (field x 0 5 = 0 ∨ 14 ≤ field x 0 5 ∧ field x 0 5 ≤ 28)) ∧
    (∃ (s : State) (c : Call) (x : Nat), x = callPayload c ∧ MailboxFree s c 0x0902 ∧ s.isPlan c.port = true ∧ field x 5 27 = 0 ∧ (field x 0 5 = 0 ∨ 14 ≤ field x 0 5 ∧ field x 0 5 ≤ 28)) ∧
    (∃ (s : State) (c : Call) (x : Nat) (t : _), x = callPayload c ∧ MailboxFree s c 0x0601 ∧ (tdmConfigOf x).slots ≠ 3 ∧ (tdmConfigOf x).width ≠ 3 ∧ field x 21 43 = 0 ∧ (tdmConfigOf x).supported = true ∧ ((tdmConfigOf x).sentInEn = true → (tdmConfigOf x).sentIn < (tdmConfigOf x).count) ∧ ((tdmConfigOf x).sentOutEn = true → (tdmConfigOf x).sentOut < (tdmConfigOf x).count) ∧ s.tdmOf c.port c.handle = some t ∧ (s.tdm t).state = .disabled ∧ (s.tdm t).enableAt = none ∧ s.tdmMapped t = false) := by
  refine ⟨
    ⟨ready, (cmd 0x0103 (0x01000000) (2 + 1 * 4)), _, 0, rfl, free_of (by decide +kernel), by decide +kernel⟩,
    ⟨ready, (cmd 0x0104 (0x01000000) (1)), _, 0, rfl, free_of (by decide +kernel), by decide +kernel⟩,
    ⟨ready, (cmd 0x0104 (0x01000000) (1)), _, 0, rfl, free_of (by decide +kernel), by decide +kernel⟩,
    ⟨ready, (cmd 0x0902 (0) (0)), _, rfl, free_of (by decide +kernel), by decide +kernel⟩,
    ⟨ready, (cmd 0x0902 (0) (14)), _, rfl, free_of (by decide +kernel), by decide +kernel⟩,
    ⟨ready, (cmd 0x0902 (0) (28)), _, rfl, free_of (by decide +kernel), by decide +kernel⟩,
    ⟨ready, (cmd 0x0601 (0x07000000) (1 + 0 * 2 + 2 * 8)), _, 0, rfl, free_of (by decide +kernel), by decide +kernel⟩⟩

theorem witness_ApertureAndModelCommandsReply :
    (∃ (s : State) (c : Call) (x : Nat) (i : _), x = callPayload c ∧ MailboxFree s c 0x0201 ∧ field x 87 41 = 0 ∧ field x 0 64 % 4096 = 0 ∧ 0 < field x 64 21 ∧ field x 64 21 ≤ 1048576 ∧ field x 0 64 + 4096 * field x 64 21 ≤ 2 ^ 64 ∧ (flag x 85 || flag x 86) = true ∧ Table.firstWhere none (s.port c.port).apertures (fun a => a.isNone) 0 4096 = some i) ∧
    (∃ (s : State) (c : Call) (x : Nat) (i : _), x = callPayload c ∧ MailboxFree s c 0x0201 ∧ field x 87 41 = 0 ∧ field x 0 64 % 4096 = 0 ∧ 0 < field x 64 21 ∧ field x 64 21 ≤ 1048576 ∧ field x 0 64 + 4096 * field x 64 21 ≤ 2 ^ 64 ∧ (flag x 85 || flag x 86) = true ∧ Table.firstWhere none (s.port c.port).apertures (fun a => a.isNone) 0 4096 = some i) ∧
    (∃ (s : State) (c : Call) (x : Nat) (m : _) (t : _), x = callPayload c ∧ MailboxFree s c 0x0303 ∧ s.modelOf c.port c.handle = some m ∧ s.modelNamed m = false ∧ t = (taken s c 0x0303).setModel m { s.model m with live := false, gen := bump 16 (s.model m).gen 1 } ∧ t.models.any (fun e => e.2.live && e.2.content == (s.model m).content) = true) ∧
    (∃ (s : State) (c : Call) (x : Nat) (m : _) (t : _), x = callPayload c ∧ MailboxFree s c 0x0303 ∧ s.modelOf c.port c.handle = some m ∧ s.modelNamed m = false ∧ t = (taken s c 0x0303).setModel m { s.model m with live := false, gen := bump 16 (s.model m).gen 1 } ∧ t.models.any (fun e => e.2.live && e.2.content == (s.model m).content) = false) ∧
    (∃ (s : State) (c : Call) (x : Nat) (i : _) (r : _), x = callPayload c ∧ MailboxFree s c 0x0502 ∧ s.streamOf c.port c.handle = some i ∧ ((s.stream i).state.runs = true ∨ (s.stream i).state = .paused) ∧ (s.stream i).source = .ring r ∧ field x 0 64 = (s.stream i).handed) ∧
    (∃ (s : State) (c : Call) (x : Nat) (i : _) (r : _), x = callPayload c ∧ MailboxFree s c 0x0502 ∧ s.streamOf c.port c.handle = some i ∧ ((s.stream i).state.runs = true ∨ (s.stream i).state = .paused) ∧ (s.stream i).source = .ring r ∧ (s.stream i).handed < field x 0 64 ∧ field x 0 64 ≤ r.consumed + 2 ^ r.log) ∧
    (∃ (s : State) (c : Call) (x : Nat) (i : _) (r : _), x = callPayload c ∧ MailboxFree s c 0x0502 ∧ s.streamOf c.port c.handle = some i ∧ ((s.stream i).state.runs = true ∨ (s.stream i).state = .paused) ∧ (s.stream i).source = .ring r ∧ (s.stream i).handed < field x 0 64 ∧ field x 0 64 ≤ r.consumed + 2 ^ r.log) ∧
    (∃ (s : State) (c : Call) (x : Nat) (b : _), x = callPayload c ∧ MailboxFree s c 0x0513 ∧ s.branchOf c.port c.handle = some b ∧ (s.branch b).state = .stopped) ∧
    (∃ (s : State) (c : Call) (x : Nat), x = callPayload c ∧ MailboxFree s c 0x0904 ∧ s.isPlan c.port = true ∧ s.flashBusy = false ∧ (s.boot.flash.dir.slot s.boot.spareSlot).state = .staged) ∧
    (∃ (s : State) (c : Call) (x : Nat), x = callPayload c ∧ MailboxFree s c 0x0802 ∧ s.isPlan c.port = true ∧ firstFail (injectReserved x) = none ∧ field x 0 4 = 1 ∧ field x 8 8 / 16 ≤ 11 ∧ field x 8 8 % 16 ≤ 11 ∧ field x 64 64 % 32 = 0) ∧
    (∃ (s : State) (c : Call) (x : Nat), x = callPayload c ∧ MailboxFree s c 0x0802 ∧ s.isPlan c.port = true ∧ firstFail (injectReserved x) = none ∧ field x 0 4 = 2 ∧ field x 8 8 / 16 ≤ 11 ∧ field x 8 8 % 16 ≤ 11 ∧ field x 64 64 % 32 = 0 ∧ (s.flank (coordTile (field x 8 8) / 48)).state ≠ .repairing ∧ s.enabledTiles (coordTile (field x 8 8) / 48) ≠ 40) ∧
    (∃ (s : State) (c : Call) (x : Nat), x = callPayload c ∧ MailboxFree s c 0x0802 ∧ s.isPlan c.port = true ∧ firstFail (injectReserved x) = none ∧ field x 0 4 = 3 ∧ field x 64 64 % 32 = 0 ∧ field x 64 64 < memEnd ∧ s.windowAt (field x 64 64) = .part c.port) ∧
    (∃ (s : State) (c : Call) (x : Nat), x = callPayload c ∧ MailboxFree s c 0x0802 ∧ s.isPlan c.port = true ∧ firstFail (injectReserved x) = none ∧ field x 0 4 = 3 ∧ field x 64 64 % 32 = 0 ∧ field x 64 64 < memEnd ∧ s.windowAt (field x 64 64) = .part c.port) ∧
    (∃ (s : State) (c : Call) (x : Nat), x = callPayload c ∧ MailboxFree s c 0x0802 ∧ s.isPlan c.port = true ∧ firstFail (injectReserved x) = none ∧ field x 0 4 = 4 ∧ field x 64 64 % 32 = 0 ∧ field x 64 64 < memEnd ∧ s.windowAt (field x 64 64) = .part c.port) ∧
    (∃ (s : State) (c : Call) (x : Nat), x = callPayload c ∧ MailboxFree s c 0x0802 ∧ s.isPlan c.port = true ∧ firstFail (injectReserved x) = none ∧ field x 0 4 = 5 ∧ field x 8 8 / 16 ≤ 11 ∧ field x 8 8 % 16 ≤ 11 ∧ 1 ≤ field x 19 4 ∧ field x 19 4 ≤ 8 ∧ field x 64 64 % 32 = 0) ∧
    (∃ (s : State) (c : Call) (x : Nat), x = callPayload c ∧ MailboxFree s c 0x0802 ∧ s.isPlan c.port = true ∧ firstFail (injectReserved x) = none ∧ field x 0 4 = 5 ∧ field x 8 8 / 16 ≤ 11 ∧ field x 8 8 % 16 ≤ 11 ∧ 1 ≤ field x 19 4 ∧ field x 19 4 ≤ 8 ∧ field x 64 64 % 32 = 0) := by
  refine ⟨
    ⟨ready, (cmd 0x0201 (0) (4096 + 1 * 2 ^ 64 + 2 ^ 85)), _, 1, rfl, free_of (by decide +kernel), by decide +kernel⟩,
    ⟨ready, (cmd 0x0201 (0) (1048576 * 2 ^ 64 + 2 ^ 86)), _, 1, rfl, free_of (by decide +kernel), by decide +kernel⟩,
    ⟨{ full with models := full.models ++ [(4, { live := true, content := 4 })] }, (cmd 0x0303 (0x03000000 + 3) (0)), _, 3, _, rfl, free_of (by decide +kernel), by decide +kernel, by decide +kernel, rfl, by decide +kernel⟩,
    ⟨full, (cmd 0x0303 (0x03000000 + 3) (0)), _, 3, _, rfl, free_of (by decide +kernel), by decide +kernel, by decide +kernel, rfl, by decide +kernel⟩,
    ⟨fullS (fun y => { y with source := .ring hostRing, handed := 8 }), (cmd 0x0502 (0x05000000) (8)), _, 0, hostRing, rfl, free_of (by decide +kernel), by decide +kernel⟩,
    ⟨fullS (fun y => { y with source := .ring hostRing, handed := 8 }), (cmd 0x0502 (0x05000000) (9)), _, 0, hostRing, rfl, free_of (by decide +kernel), by decide +kernel⟩,
    ⟨fullS (fun y => { y with source := .ring hostRing, handed := 8 }), (cmd 0x0502 (0x05000000) (24)), _, 0, hostRing, rfl, free_of (by decide +kernel), by decide +kernel⟩,
    ⟨fullB (fun y => { y with state := .stopped }), (cmd 0x0513 (0x06000000) (0)), _, 0, rfl, free_of (by decide +kernel), by decide +kernel⟩,
    ⟨{ ready with boot := { ready.boot with flash := { copy0 := { ready.boot.flash.copy0 with slot1 := { state := .staged } } } } }, (cmd 0x0904 (0) (0)), _, rfl, free_of (by decide +kernel), by decide +kernel⟩,
    ⟨ready, (cmd 0x0802 (0) (1 + 0xBB * 2 ^ 8)), _, rfl, free_of (by decide +kernel), by decide +kernel⟩,
    ⟨ready, (cmd 0x0802 (0) (2 + 0xBB * 2 ^ 8)), _, rfl, free_of (by decide +kernel), by decide +kernel⟩,
    ⟨ready, (cmd 0x0802 (0) (3 + 2147483648 * 2 ^ 64)), _, rfl, free_of (by decide +kernel), by decide +kernel⟩,
    ⟨ready, (cmd 0x0802 (0) (3 + (2147483648 + 8192 * 1048576 - 32) * 2 ^ 64)), _, rfl, free_of (by decide +kernel), by decide +kernel⟩,
    ⟨ready, (cmd 0x0802 (0) (4 + 2147483648 * 2 ^ 64)), _, rfl, free_of (by decide +kernel), by decide +kernel⟩,
    ⟨ready, (cmd 0x0802 (0) (5 + 1 * 2 ^ 16 + 1 * 2 ^ 19)), _, rfl, free_of (by decide +kernel), by decide +kernel⟩,
    ⟨ready, (cmd 0x0802 (0) (5 + 0xBB * 2 ^ 8 + 4 * 2 ^ 16 + 8 * 2 ^ 19)), _, rfl, free_of (by decide +kernel), by decide +kernel⟩⟩

theorem witness_WaitingSetupCommandsWait :
    (∃ (s : State) (c : Call) (x : Nat), x = callPayload c ∧ MailboxFree s c 0x0911 ∧ field x 5 27 = 0 ∧ ((s.port c.port).pair (field x 0 5)).live = true) ∧
    (∃ (s : State) (c : Call) (x : Nat) (i : _) (a : _), x = callPayload c ∧ MailboxFree s c 0x0202 ∧ c.handle / 2 ^ 24 = 2 ∧ i = c.handle % 2 ^ 24 ∧ (s.port c.port).aperture i = some a ∧ (taken s c 0x0202).apertureInUse c.port i = false) ∧
    (∃ (s : State) (c : Call) (x : Nat) (ap : _) (off : _) (pages : _), x = callPayload c ∧ MailboxFree s c 0x0301 ∧ ap = field x 0 12 ∧ off = field x 32 32 ∧ pages = field x 64 21 ∧ field x 12 20 = 0 ∧ field x 85 11 = 0 ∧ off % 4096 = 0 ∧ pages ≠ 0 ∧ (s.port c.port).checkAperture ap off (4096 * pages) true false = .ok ∧ s.liveModels c.port < (s.part c.port).models ∧ s.allModels < 24 ∧ s.memUsed c.port + 4096 * pages ≤ (s.part c.port).memBytes) ∧
    (∃ (s : State) (c : Call) (x : Nat) (i : _) (tokens : _) (ids : _) (need : _), x = callPayload c ∧ MailboxFree s c 0x0403 ∧ tokens = field x 64 32 ∧ field x 12 20 = 0 ∧ field x 32 32 % 4 = 0 ∧ tokens ≤ 65536 ∧ tokens ≠ 0 ∧ s.pipeOf c.port c.handle = some i ∧ (s.pipe i).translate.present = true ∧ (s.port c.port).checkAperture (field x 0 12) (field x 32 32) (4 * tokens) true false = .ok ∧ c.data = .tokens ids ∧ (∀ t ∈ ids.take tokens, t < ((s.stagePackage i .translate).map (·.vocabulary)).getD 0) ∧ need = s.prefixNeed i tokens ∧ (s.part (s.pipe i).part).reservedPages + need ≤ (s.part (s.pipe i).part).freeSwept + (s.part (s.pipe i).part).unswept ∧ (s.part (s.pipe i).part).tableEntries + need ≤ 8 * (s.part (s.pipe i).part).nPool) ∧
    (∃ (s : State) (c : Call) (x : Nat) (i : _) (t : _), x = callPayload c ∧ MailboxFree s c 0x0404 ∧ s.pipeOf c.port c.handle = some i ∧ s.pipeStreams i = 0 ∧ t = (taken s c 0x0404).dropPrefix i) ∧
    (∃ (s : State) (c : Call) (x : Nat) (ver : _) (len : _), x = callPayload c ∧ MailboxFree s c 0x0903 ∧ s.isPlan c.port = true ∧ firstFail (stagingChecks x 8192) = none ∧ (s.port c.port).checkAperture (field x 0 12) (field x 32 32) (4096 * field x 64 21) true false = .ok ∧ s.flashBusy = false ∧ c.data = .image true true ver len) ∧
    (∃ (s : State) (c : Call) (x : Nat) (img : _), x = callPayload c ∧ MailboxFree s c 0x0906 ∧ s.isPlan c.port = true ∧ firstFail (stagingChecks x 1048576) = none ∧ (s.port c.port).checkAperture (field x 0 12) (field x 32 32) (4096 * field x 64 21) true false = .ok ∧ s.flashBusy = false ∧ c.data = .site img ∧ siteValid img = true) := by
  refine ⟨
    ⟨at0 (fun p => { p with pairs := [(0, { live := true, sqLog := 4, cqLog := 4 })] }), (cmd 0x0911 (0) (0)), _, rfl, free_of (by decide +kernel), by decide +kernel⟩,
    ⟨ready, (cmd 0x0202 (0x02000000) (0)), _, _, _, rfl, free_of (by decide +kernel), by decide +kernel, rfl, rfl, by decide +kernel⟩,
    ⟨ready, (cmd 0x0301 (0) (4096 * 2 ^ 32 + 1 * 2 ^ 64)), _, _, _, _, rfl, free_of (by decide +kernel), rfl, rfl, rfl, by decide +kernel⟩,
    ⟨full, { cmd 0x0403 0x04000000 (65536 * 2 ^ 64) with data := .tokens [999] }, _, 0, _, [999], _, rfl, free_of (by decide +kernel), rfl, by decide +kernel, by decide +kernel, by decide +kernel, by decide +kernel, by decide +kernel, (by decide +kernel), by decide +kernel, by decide +kernel, by decide +kernel, rfl, by decide +kernel⟩,
    ⟨{ full with streams := [] }, (cmd 0x0404 (0x04000000) (0)), _, 0, _, rfl, free_of (by decide +kernel), by decide +kernel, by decide +kernel, rfl⟩,
    ⟨ready, { cmd 0x0903 0 (1 * 2 ^ 64) with data := .image true true 7 4096 }, _, 7, 4096, rfl, free_of (by decide +kernel), by decide +kernel⟩,
    ⟨ready, { cmd 0x0906 0 (1 * 2 ^ 64) with data := .site siteImage }, _, siteImage, rfl, free_of (by decide +kernel), by decide +kernel, by decide +kernel, by decide +kernel, by decide +kernel, by decide +kernel, test_site_image⟩⟩

theorem witness_PipelineAndQuotaCommandsStart :
    (∃ (s : State) (c : Call) (x : Nat) (n : _) (new : _) (moved : _) (t3 : _), x = callPayload c ∧ MailboxFree s c 0x0102 ∧ s.partOf c.port c.handle true = some n ∧ new = (s.part n).withQuota x ∧ s.isPlan c.port = true ∧ firstFail (quotaChecks x) = none ∧ 4288 * new.nPool ≤ new.memBytes ∧ new.memBytes ≤ new.windowMib * mib ∧ s.quotaSum n new (·.streams) ≤ 1024 ∧ s.quotaSum n new (·.branches) ≤ 2048 ∧ s.quotaSum n new (·.pipelines) ≤ 32 ∧ s.quotaSum n new (·.models) ≤ 24 ∧ moved = (List.range 16).filter (fun t => flag new.tdmPorts t != flag (s.part n).tdmPorts t) ∧ moved.all s.tdmIdle = true ∧ t3 = moved.foldl State.clearTdmCounters (((List.range 4).filter (fun k => k != n)).foldl (fun (u : State) k => u.updPart k (fun p => { p with tdmPorts := (List.range 16).foldl (fun m t => if (moved.filter (fun y => flag new.tdmPorts y && (s.tdmOwner y).isSome)).contains t && flag m t then m - 2 ^ t else m) p.tdmPorts })) ((taken s c 0x0102).updPart n (fun _ => new)))) ∧
    (∃ (s : State) (c : Call) (x : Nat) (slot : _) (t : _), x = callPayload c ∧ MailboxFree s c 0x0401 ∧ firstFail (shapeChecks x ++ s.stageChecks c.port x) = none ∧ s.livePipes c.port < (s.part c.port).pipelines ∧ s.freePipe = some slot ∧ (∀ st ∈ payloadStages x, (s.flank (s.stageCfg c.port x (stageCode st)).flank).state ≠ .outOfService) ∧ (taken s c 0x0401).bindStages c.port x slot (payloadStages x) = .inr t) ∧
    (∃ (s : State) (c : Call) (x : Nat) (i : _), x = callPayload c ∧ MailboxFree s c 0x0403 ∧ field x 12 20 = 0 ∧ field x 32 32 % 4 = 0 ∧ field x 64 32 = 0 ∧ s.pipeOf c.port c.handle = some i ∧ (s.pipe i).translate.present = true) ∧
    (∃ (s : State) (c : Call) (x : Nat) (t : _), x = callPayload c ∧ MailboxFree s c 0x0905 ∧ s.isPlan c.port = true ∧ field x 48 16 = 0 ∧ field x 0 32 = 0x5A5A1440 ∧ (field x 32 16 = 0 ∨ 100 ≤ field x 32 16 ∧ field x 32 16 ≤ 10000) ∧ s.boot.writing = none ∧ s.boot.resetDt = some t) ∧
    (∃ (s : State) (c : Call) (x : Nat) (t : _), x = callPayload c ∧ MailboxFree s c 0x0905 ∧ s.isPlan c.port = true ∧ field x 48 16 = 0 ∧ field x 0 32 = 0x5A5A1440 ∧ (field x 32 16 = 0 ∨ 100 ≤ field x 32 16 ∧ field x 32 16 ≤ 10000) ∧ s.boot.writing = none ∧ s.boot.resetDt = none ∧ t = s.dt + 24576 * (if field x 32 16 = 0 then 1000 else field x 32 16)) ∧
    (∃ (s : State) (c : Call) (x : Nat) (t : _), x = callPayload c ∧ MailboxFree s c 0x0905 ∧ s.isPlan c.port = true ∧ field x 48 16 = 0 ∧ field x 0 32 = 0x5A5A1440 ∧ (field x 32 16 = 0 ∨ 100 ≤ field x 32 16 ∧ field x 32 16 ≤ 10000) ∧ s.boot.writing = none ∧ s.boot.resetDt = none ∧ t = s.dt + 24576 * (if field x 32 16 = 0 then 1000 else field x 32 16)) ∧
    (∃ (s : State) (c : Call) (x : Nat) (t : _), x = callPayload c ∧ MailboxFree s c 0x0905 ∧ s.isPlan c.port = true ∧ field x 48 16 = 0 ∧ field x 0 32 = 0x5A5A1440 ∧ (field x 32 16 = 0 ∨ 100 ≤ field x 32 16 ∧ field x 32 16 ≤ 10000) ∧ s.boot.writing = none ∧ s.boot.resetDt = none ∧ t = s.dt + 24576 * (if field x 32 16 = 0 then 1000 else field x 32 16)) := by
  refine ⟨
    ⟨ready, (cmd 0x0102 (0x01000000) (8 + 8 * 2 ^ 16 + 4 * 2 ^ 32 + 4 * 2 ^ 40 + 4294967296 * 2 ^ 64 + 0x010101 * 2 ^ 128 + 15 * 2 ^ 160)), _, 0, _, _, _, rfl, free_of (by decide +kernel), by decide +kernel, rfl, by decide +kernel, by decide +kernel, by decide +kernel, by decide +kernel, by decide +kernel, (by decide +kernel), by decide +kernel, by decide +kernel, rfl, by decide +kernel, rfl⟩,
    ⟨{ full with pipes := [] }, (cmd 0x0401 (0) (2 + 1 * 2 ^ 16 + (1 + 0x03000000 * 2 ^ 32 + 6144 * 2 ^ 64) * 2 ^ 128 + (1 + 2 + 0x03000001 * 2 ^ 32 + 983040 * 2 ^ 64) * 2 ^ 256)), _, 0, _, rfl, free_of (by decide +kernel), by decide +kernel, by decide +kernel, by decide +kernel, by decide +kernel, inr_elim ready (by decide +kernel)⟩,
    ⟨full, (cmd 0x0403 (0x04000000) (0)), _, 0, rfl, free_of (by decide +kernel), by decide +kernel⟩,
    ⟨{ ready with boot := { ready.boot with resetDt := some 9 } }, (cmd 0x0905 (0) (0x5A5A1440)), _, 9, rfl, free_of (by decide +kernel), by decide +kernel⟩,
    ⟨ready, (cmd 0x0905 (0) (0x5A5A1440)), _, _, rfl, free_of (by decide +kernel), by decide +kernel, by decide +kernel, by decide +kernel, by decide +kernel, by decide +kernel, (by decide +kernel), rfl⟩,
    ⟨ready, (cmd 0x0905 (0) (0x5A5A1440 + 100 * 2 ^ 32)), _, _, rfl, free_of (by decide +kernel), by decide +kernel, by decide +kernel, by decide +kernel, by decide +kernel, by decide +kernel, (by decide +kernel), rfl⟩,
    ⟨ready, (cmd 0x0905 (0) (0x5A5A1440 + 10000 * 2 ^ 32)), _, _, rfl, free_of (by decide +kernel), by decide +kernel, by decide +kernel, by decide +kernel, by decide +kernel, by decide +kernel, (by decide +kernel), rfl⟩⟩

theorem witness_StreamCommandsWait :
    (∃ (s : State) (c : Call) (x : Nat) (p : _) (i : _) (q : _), x = callPayload c ∧ MailboxFree s c 0x0501 ∧ q = inputSpec x 32 ∧ firstFail (inputReserved x 32 ++ [resZero x 160 96] ++ s.inputRanges c.port x 32) = none ∧ s.pipeOf c.port (field x 0 32) = some p ∧ s.ringAperture c.port q.source.ringOf = .ok ∧ s.inTaken q.source = false ∧ s.openStreams c.port < (s.part c.port).streams ∧ s.freeStream = some i) ∧
    (∃ (s : State) (c : Call) (x : Nat) (i : _), x = callPayload c ∧ MailboxFree s c 0x0503 ∧ s.streamOf c.port c.handle = some i ∧ (s.stream i).state.runs = true) ∧
    (∃ (s : State) (c : Call) (x : Nat) (i : _), x = callPayload c ∧ MailboxFree s c 0x0504 ∧ s.streamOf c.port c.handle = some i ∧ (s.stream i).state = .paused) ∧
    (∃ (s : State) (c : Call) (x : Nat) (i : _), x = callPayload c ∧ MailboxFree s c 0x0505 ∧ s.streamOf c.port c.handle = some i ∧ ((s.stream i).state = .resident ∨ (s.stream i).state = .castled)) ∧
    (∃ (s : State) (c : Call) (x : Nat) (i : _), x = callPayload c ∧ MailboxFree s c 0x0505 ∧ s.streamOf c.port c.handle = some i ∧ ((s.stream i).state = .resident ∨ (s.stream i).state = .castled)) ∧
    (∃ (s : State) (c : Call) (x : Nat) (i : _), x = callPayload c ∧ MailboxFree s c 0x0506 ∧ field x 1 31 = 0 ∧ s.streamOf c.port c.handle = some i ∧ (s.stream i).state = .castOn) ∧
    (∃ (s : State) (c : Call) (x : Nat) (i : _), x = callPayload c ∧ MailboxFree s c 0x0506 ∧ field x 1 31 = 0 ∧ s.streamOf c.port c.handle = some i ∧ (s.stream i).state ≠ .castOn ∧ (s.stream i).state ≠ .bindingOff) ∧
    (∃ (s : State) (c : Call) (x : Nat) (i : _) (q : _), x = callPayload c ∧ MailboxFree s c 0x0507 ∧ q = inputSpec x 0 ∧ firstFail (inputReserved x 0 ++ s.inputRanges c.port x 0) = none ∧ s.streamOf c.port c.handle = some i ∧ s.ringAperture c.port q.source.ringOf = .ok ∧ ((s.stream i).state.runs = true ∨ (s.stream i).state = .paused) ∧ s.inTaken q.source = false) := by
  refine ⟨
    ⟨{ full with streams := [] , audio := { } }, (cmd 0x0501 (0) (0x04000000 + 0 * 2 ^ 33)), _, 0, 0, _, rfl, free_of (by decide +kernel), rfl, by decide +kernel⟩,
    ⟨full, (cmd 0x0503 (0x05000000) (0)), _, 0, rfl, free_of (by decide +kernel), by decide +kernel⟩,
    ⟨fullS (fun y => { y with state := .paused }), (cmd 0x0504 (0x05000000) (0)), _, 0, rfl, free_of (by decide +kernel), by decide +kernel⟩,
    ⟨full, (cmd 0x0505 (0x05000000) (0)), _, 0, rfl, free_of (by decide +kernel), by decide +kernel⟩,
    ⟨fullS (fun y => { y with state := .castled }), (cmd 0x0505 (0x05000000) (0)), _, 0, rfl, free_of (by decide +kernel), by decide +kernel⟩,
    ⟨fullS (fun y => { y with state := .castOn }), (cmd 0x0506 (0x05000000) (1)), _, 0, rfl, free_of (by decide +kernel), by decide +kernel⟩,
    ⟨full, (cmd 0x0506 (0x05000000) (1)), _, 0, rfl, free_of (by decide +kernel), by decide +kernel⟩,
    ⟨full, (cmd 0x0507 (0x05000000) (1 * 2)), _, 0, _, rfl, free_of (by decide +kernel), rfl, by decide +kernel⟩⟩

theorem witness_BranchAndPortCommandsWait :
    (∃ (s : State) (c : Call) (x : Nat) (i : _) (b : _) (q : _), x = callPayload c ∧ MailboxFree s c 0x0511 ∧ q = outputSpec x 64 ∧ field x 32 2 ≠ 3 ∧ field x 34 30 = 0 ∧ firstFail (outputReserved x 64 ++ s.outputRanges c.port x 64) = none ∧ s.streamOf c.port c.handle = some i ∧ firstFail (s.spoken (s.stream i).pipe x ++ outputShape (s.pipe (s.stream i).pipe) x 64) = none ∧ s.ringAperture c.port q.ring = .ok ∧ (s.stream i).state.runs = true ∧ hasTwice q.outs = false ∧ q.outs.any (s.outTaken none) = false ∧ (s.pipe (s.stream i).pipe).translate.present = true ∧ (s.branchesOf i).length < (s.pipe (s.stream i).pipe).fanout ∧ s.openBranches c.port < (s.part c.port).branches ∧ s.freeBranch = some b) ∧
    (∃ (s : State) (c : Call) (x : Nat) (b : _), x = callPayload c ∧ MailboxFree s c 0x0512 ∧ s.branchOf c.port c.handle = some b ∧ ((s.branch b).state = .active ∨ (s.branch b).state = .stopped)) ∧
    (∃ (s : State) (c : Call) (x : Nat) (b : _), x = callPayload c ∧ MailboxFree s c 0x0512 ∧ s.branchOf c.port c.handle = some b ∧ ((s.branch b).state = .active ∨ (s.branch b).state = .stopped)) ∧
    (∃ (s : State) (c : Call) (x : Nat) (b : _) (q : _), x = callPayload c ∧ MailboxFree s c 0x0514 ∧ q = outputSpec x 0 ∧ firstFail (outputReserved x 0 ++ s.outputRanges c.port x 0) = none ∧ s.branchOf c.port c.handle = some b ∧ firstFail (outputShape (s.pipeOfStream (s.branch b).stream) x 0) = none ∧ s.ringAperture c.port q.ring = .ok ∧ ((s.branch b).state = .active ∨ (s.branch b).state = .stopped) ∧ hasTwice q.outs = false ∧ q.outs.any (s.outTaken (some b)) = false) ∧
    (∃ (s : State) (c : Call) (x : Nat) (t : _) (on : _), x = callPayload c ∧ MailboxFree s c 0x0602 ∧ field x 1 31 = 0 ∧ s.tdmOf c.port c.handle = some t ∧ on = flag x 0 ∧ (s.tdm t).enableAt = none ∧ ((s.tdm t).state != .disabled) = on) ∧
    (∃ (s : State) (c : Call) (x : Nat) (t : _) (on : _), x = callPayload c ∧ MailboxFree s c 0x0602 ∧ field x 1 31 = 0 ∧ s.tdmOf c.port c.handle = some t ∧ on = flag x 0 ∧ ¬ ((s.tdm t).enableAt = none ∧ ((s.tdm t).state != .disabled) = on) ∧ (on = true ∨ s.tdmMapped t = false)) ∧
    (∃ (s : State) (c : Call) (x : Nat) (t : _), x = callPayload c ∧ MailboxFree s c 0x0803 ∧ field x 1 31 = 0 ∧ s.tdmOf c.port c.handle = some t) := by
  refine ⟨
    ⟨full, (cmd 0x0511 (0x05000000) (1 + 2 * 2 ^ 16 + 2 ^ 96 + 2 * 2 ^ 97)), _, 0, 1, _, rfl, free_of (by decide +kernel), rfl, by decide +kernel⟩,
    ⟨full, (cmd 0x0512 (0x06000000) (0)), _, 0, rfl, free_of (by decide +kernel), by decide +kernel⟩,
    ⟨fullB (fun y => { y with state := .stopped }), (cmd 0x0512 (0x06000000) (0)), _, 0, rfl, free_of (by decide +kernel), by decide +kernel⟩,
    ⟨full, (cmd 0x0514 (0x06000000) (2 ^ 32 + 3 * 2 ^ 33)), _, 0, _, rfl, free_of (by decide +kernel), rfl, by decide +kernel⟩,
    ⟨ready, (cmd 0x0602 (0x07000000) (0)), _, 0, false, rfl, free_of (by decide +kernel), by decide +kernel⟩,
    ⟨ready, (cmd 0x0602 (0x07000000) (1)), _, 0, true, rfl, free_of (by decide +kernel), by decide +kernel⟩,
    ⟨ready, (cmd 0x0803 (0x07000000) (1)), _, 0, rfl, free_of (by decide +kernel), by decide +kernel⟩⟩

theorem witness_MailboxRegistersAct :
    (∃ (s : State) (n : Nat) (off : _) (size : _), Quiet s ∧ Table.sortedFrom 0 s.ports = true ∧ (s.port n).reachable = true ∧ sizeOk off size = true ∧ 0x1000 ≤ off ∧ off < 0x1100 ∧ (s.port n).mbx.busy = false ∧ (s.port n).mbx.done = false) ∧
    (∃ (s : State) (n : Nat) (off : _) (size : _), Quiet s ∧ Table.sortedFrom 0 s.ports = true ∧ (s.port n).reachable = true ∧ sizeOk off size = true ∧ 0x1000 ≤ off ∧ off < 0x1100 ∧ (s.port n).mbx.busy = false ∧ (s.port n).mbx.done = false) ∧
    (∃ (s : State) (n : Nat) (off : _) (size : _), Quiet s ∧ Table.sortedFrom 0 s.ports = true ∧ (s.port n).reachable = true ∧ sizeOk off size = true ∧ 0x1000 ≤ off ∧ off < 0x1100 ∧ ((s.port n).mbx.busy = true ∨ (s.port n).mbx.done = true)) ∧
    (∃ (s : State) (n : Nat) (off : _) (size : _), Quiet s ∧ Table.sortedFrom 0 s.ports = true ∧ (s.port n).reachable = true ∧ sizeOk off size = true ∧ 0x1000 ≤ off ∧ off < 0x1100 ∧ ((s.port n).mbx.busy = true ∨ (s.port n).mbx.done = true)) ∧
    (∃ (s : State) (n : Nat), Quiet s ∧ Table.sortedFrom 0 s.ports = true ∧ (s.port n).reachable = true ∧ (s.port n).fwState ≠ 2) ∧
    (∃ (s : State) (n : Nat), Quiet s ∧ Table.sortedFrom 0 s.ports = true ∧ (s.port n).reachable = true ∧ (s.port n).fwState = 2 ∧ ((s.port n).mbx.busy = true ∨ (s.port n).mbx.done = true)) ∧
    (∃ (s : State) (n : Nat), Quiet s ∧ Table.sortedFrom 0 s.ports = true ∧ (s.port n).reachable = true ∧ (s.port n).fwState = 2 ∧ ((s.port n).mbx.busy = true ∨ (s.port n).mbx.done = true)) ∧
    (∃ (s : State) (n : Nat), Quiet s ∧ Table.sortedFrom 0 s.ports = true ∧ (s.port n).reachable = true ∧ (s.port n).fwState = 2 ∧ (s.port n).mbx.busy = false ∧ (s.port n).mbx.done = false) ∧
    (∃ (s : State) (n : Nat), Quiet s ∧ Table.sortedFrom 0 s.ports = true ∧ (s.port n).reachable = true) := by
  refine ⟨
    ⟨ready, 0, 0x1000, 4, quiet_lists (by decide +kernel), by decide +kernel⟩,
    ⟨ready, 0, 0x10F8, 8, quiet_lists (by decide +kernel), by decide +kernel⟩,
    ⟨at0 (fun p => { p with mbx := { p.mbx with busy := true } }), 0, 0x10FC, 4, quiet_lists (by decide +kernel), by decide +kernel⟩,
    ⟨at0 (fun p => { p with mbx := { p.mbx with done := true } }), 0, 0x1000, 8, quiet_lists (by decide +kernel), by decide +kernel⟩,
    ⟨at0 (fun p => { p with fwState := 1 }), 0, quiet_lists (by decide +kernel), by decide +kernel⟩,
    ⟨at0 (fun p => { p with mbx := { p.mbx with busy := true } }), 0, quiet_lists (by decide +kernel), by decide +kernel⟩,
    ⟨at0 (fun p => { p with mbx := { p.mbx with done := true } }), 0, quiet_lists (by decide +kernel), by decide +kernel⟩,
    ⟨ready, 0, quiet_lists (by decide +kernel), by decide +kernel⟩,
    ⟨ready, 0, quiet_lists (by decide +kernel), by decide +kernel⟩⟩

theorem witness_DoorbellChecks :
    (∃ (s : State) (n : Nat) (value : Nat) (k : _) (r : _), Quiet s ∧ Table.sortedFrom 0 s.ports = true ∧ (s.port n).reachable = true ∧ (s.port n).fwState = 2 ∧ value < 2 ^ 32 ∧ k < 32 ∧ r = (s.port n).pair k ∧ r.live = false) ∧
    (∃ (s : State) (n : Nat) (value : Nat) (k : _) (r : _), Quiet s ∧ Table.sortedFrom 0 s.ports = true ∧ (s.port n).reachable = true ∧ (s.port n).fwState = 2 ∧ value < 2 ^ 32 ∧ k < 32 ∧ r = (s.port n).pair k ∧ r.live = false) ∧
    (∃ (s : State) (n : Nat) (value : Nat) (k : _) (r : _), Quiet s ∧ Table.sortedFrom 0 s.ports = true ∧ (s.port n).reachable = true ∧ (s.port n).fwState = 2 ∧ value < 2 ^ 32 ∧ k < 32 ∧ r = (s.port n).pair k ∧ r.live = true ∧ 2 ^ r.sqLog ≤ value) ∧
    (∃ (s : State) (n : Nat) (value : Nat) (k : _) (r : _), Quiet s ∧ Table.sortedFrom 0 s.ports = true ∧ (s.port n).reachable = true ∧ (s.port n).fwState = 2 ∧ value < 2 ^ 32 ∧ k < 32 ∧ r = (s.port n).pair k ∧ r.live = true ∧ value < 2 ^ r.sqLog ∧ (value + 2 ^ r.sqLog - r.sqHead) % 2 ^ r.sqLog < r.pendingEntries) ∧
    (∃ (s : State) (n : Nat) (value : Nat) (k : _) (r : _), Quiet s ∧ Table.sortedFrom 0 s.ports = true ∧ (s.port n).reachable = true ∧ (s.port n).fwState = 2 ∧ value < 2 ^ 32 ∧ k < 32 ∧ r = (s.port n).pair k ∧ r.live = true ∧ value < 2 ^ r.sqLog ∧ r.pendingEntries ≤ (value + 2 ^ r.sqLog - r.sqHead) % 2 ^ r.sqLog) ∧
    (∃ (s : State) (n : Nat) (value : Nat) (k : _) (r : _), Quiet s ∧ Table.sortedFrom 0 s.ports = true ∧ (s.port n).reachable = true ∧ (s.port n).fwState = 2 ∧ value < 2 ^ 32 ∧ k < 32 ∧ r = (s.port n).pair k ∧ r.live = true ∧ value < 2 ^ r.sqLog ∧ r.pendingEntries ≤ (value + 2 ^ r.sqLog - r.sqHead) % 2 ^ r.sqLog) ∧
    (∃ (s : State) (n : Nat) (value : Nat) (k : _) (r : _), Quiet s ∧ Table.sortedFrom 0 s.ports = true ∧ (s.port n).reachable = true ∧ (s.port n).fwState = 2 ∧ value < 2 ^ 32 ∧ k < 32 ∧ r = (s.port n).pair k ∧ r.live = true ∧ 2 ^ r.cqLog ≤ value) ∧
    (∃ (s : State) (n : Nat) (value : Nat) (k : _) (r : _), Quiet s ∧ Table.sortedFrom 0 s.ports = true ∧ (s.port n).reachable = true ∧ (s.port n).fwState = 2 ∧ value < 2 ^ 32 ∧ k < 32 ∧ r = (s.port n).pair k ∧ r.live = true ∧ value < 2 ^ r.cqLog ∧ r.unconsumed < (value + 2 ^ r.cqLog - r.cqHead) % 2 ^ r.cqLog) ∧
    (∃ (s : State) (n : Nat) (value : Nat) (k : _) (r : _), Quiet s ∧ Table.sortedFrom 0 s.ports = true ∧ (s.port n).reachable = true ∧ (s.port n).fwState = 2 ∧ value < 2 ^ 32 ∧ k < 32 ∧ r = (s.port n).pair k ∧ r.live = true ∧ value < 2 ^ r.cqLog ∧ (value + 2 ^ r.cqLog - r.cqHead) % 2 ^ r.cqLog ≤ r.unconsumed) ∧
    (∃ (s : State) (n : Nat) (value : Nat) (r : _), Quiet s ∧ Table.sortedFrom 0 s.ports = true ∧ (s.port n).reachable = true ∧ (s.port n).fwState = 2 ∧ value < 2 ^ 32 ∧ r = (s.port n).events ∧ r.live = false) ∧
    (∃ (s : State) (n : Nat) (value : Nat) (r : _), Quiet s ∧ Table.sortedFrom 0 s.ports = true ∧ (s.port n).reachable = true ∧ (s.port n).fwState = 2 ∧ value < 2 ^ 32 ∧ r = (s.port n).events ∧ r.live = true ∧ r.size ≤ value) ∧
    (∃ (s : State) (n : Nat) (value : Nat) (r : _), Quiet s ∧ Table.sortedFrom 0 s.ports = true ∧ (s.port n).reachable = true ∧ (s.port n).fwState = 2 ∧ value < 2 ^ 32 ∧ r = (s.port n).events ∧ r.live = true ∧ value < r.size ∧ r.used < (value + r.size - r.head) % r.size) ∧
    (∃ (s : State) (n : Nat) (value : Nat) (r : _), Quiet s ∧ Table.sortedFrom 0 s.ports = true ∧ (s.port n).reachable = true ∧ (s.port n).fwState = 2 ∧ value < 2 ^ 32 ∧ r = (s.port n).events ∧ r.live = true ∧ value < r.size ∧ (value + r.size - r.head) % r.size ≤ r.used) ∧
    (∃ (s : State) (n : Nat) (value : Nat) (off : _) (high : _), Quiet s ∧ Table.sortedFrom 0 s.ports = true ∧ (s.port n).reachable = true ∧ (s.port n).fwState = 2 ∧ value < 2 ^ 32 ∧ off % 8 = 0 ∧ 0x2000 ≤ off ∧ off < 0x2100 ∧ high < 2 ^ 32) ∧
    (∃ (s : State) (n : Nat) (value : Nat) (off : _) (high : _), Quiet s ∧ Table.sortedFrom 0 s.ports = true ∧ (s.port n).reachable = true ∧ (s.port n).fwState = 2 ∧ value < 2 ^ 32 ∧ off % 8 = 0 ∧ 0x2000 ≤ off ∧ off < 0x2100 ∧ high < 2 ^ 32) := by
  refine ⟨
    ⟨ready, 0, 1, 31, _, quiet_lists (by decide +kernel), by decide +kernel, by decide +kernel, by decide +kernel, by decide +kernel, by decide +kernel, rfl, by decide +kernel⟩,
    ⟨ready, 0, 1, 31, _, quiet_lists (by decide +kernel), by decide +kernel, by decide +kernel, by decide +kernel, by decide +kernel, by decide +kernel, rfl, by decide +kernel⟩,
    ⟨at0 (fun p => { p with pairs := [(31, { live := true, sqLog := 4, cqLog := 4, sqHead := 2, sqTail := 5, cqHead := 1, cqTail := 3 })] }), 0, 16, 31, _, quiet_lists (by decide +kernel), by decide +kernel, by decide +kernel, by decide +kernel, by decide +kernel, by decide +kernel, rfl, by decide +kernel⟩,
    ⟨at0 (fun p => { p with pairs := [(31, { live := true, sqLog := 4, cqLog := 4, sqHead := 2, sqTail := 5, cqHead := 1, cqTail := 3 })] }), 0, 4, 31, _, quiet_lists (by decide +kernel), by decide +kernel, by decide +kernel, by decide +kernel, by decide +kernel, by decide +kernel, rfl, by decide +kernel⟩,
    ⟨at0 (fun p => { p with pairs := [(31, { live := true, sqLog := 4, cqLog := 4, sqHead := 2, sqTail := 5, cqHead := 1, cqTail := 3 })] }), 0, 5, 31, _, quiet_lists (by decide +kernel), by decide +kernel, by decide +kernel, by decide +kernel, by decide +kernel, by decide +kernel, rfl, by decide +kernel⟩,
    ⟨at0 (fun p => { p with pairs := [(31, { live := true, sqLog := 4, cqLog := 4, sqHead := 2, sqTail := 5, cqHead := 1, cqTail := 3 })] }), 0, 15, 31, _, quiet_lists (by decide +kernel), by decide +kernel, by decide +kernel, by decide +kernel, by decide +kernel, by decide +kernel, rfl, by decide +kernel⟩,
    ⟨at0 (fun p => { p with pairs := [(31, { live := true, sqLog := 4, cqLog := 4, sqHead := 2, sqTail := 5, cqHead := 1, cqTail := 3 })] }), 0, 16, 31, _, quiet_lists (by decide +kernel), by decide +kernel, by decide +kernel, by decide +kernel, by decide +kernel, by decide +kernel, rfl, by decide +kernel⟩,
    ⟨at0 (fun p => { p with pairs := [(31, { live := true, sqLog := 4, cqLog := 4, sqHead := 2, sqTail := 5, cqHead := 1, cqTail := 3 })] }), 0, 4, 31, _, quiet_lists (by decide +kernel), by decide +kernel, by decide +kernel, by decide +kernel, by decide +kernel, by decide +kernel, rfl, by decide +kernel⟩,
    ⟨at0 (fun p => { p with pairs := [(31, { live := true, sqLog := 4, cqLog := 4, sqHead := 2, sqTail := 5, cqHead := 1, cqTail := 3 })] }), 0, 3, 31, _, quiet_lists (by decide +kernel), by decide +kernel, by decide +kernel, by decide +kernel, by decide +kernel, by decide +kernel, rfl, by decide +kernel⟩,
    ⟨ready, 0, 0, _, quiet_lists (by decide +kernel), by decide +kernel, by decide +kernel, by decide +kernel, by decide +kernel, rfl, by decide +kernel⟩,
    ⟨at0 (fun p => { p with events := { live := true, log := 4, head := 1, tail := 3 } }), 0, 16, _, quiet_lists (by decide +kernel), by decide +kernel, by decide +kernel, by decide +kernel, by decide +kernel, rfl, by decide +kernel⟩,
    ⟨at0 (fun p => { p with events := { live := true, log := 4, head := 1, tail := 3 } }), 0, 4, _, quiet_lists (by decide +kernel), by decide +kernel, by decide +kernel, by decide +kernel, by decide +kernel, rfl, by decide +kernel⟩,
    ⟨at0 (fun p => { p with events := { live := true, log := 4, head := 1, tail := 3 } }), 0, 3, _, quiet_lists (by decide +kernel), by decide +kernel, by decide +kernel, by decide +kernel, by decide +kernel, rfl, by decide +kernel⟩,
    ⟨at0 (fun p => { p with pairs := [(31, { live := true, sqLog := 4, cqLog := 4, sqHead := 2, sqTail := 5, cqHead := 1, cqTail := 3 })] }), 0, 4294967295, 0x2000, 0, quiet_lists (by decide +kernel), by decide +kernel⟩,
    ⟨at0 (fun p => { p with pairs := [(31, { live := true, sqLog := 4, cqLog := 4, sqHead := 2, sqTail := 5, cqHead := 1, cqTail := 3 })] }), 0, 0, 0x20F8, 4294967295, quiet_lists (by decide +kernel), by decide +kernel⟩⟩

theorem witness_AccessRefusalsRecord :
    (∃ (s : State) (n : Nat) (off : Nat) (size : Nat), Quiet s ∧ Table.sortedFrom 0 s.ports = true ∧ (s.port n).reachable = true ∧ sizeOk off size = true ∧ touchesReserved off size = true) ∧
    (∃ (s : State) (n : Nat) (off : Nat) (size : Nat), Quiet s ∧ Table.sortedFrom 0 s.ports = true ∧ (s.port n).reachable = true ∧ sizeOk off size = true ∧ touchesReserved off size = true) ∧
    (∃ (s : State) (n : Nat) (off : Nat) (size : Nat), Quiet s ∧ Table.sortedFrom 0 s.ports = true ∧ (s.port n).reachable = true ∧ sizeOk off size = false) ∧
    (∃ (s : State) (n : Nat) (off : Nat) (size : Nat), Quiet s ∧ Table.sortedFrom 0 s.ports = true ∧ (s.port n).reachable = true ∧ sizeOk off size = false) ∧
    (∃ (s : State) (n : Nat), Quiet s ∧ Table.sortedFrom 0 s.ports = true ∧ (s.port n).reachable = true) ∧
    (∃ (s : State) (n : Nat), Quiet s ∧ Table.sortedFrom 0 s.ports = true ∧ (s.port n).reachable = true) ∧
    (∃ (s : State) (n : Nat) (off : Nat) (size : Nat), Quiet s ∧ Table.sortedFrom 0 s.ports = true ∧ (s.port n).reachable = true ∧ sizeOk off size = true ∧ touchesReserved off size = false ∧ (off + size ≤ 0x2C ∨ 0x1100 ≤ off ∧ off + size ≤ 0x1200 ∨ 0x3000 ≤ off ∧ off < 0x10000 ∨ 0x11000 ≤ off)) ∧
    (∃ (s : State) (n : Nat) (off : Nat) (size : Nat), Quiet s ∧ Table.sortedFrom 0 s.ports = true ∧ (s.port n).reachable = true ∧ sizeOk off size = true ∧ touchesReserved off size = false ∧ (off + size ≤ 0x2C ∨ 0x1100 ≤ off ∧ off + size ≤ 0x1200 ∨ 0x3000 ≤ off ∧ off < 0x10000 ∨ 0x11000 ≤ off)) ∧
    (∃ (s : State) (n : Nat) (off : Nat) (size : Nat), Quiet s ∧ Table.sortedFrom 0 s.ports = true ∧ (s.port n).reachable = true ∧ sizeOk off size = true ∧ touchesReserved off size = false ∧ (off + size ≤ 0x2C ∨ 0x1100 ≤ off ∧ off + size ≤ 0x1200 ∨ 0x3000 ≤ off ∧ off < 0x10000 ∨ 0x11000 ≤ off)) ∧
    (∃ (s : State) (n : Nat) (off : Nat) (size : Nat), Quiet s ∧ Table.sortedFrom 0 s.ports = true ∧ (s.port n).reachable = true ∧ sizeOk off size = true ∧ touchesReserved off size = false ∧ (off + size ≤ 0x2C ∨ 0x1100 ≤ off ∧ off + size ≤ 0x1200 ∨ 0x3000 ≤ off ∧ off < 0x10000 ∨ 0x11000 ≤ off)) ∧
    (∃ (s : State) (n : Nat) (off : Nat), Quiet s ∧ Table.sortedFrom 0 s.ports = true ∧ (s.port n).reachable = true ∧ off % 4 = 0 ∧ 0x10000 ≤ off ∧ off < 0x10400) ∧
    (∃ (s : State) (n : Nat) (off : Nat), Quiet s ∧ Table.sortedFrom 0 s.ports = true ∧ (s.port n).reachable = true ∧ off % 4 = 0 ∧ 0x10000 ≤ off ∧ off < 0x10400) := by
  refine ⟨
    ⟨ready, 0, 0x2C, 4, quiet_lists (by decide +kernel), by decide +kernel⟩,
    ⟨ready, 0, 0xFFFF8, 8, quiet_lists (by decide +kernel), by decide +kernel⟩,
    ⟨ready, 0, 0x1002, 4, quiet_lists (by decide +kernel), by decide +kernel⟩,
    ⟨ready, 0, 0x1000, 2, quiet_lists (by decide +kernel), by decide +kernel⟩,
    ⟨ready, 0, quiet_lists (by decide +kernel), by decide +kernel⟩,
    ⟨ready, 0, quiet_lists (by decide +kernel), by decide +kernel⟩,
    ⟨ready, 0, 0x28, 4, quiet_lists (by decide +kernel), by decide +kernel⟩,
    ⟨ready, 0, 0x11F8, 8, quiet_lists (by decide +kernel), by decide +kernel⟩,
    ⟨ready, 0, 0x3000, 4, quiet_lists (by decide +kernel), by decide +kernel⟩,
    ⟨ready, 0, 0x11000, 8, quiet_lists (by decide +kernel), by decide +kernel⟩,
    ⟨ready, 0, 0x10000, quiet_lists (by decide +kernel), by decide +kernel⟩,
    ⟨ready, 0, 0x103FC, quiet_lists (by decide +kernel), by decide +kernel⟩⟩

theorem witness_MaskedVectorsPend :
    (∃ (p : HostPort) (v : Nat), Table.sortedFrom 0 p.vectors = true ∧ (p.cfg.msixEnable = false ∨ p.cfg.functionMask = true ∨ (p.vector v).mask = true)) ∧
    (∃ (p : HostPort) (v : Nat), Table.sortedFrom 0 p.vectors = true ∧ (p.cfg.msixEnable = false ∨ p.cfg.functionMask = true ∨ (p.vector v).mask = true)) ∧
    (∃ (p : HostPort) (v : Nat), Table.sortedFrom 0 p.vectors = true ∧ (p.cfg.msixEnable = false ∨ p.cfg.functionMask = true ∨ (p.vector v).mask = true)) ∧
    (∃ (p : HostPort) (v : Nat), Table.sortedFrom 0 p.vectors = true ∧ (p.cfg.msixEnable = false ∨ p.cfg.functionMask = true ∨ (p.vector v).mask = true)) ∧
    (∃ (p : HostPort) (v : Nat), Table.sortedFrom 0 p.vectors = true ∧ p.canWrite = true ∧ p.cfg.msixEnable = true ∧ p.cfg.functionMask = false ∧ (p.vector v).mask = false ∧ (p.vector v).pending = true) ∧
    (∃ (p : HostPort) (v : Nat), Table.sortedFrom 0 p.vectors = true ∧ p.canWrite = true ∧ p.cfg.msixEnable = true ∧ p.cfg.functionMask = false ∧ (p.vector v).mask = false ∧ (p.vector v).pending = true) ∧
    (∃ (s : State) (n : Nat), Quiet s ∧ Table.sortedFrom 0 s.ports = true ∧ (s.port n).link = .up ∧ (s.port n).configReady = true) ∧
    (∃ (s : State) (n : Nat), Quiet s ∧ Table.sortedFrom 0 s.ports = true ∧ (s.port n).link = .up ∧ (s.port n).configReady = true) ∧
    (∃ (s : State) (n : Nat) (v : _), Quiet s ∧ Table.sortedFrom 0 s.ports = true ∧ (s.port n).link = .up ∧ (s.port n).configReady = true ∧ v < 64 ∧ (s.port n).cfg.d3hot = false) := by
  refine ⟨
    ⟨{ port0 with cfg := { port0.cfg with msixEnable := false } }, 63, by decide +kernel⟩,
    ⟨port0, 63, by decide +kernel⟩,
    ⟨{ port0 with cfg := { port0.cfg with functionMask := true }, vectors := [(63, { mask := false })] }, 63, by decide +kernel⟩,
    ⟨port0, 63, by decide +kernel⟩,
    ⟨{ port0 with vectors := [(63, { mask := false, pending := true })] }, 63, by decide +kernel⟩,
    ⟨{ port0 with vectors := [(63, { mask := false, pending := true })] }, 63, by decide +kernel⟩,
    ⟨ready, 0, quiet_lists (by decide +kernel), by decide +kernel⟩,
    ⟨ready, 0, quiet_lists (by decide +kernel), by decide +kernel⟩,
    ⟨ready, 0, 63, quiet_lists (by decide +kernel), by decide +kernel⟩⟩

theorem witness_PowerAndBusMasterRows :
    (∃ (s : State) (n : Nat), Quiet s ∧ Table.sortedFrom 0 s.ports = true ∧ (s.port n).reachable = true) ∧
    (∃ (s : State) (n : Nat), Quiet s ∧ Table.sortedFrom 0 s.ports = true ∧ (s.port n).link = .up ∧ (s.port n).cfg.d3hot = true) ∧
    (∃ (s : State) (n : Nat), Quiet s ∧ Table.sortedFrom 0 s.ports = true ∧ (s.port n).link = .up ∧ (s.port n).configReady = true ∧ (s.port n).cfg.d3hot = false ∧ (s.port n).cfg.busMaster = false) ∧
    (∃ (s : State) (n : Nat), Quiet s ∧ Table.sortedFrom 0 s.ports = true ∧ (s.port n).link = .up ∧ (s.port n).configReady = true ∧ (s.port n).cfg.d3hot = false ∧ (s.port n).cfg.busMaster = true) ∧
    (∃ (s : State) (n : Nat), Quiet s ∧ Table.sortedFrom 0 s.ports = true ∧ (s.port n).link = .up ∧ (s.port n).configReady = true ∧ (s.port n).cfg.d3hot = true) ∧
    (∃ (s : State) (n : Nat) (v : _), Quiet s ∧ Table.sortedFrom 0 s.ports = true ∧ 0 < ((s.port n).vector v).count ∧ 0 < ((s.port n).vector v).aggTime ∧ ((s.port n).vector v).firstDt + ((s.port n).vector v).aggTime ≤ s.dt) := by
  refine ⟨
    ⟨ready, 0, quiet_lists (by decide +kernel), by decide +kernel⟩,
    ⟨at0 (fun p => { p with cfg := { p.cfg with d3hot := true } }), 0, quiet_lists (by decide +kernel), by decide +kernel⟩,
    ⟨at0 (fun p => { p with cfg := { p.cfg with busMaster := false } }), 0, quiet_lists (by decide +kernel), by decide +kernel⟩,
    ⟨ready, 0, quiet_lists (by decide +kernel), by decide +kernel⟩,
    ⟨at0 (fun p => { p with cfg := { p.cfg with d3hot := true } }), 0, quiet_lists (by decide +kernel), by decide +kernel⟩,
    ⟨{ at0 (fun p => { p with vectors := [(3, { count := 1, aggTime := 100, firstDt := 50 })] }) with dt := 150 }, 0, 3, quiet_lists (by decide +kernel), by decide +kernel⟩⟩

theorem witness_LinkAndResetRows :
    (∃ (s : State) (n : Nat), n < 4 ∧ (s.port n).link = .training) ∧
    (∃ (s : State) (n : Nat) (q : HostPort), n < 4 ∧ (s.port n).link = .lost ∧ q = { s.port n with link := .up, lossDropped := 0 }) ∧
    (∃ (s : State) (n : Nat) (q : HostPort), n < 4 ∧ (s.port n).link = .up ∧ q = (if (s.port n).canWrite then (s.port n).noteCapacity else s.port n)) ∧
    (∃ (s : State) (n : Nat), n < 4 ∧ (s.port n).perst = false) ∧
    (∃ (n : Nat), n < 4) ∧
    (∃ (s : State) (n : Nat), n < 4 ∧ (s.port n).link ≠ .downReset) ∧
    (∃ (s : State) (n : Nat), n < 4 ∧ (s.port n).hotReset = true) ∧
    (∃ (s : State) (n : Nat), n < 4 ∧ (s.port n).link = .downReset ∧ (s.port n).perst = false ∧ (s.port n).hotReset = false ∧ s.boot.inReset = false) ∧
    (∃ (s : State) (n : Nat), n < 4 ∧ (s.port n).link = .up ∧ (s.port n).configReady = true) ∧
    (∃ (s : State) (n : Nat), n < 4 ∧ (s.port n).link ≠ .downReset ∧ (s.port n).readyBound ≠ none) ∧
    (∃ (s : State) (n : Nat) (r : PortReset) (acts : _) (e : Event), n < 4 ∧ (s.port n).pendingReset = some r ∧ (s.port n).configReady = true ∧ s.serving = true ∧ acts = ((s.streams.filter (fun x => x.2.part == n && x.2.state != .closed && x.2.state != .bindingOff)).map (fun x => (x.1, s.lossOf x.1))) ∧ e = { code := 0x8003, seq := (s.port n).eventSeq, handle := partHandle n, dt := s.dt, data := pack [(2, 1), (2, match r.cause with | .perst => 0 | .hotReset => 1 | .flr => 2), (11, (acts.filter (fun a => a.2 == 0)).length), (1, 0), (48, r.dt), (11, (acts.filter (fun a => a.2 == 1)).length), (11, (acts.filter (fun a => a.2 == 2)).length)] }) := by
  refine ⟨
    ⟨at0 (fun p => { p with link := .training }), 0, by decide +kernel⟩,
    ⟨at0 (fun p => { p with link := .lost, lossDropped := 2 }), 0, _, by decide +kernel, by decide +kernel, rfl⟩,
    ⟨ready, 0, _, by decide +kernel, by decide +kernel, rfl⟩,
    ⟨ready, 0, by decide +kernel⟩,
    ⟨3, by decide +kernel⟩,
    ⟨ready, 0, by decide +kernel⟩,
    ⟨at0 (fun p => { p with link := .downReset, hotReset := true }), 0, by decide +kernel⟩,
    ⟨at0 (fun p => { p with link := .downReset }), 0, by decide +kernel⟩,
    ⟨ready, 0, by decide +kernel⟩,
    ⟨at0 (fun p => { p with configReady := false, readyBound := some 7 }), 0, by decide +kernel⟩,
    ⟨{ full with ports := [(0, { port0 with fwState := 3, pendingReset := some { cause := .flr, dt := 5 } })] }, 0, { cause := .flr, dt := 5 }, _, _, by decide +kernel, by decide +kernel, by decide +kernel, by decide +kernel, rfl, rfl⟩⟩

theorem witness_HostRequestRows :
    (∃ (s : State) (n : Nat) (k : _), (s.port n).fwState = 2 ∧ ((List.range 32).map (fun j => ((s.port n).nextPair + j) % 32)).find? (fun k => (s.port n).mayRead k) = some k ∧ (s.port n).freePcieTag.isSome = true) ∧
    (∃ (s : State) (n : Nat) (k : _) (f : _), ((s.port n).pair k).failed.find? (fun f => decide (f.2.2.2 ≤ s.dt)) = some f ∧ (s.port n).canWrite = true ∧ (s.port n).fwState = 2 ∧ (s.port n).freePcieTag.isSome = true) ∧
    (∃ (s : State) (n : Nat) (tag : Nat) (r : _) (data : CplData), (s.port n).link = .up ∧ (s.port n).requests.find? (fun r => r.pcieTag == tag) = some r ∧ carriesFor data r = true) ∧
    (∃ (s : State) (n : Nat) (tag : Nat) (r : _) (status : CplStatus) (poisoned : _) (q : _), (s.port n).link = .up ∧ (s.port n).requests.find? (fun r => r.pcieTag == tag) = some r ∧ (status ≠ .ok ∨ poisoned = true) ∧ q = (s.port n).without r) ∧
    (∃ (s : State) (n : Nat) (tag : Nat) (r : _) (status : CplStatus) (poisoned : _) (q : _), (s.port n).link = .up ∧ (s.port n).requests.find? (fun r => r.pcieTag == tag) = some r ∧ (status ≠ .ok ∨ poisoned = true) ∧ q = (s.port n).without r) ∧
    (∃ (s : State) (n : Nat) (tag : Nat), (s.port n).link = .up ∧ (s.port n).requests.find? (fun r => r.pcieTag == tag) = none) ∧
    (∃ (s : State) (n : Nat) (tag : Nat) (r : _) (limit : _) (q : _), (s.port n).requests.find? (fun r => r.pcieTag == tag) = some r ∧ limit = timeoutTicks (s.port n).cfg.completionTimeout ∧ r.issued + limit ≤ s.dt ∧ q = (s.port n).without r) ∧
    (∃ (s : State) (n : Nat) (tag : Nat) (q : _) (t : _), (s.port n).quarantine.find? (fun q => q.pcieTag == tag && decide (q.ends ≤ s.dt)) = some q ∧ t = s.setPort n { s.port n with quarantine := (s.port n).quarantine.erase q } ∧ t.request 3 q.fxTag = none) ∧
    (∃ (s : State) (n : Nat) (tag : Nat) (q : _) (t : _) (r : _), (s.port n).quarantine.find? (fun q => q.pcieTag == tag && decide (q.ends ≤ s.dt)) = some q ∧ t = s.setPort n { s.port n with quarantine := (s.port n).quarantine.erase q } ∧ t.request 3 q.fxTag = some r ∧ r.quarantined.isSome = true ∧ r.kind = 3) ∧
    (∃ (s : State), s.serving = true ∧ s.dt % 24576 = 0) := by
  refine ⟨
    ⟨at0 (fun p => { p with pairs := [(2, { live := true, sqLog := 4, cqLog := 4, sqTail := 3, failed := [(0, 2, 1, 40)] })] }), 0, 2, by decide +kernel⟩,
    ⟨{ at0 (fun p => { p with pairs := [(2, { live := true, sqLog := 4, cqLog := 4, sqTail := 3, failed := [(0, 2, 1, 40)] })] }) with dt := 40 }, 0, 2, (0, 2, 1, 40), by decide +kernel⟩,
    ⟨at0 (fun p => { p with requests := [{ pcieTag := 5, fxTag := 65535, aperture := 0, op := 0, purpose := .entries 2 0 1 0, issued := 10 }] }), 0, 5, { pcieTag := 5, fxTag := 65535, aperture := 0, op := 0, purpose := .entries 2 0 1 0, issued := 10 }, .entries [{ bytes := 0, extBytes := none, data := .nothing }], by decide +kernel⟩,
    ⟨at0 (fun p => { p with requests := [{ pcieTag := 5, fxTag := 65535, aperture := 0, op := 0, purpose := .entries 2 0 1 0, issued := 10 }] }), 0, 5, { pcieTag := 5, fxTag := 65535, aperture := 0, op := 0, purpose := .entries 2 0 1 0, issued := 10 }, .ok, true, _, by decide +kernel, by decide +kernel, by decide +kernel, rfl⟩,
    ⟨at0 (fun p => { p with requests := [{ pcieTag := 5, fxTag := 65535, aperture := 0, op := 0, purpose := .entries 2 0 1 0, issued := 10 }] }), 0, 5, { pcieTag := 5, fxTag := 65535, aperture := 0, op := 0, purpose := .entries 2 0 1 0, issued := 10 }, .completerAbort, false, _, by decide +kernel, by decide +kernel, by decide +kernel, rfl⟩,
    ⟨ready, 0, 5, by decide +kernel⟩,
    ⟨{ at0 (fun p => { p with requests := [{ pcieTag := 5, fxTag := 65535, aperture := 0, op := 0, purpose := .entries 2 0 1 0, issued := 10 }] }) with dt := 983050 }, 0, 5, { pcieTag := 5, fxTag := 65535, aperture := 0, op := 0, purpose := .entries 2 0 1 0, issued := 10 }, _, _, by decide +kernel, rfl, by decide +kernel, rfl⟩,
    ⟨{ at0 (fun p => { p with quarantine := [{ pcieTag := 5, fxTag := 9, ends := 100 }] }) with dt := 100 }, 0, 5, { pcieTag := 5, fxTag := 9, ends := 100 }, _, by decide +kernel, rfl, by decide +kernel⟩,
    ⟨{ { at0 (fun p => { p with quarantine := [{ pcieTag := 5, fxTag := 9, ends := 100 }] }) with dt := 100 } with feeders := [(3, { requests := [{ tag := 9, prog := 1, op := 1, part := 0, deadline := 0, kind := 3, read := true, gambit := false, addr := 0, other := 0, bytes := 32, issued := 0, data := 0, failed := true, quarantined := some 1 }] })] }, 0, 5, { pcieTag := 5, fxTag := 9, ends := 100 }, _, { tag := 9, prog := 1, op := 1, part := 0, deadline := 0, kind := 3, read := true, gambit := false, addr := 0, other := 0, bytes := 32, issued := 0, data := 0, failed := true, quarantined := some 1 }, by decide +kernel, rfl, by decide +kernel⟩,
    ⟨{ ready with dt := 24576 }, by decide +kernel⟩⟩

theorem witness_RingRowsAct :
    (∃ (s : State) (f : Nat) (r : Nat), ((s.feeder f).ring r).live = false) ∧
    (∃ (s : State) (f : Nat) (r : Nat) (descs : List Nat) (x : _) (ds : _), x = (s.feeder f).ring r ∧ ds = descs.map s.stampDesc ∧ x.live = true ∧ ds.all (fun w => (Desc.ofBytes w).fitsRing f r) = true) ∧
    (∃ (s : State) (f : Nat) (r : Nat) (descs : List Nat) (x : _) (ds : _), x = (s.feeder f).ring r ∧ ds = descs.map s.stampDesc ∧ x.live = true ∧ ds.all (fun w => (Desc.ofBytes w).fitsRing f r) = true) ∧
    (∃ (s : State) (f : Nat) (r : Nat) (descs : List Nat) (x : _) (ds : _), x = (s.feeder f).ring r ∧ ds = descs.map s.stampDesc ∧ x.live = true ∧ ds.all (fun w => (Desc.ofBytes w).fitsRing f r) = false) ∧
    (∃ (s : State) (f : Nat) (r : Nat) (x : _) (a : _), x = (s.feeder f).ring r ∧ a = x.base + 32 * (x.head / 8 * 8) ∧ x.live = true ∧ x.head ≠ x.tail ∧ x.skein = none ∧ s.firstAt (channelOf a) f x.deadline = true ∧ (∀ b ∈ burstsOf a 256, eccOf b (s.mem.err b) ≠ .uncorrectable)) ∧
    (∃ (s : State) (f : Nat) (r : Nat) (x : _) (a : _), x = (s.feeder f).ring r ∧ a = x.base + 32 * (x.head / 8 * 8) ∧ x.live = true ∧ x.head ≠ x.tail ∧ x.skein = none ∧ s.firstAt (channelOf a) f x.deadline = false) ∧
    (∃ (s : State) (f : Nat) (r : Nat) (d : _) (x : _) (t : _), s.nextRing f = some (r, d) ∧ x = (s.feeder f).ring r ∧ t = (s.updRing f r (fun y => { y with head := (x.head + 1) % 2 ^ x.log, skein := if (x.head + 1) % 2 ^ x.log % 8 = 0 then none else y.skein })).updFeeder f (fun y => { y with lastRing := r }) ∧ (s.ops.any (fun o => o.id == d.task && o.aborted)) = true) ∧
    (∃ (s : State) (f : Nat) (r : Nat) (d : _) (x : _) (t : _), s.nextRing f = some (r, d) ∧ x = (s.feeder f).ring r ∧ t = (s.updRing f r (fun y => { y with head := (x.head + 1) % 2 ^ x.log, skein := if (x.head + 1) % 2 ^ x.log % 8 = 0 then none else y.skein })).updFeeder f (fun y => { y with lastRing := r }) ∧ (s.ops.any (fun o => o.id == d.task && o.aborted)) = false ∧ d.ok f = false) ∧
    (∃ (s : State) (f : Nat) (r : Nat) (d : _) (x : _) (t : _) (p : _) (u : _), s.nextRing f = some (r, d) ∧ x = (s.feeder f).ring r ∧ t = (s.updRing f r (fun y => { y with head := (x.head + 1) % 2 ^ x.log, skein := if (x.head + 1) % 2 ^ x.log % 8 = 0 then none else y.skein })).updFeeder f (fun y => { y with lastRing := r }) ∧ (s.ops.any (fun o => o.id == d.task && o.aborted)) = false ∧ d.ok f = true ∧ d.needle = false ∧ p = ({ id := (s.feeder f).nextProg, ring := r, index := x.head, desc := d, copies := s.copiesOf d, unicast := s.asUnicast d } : Progress) ∧ u = t.updFeeder f (fun y => { y with progress := y.progress ++ [p], nextProg := y.nextProg + 1 })) ∧
    (∃ (s : State) (f : Nat) (r : Nat) (d : _) (x : _) (t : _) (p : _) (u : _), s.nextRing f = some (r, d) ∧ x = (s.feeder f).ring r ∧ t = (s.updRing f r (fun y => { y with head := (x.head + 1) % 2 ^ x.log, skein := if (x.head + 1) % 2 ^ x.log % 8 = 0 then none else y.skein })).updFeeder f (fun y => { y with lastRing := r }) ∧ (s.ops.any (fun o => o.id == d.task && o.aborted)) = false ∧ d.ok f = true ∧ d.needle = false ∧ p = ({ id := (s.feeder f).nextProg, ring := r, index := x.head, desc := d, copies := s.copiesOf d, unicast := s.asUnicast d } : Progress) ∧ u = t.updFeeder f (fun y => { y with progress := y.progress ++ [p], nextProg := y.nextProg + 1 })) := by
  refine ⟨
    ⟨ready, 0, 1, by decide +kernel⟩,
    ⟨{ ready with feeders := [(0, { rings := [(1, { live := true, base := 4096, log := 3, tail := 2 })] })] }, 0, 1, [(0 + 1 * 2 ^ 64 + 32 * 2 ^ 96 + 2147483648 * 2 ^ 128 + (2 ^ 60) * 2 ^ 192)], _, _, rfl, rfl, by decide +kernel⟩,
    ⟨{ ready with feeders := [(3, { rings := [(16, { live := true, base := 4096, log := 3, tail := 2 })] })] }, 3, 16, [7], _, _, rfl, rfl, by decide +kernel⟩,
    ⟨{ ready with feeders := [(3, { rings := [(16, { live := true, base := 4096, log := 3, tail := 2 })] })] }, 3, 16, [(0 + 1 * 2 ^ 64 + 32 * 2 ^ 96 + 2147483648 * 2 ^ 128 + (2 ^ 60) * 2 ^ 192)], _, _, rfl, rfl, by decide +kernel⟩,
    ⟨{ ready with feeders := [(0, { rings := [(1, { live := true, base := 4096, log := 3, tail := 2 })] })] }, 0, 1, _, _, rfl, rfl, by decide +kernel⟩,
    ⟨{ ready with feeders := [(0, { rings := [(1, { live := true, base := 2147483648, log := 3, tail := 2, deadline := 9 })] }), (1, { requests := [{ tag := 9, prog := 1, op := 1, part := 0, deadline := 8, kind := 0, read := true, gambit := false, addr := 2147483648, other := 2 ^ 60, bytes := 32, issued := 0, data := 0 }] })] }, 0, 1, _, _, rfl, rfl, by decide +kernel⟩,
    ⟨{ { ready with feeders := [(0, { rings := [(1, { live := true, base := 4096, log := 3, tail := 2, skein := some (0, [(0 + 1 * 2 ^ 64 + 32 * 2 ^ 96 + 2147483648 * 2 ^ 128 + (2 ^ 60) * 2 ^ 192), 0, 0, 0, 0, 0, 0, 0]) })] })] } with ops := [{ id := 1, kind := .task 0, part := 0, aborted := true }] }, 0, 1, Desc.ofBytes (0 + 1 * 2 ^ 64 + 32 * 2 ^ 96 + 2147483648 * 2 ^ 128 + (2 ^ 60) * 2 ^ 192), _, _, by decide +kernel, rfl, rfl, by decide +kernel⟩,
    ⟨{ ready with feeders := [(0, { rings := [(1, { live := true, base := 4096, log := 3, tail := 2, skein := some (0, [(1 * 2 ^ 64), 0, 0, 0, 0, 0, 0, 0]) })] })] }, 0, 1, Desc.ofBytes (1 * 2 ^ 64), _, _, by decide +kernel, rfl, rfl, by decide +kernel⟩,
    ⟨{ ready with feeders := [(0, { rings := [(1, { live := true, base := 4096, log := 3, tail := 2, skein := some (0, [(0 + 1 * 2 ^ 64 + 32 * 2 ^ 96 + 2147483648 * 2 ^ 128 + (2 ^ 60) * 2 ^ 192), 0, 0, 0, 0, 0, 0, 0]) })] })] }, 0, 1, Desc.ofBytes (0 + 1 * 2 ^ 64 + 32 * 2 ^ 96 + 2147483648 * 2 ^ 128 + (2 ^ 60) * 2 ^ 192), _, _, _, _, by decide +kernel, rfl, rfl, by decide +kernel, by decide +kernel, by decide +kernel, rfl, rfl⟩,
    ⟨{ ready with feeders := [(0, { rings := [(1, { live := true, base := 4096, log := 3, tail := 2, skein := some (0, [(7 + 1 * 2 ^ 64 + noneWord * 2 ^ 128 + noneWord * 2 ^ 192), 0, 0, 0, 0, 0, 0, 0]) })] })] }, 0, 1, Desc.ofBytes (7 + 1 * 2 ^ 64 + noneWord * 2 ^ 128 + noneWord * 2 ^ 192), _, _, _, _, by decide +kernel, rfl, rfl, by decide +kernel, by decide +kernel, by decide +kernel, rfl, rfl⟩⟩

theorem witness_RequestsIssueAndReturn :
    (∃ (s : State) (f : Nat), s.nextIssue f = none) ∧
    (∃ (s : State) (f : Nat) (p : _), s.nextIssue f = some p ∧ (2048 ≤ (s.feeder f).requests.length ∨ 6144 ≤ s.allTags)) ∧
    (∃ (s : State) (f : Nat) (p : _) (u : _) (x : _) (read : _) (dst : _) (n : _) (v : _), s.nextIssue f = some p ∧ x = s.feeder f ∧ x.requests.length < 2048 ∧ s.allTags < 6144 ∧ p.desc.kind ≠ 3 ∧ p.desc.kind ≠ 4 ∧ p.desc.kind ≠ 1 ∧ u = s.updFeeder f (fun y => { y with waitFrom := none, cnt := { y.cnt with tagPoolWaits := bump 64 y.cnt.tagPoolWaits ((x.waitFrom.map (fun w => (s.dt - w) * 200 / 3)).getD 0) } }) ∧ read = (p.desc.kind != 6 && p.desc.kind != 8) ∧ dst = 256 + channelOf p.piece.1 / 32 ∧ n = requestStitches p.desc.kind read p.piece.2.2 ∧ v = (if p.desc.kind = 8 then p.desc.dst else 0) ∧ u.canInject dst = true ∧ u.nearRoute f p.desc p.piece.2.1 = true ∧ (u.window (300 + f) dst).isOpen = true ∧ (u.window (300 + f) dst).room n = true) ∧
    (∃ (s : State) (f : Nat) (p : _) (u : _) (x : _) (read : _) (dst : _) (n : _) (v : _), s.nextIssue f = some p ∧ x = s.feeder f ∧ x.requests.length < 2048 ∧ s.allTags < 6144 ∧ p.desc.kind ≠ 3 ∧ p.desc.kind ≠ 4 ∧ p.desc.kind ≠ 1 ∧ u = s.updFeeder f (fun y => { y with waitFrom := none, cnt := { y.cnt with tagPoolWaits := bump 64 y.cnt.tagPoolWaits ((x.waitFrom.map (fun w => (s.dt - w) * 200 / 3)).getD 0) } }) ∧ read = (p.desc.kind != 6 && p.desc.kind != 8) ∧ dst = 256 + channelOf p.piece.1 / 32 ∧ n = requestStitches p.desc.kind read p.piece.2.2 ∧ v = (if p.desc.kind = 8 then p.desc.dst else 0) ∧ u.canInject dst = true ∧ u.nearRoute f p.desc p.piece.2.1 = true ∧ (u.window (300 + f) dst).isOpen = true ∧ (u.window (300 + f) dst).room n = false) ∧
    (∃ (s : State) (f : Nat) (tag : Nat) (r : _), s.request f tag = some r ∧ r.fetched = true ∧ r.quarantined.isSome = true ∧ r.read = true) ∧
    (∃ (s : State) (f : Nat) (tag : Nat) (r : _), s.request f tag = some r ∧ r.fetched = true ∧ r.quarantined = none ∧ r.read = true ∧ s.requestDead f r = true) ∧
    (∃ (s : State) (f : Nat) (tag : Nat) (r : _) (p : _) (t : _), s.request f tag = some r ∧ r.fetched = true ∧ r.quarantined = none ∧ r.read = true ∧ s.requestDead f r = false ∧ s.progressOf f r = some p ∧ r.kind ≠ 2 ∧ r.buffered = false ∧ t = s.updFeeder f (fun x => { x with cnt := { x.cnt with bytesRead := bump 64 x.cnt.bytesRead r.bytes } })) ∧
    (∃ (s : State) (f : Nat) (tag : Nat) (r : _) (p : _), s.request f tag = some r ∧ r.fetched = true ∧ r.quarantined = none ∧ r.read = false ∧ r.buffered = false ∧ s.progressOf f r = some p) ∧
    (∃ (s : State) (f : Nat) (tag : Nat) (r : _), s.request f tag = some r ∧ r.fetched = true ∧ r.quarantined.isSome = true) ∧
    (∃ (s : State) (f : Nat) (tag : Nat) (r : _) (p : _), s.request f tag = some r ∧ r.fetched = false ∧ r.failed = false ∧ r.quarantined = none ∧ (r.kind = 3 → r.read = false) ∧ (s.window (300 + f) (256 + channelOf r.addr / 32)).probeFrom = none ∧ 3 * 81920 ≤ 200 * (s.dt - r.issued) ∧ s.progressOf f r = some p) ∧
    (∃ (s : State) (f : Nat) (tag : Nat) (r : _), s.request f tag = some r ∧ 200 * (s.dt - r.issued) < 3 * 81920) := by
  refine ⟨
    ⟨ready, 0, by decide +kernel⟩,
    ⟨{ ready with feeders := [(0, { progress := [{ id := 1, ring := 1, index := 0, desc := Desc.ofBytes (0 + 1 * 2 ^ 64 + 32 * 2 ^ 96 + 2147483648 * 2 ^ 128 + (2 ^ 60) * 2 ^ 192) }], requests := List.replicate 2048 { tag := 9, prog := 1, op := 1, part := 0, deadline := 0, kind := 0, read := true, gambit := false, addr := 2147483648, other := 2 ^ 60, bytes := 32, issued := 100, data := 0 } })] }, 0, { id := 1, ring := 1, index := 0, desc := Desc.ofBytes (0 + 1 * 2 ^ 64 + 32 * 2 ^ 96 + 2147483648 * 2 ^ 128 + (2 ^ 60) * 2 ^ 192) }, by decide +kernel⟩,
    ⟨{ ready with feeders := [(0, { progress := [{ id := 1, ring := 1, index := 0, desc := Desc.ofBytes (0 + 1 * 2 ^ 64 + 32 * 2 ^ 96 + 2147483648 * 2 ^ 128 + (2 ^ 60) * 2 ^ 192) }] })], fabric := { routes := [(0, { valid := true }), (256, { valid := true }), (257, { valid := true }), (258, { valid := true }), (259, { valid := true }), (260, { valid := true }), (261, { valid := true })], windows := [(1024 * 300 + 256, { isOpen := true }), (1024 * 300 + 257, { isOpen := true }), (1024 * 300 + 258, { isOpen := true }), (1024 * 300 + 259, { isOpen := true }), (1024 * 300 + 260, { isOpen := true }), (1024 * 300 + 261, { isOpen := true })] } }, 0, { id := 1, ring := 1, index := 0, desc := Desc.ofBytes (0 + 1 * 2 ^ 64 + 32 * 2 ^ 96 + 2147483648 * 2 ^ 128 + (2 ^ 60) * 2 ^ 192) }, _, _, _, _, _, _, by decide +kernel, rfl, by decide +kernel, by decide +kernel, by decide +kernel, by decide +kernel, by decide +kernel, rfl, rfl, rfl, rfl, rfl, by decide +kernel⟩,
    ⟨{ ready with feeders := [(0, { progress := [{ id := 1, ring := 1, index := 0, desc := Desc.ofBytes (0 + 1 * 2 ^ 64 + 32 * 2 ^ 96 + 2147483648 * 2 ^ 128 + (2 ^ 60) * 2 ^ 192) }] })], fabric := { routes := [(0, { valid := true }), (256, { valid := true }), (257, { valid := true }), (258, { valid := true }), (259, { valid := true }), (260, { valid := true }), (261, { valid := true })], windows := [(1024 * 300 + 256, { isOpen := true, seq := 64, acked := 0 }), (1024 * 300 + 257, { isOpen := true, seq := 64, acked := 0 }), (1024 * 300 + 258, { isOpen := true, seq := 64, acked := 0 }), (1024 * 300 + 259, { isOpen := true, seq := 64, acked := 0 }), (1024 * 300 + 260, { isOpen := true, seq := 64, acked := 0 }), (1024 * 300 + 261, { isOpen := true, seq := 64, acked := 0 })] } }, 0, { id := 1, ring := 1, index := 0, desc := Desc.ofBytes (0 + 1 * 2 ^ 64 + 32 * 2 ^ 96 + 2147483648 * 2 ^ 128 + (2 ^ 60) * 2 ^ 192) }, _, _, _, _, _, _, by decide +kernel, rfl, by decide +kernel, by decide +kernel, by decide +kernel, by decide +kernel, by decide +kernel, rfl, rfl, rfl, rfl, rfl, by decide +kernel⟩,
    ⟨{ ready with dt := 0, feeders := [(0, { progress := [{ id := 1, ring := 1, index := 0, desc := Desc.ofBytes (0 + 1 * 2 ^ 64 + 32 * 2 ^ 96 + 2147483648 * 2 ^ 128 + (2 ^ 60) * 2 ^ 192), tags := 1 }], requests := [{ tag := 9, prog := 1, op := 1, part := 0, deadline := 0, kind := 0, read := true, gambit := false, addr := 2147483648, other := 2 ^ 60, bytes := 32, issued := 0, data := 0, fetched := true, quarantined := some 1 }] })] }, 0, 9, { tag := 9, prog := 1, op := 1, part := 0, deadline := 0, kind := 0, read := true, gambit := false, addr := 2147483648, other := 2 ^ 60, bytes := 32, issued := 0, data := 0, fetched := true, quarantined := some 1 }, by decide +kernel⟩,
    ⟨{ ready with dt := 0, feeders := [(0, { progress := [{ id := 1, ring := 1, index := 0, desc := Desc.ofBytes (0 + 1 * 2 ^ 64 + 32 * 2 ^ 96 + 2147483648 * 2 ^ 128 + (2 ^ 60) * 2 ^ 192), tags := 1 }], requests := [{ tag := 9, prog := 1, op := 1, part := 0, deadline := 0, kind := 0, read := true, gambit := false, addr := 2147483648, other := 2 ^ 60, bytes := 32, issued := 0, data := 0, fetched := true, failed := true }] })] }, 0, 9, { tag := 9, prog := 1, op := 1, part := 0, deadline := 0, kind := 0, read := true, gambit := false, addr := 2147483648, other := 2 ^ 60, bytes := 32, issued := 0, data := 0, fetched := true, failed := true }, by decide +kernel⟩,
    ⟨{ ready with dt := 0, feeders := [(0, { progress := [{ id := 1, ring := 1, index := 0, desc := Desc.ofBytes (0 + 1 * 2 ^ 64 + 32 * 2 ^ 96 + 2147483648 * 2 ^ 128 + (2 ^ 60) * 2 ^ 192), tags := 1 }], requests := [{ tag := 9, prog := 1, op := 1, part := 0, deadline := 0, kind := 0, read := true, gambit := false, addr := 2147483648, other := 2 ^ 60, bytes := 32, issued := 0, data := 0, fetched := true }] })] }, 0, 9, { tag := 9, prog := 1, op := 1, part := 0, deadline := 0, kind := 0, read := true, gambit := false, addr := 2147483648, other := 2 ^ 60, bytes := 32, issued := 0, data := 0, fetched := true }, { id := 1, ring := 1, index := 0, desc := Desc.ofBytes (0 + 1 * 2 ^ 64 + 32 * 2 ^ 96 + 2147483648 * 2 ^ 128 + (2 ^ 60) * 2 ^ 192), tags := 1 }, _, by decide +kernel, by decide +kernel, by decide +kernel, by decide +kernel, by decide +kernel, (by decide +kernel), by decide +kernel, by decide +kernel, rfl⟩,
    ⟨{ ready with dt := 0, feeders := [(0, { progress := [{ id := 1, ring := 1, index := 0, desc := Desc.ofBytes (0 + 1 * 2 ^ 64 + 32 * 2 ^ 96 + 2147483648 * 2 ^ 128 + (2 ^ 60) * 2 ^ 192), tags := 1 }], requests := [{ tag := 9, prog := 1, op := 1, part := 0, deadline := 0, kind := 1, read := false, gambit := false, addr := 2147483648, other := 2 ^ 60, bytes := 32, issued := 0, data := 0, fetched := true }] })] }, 0, 9, { tag := 9, prog := 1, op := 1, part := 0, deadline := 0, kind := 1, read := false, gambit := false, addr := 2147483648, other := 2 ^ 60, bytes := 32, issued := 0, data := 0, fetched := true }, { id := 1, ring := 1, index := 0, desc := Desc.ofBytes (0 + 1 * 2 ^ 64 + 32 * 2 ^ 96 + 2147483648 * 2 ^ 128 + (2 ^ 60) * 2 ^ 192), tags := 1 }, by decide +kernel⟩,
    ⟨{ ready with dt := 0, feeders := [(0, { progress := [{ id := 1, ring := 1, index := 0, desc := Desc.ofBytes (0 + 1 * 2 ^ 64 + 32 * 2 ^ 96 + 2147483648 * 2 ^ 128 + (2 ^ 60) * 2 ^ 192), tags := 1 }], requests := [{ tag := 9, prog := 1, op := 1, part := 0, deadline := 0, kind := 0, read := true, gambit := false, addr := 2147483648, other := 2 ^ 60, bytes := 32, issued := 0, data := 0, fetched := true, quarantined := some 1 }] })] }, 0, 9, { tag := 9, prog := 1, op := 1, part := 0, deadline := 0, kind := 0, read := true, gambit := false, addr := 2147483648, other := 2 ^ 60, bytes := 32, issued := 0, data := 0, fetched := true, quarantined := some 1 }, by decide +kernel⟩,
    ⟨{ ready with dt := 1329, feeders := [(0, { progress := [{ id := 1, ring := 1, index := 0, desc := Desc.ofBytes (0 + 1 * 2 ^ 64 + 32 * 2 ^ 96 + 2147483648 * 2 ^ 128 + (2 ^ 60) * 2 ^ 192), tags := 1 }], requests := [{ tag := 9, prog := 1, op := 1, part := 0, deadline := 0, kind := 0, read := true, gambit := false, addr := 2147483648, other := 2 ^ 60, bytes := 32, issued := 100, data := 0 }] })] }, 0, 9, { tag := 9, prog := 1, op := 1, part := 0, deadline := 0, kind := 0, read := true, gambit := false, addr := 2147483648, other := 2 ^ 60, bytes := 32, issued := 100, data := 0 }, { id := 1, ring := 1, index := 0, desc := Desc.ofBytes (0 + 1 * 2 ^ 64 + 32 * 2 ^ 96 + 2147483648 * 2 ^ 128 + (2 ^ 60) * 2 ^ 192), tags := 1 }, by decide +kernel⟩,
    ⟨{ ready with dt := 1328, feeders := [(0, { progress := [{ id := 1, ring := 1, index := 0, desc := Desc.ofBytes (0 + 1 * 2 ^ 64 + 32 * 2 ^ 96 + 2147483648 * 2 ^ 128 + (2 ^ 60) * 2 ^ 192), tags := 1 }], requests := [{ tag := 9, prog := 1, op := 1, part := 0, deadline := 0, kind := 0, read := true, gambit := false, addr := 2147483648, other := 2 ^ 60, bytes := 32, issued := 100, data := 0 }] })] }, 0, 9, { tag := 9, prog := 1, op := 1, part := 0, deadline := 0, kind := 0, read := true, gambit := false, addr := 2147483648, other := 2 ^ 60, bytes := 32, issued := 100, data := 0 }, by decide +kernel⟩⟩

theorem witness_NeedlesAndBarriersAct :
    (∃ (s : State) (t : Nat) (p : Nat) (n : _) (u : _), n = (s.tile t).needle p ∧ n.declared = true ∧ n.outbound = false ∧ n.half (!n.current) = .full ∧ n.half n.current = .working ∧ (s.feeder (t / 48)).progress.any (fun q => q.desc.needle && q.desc.pair == p && q.half == some n.current && s.wordTile q.desc.dst == some t) = false ∧ u = s.updNeedle t p (fun _ => { (n.setHalf n.current .empty).setHalf (!n.current) .working with current := !n.current, waiting := false, used := false })) ∧
    (∃ (s : State) (t : Nat) (p : Nat) (n : _) (u : _), n = (s.tile t).needle p ∧ n.declared = true ∧ n.outbound = false ∧ n.half (!n.current) = .full ∧ n.half n.current = .working ∧ (s.feeder (t / 48)).progress.any (fun q => q.desc.needle && q.desc.pair == p && q.half == some n.current && s.wordTile q.desc.dst == some t) = false ∧ u = s.updNeedle t p (fun _ => { (n.setHalf n.current .empty).setHalf (!n.current) .working with current := !n.current, waiting := false, used := false })) ∧
    (∃ (s : State) (t : Nat) (p : Nat) (n : _) (u : _), n = (s.tile t).needle p ∧ n.declared = true ∧ n.outbound = true ∧ n.half (!n.current) = .empty ∧ n.half n.current = .working ∧ u = s.updNeedle t p (fun _ => { (n.setHalf n.current .full).setHalf (!n.current) .working with current := !n.current, waiting := false })) ∧
    (∃ (s : State) (t : Nat) (p : Nat) (n : _), n = (s.tile t).needle p ∧ n.declared = true ∧ n.half (!n.current) ≠ (if n.outbound then .empty else .full)) ∧
    (∃ (s : State) (t : Nat) (p : Nat) (n : _), n = (s.tile t).needle p ∧ n.declared = true ∧ n.half (!n.current) ≠ (if n.outbound then .empty else .full)) ∧
    (∃ (s : State) (f : Nat) (index : Nat) (b : _), b = s.barrier f index ∧ b.state = .armed ∧ b.arrived + 1 < b.expect) ∧
    (∃ (s : State) (f : Nat) (index : Nat) (b : _), b = s.barrier f index ∧ b.state = .armed ∧ b.arrived + 1 = b.expect) ∧
    (∃ (s : State) (f : Nat) (index : Nat) (b : _), b = s.barrier f index ∧ (b.state ≠ .armed ∨ b.expect ≤ b.arrived)) ∧
    (∃ (s : State) (f : Nat) (index : Nat) (b : _), b = s.barrier f index ∧ (b.state ≠ .armed ∨ b.expect ≤ b.arrived)) ∧
    (∃ (s : State) (f : Nat) (index : Nat), s.dt < (s.barrier f index).lastArrival + 6144) ∧
    (∃ (s : State) (f : Nat) (index : Nat), (s.barrier f index).state = .armed ∧ (s.barrier f index).waiters ≠ [] ∧ (s.barrier f index).lastArrival + 6144 ≤ s.dt ∧ (∀ armed, armed = (s.barriers.filter (fun e => e.2.state == .armed)).map (·.1) → (s.stalemateSet armed.length armed).contains (256 * f + index) = false)) := by
  refine ⟨
    ⟨{ ready with tiles := [(0, { Tile.atReset 0 with needles := [(3, { declared := true, size := 64, half0 := .working, half1 := .full, waiting := false })] })] }, 0, 3, _, _, rfl, by decide +kernel, by decide +kernel, by decide +kernel, by decide +kernel, by decide +kernel, rfl⟩,
    ⟨{ ready with tiles := [(0, { Tile.atReset 0 with needles := [(3, { declared := true, size := 64, half0 := .working, half1 := .full, waiting := true })] })] }, 0, 3, _, _, rfl, by decide +kernel, by decide +kernel, by decide +kernel, by decide +kernel, by decide +kernel, rfl⟩,
    ⟨{ ready with tiles := [(0, { Tile.atReset 0 with needles := [(3, { declared := true, size := 64, half0 := .working, half1 := .empty, outbound := true })] })] }, 0, 3, _, _, rfl, by decide +kernel, by decide +kernel, by decide +kernel, by decide +kernel, rfl⟩,
    ⟨{ ready with tiles := [(0, { Tile.atReset 0 with needles := [(3, { declared := true, size := 64, half0 := .working, half1 := .filling })] })] }, 0, 3, _, rfl, by decide +kernel⟩,
    ⟨{ ready with tiles := [(0, { Tile.atReset 0 with needles := [(3, { declared := true, size := 64, half0 := .working, half1 := .draining, outbound := true })] })] }, 0, 3, _, rfl, by decide +kernel⟩,
    ⟨{ ready with dt := 0, barriers := [(257, { state := .armed, expect := 2 })] }, 1, 1, _, rfl, by decide +kernel⟩,
    ⟨{ ready with dt := 0, barriers := [(257, { state := .armed, expect := 1 })] }, 1, 1, _, rfl, by decide +kernel⟩,
    ⟨ready, 1, 1, _, rfl, by decide +kernel⟩,
    ⟨{ ready with dt := 0, barriers := [(257, { state := .armed, expect := 1, arrived := 1 })] }, 1, 1, _, rfl, by decide +kernel⟩,
    ⟨{ ready with dt := 6144, barriers := [(257, { lastArrival := 1 })] }, 1, 1, by decide +kernel⟩,
    ⟨{ ready with dt := 6144, barriers := [(257, { state := .armed, expect := 2, owing := [.task 5], waiters := [.task 6] })] }, 1, 1, by decide +kernel, by decide +kernel, by decide +kernel, by rintro armed rfl; decide +kernel⟩⟩

theorem witness_ControllerServesRequests :
    (∃ (s : State) (f : Nat) (tag : Nat) (r : Request) (v : State) (q : _), Quiet s ∧ s.mem.wf = true ∧ s.atController f tag = some r ∧ v = s.servedAt (channelOf r.addr) f ∧ r.read = true ∧ s.admits (s.originOf r.op) r.part false r.addr r.bytes = true ∧ (∀ b ∈ burstsOf r.addr r.bytes, (s.mem.err b).bytes = []) ∧ (∀ b ∈ burstsOf r.addr r.bytes, (s.mem.err b).single = false) ∧ q = v.updChannel (channelOf r.addr) (fun c => { c with reads := bump 64 c.reads (burstsOf r.addr r.bytes).length, corrected := bump 64 c.corrected 0, uncorrectable := bump 32 c.uncorrectable 0 }) ∧ r.kind ≠ 5) ∧
    (∃ (s : State) (f : Nat) (tag : Nat) (r : Request) (v : State) (q : _) (d : _) (u : _), Quiet s ∧ s.mem.wf = true ∧ s.atController f tag = some r ∧ v = s.servedAt (channelOf r.addr) f ∧ r.read = true ∧ s.admits (s.originOf r.op) r.part false r.addr r.bytes = true ∧ (∀ b ∈ burstsOf r.addr r.bytes, (s.mem.err b).bytes = []) ∧ (∀ b ∈ burstsOf r.addr r.bytes, (s.mem.err b).single = false) ∧ q = v.updChannel (channelOf r.addr) (fun c => { c with reads := bump 64 c.reads (burstsOf r.addr r.bytes).length, corrected := bump 64 c.corrected 0, uncorrectable := bump 32 c.uncorrectable 0 }) ∧ r.kind = 5 ∧ d = ((s.progressOf f r).map (·.desc.span)).getD 0 ∧ q.sendMulticast (channelOf r.addr / 32) (field d 8 4) (field d 0 4) (field d 4 4) tag (1 + ceilDiv r.bytes 32) (s.memRead r.addr r.bytes) = some u) ∧
    (∃ (s : State) (f : Nat) (tag : Nat) (r : Request) (v : State) (q : _) (d : _), Quiet s ∧ s.mem.wf = true ∧ s.atController f tag = some r ∧ v = s.servedAt (channelOf r.addr) f ∧ r.read = true ∧ s.admits (s.originOf r.op) r.part false r.addr r.bytes = true ∧ (∀ b ∈ burstsOf r.addr r.bytes, (s.mem.err b).bytes = []) ∧ (∀ b ∈ burstsOf r.addr r.bytes, (s.mem.err b).single = false) ∧ q = v.updChannel (channelOf r.addr) (fun c => { c with reads := bump 64 c.reads (burstsOf r.addr r.bytes).length, corrected := bump 64 c.corrected 0, uncorrectable := bump 32 c.uncorrectable 0 }) ∧ r.kind = 5 ∧ d = ((s.progressOf f r).map (·.desc.span)).getD 0 ∧ q.sendMulticast (channelOf r.addr / 32) (field d 8 4) (field d 0 4) (field d 4 4) tag (1 + ceilDiv r.bytes 32) (s.memRead r.addr r.bytes) = none) ∧
    (∃ (s : State) (f : Nat) (tag : Nat) (r : Request) (v : State), Quiet s ∧ s.mem.wf = true ∧ s.atController f tag = some r ∧ v = s.servedAt (channelOf r.addr) f ∧ r.read = false ∧ r.kind ≠ 6 ∧ r.kind ≠ 8 ∧ s.admits (s.originOf r.op) r.part true r.addr r.bytes = true) ∧
    (∃ (s : State) (f : Nat) (tag : Nat) (r : Request) (v : State), Quiet s ∧ s.mem.wf = true ∧ s.atController f tag = some r ∧ v = s.servedAt (channelOf r.addr) f ∧ r.read = false ∧ r.kind = 6 ∧ s.admits (s.originOf r.op) r.part true r.addr r.bytes = true) ∧
    (∃ (s : State) (f : Nat) (tag : Nat) (r : Request) (v : State) (w : _), Quiet s ∧ s.mem.wf = true ∧ s.atController f tag = some r ∧ v = s.servedAt (channelOf r.addr) f ∧ r.read = false ∧ r.kind = 8 ∧ s.admits (s.originOf r.op) r.part true r.addr 16 = true ∧ (s.mem.err (r.addr / 32)).bytes = [] ∧ (s.mem.err (r.addr / 32)).single = false ∧ w = s.memRead (32 * (r.addr / 32)) 32) ∧
    (∃ (s : State) (f : Nat) (tag : Nat) (r : Request) (v : State), Quiet s ∧ s.mem.wf = true ∧ s.atController f tag = some r ∧ v = s.servedAt (channelOf r.addr) f) ∧
    (∃ (s : State) (f : Nat) (tag : Nat) (r : Request) (v : State), Quiet s ∧ s.mem.wf = true ∧ s.atController f tag = some r ∧ v = s.servedAt (channelOf r.addr) f) ∧
    (∃ (s : State) (f : Nat) (tag : Nat) (r : Request) (v : State), Quiet s ∧ s.mem.wf = true ∧ s.atController f tag = some r ∧ v = s.servedAt (channelOf r.addr) f ∧ r.read = false ∧ r.kind ≠ 6 ∧ r.kind ≠ 8 ∧ s.admits (s.originOf r.op) r.part true r.addr r.bytes = false) ∧
    (∃ (s : State) (f : Nat) (tag : Nat) (r : Request) (v : State), Quiet s ∧ s.mem.wf = true ∧ s.atController f tag = some r ∧ v = s.servedAt (channelOf r.addr) f ∧ r.read = true ∧ s.admits (s.originOf r.op) r.part false r.addr r.bytes = false) := by
  refine ⟨
    ⟨{ ready with feeders := [(0, { progress := [{ id := 1, ring := 1, index := 0, desc := Desc.ofBytes (0 + 1 * 2 ^ 64 + 32 * 2 ^ 96 + 2147483648 * 2 ^ 128 + (2 ^ 60) * 2 ^ 192), tags := 1 }], requests := [{ tag := 9, prog := 1, op := 1, part := 0, deadline := 0, kind := 0, read := true, gambit := false, addr := 2147483648, other := 2 ^ 60, bytes := 32, issued := 0, data := 0 }] })] }, 0, 9, { tag := 9, prog := 1, op := 1, part := 0, deadline := 0, kind := 0, read := true, gambit := false, addr := 2147483648, other := 2 ^ 60, bytes := 32, issued := 0, data := 0 }, _, _, quiet_lists (by decide +kernel), by decide +kernel, by decide +kernel, rfl, by decide +kernel, by decide +kernel, by decide +kernel, by decide +kernel, rfl, by decide +kernel⟩,
    ⟨{ ready with feeders := [(0, { progress := [{ id := 1, ring := 1, index := 0, desc := Desc.ofBytes (0 + 1 * 2 ^ 64 + 32 * 2 ^ 96 + 2147483648 * 2 ^ 128 + (2 ^ 60) * 2 ^ 192), tags := 1 }], requests := [{ tag := 9, prog := 1, op := 1, part := 0, deadline := 0, kind := 5, read := true, gambit := false, addr := 2147483648, other := 2 ^ 60, bytes := 32, issued := 0, data := 0 }] })] }, 0, 9, { tag := 9, prog := 1, op := 1, part := 0, deadline := 0, kind := 5, read := true, gambit := false, addr := 2147483648, other := 2 ^ 60, bytes := 32, issued := 0, data := 0 }, _, _, _, _, quiet_lists (by decide +kernel), by decide +kernel, by decide +kernel, rfl, by decide +kernel, by decide +kernel, by decide +kernel, by decide +kernel, rfl, by decide +kernel, rfl, some_elim (by decide +kernel)⟩,
    ⟨{ ready with fabric := { netifs := [(256, { mcastUnacked := List.range 63 }), (257, { mcastUnacked := List.range 63 }), (258, { mcastUnacked := List.range 63 }), (259, { mcastUnacked := List.range 63 }), (260, { mcastUnacked := List.range 63 }), (261, { mcastUnacked := List.range 63 })] }, feeders := [(0, { progress := [{ id := 1, ring := 1, index := 0, desc := Desc.ofBytes (0 + 1 * 2 ^ 64 + 32 * 2 ^ 96 + 2147483648 * 2 ^ 128 + (2 ^ 60) * 2 ^ 192), tags := 1 }], requests := [{ tag := 9, prog := 1, op := 1, part := 0, deadline := 0, kind := 5, read := true, gambit := false, addr := 2147483648, other := 2 ^ 60, bytes := 32, issued := 0, data := 0 }] })] }, 0, 9, { tag := 9, prog := 1, op := 1, part := 0, deadline := 0, kind := 5, read := true, gambit := false, addr := 2147483648, other := 2 ^ 60, bytes := 32, issued := 0, data := 0 }, _, _, _, quiet_lists (by decide +kernel), by decide +kernel, by decide +kernel, rfl, by decide +kernel, by decide +kernel, by decide +kernel, by decide +kernel, rfl, by decide +kernel, rfl, by decide +kernel⟩,
    ⟨{ ready with feeders := [(0, { progress := [{ id := 1, ring := 1, index := 0, desc := Desc.ofBytes (0 + 1 * 2 ^ 64 + 32 * 2 ^ 96 + 2147483648 * 2 ^ 128 + (2 ^ 60) * 2 ^ 192), tags := 1 }], requests := [{ tag := 9, prog := 1, op := 1, part := 0, deadline := 0, kind := 1, read := false, gambit := false, addr := 2147483648, other := 2 ^ 60, bytes := 32, issued := 0, data := 0 }] })] }, 0, 9, { tag := 9, prog := 1, op := 1, part := 0, deadline := 0, kind := 1, read := false, gambit := false, addr := 2147483648, other := 2 ^ 60, bytes := 32, issued := 0, data := 0 }, _, quiet_lists (by decide +kernel), by decide +kernel, by decide +kernel, rfl, by decide +kernel⟩,
    ⟨{ ready with feeders := [(0, { progress := [{ id := 1, ring := 1, index := 0, desc := Desc.ofBytes (0 + 1 * 2 ^ 64 + 32 * 2 ^ 96 + 2147483648 * 2 ^ 128 + (2 ^ 60) * 2 ^ 192), tags := 1 }], requests := [{ tag := 9, prog := 1, op := 1, part := 0, deadline := 0, kind := 6, read := false, gambit := false, addr := 2147483648, other := 2 ^ 60, bytes := 256, issued := 0, data := 0 }] })] }, 0, 9, { tag := 9, prog := 1, op := 1, part := 0, deadline := 0, kind := 6, read := false, gambit := false, addr := 2147483648, other := 2 ^ 60, bytes := 256, issued := 0, data := 0 }, _, quiet_lists (by decide +kernel), by decide +kernel, by decide +kernel, rfl, by decide +kernel⟩,
    ⟨{ ready with feeders := [(0, { progress := [{ id := 1, ring := 1, index := 0, desc := Desc.ofBytes (0 + 1 * 2 ^ 64 + 32 * 2 ^ 96 + 2147483648 * 2 ^ 128 + (2 ^ 60) * 2 ^ 192), tags := 1 }], requests := [{ tag := 9, prog := 1, op := 1, part := 0, deadline := 0, kind := 8, read := false, gambit := false, addr := 2147483664, other := 2 ^ 60, bytes := 16, issued := 0, data := 0 }] })] }, 0, 9, { tag := 9, prog := 1, op := 1, part := 0, deadline := 0, kind := 8, read := false, gambit := false, addr := 2147483664, other := 2 ^ 60, bytes := 16, issued := 0, data := 0 }, _, _, quiet_lists (by decide +kernel), by decide +kernel, by decide +kernel, rfl, by decide +kernel, by decide +kernel, by decide +kernel, by decide +kernel, by decide +kernel, rfl⟩,
    ⟨{ ready with feeders := [(0, { progress := [{ id := 1, ring := 1, index := 0, desc := Desc.ofBytes (0 + 1 * 2 ^ 64 + 32 * 2 ^ 96 + 2147483648 * 2 ^ 128 + (2 ^ 60) * 2 ^ 192), tags := 1 }], requests := [{ tag := 9, prog := 1, op := 1, part := 0, deadline := 0, kind := 1, read := false, gambit := false, addr := 2147483648, other := 2 ^ 60, bytes := 32, issued := 0, data := 0 }] })] }, 0, 9, { tag := 9, prog := 1, op := 1, part := 0, deadline := 0, kind := 1, read := false, gambit := false, addr := 2147483648, other := 2 ^ 60, bytes := 32, issued := 0, data := 0 }, _, quiet_lists (by decide +kernel), by decide +kernel, by decide +kernel, rfl⟩,
    ⟨{ ready with feeders := [(0, { progress := [{ id := 1, ring := 1, index := 0, desc := Desc.ofBytes (0 + 1 * 2 ^ 64 + 32 * 2 ^ 96 + 2147483648 * 2 ^ 128 + (2 ^ 60) * 2 ^ 192), tags := 1 }], requests := [{ tag := 9, prog := 1, op := 1, part := 0, deadline := 0, kind := 6, read := false, gambit := false, addr := 2147483648, other := 2 ^ 60, bytes := 256, issued := 0, data := 0 }] })] }, 0, 9, { tag := 9, prog := 1, op := 1, part := 0, deadline := 0, kind := 6, read := false, gambit := false, addr := 2147483648, other := 2 ^ 60, bytes := 256, issued := 0, data := 0 }, _, quiet_lists (by decide +kernel), by decide +kernel, by decide +kernel, rfl⟩,
    ⟨{ ready with feeders := [(0, { progress := [{ id := 1, ring := 1, index := 0, desc := Desc.ofBytes (0 + 1 * 2 ^ 64 + 32 * 2 ^ 96 + 2147483648 * 2 ^ 128 + (2 ^ 60) * 2 ^ 192), tags := 1 }], requests := [{ tag := 9, prog := 1, op := 1, part := 0, deadline := 0, kind := 1, read := false, gambit := false, addr := 0, other := 2 ^ 60, bytes := 32, issued := 0, data := 0 }] })] }, 0, 9, { tag := 9, prog := 1, op := 1, part := 0, deadline := 0, kind := 1, read := false, gambit := false, addr := 0, other := 2 ^ 60, bytes := 32, issued := 0, data := 0 }, _, quiet_lists (by decide +kernel), by decide +kernel, by decide +kernel, rfl, by decide +kernel⟩,
    ⟨{ ready with feeders := [(0, { progress := [{ id := 1, ring := 1, index := 0, desc := Desc.ofBytes (0 + 1 * 2 ^ 64 + 32 * 2 ^ 96 + 2147483648 * 2 ^ 128 + (2 ^ 60) * 2 ^ 192), tags := 1 }], requests := [{ tag := 9, prog := 1, op := 1, part := 0, deadline := 0, kind := 0, read := true, gambit := false, addr := 2147483616, other := 2 ^ 60, bytes := 64, issued := 0, data := 0 }] })] }, 0, 9, { tag := 9, prog := 1, op := 1, part := 0, deadline := 0, kind := 0, read := true, gambit := false, addr := 2147483616, other := 2 ^ 60, bytes := 64, issued := 0, data := 0 }, _, quiet_lists (by decide +kernel), by decide +kernel, by decide +kernel, rfl, by decide +kernel⟩⟩

theorem witness_MemoryBackgroundActs :
    (∃ (s : State) (c : Nat), Quiet s ∧ c < 192) ∧
    (∃ (s : State) (c : Nat), Quiet s ∧ c < 192) ∧
    (∃ (s : State) (c : Nat) (pos : _), Quiet s ∧ c < 192 ∧ pos = (s.channel c).scrubPosition ∧ (s.channel c).inReset = false ∧ (s.channel c).writeBack = none ∧ pos + 1 < 16777216 ∧ (s.mem.err (scrubAddress c pos / 32)).bytes = []) ∧
    (∃ (s : State) (c : Nat) (pos : _), Quiet s ∧ c < 192 ∧ pos = (s.channel c).scrubPosition ∧ (s.channel c).inReset = false ∧ (s.channel c).writeBack = none ∧ pos + 1 < 16777216 ∧ (s.mem.err (scrubAddress c pos / 32)).bytes = []) ∧
    (∃ (s : State) (c : Nat) (pos : _), Quiet s ∧ c < 192 ∧ pos < 16777216) ∧
    (∃ (s : State) (c : Nat) (pos : _), Quiet s ∧ c < 192 ∧ pos < 16777216) ∧
    (∃ (s : State) (c : Nat) (k : _) (temp : _) (x : Stack) (y : Stack), Quiet s ∧ c < 192 ∧ k < 6 ∧ temp < 256 ∧ x = Table.get {} s.mem.stackRegs k ∧ y = { tempNow := temp, tempMax := max x.tempMax temp, fast := decide (85 ≤ temp ∨ 82 ≤ temp ∧ x.fast = true) }) ∧
    (∃ (s : State) (c : Nat) (k : _) (temp : _) (x : Stack) (y : Stack), Quiet s ∧ c < 192 ∧ k < 6 ∧ temp < 256 ∧ x = Table.get {} s.mem.stackRegs k ∧ y = { tempNow := temp, tempMax := max x.tempMax temp, fast := decide (85 ≤ temp ∨ 82 ≤ temp ∧ x.fast = true) }) ∧
    (∃ (s : State) (c : Nat), Quiet s ∧ c < 192 ∧ (s.channel c).inReset = true) ∧
    (∃ (s : State) (c : Nat), Quiet s ∧ c < 192 ∧ s.resetDue c = false) ∧
    (∃ (s : State) (c : Nat) (queued : _) (t : _), Quiet s ∧ c < 192 ∧ (s.channel c).inReset = false ∧ s.resetDue c = true ∧ queued = (s.requestsAt c).filter (fun x => !x.2.fetched && x.2.quarantined.isNone && !(x.2.kind == 3 && x.2.read)) ∧ t = queued.foldl (fun (v : State) x => v.resetFails c x.1 x.2) (s.updChannel c (fun k => { k with inReset := true, resetFrom := s.dt, controllerResets := bump 16 k.controllerResets 1 }))) := by
  refine ⟨
    ⟨ready, 191, quiet_lists (by decide +kernel), by decide +kernel⟩,
    ⟨ready, 0, quiet_lists (by decide +kernel), by decide +kernel⟩,
    ⟨ready, 191, _, quiet_lists (by decide +kernel), by decide +kernel, rfl, by decide +kernel⟩,
    ⟨{ ready with mem := { channels := [(191, { scrubPosition := 16777214 })] } }, 191, _, quiet_lists (by decide +kernel), by decide +kernel, rfl, by decide +kernel⟩,
    ⟨ready, 191, 0, quiet_lists (by decide +kernel), by decide +kernel⟩,
    ⟨ready, 191, 16777215, quiet_lists (by decide +kernel), by decide +kernel⟩,
    ⟨ready, 191, 5, 82, _, _, quiet_lists (by decide +kernel), by decide +kernel, by decide +kernel, by decide +kernel, rfl, rfl⟩,
    ⟨ready, 191, 0, 85, _, _, quiet_lists (by decide +kernel), by decide +kernel, by decide +kernel, by decide +kernel, rfl, rfl⟩,
    ⟨{ ready with mem := { channels := [(191, { inReset := true })] } }, 191, quiet_lists (by decide +kernel), by decide +kernel⟩,
    ⟨ready, 191, quiet_lists (by decide +kernel), by decide +kernel⟩,
    ⟨{ ready with dt := 24576, feeders := [(0, { progress := [{ id := 1, ring := 1, index := 0, desc := Desc.ofBytes (0 + 1 * 2 ^ 64 + 32 * 2 ^ 96 + 2147483648 * 2 ^ 128 + (2 ^ 60) * 2 ^ 192), tags := 1 }], requests := [{ tag := 9, prog := 1, op := 1, part := 0, deadline := 0, kind := 0, read := true, gambit := false, addr := 0, other := 2 ^ 60, bytes := 32, issued := 0, data := 0, quarantined := some 0, failed := true }] })] }, 0, _, _, quiet_lists (by decide +kernel), by decide +kernel, by decide +kernel, by decide +kernel, rfl, rfl⟩⟩

theorem witness_PageCacheLookups :
    (∃ (s : State) (tile : Nat) (ppn : Nat) (t : _), (s.tile tile).state = .enabled ∧ s.frameCount (tile / 48) ≠ 0 ∧ (s.tile tile).frames.contains ppn = false ∧ (s.tile tile).awaits ppn = false ∧ t = (s.updTile tile (fun y => { y with waits := y.waits ++ [.lookup ppn] })).updOwner ppn (fun p => { p with lookups := bump 64 p.lookups 1 }) ∧ (s.dirEntry ppn).writePending = true) ∧
    (∃ (s : State) (tile : Nat) (ppn : Nat) (t : _) (logical : _) (owner : _), (s.tile tile).state = .enabled ∧ s.frameCount (tile / 48) ≠ 0 ∧ (s.tile tile).frames.contains ppn = false ∧ (s.tile tile).awaits ppn = false ∧ t = (s.updTile tile (fun y => { y with waits := y.waits ++ [.lookup ppn] })).updOwner ppn (fun p => { p with lookups := bump 64 p.lookups 1 }) ∧ (s.dirEntry ppn).writePending = false ∧ s.sealedPage ppn = true ∧ logical = (t.tile tile).logical ∧ owner = (t.pageOwner ppn).getD 0 ∧ (s.page ppn).state = .allocated ∧ ((s.dirEntry ppn).holder (tile / 48) = 255 ∨ (s.dirEntry ppn).holder (tile / 48) = logical)) ∧
    (∃ (s : State) (tile : Nat) (ppn : Nat) (t : _) (logical : _) (owner : _), (s.tile tile).state = .enabled ∧ s.frameCount (tile / 48) ≠ 0 ∧ (s.tile tile).frames.contains ppn = false ∧ (s.tile tile).awaits ppn = false ∧ t = (s.updTile tile (fun y => { y with waits := y.waits ++ [.lookup ppn] })).updOwner ppn (fun p => { p with lookups := bump 64 p.lookups 1 }) ∧ (s.dirEntry ppn).writePending = false ∧ s.sealedPage ppn = true ∧ logical = (t.tile tile).logical ∧ owner = (t.pageOwner ppn).getD 0 ∧ (s.page ppn).state = .allocated ∧ ((s.dirEntry ppn).holder (tile / 48) = 255 ∨ (s.dirEntry ppn).holder (tile / 48) = logical)) ∧
    (∃ (s : State) (tile : Nat) (ppn : Nat) (t : _) (logical : _) (owner : _), (s.tile tile).state = .enabled ∧ s.frameCount (tile / 48) ≠ 0 ∧ (s.tile tile).frames.contains ppn = false ∧ (s.tile tile).awaits ppn = false ∧ t = (s.updTile tile (fun y => { y with waits := y.waits ++ [.lookup ppn] })).updOwner ppn (fun p => { p with lookups := bump 64 p.lookups 1 }) ∧ (s.dirEntry ppn).writePending = false ∧ s.sealedPage ppn = true ∧ logical = (t.tile tile).logical ∧ owner = (t.pageOwner ppn).getD 0 ∧ (s.page ppn).state = .trimPending ∧ ((s.dirEntry ppn).holder (tile / 48) = 255 ∨ (s.dirEntry ppn).holder (tile / 48) = logical)) ∧
    (∃ (s : State) (tile : Nat) (ppn : Nat) (t : _) (logical : _) (owner : _), (s.tile tile).state = .enabled ∧ s.frameCount (tile / 48) ≠ 0 ∧ (s.tile tile).frames.contains ppn = false ∧ (s.tile tile).awaits ppn = false ∧ t = (s.updTile tile (fun y => { y with waits := y.waits ++ [.lookup ppn] })).updOwner ppn (fun p => { p with lookups := bump 64 p.lookups 1 }) ∧ (s.dirEntry ppn).writePending = false ∧ s.sealedPage ppn = true ∧ logical = (t.tile tile).logical ∧ owner = (t.pageOwner ppn).getD 0 ∧ ((s.page ppn).state = .allocated ∨ (s.page ppn).state = .trimPending) ∧ (s.dirEntry ppn).holder (tile / 48) ≠ 255 ∧ (s.dirEntry ppn).holder (tile / 48) ≠ logical) ∧
    (∃ (s : State) (tile : Nat) (ppn : Nat) (t : _) (logical : _) (owner : _), (s.tile tile).state = .enabled ∧ s.frameCount (tile / 48) ≠ 0 ∧ (s.tile tile).frames.contains ppn = false ∧ (s.tile tile).awaits ppn = false ∧ t = (s.updTile tile (fun y => { y with waits := y.waits ++ [.lookup ppn] })).updOwner ppn (fun p => { p with lookups := bump 64 p.lookups 1 }) ∧ (s.dirEntry ppn).writePending = false ∧ s.sealedPage ppn = true ∧ logical = (t.tile tile).logical ∧ owner = (t.pageOwner ppn).getD 0 ∧ ((s.page ppn).state = .allocated ∨ (s.page ppn).state = .trimPending) ∧ (s.dirEntry ppn).holder (tile / 48) ≠ 255 ∧ (s.dirEntry ppn).holder (tile / 48) ≠ logical) ∧
    (∃ (s : State) (tile : Nat) (ppn : Nat) (m : _), s.cacheMsg .holder tile ppn = some m) ∧
    (∃ (s : State) (tile : Nat) (ppn : Nat) (m : _) (t : _) (r : _), s.cacheMsg .none tile ppn = some m ∧ t = (s.cacheTake m).updTile tile (fun y => { y with waits := y.waits.erase (.lookup ppn) }) ∧ (t.flank (tile / 48)).run = some r ∧ t.cacheable ppn = true ∧ (t.dirEntry ppn).holder (tile / 48) = (t.tile tile).logical ∧ (t.tile tile).frames.length < t.frameCount (tile / 48)) ∧
    (∃ (s : State) (tile : Nat) (ppn : Nat) (m : _) (t : _) (r : _), s.cacheMsg .none tile ppn = some m ∧ t = (s.cacheTake m).updTile tile (fun y => { y with waits := y.waits.erase (.lookup ppn) }) ∧ (t.flank (tile / 48)).run = some r ∧ t.cacheable ppn = false) ∧
    (∃ (s : State) (tile : Nat) (ppn : Nat) (m : _) (t : _), s.cacheMsg .none tile ppn = some m ∧ t = (s.cacheTake m).updTile tile (fun y => { y with waits := y.waits.erase (.lookup ppn) }) ∧ (t.flank (tile / 48)).run = none ∧ (t.dirEntry ppn).holder (tile / 48) = (t.tile tile).logical) ∧
    (∃ (s : State) (tile : Nat) (ppn : Nat) (m : _) (t : _), s.cacheMsg .none tile ppn = some m ∧ t = (s.cacheTake m).updTile tile (fun y => { y with waits := y.waits.erase (.lookup ppn) }) ∧ (t.flank (tile / 48)).run = none ∧ (t.dirEntry ppn).holder (tile / 48) ≠ (t.tile tile).logical) ∧
    (∃ (s : State) (tile : Nat) (ppn : Nat) (holder : _) (requester : _), s.logicalTile holder = some tile ∧ (s.tile requester).waits.contains (.peer ppn holder) = true ∧ requester / 48 = tile / 48 ∧ (s.tile tile).waits.contains (.memory ppn) = false) ∧
    (∃ (s : State) (tile : Nat) (ppn : Nat) (holder : _) (requester : _), s.logicalTile holder = some tile ∧ (s.tile requester).waits.contains (.peer ppn holder) = true ∧ requester / 48 = tile / 48 ∧ (s.tile tile).waits.contains (.memory ppn) = true) ∧
    (∃ (s : State) (tile : Nat) (ppn : Nat) (m : _), s.cacheMsg .evict tile ppn = some m ∧ ((s.dirEntry ppn).holder (tile / 48) ≠ (s.tile tile).logical ∨ (s.dirEntry ppn).holder (tile / 48) = 255)) ∧
    (∃ (s : State) (tile : Nat) (ppn : Nat) (m : _), s.cacheMsg .evict tile ppn = some m ∧ ((s.dirEntry ppn).holder (tile / 48) ≠ (s.tile tile).logical ∨ (s.dirEntry ppn).holder (tile / 48) = 255)) ∧
    (∃ (s : State) (tile : Nat) (ppn : Nat) (m : _), s.cacheMsg .evict tile ppn = some m ∧ (s.dirEntry ppn).holder (tile / 48) = (s.tile tile).logical ∧ (s.dirEntry ppn).holder (tile / 48) ≠ 255 ∧ (s.dirEntry ppn).inv (tile / 48) = true) ∧
    (∃ (s : State) (tile : Nat) (ppn : Nat) (m : _), s.cacheMsg .evict tile ppn = some m ∧ (s.dirEntry ppn).holder (tile / 48) = (s.tile tile).logical ∧ (s.dirEntry ppn).holder (tile / 48) ≠ 255 ∧ (s.dirEntry ppn).inv (tile / 48) = false) := by
  refine ⟨
    ⟨{ ready with flanks := [(0, { cache := 64 })], tiles := [(0, { Tile.atReset 0 with waits := [] })], pages := { pages := [(524288, { state := .allocated, refs := 1 })], dir := [(524288, { writePending := true })], msgs := [], seqs := [{ owner := .encoder 0, idx := 0, part := 0, base := 0, positions := 16, entries := [{ index := 0, ppn := 524288, fill := 16, sealed := true }] }] } }, 0, 524288, _, by decide +kernel, by decide +kernel, by decide +kernel, by decide +kernel, rfl, by decide +kernel⟩,
    ⟨{ ready with flanks := [(0, { cache := 64 })], tiles := [(0, { Tile.atReset 0 with waits := [] })], pages := { pages := [(524288, { state := .allocated, refs := 1 })], dir := [(524288, {})], msgs := [], seqs := [{ owner := .encoder 0, idx := 0, part := 0, base := 0, positions := 16, entries := [{ index := 0, ppn := 524288, fill := 16, sealed := true }] }] } }, 0, 524288, _, _, _, by decide +kernel, by decide +kernel, by decide +kernel, by decide +kernel, rfl, by decide +kernel, by decide +kernel, rfl, rfl, by decide +kernel⟩,
    ⟨{ ready with flanks := [(0, { cache := 64 })], tiles := [(0, { Tile.atReset 0 with waits := [] })], pages := { pages := [(524288, { state := .allocated, refs := 1 })], dir := [(524288, { holderQ := 0 })], msgs := [], seqs := [{ owner := .encoder 0, idx := 0, part := 0, base := 0, positions := 16, entries := [{ index := 0, ppn := 524288, fill := 16, sealed := true }] }] } }, 0, 524288, _, _, _, by decide +kernel, by decide +kernel, by decide +kernel, by decide +kernel, rfl, by decide +kernel, by decide +kernel, rfl, rfl, by decide +kernel⟩,
    ⟨{ ready with flanks := [(0, { cache := 64 })], tiles := [(0, { Tile.atReset 0 with waits := [] })], pages := { pages := [(524288, { state := .trimPending, refs := 1 })], dir := [(524288, {})], msgs := [], seqs := [{ owner := .encoder 0, idx := 0, part := 0, base := 0, positions := 16, entries := [{ index := 0, ppn := 524288, fill := 16, sealed := true }] }] } }, 0, 524288, _, _, _, by decide +kernel, by decide +kernel, by decide +kernel, by decide +kernel, rfl, by decide +kernel, by decide +kernel, rfl, rfl, by decide +kernel⟩,
    ⟨{ ready with flanks := [(0, { cache := 64 })], tiles := [(0, { Tile.atReset 0 with waits := [] })], pages := { pages := [(524288, { state := .allocated, refs := 1 })], dir := [(524288, { holderQ := 1 })], msgs := [], seqs := [{ owner := .encoder 0, idx := 0, part := 0, base := 0, positions := 16, entries := [{ index := 0, ppn := 524288, fill := 16, sealed := true }] }] } }, 0, 524288, _, _, _, by decide +kernel, by decide +kernel, by decide +kernel, by decide +kernel, rfl, by decide +kernel, by decide +kernel, rfl, rfl, by decide +kernel⟩,
    ⟨{ ready with flanks := [(0, { cache := 64 })], tiles := [(0, { Tile.atReset 0 with waits := [] })], pages := { pages := [(524288, { state := .trimPending, refs := 1 })], dir := [(524288, { holderQ := 1 })], msgs := [], seqs := [{ owner := .encoder 0, idx := 0, part := 0, base := 0, positions := 16, entries := [{ index := 0, ppn := 524288, fill := 16, sealed := true }] }] } }, 0, 524288, _, _, _, by decide +kernel, by decide +kernel, by decide +kernel, by decide +kernel, rfl, by decide +kernel, by decide +kernel, rfl, rfl, by decide +kernel⟩,
    ⟨{ ready with flanks := [(0, { cache := 64 })], tiles := [(0, { Tile.atReset 0 with waits := [] })], pages := { pages := [(524288, { state := .allocated, refs := 1 })], dir := [(524288, {})], msgs := [{ kind := .holder, tile := 0, ppn := 524288, holder := 7 }], seqs := [{ owner := .encoder 0, idx := 0, part := 0, base := 0, positions := 16, entries := [{ index := 0, ppn := 524288, fill := 16, sealed := true }] }] } }, 0, 524288, { kind := .holder, tile := 0, ppn := 524288, holder := 7 }, by decide +kernel⟩,
    ⟨{ ready with flanks := [(0, { cache := 64, run := some { id := 7, content := 1, stage := .encode, items := [], start := 0, period := 491520, paused := 0, injected := false } })], tiles := [(0, { Tile.atReset 0 with waits := [.lookup 524288] })], pages := { pages := [(524288, { state := .allocated, refs := 1 })], dir := [(524288, { holderQ := 0 })], msgs := [{ kind := .none, tile := 0, ppn := 524288, holder := 0 }], seqs := [{ owner := .encoder 0, idx := 0, part := 0, base := 0, positions := 16, entries := [{ index := 0, ppn := 524288, fill := 16, sealed := true }] }] } }, 0, 524288, { kind := .none, tile := 0, ppn := 524288, holder := 0 }, _, { id := 7, content := 1, stage := .encode, items := [], start := 0, period := 491520, paused := 0, injected := false }, by decide +kernel, rfl, by decide +kernel⟩,
    ⟨{ ready with flanks := [(0, { cache := 64, run := some { id := 7, content := 1, stage := .encode, items := [], start := 0, period := 491520, paused := 0, injected := false } })], tiles := [(0, { Tile.atReset 0 with waits := [.lookup 524288] })], pages := { pages := [(524288, { state := .freeSwept, refs := 1 })], dir := [(524288, { holderQ := 0 })], msgs := [{ kind := .none, tile := 0, ppn := 524288, holder := 0 }], seqs := [{ owner := .encoder 0, idx := 0, part := 0, base := 0, positions := 16, entries := [{ index := 0, ppn := 524288, fill := 16, sealed := true }] }] } }, 0, 524288, { kind := .none, tile := 0, ppn := 524288, holder := 0 }, _, { id := 7, content := 1, stage := .encode, items := [], start := 0, period := 491520, paused := 0, injected := false }, by decide +kernel, rfl, by decide +kernel⟩,
    ⟨{ ready with flanks := [(0, { cache := 64 })], tiles := [(0, { Tile.atReset 0 with waits := [.lookup 524288] })], pages := { pages := [(524288, { state := .allocated, refs := 1 })], dir := [(524288, { holderQ := 0 })], msgs := [{ kind := .none, tile := 0, ppn := 524288, holder := 0 }], seqs := [{ owner := .encoder 0, idx := 0, part := 0, base := 0, positions := 16, entries := [{ index := 0, ppn := 524288, fill := 16, sealed := true }] }] } }, 0, 524288, { kind := .none, tile := 0, ppn := 524288, holder := 0 }, _, by decide +kernel, rfl, by decide +kernel⟩,
    ⟨{ ready with flanks := [(0, { cache := 64 })], tiles := [(0, { Tile.atReset 0 with waits := [.lookup 524288] })], pages := { pages := [(524288, { state := .allocated, refs := 1 })], dir := [(524288, { holderQ := 1 })], msgs := [{ kind := .none, tile := 0, ppn := 524288, holder := 0 }], seqs := [{ owner := .encoder 0, idx := 0, part := 0, base := 0, positions := 16, entries := [{ index := 0, ppn := 524288, fill := 16, sealed := true }] }] } }, 0, 524288, { kind := .none, tile := 0, ppn := 524288, holder := 0 }, _, by decide +kernel, rfl, by decide +kernel⟩,
    ⟨{ ready with flanks := [(0, { cache := 64 })], tiles := [(0, { Tile.atReset 0 with waits := [] }), (1, { Tile.atReset 1 with waits := [.peer 524288 (Tile.atReset 0).logical] })], pages := { pages := [(524288, { state := .allocated, refs := 1 })], dir := [(524288, {})], msgs := [], seqs := [{ owner := .encoder 0, idx := 0, part := 0, base := 0, positions := 16, entries := [{ index := 0, ppn := 524288, fill := 16, sealed := true }] }] } }, 0, 524288, (Tile.atReset 0).logical, 1, by decide +kernel⟩,
    ⟨{ ready with flanks := [(0, { cache := 64 })], tiles := [(0, { Tile.atReset 0 with waits := [.memory 524288] }), (1, { Tile.atReset 1 with waits := [.peer 524288 (Tile.atReset 0).logical] })], pages := { pages := [(524288, { state := .allocated, refs := 1 })], dir := [(524288, {})], msgs := [], seqs := [{ owner := .encoder 0, idx := 0, part := 0, base := 0, positions := 16, entries := [{ index := 0, ppn := 524288, fill := 16, sealed := true }] }] } }, 0, 524288, (Tile.atReset 0).logical, 1, by decide +kernel⟩,
    ⟨{ ready with flanks := [(0, { cache := 64 })], tiles := [(0, { Tile.atReset 0 with waits := [] })], pages := { pages := [(524288, { state := .allocated, refs := 1 })], dir := [(524288, {})], msgs := [{ kind := .evict, tile := 0, ppn := 524288, holder := 0 }], seqs := [{ owner := .encoder 0, idx := 0, part := 0, base := 0, positions := 16, entries := [{ index := 0, ppn := 524288, fill := 16, sealed := true }] }] } }, 0, 524288, { kind := .evict, tile := 0, ppn := 524288, holder := 0 }, by decide +kernel⟩,
    ⟨{ ready with flanks := [(0, { cache := 64 })], tiles := [(0, { Tile.atReset 0 with waits := [] })], pages := { pages := [(524288, { state := .allocated, refs := 1 })], dir := [(524288, { holderQ := 3 })], msgs := [{ kind := .evict, tile := 0, ppn := 524288, holder := 0 }], seqs := [{ owner := .encoder 0, idx := 0, part := 0, base := 0, positions := 16, entries := [{ index := 0, ppn := 524288, fill := 16, sealed := true }] }] } }, 0, 524288, { kind := .evict, tile := 0, ppn := 524288, holder := 0 }, by decide +kernel⟩,
    ⟨{ ready with flanks := [(0, { cache := 64 })], tiles := [(0, { Tile.atReset 0 with waits := [] })], pages := { pages := [(524288, { state := .allocated, refs := 1 })], dir := [(524288, { holderQ := (Tile.atReset 0).logical, inv0 := true })], msgs := [{ kind := .evict, tile := 0, ppn := 524288, holder := 0 }], seqs := [{ owner := .encoder 0, idx := 0, part := 0, base := 0, positions := 16, entries := [{ index := 0, ppn := 524288, fill := 16, sealed := true }] }] } }, 0, 524288, { kind := .evict, tile := 0, ppn := 524288, holder := 0 }, by decide +kernel⟩,
    ⟨{ ready with flanks := [(0, { cache := 64 })], tiles := [(0, { Tile.atReset 0 with waits := [] })], pages := { pages := [(524288, { state := .allocated, refs := 1 })], dir := [(524288, { holderQ := (Tile.atReset 0).logical })], msgs := [{ kind := .evict, tile := 0, ppn := 524288, holder := 0 }], seqs := [{ owner := .encoder 0, idx := 0, part := 0, base := 0, positions := 16, entries := [{ index := 0, ppn := 524288, fill := 16, sealed := true }] }] } }, 0, 524288, { kind := .evict, tile := 0, ppn := 524288, holder := 0 }, by decide +kernel⟩⟩

theorem witness_InvalidationsSweepsAndCopies :
    (∃ (s : State) (tile : Nat) (ppn : Nat) (m : _), s.cacheMsg .invalidate tile ppn = some m ∧ ((s.cacheTake m).tile tile).frames.contains ppn = true) ∧
    (∃ (s : State) (tile : Nat) (ppn : Nat) (m : _), s.cacheMsg .invalidate tile ppn = some m ∧ ((s.cacheTake m).tile tile).frames.contains ppn = false) ∧
    (∃ (s : State) (tile : Nat) (ppn : Nat), (s.tile tile).invalidating.contains ppn = true ∧ s.rowReading tile ppn = false ∧ (s.tile tile).waits.contains (.memory ppn) = false) ∧
    (∃ (s : State) (tile : Nat) (ppn : Nat), (s.rowReading tile ppn = true ∨ (s.tile tile).waits.contains (.memory ppn) = true)) ∧
    (∃ (s : State) (tile : Nat) (ppn : Nat), (s.rowReading tile ppn = true ∨ (s.tile tile).waits.contains (.memory ppn) = true)) ∧
    (∃ (s : State) (tile : Nat) (ppn : Nat), (s.rowReading tile ppn = true ∨ (s.tile tile).waits.contains (.memory ppn) = true)) ∧
    (∃ (s : State) (tile : Nat) (ppn : Nat) (m : _), s.cacheMsg .dropped tile ppn = some m ∧ (s.dirEntry ppn).inv (tile / 48) = true) ∧
    (∃ (s : State) (tile : Nat) (ppn : Nat) (m : _), s.cacheMsg .dropped tile ppn = some m ∧ (s.dirEntry ppn).inv (tile / 48) = false) ∧
    (∃ (s : State) (tile : Nat) (ppn : Nat) (m : _), s.cacheMsg .notHeld tile ppn = some m ∧ (s.dirEntry ppn).inv (tile / 48) = true) ∧
    (∃ (s : State) (tile : Nat) (ppn : Nat) (m : _), s.cacheMsg .notHeld tile ppn = some m ∧ (s.dirEntry ppn).inv (tile / 48) = false) ∧
    (∃ (s : State) (ppn : Nat) (n : _), s.pageOwner ppn = some n ∧ (s.page ppn).state = .freeUnswept ∧ (s.page ppn).sweeping = false ∧ s.pageTagged ppn = false ∧ ((s.page ppn).foreground = true ∨ (s.part n).lsw ≤ (s.part n).freeSwept)) ∧
    (∃ (s : State) (ppn : Nat) (n : _), s.pageOwner ppn = some n ∧ (s.page ppn).state = .freeUnswept ∧ (s.page ppn).sweeping = false ∧ s.pageTagged ppn = false ∧ ((s.page ppn).foreground = true ∨ (s.part n).lsw ≤ (s.part n).freeSwept)) ∧
    (∃ (s : State) (ppn : Nat) (n : _), s.pageOwner ppn = some n ∧ (s.page ppn).state = .freeUnswept ∧ (s.page ppn).sweeping = false ∧ s.pageTagged ppn = true) ∧
    (∃ (s : State) (ppn : Nat) (n : _), s.pageOwner ppn = some n ∧ (s.page ppn).state = .freeUnswept ∧ (s.page ppn).sweeping = true) ∧
    (∃ (s : State) (ppn : Nat) (c : _) (t : _), s.pages.copies.find? (fun c => c.newPpn == ppn) = some c ∧ t = s.endCopy c ∧ s.kindBusy (fun k => k == OpKind.copy ppn) = true) ∧
    (∃ (s : State) (ppn : Nat) (c : _) (t : _), s.pages.copies.find? (fun c => c.newPpn == ppn) = some c ∧ t = s.endCopy c ∧ s.kindBusy (fun k => k == OpKind.copy ppn) = false ∧ c.fresh = none ∧ (t.pages.seqs.any c.names || t.pages.staged.any c.names) = true) ∧
    (∃ (s : State) (ppn : Nat) (c : _) (t : _), s.pages.copies.find? (fun c => c.newPpn == ppn) = some c ∧ t = s.endCopy c ∧ s.kindBusy (fun k => k == OpKind.copy ppn) = false ∧ c.fresh = none ∧ (t.pages.seqs.any c.names || t.pages.staged.any c.names) = false) ∧
    (∃ (s : State) (ppn : Nat) (c : _) (t : _) (e : _) (b : _), s.pages.copies.find? (fun c => c.newPpn == ppn) = some c ∧ t = s.endCopy c ∧ s.kindBusy (fun k => k == OpKind.copy ppn) = false ∧ c.fresh = some e ∧ (c.owner = .view b ∨ c.owner = .decoder b) ∧ ((t.branch b).state = .attaching ∨ (t.branch b).state = .active ∨ (t.branch b).state = .stopped)) ∧
    (∃ (s : State) (ppn : Nat) (c : _) (t : _) (e : _) (b : _), s.pages.copies.find? (fun c => c.newPpn == ppn) = some c ∧ t = s.endCopy c ∧ s.kindBusy (fun k => k == OpKind.copy ppn) = false ∧ c.fresh = some e ∧ (c.owner = .view b ∨ c.owner = .decoder b) ∧ ((t.branch b).state = .detaching ∨ (t.branch b).state = .absent)) ∧
    (∃ (s : State) (ppn : Nat) (c : _) (t : _) (e : _) (b : _), s.pages.copies.find? (fun c => c.newPpn == ppn) = some c ∧ t = s.endCopy c ∧ s.kindBusy (fun k => k == OpKind.copy ppn) = false ∧ c.fresh = some e ∧ (c.owner = .view b ∨ c.owner = .decoder b) ∧ ((t.branch b).state = .detaching ∨ (t.branch b).state = .absent)) := by
  refine ⟨
    ⟨{ ready with flanks := [(0, { cache := 64 })], tiles := [(0, { Tile.atReset 0 with frames := [524288] })], pages := { pages := [(524288, { state := .allocated, refs := 1 })], dir := [(524288, {})], msgs := [{ kind := .invalidate, tile := 0, ppn := 524288, holder := 0 }], seqs := [{ owner := .encoder 0, idx := 0, part := 0, base := 0, positions := 16, entries := [{ index := 0, ppn := 524288, fill := 16, sealed := true }] }] } }, 0, 524288, { kind := .invalidate, tile := 0, ppn := 524288, holder := 0 }, by decide +kernel⟩,
    ⟨{ ready with flanks := [(0, { cache := 64 })], tiles := [(0, { Tile.atReset 0 with waits := [] })], pages := { pages := [(524288, { state := .allocated, refs := 1 })], dir := [(524288, {})], msgs := [{ kind := .invalidate, tile := 0, ppn := 524288, holder := 0 }], seqs := [{ owner := .encoder 0, idx := 0, part := 0, base := 0, positions := 16, entries := [{ index := 0, ppn := 524288, fill := 16, sealed := true }] }] } }, 0, 524288, { kind := .invalidate, tile := 0, ppn := 524288, holder := 0 }, by decide +kernel⟩,
    ⟨{ ready with flanks := [(0, { cache := 64 })], tiles := [(0, { Tile.atReset 0 with frames := [524288], invalidating := [524288] })], pages := { pages := [(524288, { state := .allocated, refs := 1 })], dir := [(524288, {})], msgs := [], seqs := [{ owner := .encoder 0, idx := 0, part := 0, base := 0, positions := 16, entries := [{ index := 0, ppn := 524288, fill := 16, sealed := true }] }] } }, 0, 524288, by decide +kernel⟩,
    ⟨{ ready with flanks := [(0, { cache := 64 })], tiles := [(0, { Tile.atReset 0 with frames := [524288], invalidating := [524288] }), (1, { Tile.atReset 1 with waits := [.peer 524288 (Tile.atReset 0).logical] })], pages := { pages := [(524288, { state := .allocated, refs := 1 })], dir := [(524288, {})], msgs := [], seqs := [{ owner := .encoder 0, idx := 0, part := 0, base := 0, positions := 16, entries := [{ index := 0, ppn := 524288, fill := 16, sealed := true }] }] } }, 0, 524288, by decide +kernel⟩,
    ⟨{ ready with flanks := [(0, { cache := 64 })], tiles := [(0, { Tile.atReset 0 with frames := [524288], invalidating := [524288], attended := [(524288, 0)] })], pages := { pages := [(524288, { state := .allocated, refs := 1 })], dir := [(524288, {})], msgs := [], seqs := [{ owner := .encoder 0, idx := 0, part := 0, base := 0, positions := 16, entries := [{ index := 0, ppn := 524288, fill := 16, sealed := true }] }] } }, 0, 524288, by decide +kernel⟩,
    ⟨{ ready with flanks := [(0, { cache := 64 })], tiles := [(0, { Tile.atReset 0 with frames := [524288], invalidating := [524288], waits := [.memory 524288] })], pages := { pages := [(524288, { state := .allocated, refs := 1 })], dir := [(524288, {})], msgs := [], seqs := [{ owner := .encoder 0, idx := 0, part := 0, base := 0, positions := 16, entries := [{ index := 0, ppn := 524288, fill := 16, sealed := true }] }] } }, 0, 524288, by decide +kernel⟩,
    ⟨{ ready with flanks := [(0, { cache := 64 })], tiles := [(0, { Tile.atReset 0 with waits := [] })], pages := { pages := [(524288, { state := .allocated, refs := 1 })], dir := [(524288, { inv0 := true })], msgs := [{ kind := .dropped, tile := 0, ppn := 524288, holder := 0 }], seqs := [{ owner := .encoder 0, idx := 0, part := 0, base := 0, positions := 16, entries := [{ index := 0, ppn := 524288, fill := 16, sealed := true }] }] } }, 0, 524288, { kind := .dropped, tile := 0, ppn := 524288, holder := 0 }, by decide +kernel⟩,
    ⟨{ ready with flanks := [(0, { cache := 64 })], tiles := [(0, { Tile.atReset 0 with waits := [] })], pages := { pages := [(524288, { state := .allocated, refs := 1 })], dir := [(524288, {})], msgs := [{ kind := .dropped, tile := 0, ppn := 524288, holder := 0 }], seqs := [{ owner := .encoder 0, idx := 0, part := 0, base := 0, positions := 16, entries := [{ index := 0, ppn := 524288, fill := 16, sealed := true }] }] } }, 0, 524288, { kind := .dropped, tile := 0, ppn := 524288, holder := 0 }, by decide +kernel⟩,
    ⟨{ ready with flanks := [(0, { cache := 64 })], tiles := [(0, { Tile.atReset 0 with waits := [] })], pages := { pages := [(524288, { state := .allocated, refs := 1 })], dir := [(524288, { inv0 := true })], msgs := [{ kind := .notHeld, tile := 0, ppn := 524288, holder := 0 }], seqs := [{ owner := .encoder 0, idx := 0, part := 0, base := 0, positions := 16, entries := [{ index := 0, ppn := 524288, fill := 16, sealed := true }] }] } }, 0, 524288, { kind := .notHeld, tile := 0, ppn := 524288, holder := 0 }, by decide +kernel⟩,
    ⟨{ ready with flanks := [(0, { cache := 64 })], tiles := [(0, { Tile.atReset 0 with waits := [] })], pages := { pages := [(524288, { state := .allocated, refs := 1 })], dir := [(524288, {})], msgs := [{ kind := .notHeld, tile := 0, ppn := 524288, holder := 0 }], seqs := [{ owner := .encoder 0, idx := 0, part := 0, base := 0, positions := 16, entries := [{ index := 0, ppn := 524288, fill := 16, sealed := true }] }] } }, 0, 524288, { kind := .notHeld, tile := 0, ppn := 524288, holder := 0 }, by decide +kernel⟩,
    ⟨{ ready with pages := { pages := [(524288, { state := .freeUnswept })] }, parts := [(0, { part0 with unswept := 1 })] }, 524288, 0, by decide +kernel⟩,
    ⟨{ ready with pages := { pages := [(524288, { state := .freeUnswept, foreground := true })] }, parts := [(0, { part0 with unswept := 1 })] }, 524288, 0, by decide +kernel⟩,
    ⟨{ ready with pages := { pages := [(524288, { state := .freeUnswept })] }, parts := [(0, { part0 with unswept := 1 })], feeders := [(0, { progress := [{ id := 1, ring := 1, index := 0, desc := Desc.ofBytes (0 + 1 * 2 ^ 64 + 32 * 2 ^ 96 + 2147483648 * 2 ^ 128 + (2 ^ 60) * 2 ^ 192), tags := 1 }], requests := [{ tag := 9, prog := 1, op := 1, part := 0, deadline := 0, kind := 0, read := true, gambit := false, addr := 2147483648, other := 2 ^ 60, bytes := 32, issued := 0, data := 0 }] })] }, 524288, 0, by decide +kernel⟩,
    ⟨{ ready with pages := { pages := [(524288, { state := .freeUnswept, sweeping := true })] }, parts := [(0, { part0 with unswept := 1 })] }, 524288, 0, by decide +kernel⟩,
    ⟨{ ready with pages := { pages := [(524288, { state := .allocated, refs := 2 }), (524289, { state := .allocated, refs := 1 })], copies := [{ owner := .encoder 0, idx := 0, index := 0, oldPpn := 524288, newPpn := 524289 }], seqs := [{ owner := .encoder 0, idx := 0, part := 0, base := 0, positions := 16, entries := [{ index := 0, ppn := 524288, fill := 16, sealed := true }] }] }, parts := [(0, { part0 with allocated := 2 })], ops := [{ id := 3, kind := .copy 524289, part := 0, owed := [{ kind := 2, bytes := 4096 }] }] }, 524289, { owner := .encoder 0, idx := 0, index := 0, oldPpn := 524288, newPpn := 524289 }, _, by decide +kernel, rfl, by decide +kernel⟩,
    ⟨{ ready with pages := { pages := [(524288, { state := .allocated, refs := 2 }), (524289, { state := .allocated, refs := 1 })], copies := [{ owner := .encoder 0, idx := 0, index := 0, oldPpn := 524288, newPpn := 524289 }], seqs := [{ owner := .encoder 0, idx := 0, part := 0, base := 0, positions := 16, entries := [{ index := 0, ppn := 524288, fill := 16, sealed := true }] }] }, parts := [(0, { part0 with allocated := 2 })] }, 524289, { owner := .encoder 0, idx := 0, index := 0, oldPpn := 524288, newPpn := 524289 }, _, by decide +kernel, rfl, by decide +kernel⟩,
    ⟨{ ready with pages := { pages := [(524288, { state := .allocated, refs := 2 }), (524289, { state := .allocated, refs := 1 })], copies := [{ owner := .encoder 0, idx := 0, index := 0, oldPpn := 524288, newPpn := 524289 }], seqs := [] }, parts := [(0, { part0 with allocated := 2 })] }, 524289, { owner := .encoder 0, idx := 0, index := 0, oldPpn := 524288, newPpn := 524289 }, _, by decide +kernel, rfl, by decide +kernel⟩,
    ⟨{ full with pages := { pages := [(524288, { state := .allocated, refs := 2 }), (524289, { state := .allocated, refs := 1 })], copies := [{ owner := .view 0, idx := 0, index := 0, oldPpn := 524288, newPpn := 524289, fresh := some { index := 0, ppn := 524288, fill := 16, sealed := true } }], seqs := [{ owner := .encoder 0, idx := 0, part := 0, base := 0, positions := 16, entries := [{ index := 0, ppn := 524288, fill := 16, sealed := true }] }] }, parts := [(0, { part0 with allocated := 2 })] }, 524289, { owner := .view 0, idx := 0, index := 0, oldPpn := 524288, newPpn := 524289, fresh := some { index := 0, ppn := 524288, fill := 16, sealed := true } }, _, { index := 0, ppn := 524288, fill := 16, sealed := true }, 0, by decide +kernel, rfl, by decide +kernel⟩,
    ⟨{ { full with branches := [(0, { state := .detaching })] } with pages := { pages := [(524288, { state := .allocated, refs := 2 }), (524289, { state := .allocated, refs := 1 })], copies := [{ owner := .view 0, idx := 0, index := 0, oldPpn := 524288, newPpn := 524289, fresh := some { index := 0, ppn := 524288, fill := 16, sealed := true } }], seqs := [{ owner := .encoder 0, idx := 0, part := 0, base := 0, positions := 16, entries := [{ index := 0, ppn := 524288, fill := 16, sealed := true }] }] }, parts := [(0, { part0 with allocated := 2 })] }, 524289, { owner := .view 0, idx := 0, index := 0, oldPpn := 524288, newPpn := 524289, fresh := some { index := 0, ppn := 524288, fill := 16, sealed := true } }, _, { index := 0, ppn := 524288, fill := 16, sealed := true }, 0, by decide +kernel, rfl, by decide +kernel⟩,
    ⟨{ ready with pages := { pages := [(524288, { state := .allocated, refs := 2 }), (524289, { state := .allocated, refs := 1 })], copies := [{ owner := .view 0, idx := 0, index := 0, oldPpn := 524288, newPpn := 524289, fresh := some { index := 0, ppn := 524288, fill := 16, sealed := true } }], seqs := [{ owner := .encoder 0, idx := 0, part := 0, base := 0, positions := 16, entries := [{ index := 0, ppn := 524288, fill := 16, sealed := true }] }] }, parts := [(0, { part0 with allocated := 2 })] }, 524289, { owner := .view 0, idx := 0, index := 0, oldPpn := 524288, newPpn := 524289, fresh := some { index := 0, ppn := 524288, fill := 16, sealed := true } }, _, { index := 0, ppn := 524288, fill := 16, sealed := true }, 0, by decide +kernel, rfl, by decide +kernel⟩⟩

theorem witness_HopRowsAct :
    (∃ (s : State) (t : Nat) (p : Nat), (s.link (linkKey t p)).down = true) ∧
    (∃ (s : State) (t : Nat) (p : Nat), (s.link (linkKey t p)).down = true) ∧
    (∃ (s : State) (t : Nat) (p : Nat) (w : HopWord) (u : _), (s.link (linkKey t p)).down = false ∧ (s.link (farKey t p)).inject = 0 ∧ w.fwdParity = true ∧ w.revParity = true ∧ u = s.updLink (linkKey t p) (fun l => { l.reverse w with invalid := 0 }) ∧ w.stitch = none) ∧
    (∃ (s : State) (t : Nat) (p : Nat) (w : HopWord) (u : _) (st : _), (s.link (linkKey t p)).down = false ∧ (s.link (farKey t p)).inject = 0 ∧ w.fwdParity = true ∧ w.revParity = true ∧ u = s.updLink (linkKey t p) (fun l => { l.reverse w with invalid := 0 }) ∧ w.stitch = some st ∧ 4 < w.byteErrors) ∧
    (∃ (s : State) (t : Nat) (p : Nat) (w : HopWord) (u : _) (st : _) (v : _), (s.link (linkKey t p)).down = false ∧ (s.link (farKey t p)).inject = 0 ∧ w.fwdParity = true ∧ w.revParity = true ∧ u = s.updLink (linkKey t p) (fun l => { l.reverse w with invalid := 0 }) ∧ w.stitch = some st ∧ v = (if w.byteErrors = 0 then u else u.updLink (linkKey t p) (fun m => { m with corrections := bump 64 m.corrections 1 })) ∧ w.byteErrors ≤ 4 ∧ w.hopSeq = (u.link (linkKey t p)).expected ∧ st.multicast = false) ∧
    (∃ (s : State) (t : Nat) (p : Nat) (w : HopWord) (u : _) (st : _) (v : _), (s.link (linkKey t p)).down = false ∧ (s.link (farKey t p)).inject = 0 ∧ w.fwdParity = true ∧ w.revParity = true ∧ u = s.updLink (linkKey t p) (fun l => { l.reverse w with invalid := 0 }) ∧ w.stitch = some st ∧ v = (if w.byteErrors = 0 then u else u.updLink (linkKey t p) (fun m => { m with corrections := bump 64 m.corrections 1 })) ∧ w.byteErrors ≤ 4 ∧ w.hopSeq = (u.link (linkKey t p)).expected ∧ st.multicast = false) ∧
    (∃ (s : State) (t : Nat) (p : Nat) (w : HopWord) (u : _) (st : _) (v : _), (s.link (linkKey t p)).down = false ∧ (s.link (farKey t p)).inject = 0 ∧ w.fwdParity = true ∧ w.revParity = true ∧ u = s.updLink (linkKey t p) (fun l => { l.reverse w with invalid := 0 }) ∧ w.stitch = some st ∧ v = (if w.byteErrors = 0 then u else u.updLink (linkKey t p) (fun m => { m with corrections := bump 64 m.corrections 1 })) ∧ w.byteErrors ≤ 4 ∧ w.hopSeq ≠ (u.link (linkKey t p)).expected ∧ ((u.link (linkKey t p)).expected + 255 - w.hopSeq) % 256 < 16) ∧
    (∃ (s : State) (t : Nat) (p : Nat) (w : HopWord) (u : _) (st : _) (v : _), (s.link (linkKey t p)).down = false ∧ (s.link (farKey t p)).inject = 0 ∧ w.fwdParity = true ∧ w.revParity = true ∧ u = s.updLink (linkKey t p) (fun l => { l.reverse w with invalid := 0 }) ∧ w.stitch = some st ∧ v = (if w.byteErrors = 0 then u else u.updLink (linkKey t p) (fun m => { m with corrections := bump 64 m.corrections 1 })) ∧ w.byteErrors ≤ 4 ∧ w.hopSeq ≠ (u.link (linkKey t p)).expected ∧ ((u.link (linkKey t p)).expected + 255 - w.hopSeq) % 256 < 16) ∧
    (∃ (s : State) (t : Nat) (p : Nat) (w : HopWord) (u : _) (st : _) (v : _), (s.link (linkKey t p)).down = false ∧ (s.link (farKey t p)).inject = 0 ∧ w.fwdParity = true ∧ w.revParity = true ∧ u = s.updLink (linkKey t p) (fun l => { l.reverse w with invalid := 0 }) ∧ w.stitch = some st ∧ v = (if w.byteErrors = 0 then u else u.updLink (linkKey t p) (fun m => { m with corrections := bump 64 m.corrections 1 })) ∧ w.byteErrors ≤ 4 ∧ w.hopSeq ≠ (u.link (linkKey t p)).expected ∧ 16 ≤ ((u.link (linkKey t p)).expected + 255 - w.hopSeq) % 256) ∧
    (∃ (s : State) (t : Nat) (p : Nat) (w : HopWord) (u : _) (st : _) (v : _), (s.link (linkKey t p)).down = false ∧ (s.link (farKey t p)).inject = 0 ∧ w.fwdParity = true ∧ w.revParity = true ∧ u = s.updLink (linkKey t p) (fun l => { l.reverse w with invalid := 0 }) ∧ w.stitch = some st ∧ v = (if w.byteErrors = 0 then u else u.updLink (linkKey t p) (fun m => { m with corrections := bump 64 m.corrections 1 })) ∧ w.byteErrors ≤ 4 ∧ w.hopSeq ≠ (u.link (linkKey t p)).expected ∧ 16 ≤ ((u.link (linkKey t p)).expected + 255 - w.hopSeq) % 256) ∧
    (∃ (s : State) (t : Nat) (p : Nat), (s.link (linkKey t p)).down = false ∧ (s.link (linkKey t p)).replay ≠ []) ∧
    (∃ (s : State) (t : Nat) (p : Nat), (s.link (linkKey t p)).replays < 6) ∧
    (∃ (s : State) (t : Nat) (p : Nat), 6 ≤ (s.link (linkKey t p)).replays) ∧
    (∃ (s : State) (t : Nat) (p : Nat), (s.link (linkKey t p)).invalid < 64) ∧
    (∃ (s : State) (t : Nat) (p : Nat), 64 ≤ (s.link (linkKey t p)).invalid) := by
  refine ⟨
    ⟨{ ready with fabric := { links := [(linkKey 5 1, { down := true })] } }, 5, 1, by decide +kernel⟩,
    ⟨{ ready with fabric := { links := [(linkKey 5 1, { down := true })] } }, 5, 1, by decide +kernel⟩,
    ⟨ready, 5, 1, { stitch := none, fwdParity := true, revParity := true, byteErrors := 0, hopSeq := 0, ackSeq := 255, detours := 0, nak := false, credits := 0 }, _, by decide +kernel, by decide +kernel, by decide +kernel, by decide +kernel, rfl, by decide +kernel⟩,
    ⟨ready, 5, 1, { stitch := some (stitch 300 0), fwdParity := true, revParity := true, byteErrors := 5, hopSeq := 0, ackSeq := 255, detours := 0, nak := false, credits := 0 }, _, stitch 300 0, by decide +kernel, by decide +kernel, by decide +kernel, by decide +kernel, rfl, by decide +kernel⟩,
    ⟨ready, 5, 1, { stitch := some (stitch 300 0), fwdParity := true, revParity := true, byteErrors := 4, hopSeq := 0, ackSeq := 255, detours := 0, nak := false, credits := 0 }, _, stitch 300 0, _, by decide +kernel, by decide +kernel, by decide +kernel, by decide +kernel, rfl, by decide +kernel, rfl, by decide +kernel⟩,
    ⟨ready, 5, 1, { stitch := some (stitch 300 0), fwdParity := true, revParity := true, byteErrors := 0, hopSeq := 0, ackSeq := 255, detours := 0, nak := false, credits := 0 }, _, stitch 300 0, _, by decide +kernel, by decide +kernel, by decide +kernel, by decide +kernel, rfl, by decide +kernel, rfl, by decide +kernel⟩,
    ⟨ready, 5, 1, { stitch := some (stitch 300 0), fwdParity := true, revParity := true, byteErrors := 0, hopSeq := 255, ackSeq := 255, detours := 0, nak := false, credits := 0 }, _, stitch 300 0, _, by decide +kernel, by decide +kernel, by decide +kernel, by decide +kernel, rfl, by decide +kernel, rfl, by decide +kernel⟩,
    ⟨ready, 5, 1, { stitch := some (stitch 300 0), fwdParity := true, revParity := true, byteErrors := 0, hopSeq := 240, ackSeq := 255, detours := 0, nak := false, credits := 0 }, _, stitch 300 0, _, by decide +kernel, by decide +kernel, by decide +kernel, by decide +kernel, rfl, by decide +kernel, rfl, by decide +kernel⟩,
    ⟨ready, 5, 1, { stitch := some (stitch 300 0), fwdParity := true, revParity := true, byteErrors := 0, hopSeq := 239, ackSeq := 255, detours := 0, nak := false, credits := 0 }, _, stitch 300 0, _, by decide +kernel, by decide +kernel, by decide +kernel, by decide +kernel, rfl, by decide +kernel, rfl, by decide +kernel⟩,
    ⟨ready, 5, 1, { stitch := some (stitch 300 0), fwdParity := true, revParity := true, byteErrors := 0, hopSeq := 1, ackSeq := 255, detours := 0, nak := false, credits := 0 }, _, stitch 300 0, _, by decide +kernel, by decide +kernel, by decide +kernel, by decide +kernel, rfl, by decide +kernel, rfl, by decide +kernel⟩,
    ⟨{ ready with fabric := { links := [(linkKey 5 1, { replay := [{ hop := 0, detours := 0, stitch := stitch 300 0 }] })] } }, 5, 1, by decide +kernel⟩,
    ⟨{ ready with fabric := { links := [(linkKey 5 1, { replays := 5 })] } }, 5, 1, by decide +kernel⟩,
    ⟨{ ready with fabric := { links := [(linkKey 5 1, { replays := 6 })] } }, 5, 1, by decide +kernel⟩,
    ⟨{ ready with fabric := { links := [(linkKey 5 1, { invalid := 63 })] } }, 5, 1, by decide +kernel⟩,
    ⟨{ ready with fabric := { links := [(linkKey 5 1, { invalid := 64 })] } }, 5, 1, by decide +kernel⟩⟩

theorem witness_ArrivingStitchIsHeldOrCounted :
    (∃ (s : State) (e : Nat) (i : Instr) (st : Stitch) (c : Context) (held : Bool), (i = .e2eStitchArrival e st ∧ st.cls < 2 ∨ i = .notice e st) ∧ s.endpointRetired e = false ∧ (s.netif e).contexts.find? (fun c => c.holder == st.source) = some c ∧ st.seq < 4096 ∧ c.expected < 4096 ∧ held = ((c.at st.seq).isSome || c.done.any (fun x => x.1 == st.seq)) ∧ (st.seq + 4096 - c.expected) % 4096 < 64 ∧ held = false) ∧
    (∃ (s : State) (e : Nat) (i : Instr) (st : Stitch) (c : Context) (held : Bool), (i = .e2eStitchArrival e st ∧ st.cls < 2 ∨ i = .notice e st) ∧ s.endpointRetired e = false ∧ (s.netif e).contexts.find? (fun c => c.holder == st.source) = some c ∧ st.seq < 4096 ∧ c.expected < 4096 ∧ held = ((c.at st.seq).isSome || c.done.any (fun x => x.1 == st.seq)) ∧ (st.seq + 4096 - c.expected) % 4096 < 64 ∧ held = false) ∧
    (∃ (s : State) (e : Nat) (i : Instr) (st : Stitch) (c : Context) (held : Bool), (i = .e2eStitchArrival e st ∧ st.cls < 2 ∨ i = .notice e st) ∧ s.endpointRetired e = false ∧ (s.netif e).contexts.find? (fun c => c.holder == st.source) = some c ∧ st.seq < 4096 ∧ c.expected < 4096 ∧ held = ((c.at st.seq).isSome || c.done.any (fun x => x.1 == st.seq)) ∧ (st.seq + 4096 - c.expected) % 4096 < 64 ∧ held = false) ∧
    (∃ (s : State) (e : Nat) (i : Instr) (st : Stitch) (c : Context) (held : Bool), (i = .e2eStitchArrival e st ∧ st.cls < 2 ∨ i = .notice e st) ∧ s.endpointRetired e = false ∧ (s.netif e).contexts.find? (fun c => c.holder == st.source) = some c ∧ st.seq < 4096 ∧ c.expected < 4096 ∧ held = ((c.at st.seq).isSome || c.done.any (fun x => x.1 == st.seq)) ∧ (st.seq + 4096 - c.expected) % 4096 < 64 ∧ held = false) ∧
    (∃ (s : State) (e : Nat) (i : Instr) (st : Stitch) (c : Context) (held : Bool), (i = .e2eStitchArrival e st ∧ st.cls < 2 ∨ i = .notice e st) ∧ s.endpointRetired e = false ∧ (s.netif e).contexts.find? (fun c => c.holder == st.source) = some c ∧ st.seq < 4096 ∧ c.expected < 4096 ∧ held = ((c.at st.seq).isSome || c.done.any (fun x => x.1 == st.seq)) ∧ ((st.seq + 4096 - c.expected) % 4096 < 64 ∧ held = true ∨ 1 ≤ (c.expected + 4096 - st.seq) % 4096 ∧ (c.expected + 4096 - st.seq) % 4096 ≤ 64)) ∧
    (∃ (s : State) (e : Nat) (i : Instr) (st : Stitch) (c : Context) (held : Bool), (i = .e2eStitchArrival e st ∧ st.cls < 2 ∨ i = .notice e st) ∧ s.endpointRetired e = false ∧ (s.netif e).contexts.find? (fun c => c.holder == st.source) = some c ∧ st.seq < 4096 ∧ c.expected < 4096 ∧ held = ((c.at st.seq).isSome || c.done.any (fun x => x.1 == st.seq)) ∧ ((st.seq + 4096 - c.expected) % 4096 < 64 ∧ held = true ∨ 1 ≤ (c.expected + 4096 - st.seq) % 4096 ∧ (c.expected + 4096 - st.seq) % 4096 ≤ 64)) ∧
    (∃ (s : State) (e : Nat) (i : Instr) (st : Stitch) (c : Context) (held : Bool), (i = .e2eStitchArrival e st ∧ st.cls < 2 ∨ i = .notice e st) ∧ s.endpointRetired e = false ∧ (s.netif e).contexts.find? (fun c => c.holder == st.source) = some c ∧ st.seq < 4096 ∧ c.expected < 4096 ∧ held = ((c.at st.seq).isSome || c.done.any (fun x => x.1 == st.seq)) ∧ ((st.seq + 4096 - c.expected) % 4096 < 64 ∧ held = true ∨ 1 ≤ (c.expected + 4096 - st.seq) % 4096 ∧ (c.expected + 4096 - st.seq) % 4096 ≤ 64)) ∧
    (∃ (s : State) (e : Nat) (i : Instr) (st : Stitch) (c : Context) (held : Bool), (i = .e2eStitchArrival e st ∧ st.cls < 2 ∨ i = .notice e st) ∧ s.endpointRetired e = false ∧ (s.netif e).contexts.find? (fun c => c.holder == st.source) = some c ∧ st.seq < 4096 ∧ c.expected < 4096 ∧ held = ((c.at st.seq).isSome || c.done.any (fun x => x.1 == st.seq)) ∧ ((st.seq + 4096 - c.expected) % 4096 < 64 ∧ held = true ∨ 1 ≤ (c.expected + 4096 - st.seq) % 4096 ∧ (c.expected + 4096 - st.seq) % 4096 ≤ 64)) ∧
    (∃ (s : State) (e : Nat) (i : Instr) (st : Stitch) (c : Context) (held : Bool), (i = .e2eStitchArrival e st ∧ st.cls < 2 ∨ i = .notice e st) ∧ s.endpointRetired e = false ∧ (s.netif e).contexts.find? (fun c => c.holder == st.source) = some c ∧ st.seq < 4096 ∧ c.expected < 4096 ∧ held = ((c.at st.seq).isSome || c.done.any (fun x => x.1 == st.seq)) ∧ ((st.seq + 4096 - c.expected) % 4096 < 64 ∧ held = true ∨ 1 ≤ (c.expected + 4096 - st.seq) % 4096 ∧ (c.expected + 4096 - st.seq) % 4096 ≤ 64)) ∧
    (∃ (s : State) (e : Nat) (i : Instr) (st : Stitch) (c : Context) (held : Bool), (i = .e2eStitchArrival e st ∧ st.cls < 2 ∨ i = .notice e st) ∧ s.endpointRetired e = false ∧ (s.netif e).contexts.find? (fun c => c.holder == st.source) = some c ∧ st.seq < 4096 ∧ c.expected < 4096 ∧ held = ((c.at st.seq).isSome || c.done.any (fun x => x.1 == st.seq)) ∧ ((st.seq + 4096 - c.expected) % 4096 < 64 ∧ held = true ∨ 1 ≤ (c.expected + 4096 - st.seq) % 4096 ∧ (c.expected + 4096 - st.seq) % 4096 ≤ 64)) ∧
    (∃ (s : State) (e : Nat) (i : Instr) (st : Stitch) (c : Context) (held : Bool), (i = .e2eStitchArrival e st ∧ st.cls < 2 ∨ i = .notice e st) ∧ s.endpointRetired e = false ∧ (s.netif e).contexts.find? (fun c => c.holder == st.source) = some c ∧ st.seq < 4096 ∧ c.expected < 4096 ∧ held = ((c.at st.seq).isSome || c.done.any (fun x => x.1 == st.seq)) ∧ 64 ≤ (st.seq + 4096 - c.expected) % 4096 ∧ 64 < (c.expected + 4096 - st.seq) % 4096) ∧
    (∃ (s : State) (e : Nat) (i : Instr) (st : Stitch) (c : Context) (held : Bool), (i = .e2eStitchArrival e st ∧ st.cls < 2 ∨ i = .notice e st) ∧ s.endpointRetired e = false ∧ (s.netif e).contexts.find? (fun c => c.holder == st.source) = some c ∧ st.seq < 4096 ∧ c.expected < 4096 ∧ held = ((c.at st.seq).isSome || c.done.any (fun x => x.1 == st.seq)) ∧ 64 ≤ (st.seq + 4096 - c.expected) % 4096 ∧ 64 < (c.expected + 4096 - st.seq) % 4096) ∧
    (∃ (s : State) (e : Nat) (i : Instr) (st : Stitch) (c : Context) (held : Bool), (i = .e2eStitchArrival e st ∧ st.cls < 2 ∨ i = .notice e st) ∧ s.endpointRetired e = false ∧ (s.netif e).contexts.find? (fun c => c.holder == st.source) = some c ∧ st.seq < 4096 ∧ c.expected < 4096 ∧ held = ((c.at st.seq).isSome || c.done.any (fun x => x.1 == st.seq)) ∧ 64 ≤ (st.seq + 4096 - c.expected) % 4096 ∧ 64 < (c.expected + 4096 - st.seq) % 4096) ∧
    (∃ (s : State) (e : Nat) (i : Instr) (st : Stitch) (c : Context) (held : Bool), (i = .e2eStitchArrival e st ∧ st.cls < 2 ∨ i = .notice e st) ∧ s.endpointRetired e = false ∧ (s.netif e).contexts.find? (fun c => c.holder == st.source) = some c ∧ st.seq < 4096 ∧ c.expected < 4096 ∧ held = ((c.at st.seq).isSome || c.done.any (fun x => x.1 == st.seq)) ∧ 64 ≤ (st.seq + 4096 - c.expected) % 4096 ∧ 64 < (c.expected + 4096 - st.seq) % 4096) := by
  refine ⟨
    ⟨{ ready with fabric := { netifs := [(301, { contexts := [{ holder := 300, expected := 4090, held := [], done := [], credited := 4080, closing := false, last := 0 }] })] } }, 301, _, stitch 300 4090, { holder := 300, expected := 4090, held := [], done := [], credited := 4080, closing := false, last := 0 }, _, .inl ⟨rfl, by decide +kernel⟩, by decide +kernel, by decide +kernel, by decide +kernel, by decide +kernel, rfl, by decide +kernel, rfl⟩,
    ⟨{ ready with fabric := { netifs := [(301, { contexts := [{ holder := 300, expected := 4090, held := [], done := [], credited := 4080, closing := false, last := 0 }] })] } }, 301, _, stitch 300 57, { holder := 300, expected := 4090, held := [], done := [], credited := 4080, closing := false, last := 0 }, _, .inl ⟨rfl, by decide +kernel⟩, by decide +kernel, by decide +kernel, by decide +kernel, by decide +kernel, rfl, by decide +kernel, rfl⟩,
    ⟨{ ready with fabric := { netifs := [(301, { contexts := [{ holder := 300, expected := 4090, held := [], done := [], credited := 4080, closing := false, last := 0 }] })] } }, 301, _, stitch 300 4090, { holder := 300, expected := 4090, held := [], done := [], credited := 4080, closing := false, last := 0 }, _, .inr rfl, by decide +kernel, by decide +kernel, by decide +kernel, by decide +kernel, rfl, by decide +kernel, rfl⟩,
    ⟨{ ready with fabric := { netifs := [(301, { contexts := [{ holder := 300, expected := 4090, held := [], done := [], credited := 4080, closing := false, last := 0 }] })] } }, 301, _, stitch 300 57, { holder := 300, expected := 4090, held := [], done := [], credited := 4080, closing := false, last := 0 }, _, .inr rfl, by decide +kernel, by decide +kernel, by decide +kernel, by decide +kernel, rfl, by decide +kernel, rfl⟩,
    ⟨{ ready with fabric := { netifs := [(301, { contexts := [{ holder := 300, expected := 4090, held := [stitch 300 0], done := [], credited := 4080, closing := false, last := 0 }] })] } }, 301, _, stitch 300 0, { holder := 300, expected := 4090, held := [stitch 300 0], done := [], credited := 4080, closing := false, last := 0 }, _, .inl ⟨rfl, by decide +kernel⟩, by decide +kernel, by decide +kernel, by decide +kernel, by decide +kernel, rfl, by decide +kernel⟩,
    ⟨{ ready with fabric := { netifs := [(301, { contexts := [{ holder := 300, expected := 4090, held := [], done := [], credited := 4080, closing := false, last := 0 }] })] } }, 301, _, stitch 300 4089, { holder := 300, expected := 4090, held := [], done := [], credited := 4080, closing := false, last := 0 }, _, .inl ⟨rfl, by decide +kernel⟩, by decide +kernel, by decide +kernel, by decide +kernel, by decide +kernel, rfl, by decide +kernel⟩,
    ⟨{ ready with fabric := { netifs := [(301, { contexts := [{ holder := 300, expected := 4090, held := [], done := [], credited := 4080, closing := false, last := 0 }] })] } }, 301, _, stitch 300 4026, { holder := 300, expected := 4090, held := [], done := [], credited := 4080, closing := false, last := 0 }, _, .inl ⟨rfl, by decide +kernel⟩, by decide +kernel, by decide +kernel, by decide +kernel, by decide +kernel, rfl, by decide +kernel⟩,
    ⟨{ ready with fabric := { netifs := [(301, { contexts := [{ holder := 300, expected := 4090, held := [stitch 300 0], done := [], credited := 4080, closing := false, last := 0 }] })] } }, 301, _, stitch 300 0, { holder := 300, expected := 4090, held := [stitch 300 0], done := [], credited := 4080, closing := false, last := 0 }, _, .inr rfl, by decide +kernel, by decide +kernel, by decide +kernel, by decide +kernel, rfl, by decide +kernel⟩,
    ⟨{ ready with fabric := { netifs := [(301, { contexts := [{ holder := 300, expected := 4090, held := [], done := [], credited := 4080, closing := false, last := 0 }] })] } }, 301, _, stitch 300 4089, { holder := 300, expected := 4090, held := [], done := [], credited := 4080, closing := false, last := 0 }, _, .inr rfl, by decide +kernel, by decide +kernel, by decide +kernel, by decide +kernel, rfl, by decide +kernel⟩,
    ⟨{ ready with fabric := { netifs := [(301, { contexts := [{ holder := 300, expected := 4090, held := [], done := [], credited := 4080, closing := false, last := 0 }] })] } }, 301, _, stitch 300 4026, { holder := 300, expected := 4090, held := [], done := [], credited := 4080, closing := false, last := 0 }, _, .inr rfl, by decide +kernel, by decide +kernel, by decide +kernel, by decide +kernel, rfl, by decide +kernel⟩,
    ⟨{ ready with fabric := { netifs := [(301, { contexts := [{ holder := 300, expected := 4090, held := [], done := [], credited := 4080, closing := false, last := 0 }] })] } }, 301, _, stitch 300 58, { holder := 300, expected := 4090, held := [], done := [], credited := 4080, closing := false, last := 0 }, _, .inl ⟨rfl, by decide +kernel⟩, by decide +kernel, by decide +kernel, by decide +kernel, by decide +kernel, rfl, by decide +kernel⟩,
    ⟨{ ready with fabric := { netifs := [(301, { contexts := [{ holder := 300, expected := 4090, held := [], done := [], credited := 4080, closing := false, last := 0 }] })] } }, 301, _, stitch 300 4025, { holder := 300, expected := 4090, held := [], done := [], credited := 4080, closing := false, last := 0 }, _, .inl ⟨rfl, by decide +kernel⟩, by decide +kernel, by decide +kernel, by decide +kernel, by decide +kernel, rfl, by decide +kernel⟩,
    ⟨{ ready with fabric := { netifs := [(301, { contexts := [{ holder := 300, expected := 4090, held := [], done := [], credited := 4080, closing := false, last := 0 }] })] } }, 301, _, stitch 300 58, { holder := 300, expected := 4090, held := [], done := [], credited := 4080, closing := false, last := 0 }, _, .inr rfl, by decide +kernel, by decide +kernel, by decide +kernel, by decide +kernel, rfl, by decide +kernel⟩,
    ⟨{ ready with fabric := { netifs := [(301, { contexts := [{ holder := 300, expected := 4090, held := [], done := [], credited := 4080, closing := false, last := 0 }] })] } }, 301, _, stitch 300 4025, { holder := 300, expected := 4090, held := [], done := [], credited := 4080, closing := false, last := 0 }, _, .inr rfl, by decide +kernel, by decide +kernel, by decide +kernel, by decide +kernel, rfl, by decide +kernel⟩⟩

theorem witness_CreditRowsAct :
    (∃ (s : State) (src : Nat) (dst : Nat) (value : Nat) (w : _), w = s.window src dst ∧ w.probeFrom = none ∧ w.isOpen = true ∧ (w.seq + 4096 - w.acked) % 4096 < (value + 4096 - w.acked) % 4096) ∧
    (∃ (s : State) (src : Nat) (dst : Nat) (value : Nat) (w : _), w = s.window src dst ∧ w.probeFrom = none ∧ w.isOpen = true ∧ (value + 4096 - w.acked) % 4096 ≤ (w.seq + 4096 - w.acked) % 4096) ∧
    (∃ (s : State) (src : Nat) (dst : Nat) (value : Nat) (w : _), w = s.window src dst ∧ w.probeFrom = none ∧ w.isOpen = true ∧ (value + 4096 - w.acked) % 4096 ≤ (w.seq + 4096 - w.acked) % 4096) ∧
    (∃ (s : State) (src : Nat) (dst : Nat) (w : _), w = s.window src dst ∧ w.probeFrom = none ∧ w.isOpen = false) ∧
    (∃ (s : State) (src : Nat) (dst : Nat) (c : _), (s.netif dst).contexts.find? (fun c => c.holder == src) = some c ∧ c.expected = c.credited) ∧
    (∃ (s : State) (src : Nat) (dst : Nat) (c : _), (s.netif dst).contexts.find? (fun c => c.holder == src) = some c ∧ c.expected ≠ c.credited) ∧
    (∃ (s : State) (src : Nat) (dst : Nat) (c : _), (s.netif dst).contexts.find? (fun c => c.holder == src) = some c) ∧
    (∃ (s : State) (dst : Nat) (st : Stitch), s.endpointRetired dst = false ∧ (s.netif dst).contexts.find? (fun c => c.holder == st.source) = none) ∧
    (∃ (s : State) (st : Stitch) (u : State) (t : Nat), u = (if onSpan st.tag t && ((s.tile t).state == .enabled || (s.tile t).state == .loading) then s.updNetif (s.tile t).logical (fun n => { n with delivered := n.delivered ++ [st] }) else s) ∧ spanNext st.tag t = none) ∧
    (∃ (s : State) (st : Stitch) (u : State) (t : Nat) (p : _), u = (if onSpan st.tag t && ((s.tile t).state == .enabled || (s.tile t).state == .loading) then s.updNetif (s.tile t).logical (fun n => { n with delivered := n.delivered ++ [st] }) else s) ∧ spanNext st.tag t = some p ∧ (u.link (linkKey t p)).down = false) := by
  refine ⟨
    ⟨{ ready with fabric := { windows := [(1024 * 300 + 301, { isOpen := true, seq := 5, acked := 4090 })] } }, 300, 301, 6, _, rfl, by decide +kernel⟩,
    ⟨{ ready with fabric := { windows := [(1024 * 300 + 301, { isOpen := true, seq := 5, acked := 4090 })] } }, 300, 301, 5, _, rfl, by decide +kernel⟩,
    ⟨{ ready with fabric := { windows := [(1024 * 300 + 301, { isOpen := true, seq := 5, acked := 4090 })] } }, 300, 301, 4090, _, rfl, by decide +kernel⟩,
    ⟨{ ready with fabric := { windows := [(1024 * 300 + 301, { isOpen := false })] } }, 300, 301, _, rfl, by decide +kernel⟩,
    ⟨{ ready with fabric := { netifs := [(301, { contexts := [{ holder := 300, expected := 4090, held := [], done := [], credited := 4090, closing := false, last := 0 }] })] } }, 300, 301, { holder := 300, expected := 4090, held := [], done := [], credited := 4090, closing := false, last := 0 }, by decide +kernel⟩,
    ⟨{ ready with fabric := { netifs := [(301, { contexts := [{ holder := 300, expected := 4090, held := [], done := [], credited := 4080, closing := false, last := 0 }] })] } }, 300, 301, { holder := 300, expected := 4090, held := [], done := [], credited := 4080, closing := false, last := 0 }, by decide +kernel⟩,
    ⟨{ ready with fabric := { netifs := [(301, { contexts := [{ holder := 300, expected := 4090, held := [], done := [], credited := 4080, closing := false, last := 0 }] })] } }, 300, 301, { holder := 300, expected := 4090, held := [], done := [], credited := 4080, closing := false, last := 0 }, by decide +kernel⟩,
    ⟨ready, 301, stitch 300 0, by decide +kernel⟩,
    ⟨ready, { dest := 400, source := 288, seq := 0, last := true, cls := 0, multicast := true, kind := 1, length := 32, fence := false, tag := (5 * 4 + 5 * 64), payload := 0 }, _, 5, rfl, by decide +kernel⟩,
    ⟨ready, { dest := 400, source := 288, seq := 0, last := true, cls := 0, multicast := true, kind := 1, length := 32, fence := false, tag := (9 * 4), payload := 0 }, _, 5, 1, rfl, by decide +kernel⟩⟩

theorem witness_ContextRowsAct :
    (∃ (s : State) (src : Nat) (dst : Nat), (s.netif dst).contexts.any (fun c => c.holder == src) = true) ∧
    (∃ (s : State) (src : Nat) (dst : Nat), (s.netif dst).contexts.any (fun c => c.holder == src) = false ∧ (s.netif dst).contexts.length < (if dst < 144 then 16 else 64)) ∧
    (∃ (s : State) (src : Nat) (dst : Nat), (s.netif dst).contexts.any (fun c => c.holder == src) = false ∧ (s.netif dst).contexts.length < (if dst < 144 then 16 else 64)) ∧
    (∃ (s : State) (src : Nat) (dst : Nat), (s.netif dst).contexts.any (fun c => c.holder == src) = false ∧ (s.netif dst).contexts.length < (if dst < 144 then 16 else 64)) ∧
    (∃ (s : State) (src : Nat) (dst : Nat), (s.netif dst).contexts.any (fun c => c.holder == src) = false ∧ (if dst < 144 then 16 else 64) ≤ (s.netif dst).contexts.length) ∧
    (∃ (s : State) (src : Nat) (dst : Nat), (s.netif dst).contexts.any (fun c => c.holder == src) = false ∧ (if dst < 144 then 16 else 64) ≤ (s.netif dst).contexts.length) ∧
    (∃ (s : State) (src : Nat) (dst : Nat), (s.window src dst).unacked = []) ∧
    (∃ (s : State) (src : Nat) (dst : Nat), (s.window src dst).unacked = []) ∧
    (∃ (s : State) (src : Nat) (dst : Nat), (s.window src dst).unacked ≠ []) ∧
    (∃ (s : State) (src : Nat) (dst : Nat), (s.window src dst).unacked ≠ []) ∧
    (∃ (s : State) (src : Nat) (dst : Nat), (s.netif dst).contexts.any (fun c => c.holder == src && c.closing) = true) ∧
    (∃ (s : State) (src : Nat) (dst : Nat), (s.netif dst).contexts.any (fun c => c.holder == src && c.closing) = false) ∧
    (∃ (s : State) (src : Nat) (dst : Nat), ((s.window src dst).unacked = [] ∨ 200 * (s.dt - (s.window src dst).since) < 3 * 2048)) ∧
    (∃ (s : State) (src : Nat) (dst : Nat), ((s.window src dst).unacked = [] ∨ 200 * (s.dt - (s.window src dst).since) < 3 * 2048)) ∧
    (∃ (s : State) (src : Nat) (dst : Nat), (s.window src dst).unacked ≠ [] ∧ 3 * 2048 ≤ 200 * (s.dt - (s.window src dst).since)) ∧
    (∃ (s : State) (src : Nat) (dst : Nat) (t : _), (s.window src dst).probeFrom = some t ∧ 200 * (s.dt - t) < 3 * 8192) ∧
    (∃ (s : State) (src : Nat) (dst : Nat) (t : _), (s.window src dst).probeFrom = some t ∧ 3 * 8192 ≤ 200 * (s.dt - t)) ∧
    (∃ (s : State) (src : Nat) (dst : Nat) (q : _), (s.window src dst).unacked.any (fun u => u.1 == q) = true) ∧
    (∃ (s : State) (src : Nat) (dst : Nat) (q : _), (s.window src dst).unacked.any (fun u => u.1 == q) = false) ∧
    (∃ (s : State) (src : Nat) (dst : Nat) (ops : _) (u : _), ops = ((s.window src dst).unacked.map (·.2)).eraseDups.filter (fun o => o != 0) ∧ u = (s.updNetif src (fun n => { n with unreachable := bump 32 n.unreachable 1 })).dropContext src dst) := by
  refine ⟨
    ⟨{ ready with fabric := { netifs := [(301, { contexts := [{ holder := 300, expected := 4090, held := [], done := [], credited := 4080, closing := false, last := 0 }] })] } }, 300, 301, by decide +kernel⟩,
    ⟨ready, 300, 301, by decide +kernel⟩,
    ⟨{ ready with fabric := { netifs := [(301, { contexts := List.replicate 63 { holder := 7, expected := 4090, held := [], done := [], credited := 4080, closing := false, last := 0 } })] } }, 300, 301, by decide +kernel⟩,
    ⟨{ ready with fabric := { netifs := [(143, { contexts := List.replicate 15 { holder := 7, expected := 4090, held := [], done := [], credited := 4080, closing := false, last := 0 } })] } }, 300, 143, by decide +kernel⟩,
    ⟨{ ready with fabric := { netifs := [(301, { contexts := List.replicate 64 { holder := 300, expected := 0, held := [], done := [], credited := 0, closing := false, last := 0 } })] } }, 302, 301, by decide +kernel⟩,
    ⟨{ ready with fabric := { netifs := [(5, { contexts := List.replicate 16 { holder := 300, expected := 0, held := [], done := [], credited := 0, closing := false, last := 0 } })] } }, 302, 5, by decide +kernel⟩,
    ⟨{ ready with fabric := { windows := [(1024 * 300 + 301, { isOpen := true })] } }, 300, 301, by decide +kernel⟩,
    ⟨ready, 300, 301, by decide +kernel⟩,
    ⟨{ ready with fabric := { windows := [(1024 * 300 + 301, { unacked := [(5, 1)] })] } }, 300, 301, by decide +kernel⟩,
    ⟨{ ready with fabric := { windows := [(1024 * 300 + 301, { unacked := [(5, 1)] })] } }, 300, 301, by decide +kernel⟩,
    ⟨{ ready with fabric := { netifs := [(301, { contexts := [{ holder := 300, expected := 4090, held := [], done := [], credited := 4080, closing := true, last := 0 }] })] } }, 300, 301, by decide +kernel⟩,
    ⟨{ ready with fabric := { netifs := [(301, { contexts := [{ holder := 300, expected := 4090, held := [], done := [], credited := 4080, closing := false, last := 0 }] })] } }, 300, 301, by decide +kernel⟩,
    ⟨ready, 300, 5, by decide +kernel⟩,
    ⟨{ ready with dt := 30, fabric := { windows := [(1024 * 300 + 5, { isOpen := true, unacked := [(0, 7)] })] } }, 300, 5, by decide +kernel⟩,
    ⟨{ ready with dt := 31, fabric := { windows := [(1024 * 300 + 5, { isOpen := true, unacked := [(0, 7)] })] } }, 300, 5, by decide +kernel⟩,
    ⟨{ ready with dt := 132, fabric := { windows := [(1024 * 300 + 301, { probeFrom := some 10 })] } }, 300, 301, 10, by decide +kernel⟩,
    ⟨{ ready with dt := 133, fabric := { windows := [(1024 * 300 + 301, { probeFrom := some 10 })] } }, 300, 301, 10, by decide +kernel⟩,
    ⟨{ ready with fabric := { windows := [(1024 * 300 + 301, { unacked := [(5, 1)] })] } }, 300, 301, 5, by decide +kernel⟩,
    ⟨ready, 300, 301, 5, by decide +kernel⟩,
    ⟨{ ready with fabric := { windows := [(1024 * 300 + 301, { unacked := [(5, 1)] })] } }, 300, 301, _, _, rfl, rfl⟩⟩

theorem witness_SetupCompletionsAct :
    (∃ (s : State) (n : _) (id : _) (l : _) (busy : _), s.loads.find? (fun l => l.id == id && l.port == n) = some l ∧ l.failed = false ∧ l.erasing = false ∧ busy = s.kindBusy (fun k => k == OpKind.package id) ∧ busy = true) ∧
    (∃ (s : State) (n : _) (id : _) (image : _) (l : _) (busy : _) (t : _) (p : _) (m : _) (slot : _), s.loads.find? (fun l => l.id == id && l.port == n) = some l ∧ l.failed = false ∧ l.erasing = false ∧ busy = s.kindBusy (fun k => k == OpKind.package id) ∧ busy = false ∧ packageReason l.pages image = none ∧ t = s.endLoad l ∧ slot = t.freeModel.getD 0 ∧ p = t.placePackage l image.info ∧ m = p.1.model slot) ∧
    (∃ (s : State) (n : _) (id : _) (image : _) (l : _) (busy : _) (r : _), s.loads.find? (fun l => l.id == id && l.port == n) = some l ∧ l.failed = false ∧ l.erasing = false ∧ busy = s.kindBusy (fun k => k == OpKind.package id) ∧ busy = false ∧ packageReason l.pages image = some r) ∧
    (∃ (s : State) (n : _) (id : _) (image : _) (l : _) (busy : _) (r : _), s.loads.find? (fun l => l.id == id && l.port == n) = some l ∧ l.failed = false ∧ l.erasing = false ∧ busy = s.kindBusy (fun k => k == OpKind.package id) ∧ busy = false ∧ packageReason l.pages image = some r) ∧
    (∃ (s : State) (i : _) (p : _) (fit : _), p = s.pipe i ∧ p.live = true ∧ p.ready = false ∧ fit = (fun f => (s.flank f).state == .operational && (s.flank f).repair == .none && !(s.flank f).relayoutWait && (s.flank f).relayout.isNone && !s.kindBusy (fun k => k == OpKind.load f)) ∧ p.flanks.all fit = false) ∧
    (∃ (s : State) (i : _) (p : _) (fit : _), p = s.pipe i ∧ p.live = true ∧ p.ready = false ∧ fit = (fun f => (s.flank f).state == .operational && (s.flank f).repair == .none && !(s.flank f).relayoutWait && (s.flank f).relayout.isNone && !s.kindBusy (fun k => k == OpKind.load f)) ∧ p.flanks.all fit = false) ∧
    (∃ (s : State) (i : _) (p : _) (fit : _) (t : _) (u : _), p = s.pipe i ∧ p.live = true ∧ p.ready = false ∧ fit = (fun f => (s.flank f).state == .operational && (s.flank f).repair == .none && !(s.flank f).relayoutWait && (s.flank f).relayout.isNone && !s.kindBusy (fun k => k == OpKind.load f)) ∧ p.flanks.all fit = true ∧ t = p.stages.foldl (fun (v : State) st => v.updBinding (p.stage st).flank (p.stage st).content (fun b => { b with loaded := true })) s ∧ u = p.flanks.foldl (fun (v : State) f => if (t.flank f).bindings.any (fun b => !b.loaded) then v else v.endOps (fun o => o.kind == OpKind.load f && !o.aborted)) t) ∧
    (∃ (s : State) (i : _) (x : _) (p : _), x = s.stream i ∧ p = s.pipe x.pipe ∧ x.state ≠ .castOn) ∧
    (∃ (s : State) (i : _) (x : _) (p : _), x = s.stream i ∧ p = s.pipe x.pipe ∧ x.state = .castOn ∧ (s.part x.part).memBytes < s.memUsed x.part + s.streamBytes p (s.footprint p.encode)) ∧
    (∃ (s : State) (i : _) (x : _) (p : _) (t : _) (v : _), x = s.stream i ∧ p = s.pipe x.pipe ∧ x.state = .castOn ∧ s.memUsed x.part + s.streamBytes p (s.footprint p.encode) ≤ (s.part x.part).memBytes ∧ p.encode.present = false ∧ s.stagePackage x.pipe .encode = none ∧ x.lossAfter = none ∧ x.deferBind = none ∧ t = (s.updStream i (fun y => { y with enc := {} })).updPart x.part (fun q => { q with castOns := bump 64 q.castOns 1 }) ∧ t.giveSlots (t.sectsOf i) = some v) ∧
    (∃ (s : State) (b : _) (x : _) (p : _), x = s.branch b ∧ p = s.pipe (s.stream x.stream).pipe ∧ x.state ≠ .attaching) ∧
    (∃ (s : State) (b : _) (x : _) (p : _) (full : _), x = s.branch b ∧ p = s.pipe (s.stream x.stream).pipe ∧ full = decide ((s.part x.part).memBytes < s.memUsed x.part + s.branchBytes p (s.footprint p.translate) (s.footprint p.speak)) ∧ x.state = .attaching ∧ full = true ∧ x.translate.valid = false) ∧
    (∃ (s : State) (b : _) (x : _) (p : _) (full : _) (t : _), x = s.branch b ∧ p = s.pipe (s.stream x.stream).pipe ∧ full = decide ((s.part x.part).memBytes < s.memUsed x.part + s.branchBytes p (s.footprint p.translate) (s.footprint p.speak)) ∧ x.state = .attaching ∧ (x.translate.valid = true ∧ t = s ∨ x.translate.valid = false ∧ full = false ∧ t = s.allocateBranch b) ∧ (t.wanting (.view b) none || t.wanting (.decoder b) none) = true) ∧
    (∃ (s : State) (b : _) (x : _) (p : _) (full : _) (t : _) (u : _), x = s.branch b ∧ p = s.pipe (s.stream x.stream).pipe ∧ full = decide ((s.part x.part).memBytes < s.memUsed x.part + s.branchBytes p (s.footprint p.translate) (s.footprint p.speak)) ∧ x.state = .attaching ∧ (x.translate.valid = true ∧ t = s ∨ x.translate.valid = false ∧ full = false ∧ t = s.allocateBranch b) ∧ (t.wanting (.view b) none || t.wanting (.decoder b) none) = false ∧ t.attachSlots b = (true, u)) ∧
    (∃ (s : State) (b : _) (x : _) (p : _) (full : _) (t : _) (u : _), x = s.branch b ∧ p = s.pipe (s.stream x.stream).pipe ∧ full = decide ((s.part x.part).memBytes < s.memUsed x.part + s.branchBytes p (s.footprint p.translate) (s.footprint p.speak)) ∧ x.state = .attaching ∧ (x.translate.valid = true ∧ t = s ∨ x.translate.valid = false ∧ full = false ∧ t = s.allocateBranch b) ∧ (t.wanting (.view b) none || t.wanting (.decoder b) none) = false ∧ t.attachSlots b = (true, u)) ∧
    (∃ (s : State) (b : _) (x : _) (p : _) (full : _) (t : _) (u : _), x = s.branch b ∧ p = s.pipe (s.stream x.stream).pipe ∧ full = decide ((s.part x.part).memBytes < s.memUsed x.part + s.branchBytes p (s.footprint p.translate) (s.footprint p.speak)) ∧ x.state = .attaching ∧ (x.translate.valid = true ∧ t = s ∨ x.translate.valid = false ∧ full = false ∧ t = s.allocateBranch b) ∧ (t.wanting (.view b) none || t.wanting (.decoder b) none) = false ∧ t.attachSlots b = (false, u)) ∧
    (∃ (s : State) (b : _) (x : _) (p : _) (full : _) (t : _), x = s.branch b ∧ p = s.pipe (s.stream x.stream).pipe ∧ full = decide ((s.part x.part).memBytes < s.memUsed x.part + s.branchBytes p (s.footprint p.translate) (s.footprint p.speak)) ∧ x.state = .attaching ∧ (x.translate.valid = true ∧ t = s ∨ x.translate.valid = false ∧ full = false ∧ t = s.allocateBranch b) ∧ (t.stream (t.branch b).stream).state = .castled) ∧
    (∃ (s : State) (b : _) (x : _) (p : _) (u : _) (first : _), x = s.branch b ∧ p = s.pipe (s.stream x.stream).pipe ∧ u = s.branch b ∧ first = s.firstRowNow u.stream) ∧
    (∃ (s : State) (n : _) (id : _) (e : _), (s.port n).accepted.find? (fun e => e.id == id) = some e ∧ s.dt < e.dt + e.maxTicks) ∧
    (∃ (s : State) (n : _) (id : _) (e : _), (s.port n).accepted.find? (fun e => e.id == id) = some e ∧ e.dt + e.maxTicks ≤ s.dt ∧ e.call.opcode ≠ 0x0501 ∧ e.call.opcode ≠ 0x0511 ∧ e.call.opcode ≠ 0x0301 ∧ e.call.opcode ≠ 0x0403) ∧
    (∃ (s : State) (n : _) (id : _) (e : _) (l : _), (s.port n).accepted.find? (fun e => e.id == id) = some e ∧ e.dt + e.maxTicks ≤ s.dt ∧ e.call.opcode = 0x0301 ∧ s.loads.find? (fun l => l.port == n && l.cmd == id && !l.erasing) = some l) ∧
    (∃ (s : State) (n : _) (id : _) (e : _), (s.port n).accepted.find? (fun e => e.id == id) = some e ∧ e.dt + e.maxTicks ≤ s.dt ∧ e.call.opcode = 0x0403 ∧ e.started = true) ∧
    (∃ (s : State) (n : _) (id : _) (e : _) (x : _), (s.port n).accepted.find? (fun e => e.id == id) = some e ∧ e.dt + e.maxTicks ≤ s.dt ∧ e.call.opcode = 0x0501 ∧ s.streams.find? (fun x => x.2.state == .castOn && x.2.part == n && x.2.cmd == id) = some x) := by
  refine ⟨
    ⟨{ full with loads := [{ id := 1, port := 0, cmd := 0, aperture := 0, offset := 0, pages := 1, op := 3 }], ops := [{ id := 3, kind := .package 1, part := 0, owed := [{ kind := 3, bytes := 4096 }] }] }, 0, 1, { id := 1, port := 0, cmd := 0, aperture := 0, offset := 0, pages := 1, op := 3 }, _, by decide +kernel, by decide +kernel, by decide +kernel, rfl, rfl⟩,
    ⟨{ full with loads := [{ id := 1, port := 0, cmd := 0, aperture := 0, offset := 0, pages := 1, op := 3 }] }, 0, 1, { formatOk := true, targetOk := true, declaredBytes := 4096, checksumOk := true, kindOk := true, gaugeStoredOk := true, stateOk := true, info := { package 0 with seqs := 0, initGroups := List.replicate 61 { exponent := 0, mantissas := List.replicate 32 0 } }, badOffset := 0 }, { id := 1, port := 0, cmd := 0, aperture := 0, offset := 0, pages := 1, op := 3 }, _, _, _, _, 4, by decide +kernel, by decide +kernel, by decide +kernel, rfl, rfl, by decide +kernel, rfl, by decide +kernel, rfl, rfl⟩,
    ⟨{ full with loads := [{ id := 1, port := 0, cmd := 0, aperture := 0, offset := 0, pages := 1, op := 3 }] }, 0, 1, { formatOk := false, targetOk := true, declaredBytes := 4096, checksumOk := true, kindOk := true, gaugeStoredOk := true, stateOk := true, info := { package 0 with seqs := 0, initGroups := List.replicate 61 { exponent := 0, mantissas := List.replicate 32 0 } }, badOffset := 0 }, { id := 1, port := 0, cmd := 0, aperture := 0, offset := 0, pages := 1, op := 3 }, _, 1, by decide +kernel, by decide +kernel, by decide +kernel, rfl, rfl, by decide +kernel⟩,
    ⟨{ full with loads := [{ id := 1, port := 0, cmd := 0, aperture := 0, offset := 0, pages := 1, op := 3 }] }, 0, 1, { formatOk := true, targetOk := true, declaredBytes := 4095, checksumOk := true, kindOk := true, gaugeStoredOk := true, stateOk := true, info := { package 0 with seqs := 0, initGroups := List.replicate 61 { exponent := 0, mantissas := List.replicate 32 0 } }, badOffset := 0 }, { id := 1, port := 0, cmd := 0, aperture := 0, offset := 0, pages := 1, op := 3 }, _, 3, by decide +kernel, by decide +kernel, by decide +kernel, rfl, rfl, by decide +kernel⟩,
    ⟨{ full with pipes := [(0, { pipe0 with ready := false })], flanks := [(1, { state := .repairing })] }, 0, _, _, rfl, by decide +kernel, by decide +kernel, rfl, by decide +kernel⟩,
    ⟨{ full with pipes := [(0, { pipe0 with ready := false })], ops := [{ id := 3, kind := .load 0, part := 0, owed := [{ kind := 0, bytes := 65536 }] }] }, 0, _, _, rfl, by decide +kernel, by decide +kernel, rfl, by decide +kernel⟩,
    ⟨{ full with pipes := [(0, { pipe0 with ready := false })] }, 0, _, _, _, _, rfl, by decide +kernel, by decide +kernel, rfl, by decide +kernel, rfl, rfl⟩,
    ⟨full, 0, _, _, rfl, rfl, by decide +kernel⟩,
    ⟨{ full with streams := [(0, { state := .castOn, source := .tdm 0 0 })], parts := [(0, { part0 with memBytes := 0 })] }, 0, _, _, rfl, rfl, by decide +kernel⟩,
    ⟨{ full with pipes := [(0, { pipe0 with encode := {} })], streams := [(0, { state := .castOn, source := .tdm 0 0 })] }, 0, _, _, _, _, rfl, rfl, by decide +kernel, by decide +kernel, by decide +kernel, by decide +kernel, by decide +kernel, (by decide +kernel), rfl, some_elim (by decide +kernel)⟩,
    ⟨full, 0, _, _, rfl, rfl, by decide +kernel⟩,
    ⟨{ full with branches := [(0, { state := .attaching, outs := [(1, 0)] })], parts := [(0, { part0 with memBytes := 0 })] }, 0, _, _, _, rfl, rfl, rfl, by decide +kernel, rfl, by decide +kernel⟩,
    ⟨{ full with branches := [(0, { state := .attaching, outs := [(1, 0)], translate := { valid := true, size := 4096 }, speak := { valid := true, size := 4096 } })], pages := { wants := [{ owner := .view 0, idx := 0, part := 0, entry := { index := 0, ppn := 524288, fill := 16, sealed := true } }] } }, 0, _, _, _, _, rfl, rfl, rfl, by decide +kernel, .inl ⟨by decide +kernel, rfl⟩, by decide +kernel⟩,
    ⟨{ full with branches := [(0, { state := .attaching, outs := [(1, 0)], translate := { valid := true, size := 4096 }, speak := { valid := true, size := 4096 } })] }, 0, _, _, _, _, _, rfl, rfl, rfl, by decide +kernel, .inl ⟨by decide +kernel, rfl⟩, by decide +kernel, true_elim (by decide +kernel)⟩,
    ⟨{ full with branches := [(0, { state := .attaching, outs := [(1, 0)] })] }, 0, _, _, _, _, _, rfl, rfl, rfl, by decide +kernel, .inr ⟨by decide +kernel, by decide +kernel, rfl⟩, by decide +kernel, true_elim (by decide +kernel)⟩,
    ⟨{ full with tiles := (List.range 47).map (fun k => (49 + k, { Tile.atReset (49 + k) with state := .retired })), streams := [(0, { state := .resident, source := .tdm 0 0 }), (1, { state := .resident, castingOut := some 1 })], branches := [(0, { state := .attaching, outs := [(1, 0)], translate := { valid := true, size := 4096 }, speak := { valid := true, size := 4096 } }), (1, { state := .active, stream := 1, translate := { valid := true, size := 262144, tile := some 48 } })] }, 0, _, _, _, _, _, rfl, rfl, rfl, by decide +kernel, .inl ⟨by decide +kernel, rfl⟩, by decide +kernel, false_elim (by decide +kernel)⟩,
    ⟨{ full with streams := [(0, { state := .castled, source := .tdm 0 0 })], branches := [(0, { state := .attaching, outs := [(1, 0)], translate := { valid := true, size := 4096 }, speak := { valid := true, size := 4096 } })] }, 0, _, _, _, _, rfl, rfl, rfl, by decide +kernel, .inl ⟨by decide +kernel, rfl⟩, by decide +kernel⟩,
    ⟨full, 0, _, _, _, _, rfl, rfl, rfl, rfl⟩,
    ⟨{ full with dt := 109, ports := [(0, { port0 with accepted := [{ id := 4, call := cmd 0x0102 0 0, dt := 10, maxTicks := 100, started := true, discarded := false, key := 0 }] })] }, 0, 4, { id := 4, call := cmd 0x0102 0 0, dt := 10, maxTicks := 100, started := true, discarded := false, key := 0 }, by decide +kernel⟩,
    ⟨{ full with dt := 110, ports := [(0, { port0 with accepted := [{ id := 4, call := cmd 0x0102 0 0, dt := 10, maxTicks := 100, started := true, discarded := false, key := 0 }] })] }, 0, 4, { id := 4, call := cmd 0x0102 0 0, dt := 10, maxTicks := 100, started := true, discarded := false, key := 0 }, by decide +kernel⟩,
    ⟨{ full with dt := 110, ports := [(0, { port0 with accepted := [{ id := 4, call := cmd 0x0301 0 0, dt := 10, maxTicks := 100, started := true, discarded := false, key := 0 }] })], loads := [{ id := 1, port := 0, cmd := 4, aperture := 0, offset := 0, pages := 1, op := 3 }] }, 0, 4, { id := 4, call := cmd 0x0301 0 0, dt := 10, maxTicks := 100, started := true, discarded := false, key := 0 }, { id := 1, port := 0, cmd := 4, aperture := 0, offset := 0, pages := 1, op := 3 }, by decide +kernel⟩,
    ⟨{ full with dt := 110, ports := [(0, { port0 with accepted := [{ id := 4, call := cmd 0x0403 0 0, dt := 10, maxTicks := 100, started := true, discarded := false, key := 0 }] })] }, 0, 4, { id := 4, call := cmd 0x0403 0 0, dt := 10, maxTicks := 100, started := true, discarded := false, key := 0 }, by decide +kernel⟩,
    ⟨{ full with dt := 110, ports := [(0, { port0 with accepted := [{ id := 4, call := cmd 0x0501 0 0, dt := 10, maxTicks := 100, started := true, discarded := false, key := 0 }] })], streams := [(0, { state := .castOn, cmd := 4 })] }, 0, 4, { id := 4, call := cmd 0x0501 0 0, dt := 10, maxTicks := 100, started := true, discarded := false, key := 0 }, (0, { state := .castOn, cmd := 4 }), by decide +kernel⟩⟩

theorem witness_BoundaryEffectsAct :
    (∃ (s : State) (i : _) (src : _) (x : _), x = s.stream i ∧ x.nextSource = some src ∧ s.dt < x.switchDt) ∧
    (∃ (s : State) (i : _) (src : _) (x : _), x = s.stream i ∧ x.nextSource = some src ∧ x.switchDt ≤ s.dt ∧ x.state ≠ .closed ∧ x.state ≠ .bindingOff) ∧
    (∃ (s : State) (b : _) (x : _) (o : _), x = s.branch b ∧ x.nextOut = some o ∧ s.dt < x.switchDt) ∧
    (∃ (s : State) (b : _) (x : _) (o : _), x = s.branch b ∧ x.nextOut = some o ∧ x.switchDt ≤ s.dt ∧ (x.state = .active ∨ x.state = .stopped)) ∧
    (∃ (s : State) (b : _) (x : _) (o : _), x = s.branch b ∧ x.nextOut = some o ∧ x.switchDt ≤ s.dt ∧ (x.state = .active ∨ x.state = .stopped)) ∧
    (∃ (s : State) (t : Nat) (when0 : _) (on : _) (u : _), (s.tdm t).enableAt = some (when0, on) ∧ u = (s.countIdle t).updTdm t (fun p => { p with enableAt := none, prevValid := false, prevWord := 0, validRun := 0, invalidRun := 0 }) ∧ s.dt < when0) ∧
    (∃ (s : State) (t : Nat) (when0 : _) (on : _) (u : _), (s.tdm t).enableAt = some (when0, on) ∧ u = (s.countIdle t).updTdm t (fun p => { p with enableAt := none, prevValid := false, prevWord := 0, validRun := 0, invalidRun := 0 }) ∧ when0 ≤ s.dt ∧ on = true ∧ (s.tdm t).cfg.sentInEn = false) ∧
    (∃ (s : State) (t : Nat) (when0 : _) (on : _) (u : _), (s.tdm t).enableAt = some (when0, on) ∧ u = (s.countIdle t).updTdm t (fun p => { p with enableAt := none, prevValid := false, prevWord := 0, validRun := 0, invalidRun := 0 }) ∧ when0 ≤ s.dt ∧ on = true ∧ (s.tdm t).cfg.sentInEn = true) ∧
    (∃ (s : State) (t : Nat) (when0 : _) (on : _) (u : _), (s.tdm t).enableAt = some (when0, on) ∧ u = (s.countIdle t).updTdm t (fun p => { p with enableAt := none, prevValid := false, prevWord := 0, validRun := 0, invalidRun := 0 }) ∧ when0 ≤ s.dt ∧ on = false) ∧
    (∃ (s : State) (t : Nat) (when0 : _) (on : _), (s.tdm t).loopAt = some (when0, on) ∧ s.dt < when0) ∧
    (∃ (s : State) (t : Nat) (when0 : _) (on : _), (s.tdm t).loopAt = some (when0, on) ∧ when0 ≤ s.dt) ∧
    (∃ (s : State) (t : Nat), (s.tdm t).state = .disabled) ∧
    (∃ (s : State) (t : Nat) (start : _) (u : _), t < 16 ∧ (s.tdm t).state ≠ .disabled ∧ start = (s.dt - 1) / (s.tdm t).cfg.period * (s.tdm t).cfg.period ∧ u = s.playPort t start ∧ (s.tdm t).loopback = false) ∧
    (∃ (s : State) (t : Nat) (start : _) (u : _), t < 16 ∧ (s.tdm t).state ≠ .disabled ∧ start = (s.dt - 1) / (s.tdm t).cfg.period * (s.tdm t).cfg.period ∧ u = s.playPort t start ∧ (s.tdm t).loopback = false) ∧
    (∃ (s : State) (t : Nat) (start : _) (u : _) (din : _), t < 16 ∧ (s.tdm t).state ≠ .disabled ∧ start = (s.dt - 1) / (s.tdm t).cfg.period * (s.tdm t).cfg.period ∧ u = s.playPort t start ∧ (s.tdm t).loopback = true ∧ din = (u.tdm t).dout.map (fun w => w.getD 0)) := by
  refine ⟨
    ⟨fullS (fun y => { y with nextSource := some (.tdm 0 1), switchDt := 1 }), 0, .tdm 0 1, _, rfl, by decide +kernel⟩,
    ⟨fullS (fun y => { y with nextSource := some (.tdm 0 1), switchDt := 0 }), 0, .tdm 0 1, _, rfl, by decide +kernel⟩,
    ⟨fullB (fun y => { y with nextOut := some (0, [(1, 1)], none), switchDt := 1 }), 0, _, (0, [(1, 1)], none), rfl, by decide +kernel⟩,
    ⟨fullB (fun y => { y with nextOut := some (0, [(1, 1)], none) }), 0, _, (0, [(1, 1)], none), rfl, by decide +kernel⟩,
    ⟨fullB (fun y => { y with state := .stopped, nextOut := some (0, [(1, 1)], none) }), 0, _, (0, [(1, 1)], none), rfl, by decide +kernel⟩,
    ⟨{ ready with audio := { ports := [(0, { enableAt := some (1, true) })] } }, 0, 1, true, _, by decide +kernel, rfl, by decide +kernel⟩,
    ⟨{ ready with audio := { ports := [(0, { enableAt := some (0, true) })] } }, 0, 0, true, _, by decide +kernel, rfl, by decide +kernel⟩,
    ⟨{ ready with audio := { ports := [(0, { enableAt := some (0, true), cfg := { sentInEn := true } })] } }, 0, 0, true, _, by decide +kernel, rfl, by decide +kernel⟩,
    ⟨{ ready with audio := { ports := [(0, { state := .running, enableAt := some (0, false) })] } }, 0, 0, false, _, by decide +kernel, rfl, by decide +kernel⟩,
    ⟨{ ready with audio := { ports := [(0, { loopAt := some (1, true) })] } }, 0, 1, true, by decide +kernel⟩,
    ⟨{ ready with audio := { ports := [(0, { loopAt := some (0, true) })] } }, 0, 0, true, by decide +kernel⟩,
    ⟨ready, 0, by decide +kernel⟩,
    ⟨{ ready with dt := 512, audio := { ports := [(0, { state := .running })] } }, 0, _, _, by decide +kernel, by decide +kernel, rfl, rfl, by decide +kernel⟩,
    ⟨{ ready with dt := 512, audio := { ports := [(15, { state := .acquiring })] } }, 15, _, _, by decide +kernel, by decide +kernel, rfl, rfl, by decide +kernel⟩,
    ⟨{ ready with dt := 512, audio := { ports := [(0, { state := .running, loopback := true })] } }, 0, _, _, _, by decide +kernel, by decide +kernel, rfl, rfl, by decide +kernel, rfl⟩⟩

theorem witness_TaskRowsAct :
    (∃ (s : State) (f : Nat) (st : _) (obj : _) (n : _) (known : _), f = s.flankOf st obj ∧ known = ((s.flank f).items.any (fun y => y.stage == st && y.obj == obj && y.row == n) || s.running st obj n) ∧ known = true) ∧
    (∃ (s : State) (f : Nat) (st : _) (obj : _) (n : _) (known : _), f = s.flankOf st obj ∧ known = ((s.flank f).items.any (fun y => y.stage == st && y.obj == obj && y.row == n) || s.running st obj n) ∧ known = true) ∧
    (∃ (s : State) (f : Nat) (st : _) (obj : _) (n : _) (attended : _) (known : _), f = s.flankOf st obj ∧ known = ((s.flank f).items.any (fun y => y.stage == st && y.obj == obj && y.row == n) || s.running st obj n) ∧ (attended ≠ s.attendedOf st obj ∨ s.rowWanted st obj n = false ∨ s.inputReady st obj n = false ∨ s.dt < s.eligibleAt st obj n)) ∧
    (∃ (s : State) (f : Nat) (st : _) (obj : _) (n : _) (attended : _) (known : _), f = s.flankOf st obj ∧ known = ((s.flank f).items.any (fun y => y.stage == st && y.obj == obj && y.row == n) || s.running st obj n) ∧ (attended ≠ s.attendedOf st obj ∨ s.rowWanted st obj n = false ∨ s.inputReady st obj n = false ∨ s.dt < s.eligibleAt st obj n)) ∧
    (∃ (s : State) (f : Nat) (st : _) (obj : _) (n : _) (attended : _) (known : _), f = s.flankOf st obj ∧ known = ((s.flank f).items.any (fun y => y.stage == st && y.obj == obj && y.row == n) || s.running st obj n) ∧ (attended ≠ s.attendedOf st obj ∨ s.rowWanted st obj n = false ∨ s.inputReady st obj n = false ∨ s.dt < s.eligibleAt st obj n)) ∧
    (∃ (s : State) (f : Nat) (st : _) (obj : _) (n : _) (attended : _) (known : _), f = s.flankOf st obj ∧ known = ((s.flank f).items.any (fun y => y.stage == st && y.obj == obj && y.row == n) || s.running st obj n) ∧ known = false ∧ attended = s.attendedOf st obj ∧ s.rowWanted st obj n = true ∧ s.inputReady st obj n = true ∧ s.eligibleAt st obj n ≤ s.dt ∧ ((s.pipeOfStream (s.objStream st obj)).stage st).present = true) ∧
    (∃ (s : State) (f : Nat) (t : _), (s.flank f).timer = some t ∧ s.dt < t) ∧
    (∃ (s : State) (f : Nat) (t : _), (s.flank f).timer = some t ∧ t ≤ s.dt) ∧
    (∃ (s : State) (t : _), (s.tile t).state ≠ .enabled) ∧
    (∃ (s : State) (t : _), t < 144 ∧ (s.tile t).state = .enabled) ∧
    (∃ (s : State) (f : Nat), (s.flank f).run = none) ∧
    (∃ (s : State) (f : Nat) (z : _) (r : _), z = s.roundAdvance f ∧ (z.flank f).run = some r ∧ z.taskComplete f r = false) ∧
    (∃ (s : State) (f : Nat) (res : TaskResult) (z : _) (r : _) (y : _) (t : _) (u : _) (v : _) (took : _), z = s.roundAdvance f ∧ (z.flank f).run = some r ∧ z.taskComplete f r = true ∧ y = (flankTiles f).foldl State.tileStops z ∧ took = y.dt - r.start ∧ t = (y.leaveTask f r).updFlank f (fun x => { x with expiries := 0, resetDone := false, paceEnd := y.dt + ceilDiv (took * y.power.pace) 8 }) ∧ u = t.updBinding f r.content (fun b => { b with measured := { rows := (r.items.map (·.rows)).foldl (· + ·) 0, ticks := took, divisor := y.power.divisor, stop := y.dt } :: y.recentTasks b }) ∧ v = (r.items.foldl (fun (w : State) it => w.itemEnd r res.items it) u).endOps (fun o => o.id == r.id)) ∧
    (∃ (s : State) (f : Nat) (r : _), (s.flank f).run = some r ∧ s.watchStops r = [] ∧ s.dt < r.start + r.period + r.paused) ∧
    (∃ (s : State) (f : Nat) (r : _) (t : _), (s.flank f).run = some r ∧ s.watchStops r = [] ∧ r.start + r.period + r.paused ≤ s.dt ∧ (s.flank f).expiries = 0 ∧ t = (s.updFlank f (fun x => { x with expiries := 1 })).abortOpAs r.id { kind := 0x10, endpoint := 288, detail := pack [(8, stageCode r.stage), (4, f), (4, 1)] } 4) ∧
    (∃ (s : State) (f : Nat) (r : _) (t : _), (s.flank f).run = some r ∧ s.watchStops r = [] ∧ r.start + r.period + r.paused ≤ s.dt ∧ (s.flank f).expiries = 1 ∧ t = (s.updFlank f (fun x => { x with expiries := 2 })).abortOpAs r.id { kind := 0x10, endpoint := 288, detail := pack [(8, stageCode r.stage), (4, f), (4, 2)] } 4) := by
  refine ⟨
    ⟨{ fullS (fun y => { y with enc := { valid := true }, encRing := [{ row := 0, gaps := 0, va := true, firstDt := 0, gammas := [], ready := true, passed := true }] }) with dt := 2000000, flanks := [(0, { items := [{ stage := .encode, obj := 0, content := 1, part := 0, row := 0, rows := 1, bucket := 0 }] })] }, 0, .encode, 0, 0, _, by decide +kernel, rfl, rfl⟩,
    ⟨{ fullS (fun y => { y with enc := { valid := true }, encRing := [{ row := 0, gaps := 0, va := true, firstDt := 0, gammas := [], ready := true, passed := true }] }) with dt := 2000000, flanks := [(0, { run := some { id := 7, content := 1, stage := .encode, items := [{ stage := .encode, obj := 0, content := 1, part := 0, row := 0, rows := 1, bucket := 0 }], start := 100, period := 491520, paused := 0, injected := false } })] }, 0, .encode, 0, 0, _, by decide +kernel, rfl, rfl⟩,
    ⟨full, 0, .encode, 0, 0, 0, _, by decide +kernel, rfl, by decide +kernel⟩,
    ⟨fullS (fun y => { y with enc := { valid := true }, encRing := [{ row := 0, gaps := 0, va := true, firstDt := 0, gammas := [], ready := true, passed := true }] }), 0, .encode, 0, 0, 0, _, by decide +kernel, rfl, by decide +kernel⟩,
    ⟨{ fullS (fun y => { y with enc := { valid := true }, encRing := [{ row := 0, gaps := 0, va := true, firstDt := 0, gammas := [], ready := true, passed := true }] }) with dt := 2000000 }, 0, .encode, 0, 0, 1, _, by decide +kernel, rfl, by decide +kernel⟩,
    ⟨{ fullS (fun y => { y with enc := { valid := true }, encRing := [{ row := 0, gaps := 0, va := true, firstDt := 0, gammas := [], ready := true, passed := true }] }) with dt := 2000000 }, 0, .encode, 0, 0, 0, _, by decide +kernel, rfl, rfl, by decide +kernel⟩,
    ⟨{ full with dt := 4, flanks := [(0, { timer := some 5 })] }, 0, 5, by decide +kernel⟩,
    ⟨{ full with dt := 5, flanks := [(0, { timer := some 5 })] }, 0, 5, by decide +kernel⟩,
    ⟨{ ready with tiles := [(0, { state := .loading })] }, 0, by decide +kernel⟩,
    ⟨ready, 100, by decide +kernel⟩,
    ⟨ready, 0, by decide +kernel⟩,
    ⟨{ full with dt := 200, flanks := [(0, { run := some { id := 7, content := 1, stage := .encode, items := [{ stage := .encode, obj := 0, content := 1, part := 0, row := 0, rows := 1, bucket := 0 }], start := 100, period := 491520, paused := 0, injected := false, placed := [(0, 1)] } })] }, 0, _, { id := 7, content := 1, stage := .encode, items := [{ stage := .encode, obj := 0, content := 1, part := 0, row := 0, rows := 1, bucket := 0 }], start := 100, period := 491520, paused := 0, injected := false, placed := [(0, 1)] }, rfl, by decide +kernel⟩,
    ⟨{ full with dt := 200, flanks := [(0, { run := some { id := 7, content := 1, stage := .encode, items := [{ stage := .encode, obj := 0, content := 1, part := 0, row := 0, rows := 1, bucket := 0 }], start := 100, period := 491520, paused := 0, injected := false, layer := 1 } })] }, 0, { items := [{ obj := 0, row := 0, idle := false, samples := [] }] }, _, { id := 7, content := 1, stage := .encode, items := [{ stage := .encode, obj := 0, content := 1, part := 0, row := 0, rows := 1, bucket := 0 }], start := 100, period := 491520, paused := 0, injected := false, layer := 1 }, _, _, _, _, _, rfl, by decide +kernel, by decide +kernel, rfl, rfl, rfl, rfl, rfl⟩,
    ⟨{ full with dt := 491619, flanks := [(0, { run := some { id := 7, content := 1, stage := .encode, items := [{ stage := .encode, obj := 0, content := 1, part := 0, row := 0, rows := 1, bucket := 0 }], start := 100, period := 491520, paused := 0, injected := false } })] }, 0, { id := 7, content := 1, stage := .encode, items := [{ stage := .encode, obj := 0, content := 1, part := 0, row := 0, rows := 1, bucket := 0 }], start := 100, period := 491520, paused := 0, injected := false }, by decide +kernel⟩,
    ⟨{ full with dt := 491620, flanks := [(0, { run := some { id := 7, content := 1, stage := .encode, items := [{ stage := .encode, obj := 0, content := 1, part := 0, row := 0, rows := 1, bucket := 0 }], start := 100, period := 491520, paused := 0, injected := false } })] }, 0, { id := 7, content := 1, stage := .encode, items := [{ stage := .encode, obj := 0, content := 1, part := 0, row := 0, rows := 1, bucket := 0 }], start := 100, period := 491520, paused := 0, injected := false }, _, by decide +kernel, by decide +kernel, by decide +kernel, by decide +kernel, rfl⟩,
    ⟨{ full with dt := 491620, flanks := [(0, { run := some { id := 7, content := 1, stage := .encode, items := [{ stage := .encode, obj := 0, content := 1, part := 0, row := 0, rows := 1, bucket := 0 }], start := 100, period := 491520, paused := 0, injected := false }, expiries := 1 })] }, 0, { id := 7, content := 1, stage := .encode, items := [{ stage := .encode, obj := 0, content := 1, part := 0, row := 0, rows := 1, bucket := 0 }], start := 100, period := 491520, paused := 0, injected := false }, _, by decide +kernel, by decide +kernel, by decide +kernel, by decide +kernel, rfl⟩⟩

theorem witness_RepairRowsAct :
    (∃ (s : State) (t : Nat) (u : _), u = s.updTile t (fun k => { k with residue := .none }) ∧ s.productTask t = none) ∧
    (∃ (s : State) (t : Nat) (fmt : _) (begins : _) (x : List (List Int)) (w : List (List Int)) (first : List (List Int)) (add : _) (u : _) (task : _), u = s.updTile t (fun k => { k with residue := .none }) ∧ s.productTask t = some task ∧ add = (fun (v : State) (y : List (List Int)) => (task.map (fun id => v.addProduct t id fmt begins y)).getD v) ∧ (s.tile t).residue = .none ∧ residueOk x w first = true) ∧
    (∃ (s : State) (t : Nat) (fmt : _) (begins : _) (x : List (List Int)) (w : List (List Int)) (first : List (List Int)) (again : List (List Int)) (add : _) (u : _) (task : _), u = s.updTile t (fun k => { k with residue := .none }) ∧ s.productTask t = some task ∧ add = (fun (v : State) (y : List (List Int)) => (task.map (fun id => v.addProduct t id fmt begins y)).getD v) ∧ (s.tile t).residue = .none ∧ residueOk x w first = false ∧ residueOk x w again = true) ∧
    (∃ (s : State) (t : Nat) (fmt : _) (begins : _) (x : List (List Int)) (w : List (List Int)) (first : List (List Int)) (again : List (List Int)) (add : _) (u : _) (task : _), u = s.updTile t (fun k => { k with residue := .none }) ∧ s.productTask t = some task ∧ add = (fun (v : State) (y : List (List Int)) => (task.map (fun id => v.addProduct t id fmt begins y)).getD v) ∧ (s.tile t).residue = .none ∧ residueOk x w first = false ∧ residueOk x w again = false) ∧
    (∃ (s : State) (t : Nat) (fmt : _) (begins : _) (add : _) (u : _) (task : _), u = s.updTile t (fun k => { k with residue := .none }) ∧ s.productTask t = some task ∧ add = (fun (v : State) (y : List (List Int)) => (task.map (fun id => v.addProduct t id fmt begins y)).getD v) ∧ (s.tile t).residue = .twice) ∧
    (∃ (s : State) (t : Nat) (fmt : _) (begins : _) (add : _) (u : _) (task : _), u = s.updTile t (fun k => { k with residue := .none }) ∧ s.productTask t = some task ∧ add = (fun (v : State) (y : List (List Int)) => (task.map (fun id => v.addProduct t id fmt begins y)).getD v) ∧ (s.tile t).residue = .twice) ∧
    (∃ (s : State) (t : Nat) (r : _), (s.tile t).state = .enabled ∧ (s.flank (t / 48)).run = some r) ∧
    (∃ (s : State) (t : Nat), (s.tile t).state = .loading) ∧
    (∃ (s : State) (f : Nat) (k : _) (logical : _), (s.flank f).repair = .draining ∧ s.repairOf f = some (k, logical) ∧ s.endpointIdle logical = true) ∧
    (∃ (s : State) (f : Nat) (k : _) (logical : _), (s.flank f).repair = .draining ∧ s.repairOf f = some (k, logical) ∧ s.endpointIdle logical = false) ∧
    (∃ (s : State) (f : Nat) (k : _) (logical : _) (start : _), (s.flank f).repair = .draining ∧ s.repairOf f = some (k, logical) ∧ (s.flank f).drainStart = some start ∧ s.dt < start + 46695) ∧
    (∃ (s : State) (f : Nat) (t : Nat) (k : _) (logical : _) (start : _) (ops : _) (u : _), (s.flank f).repair = .draining ∧ s.repairOf f = some (k, logical) ∧ (s.flank f).drainStart = some start ∧ start + 46695 ≤ s.dt ∧ (((s.netif logical).contexts.map (fun (c : Context) => c.holder)) ++ (s.fabric.windows.filter (fun (w : Nat × Window) => w.1 % 1024 == logical && w.2.acked != w.2.seq)).map (fun (w : Nat × Window) => w.1 / 1024)).eraseDups = [t] ∧ ops = ((s.window t logical).unacked.map (fun (y : Nat × Nat) => y.2)).eraseDups.filter (fun o => o != 0) ∧ u = s.dropContext t logical) ∧
    (∃ (s : State) (f : Nat) (sp : _) (k : _) (logical : _), (s.flank f).repair = .loadingSpare sp ∧ s.repairOf f = some (k, logical)) ∧
    (∃ (s : State) (f : Nat), (s.flank f).repair = .none) ∧
    (∃ (s : State) (f : Nat) (k : _) (logical : _) (u : _) (r : _), (s.flank f).repair = .reslicing ∧ s.repairOf f = some (k, logical) ∧ u = ((flankTiles f).foldl (fun (v : State) k => if (v.tile k).state = .loading then v.moveTile k .enabled else v) s).updFlank f (fun x => { x with bindings := x.bindings.map (fun b => { b with loaded := true }) }) ∧ r = u.reslice f (u.enabledTiles f)) ∧
    (∃ (s : State) (f : Nat), (s.flank f).run ≠ none) ∧
    (∃ (s : State) (f : Nat), (s.flank f).relayoutWait = true ∧ (s.flank f).run = none ∧ (s.flank f).relayout = none ∧ (s.flank f).state = .operational) ∧
    (∃ (s : State) (f : Nat), (s.flank f).relayout ≠ none) := by
  refine ⟨
    ⟨ready, 100, _, rfl, by decide +kernel⟩,
    ⟨{ full with flanks := [(2, { run := some { id := 7, content := 1, stage := .encode, items := [{ stage := .encode, obj := 0, content := 1, part := 0, row := 0, rows := 1, bucket := 0 }], start := 100, period := 491520, paused := 0, injected := false } })] }, 100, .int8, true, [[1]], [[2]], [[2]], _, _, some 7, rfl, by decide +kernel, rfl, by decide +kernel⟩,
    ⟨{ full with flanks := [(2, { run := some { id := 7, content := 1, stage := .encode, items := [{ stage := .encode, obj := 0, content := 1, part := 0, row := 0, rows := 1, bucket := 0 }], start := 100, period := 491520, paused := 0, injected := false } })] }, 100, .int8, true, [[1]], [[2]], [[3]], [[2]], _, _, some 7, rfl, by decide +kernel, rfl, by decide +kernel⟩,
    ⟨{ full with flanks := [(2, { run := some { id := 7, content := 1, stage := .encode, items := [{ stage := .encode, obj := 0, content := 1, part := 0, row := 0, rows := 1, bucket := 0 }], start := 100, period := 491520, paused := 0, injected := false } })] }, 100, .int8, true, [[1]], [[2]], [[3]], [[258]], _, _, some 7, rfl, by decide +kernel, rfl, by decide +kernel⟩,
    ⟨{ full with flanks := [(2, { run := some { id := 7, content := 1, stage := .encode, items := [{ stage := .encode, obj := 0, content := 1, part := 0, row := 0, rows := 1, bucket := 0 }], start := 100, period := 491520, paused := 0, injected := false } })], tiles := [(100, { Tile.atReset 100 with residue := .twice })] }, 100, .int8, true, _, _, some 7, rfl, by decide +kernel, rfl, by decide +kernel⟩,
    ⟨{ full with tiles := [(100, { Tile.atReset 100 with residue := .twice, state := .loading })] }, 100, .int8, true, _, _, none, rfl, by decide +kernel, rfl, by decide +kernel⟩,
    ⟨{ full with flanks := [(2, { run := some { id := 7, content := 1, stage := .encode, items := [{ stage := .encode, obj := 0, content := 1, part := 0, row := 0, rows := 1, bucket := 0 }], start := 100, period := 491520, paused := 0, injected := false } })], tiles := [(100, { Tile.atReset 100 with residue := .twice })] }, 100, { id := 7, content := 1, stage := .encode, items := [{ stage := .encode, obj := 0, content := 1, part := 0, row := 0, rows := 1, bucket := 0 }], start := 100, period := 491520, paused := 0, injected := false }, by decide +kernel⟩,
    ⟨{ full with tiles := [(100, { Tile.atReset 100 with state := .loading })] }, 100, by decide +kernel⟩,
    ⟨{ ready with dt := 0, flanks := [(0, { queue := [5], reports := [{ tile := 5, logical := 5, spare := 255, moved := 0, aborted := [], rerun := [], left := [], selfTest := false }], repair := .draining })] }, 0, 5, 5, by decide +kernel⟩,
    ⟨{ ready with dt := 0, flanks := [(0, { queue := [5], reports := [{ tile := 5, logical := 5, spare := 255, moved := 0, aborted := [], rerun := [], left := [], selfTest := false }], repair := .draining })], fabric := { windows := [(1024 * 300 + 5, { seq := 1 })] } }, 0, 5, 5, by decide +kernel⟩,
    ⟨{ ready with dt := 46704, flanks := [(0, { queue := [5], reports := [{ tile := 5, logical := 5, spare := 255, moved := 0, aborted := [], rerun := [], left := [], selfTest := false }], repair := .draining, drainStart := some 10 })] }, 0, 5, 5, 10, by decide +kernel⟩,
    ⟨{ ready with dt := 46705, flanks := [(0, { queue := [5], reports := [{ tile := 5, logical := 5, spare := 255, moved := 0, aborted := [], rerun := [], left := [], selfTest := false }], repair := .draining, drainStart := some 10 })], fabric := { windows := [(1024 * 300 + 5, { seq := 1, unacked := [(0, 3)] })] } }, 0, 300, 5, 5, 10, _, _, by decide +kernel, by decide +kernel, by decide +kernel, by decide +kernel, by decide +kernel, rfl, rfl⟩,
    ⟨{ ready with dt := 0, flanks := [(0, { queue := [5], reports := [{ tile := 5, logical := 5, spare := 255, moved := 0, aborted := [], rerun := [], left := [], selfTest := false }], repair := .loadingSpare 45 })] }, 0, 45, 5, 5, by decide +kernel⟩,
    ⟨ready, 0, by decide +kernel⟩,
    ⟨{ ready with dt := 0, flanks := [(0, { queue := [5], reports := [{ tile := 5, logical := 5, spare := 255, moved := 0, aborted := [], rerun := [], left := [], selfTest := false }], repair := .reslicing })] }, 0, 5, 5, _, _, by decide +kernel, by decide +kernel, rfl, rfl⟩,
    ⟨{ full with dt := 200, flanks := [(0, { run := some { id := 7, content := 1, stage := .encode, items := [{ stage := .encode, obj := 0, content := 1, part := 0, row := 0, rows := 1, bucket := 0 }], start := 100, period := 491520, paused := 0, injected := false } })] }, 0, by decide +kernel⟩,
    ⟨{ ready with flanks := [(0, { relayoutWait := true })] }, 0, by decide +kernel⟩,
    ⟨{ ready with flanks := [(0, { relayout := some 1 })] }, 0, by decide +kernel⟩⟩

theorem witness_ChunkAndCastlingRowsAct :
    (∃ (s : State) (i : Nat) (x : Stream), x = s.stream i ∧ s.closing i = false) ∧
    (∃ (s : State) (i : Nat) (x : Stream), x = s.stream i ∧ s.closing i = false) ∧
    (∃ (s : State) (i : Nat) (x : Stream), x = s.stream i ∧ s.dt < s.frameEnd i) ∧
    (∃ (s : State) (i : Nat) (x : Stream), x = s.stream i ∧ s.closing i = true ∧ s.frameEnd i ≤ s.dt ∧ 245760 * x.ingress.frames.length < (s.pipeOfStream i).period) ∧
    (∃ (s : State) (i : Nat) (x : Stream), x = s.stream i ∧ s.dt < s.closeTime i x.row) ∧
    (∃ (s : State) (i : Nat) (x : Stream) (t : _), x = s.stream i ∧ s.closing i = true ∧ s.closeTime i x.row ≤ s.dt ∧ t = s.fillGaps i 8) ∧
    (∃ (s : State) (i : Nat) (x : Stream), x = s.stream i ∧ x.encRing.find? (fun e => !e.ready) = none) ∧
    (∃ (s : State) (i : Nat) (x : Stream) (e : _) (t : _), x = s.stream i ∧ x.encRing.find? (fun e => !e.ready) = some e ∧ (e.va = true ∨ x.silence < 25) ∧ t = s.updStream i (fun y => { y with silence := if e.va then 0 else x.silence + 1, encRing := y.encRing.map (fun z => if z.row == e.row then { z with ready := true, passed := false } else z) })) ∧
    (∃ (s : State) (i : Nat) (x : Stream) (e : _) (t : _), x = s.stream i ∧ x.encRing.find? (fun e => !e.ready) = some e ∧ (e.va = true ∨ x.silence < 25) ∧ t = s.updStream i (fun y => { y with silence := if e.va then 0 else x.silence + 1, encRing := y.encRing.map (fun z => if z.row == e.row then { z with ready := true, passed := false } else z) })) ∧
    (∃ (s : State) (i : Nat) (x : Stream) (e : _) (t : _), x = s.stream i ∧ x.encRing.find? (fun e => !e.ready) = some e ∧ e.va = false ∧ 25 ≤ x.silence ∧ t = s.updStream i (fun y => { y with silence := x.silence + 1, encRing := y.encRing.map (fun z => if z.row == e.row then { z with ready := true, passed := true } else z) })) ∧
    (∃ (s : State) (i : Nat) (x : Stream) (f : _), x = s.stream i ∧ (s.givesSlots f = false ∨ s.serving = false)) ∧
    (∃ (s : State) (i : Nat) (x : Stream) (f : _), x = s.stream i ∧ (s.givesSlots f = false ∨ s.serving = false)) ∧
    (∃ (s : State) (i : Nat) (x : Stream) (f : _), x = s.stream i ∧ (s.givesSlots f = false ∨ s.serving = false)) ∧
    (∃ (s : State) (i : Nat) (x : Stream), x = s.stream i ∧ s.slotOrder = []) ∧
    (∃ (s : State) (i : Nat) (x : Stream) (f : _) (rest : _) (u : _), x = s.stream i ∧ s.serving = true ∧ s.givesSlots f = true ∧ s.slotOrder = i :: rest ∧ ((s.needFlanks i).contains f = true ∨ s.slotNeeds i = []) ∧ s.takeSlots i = (.taken, u)) ∧
    (∃ (s : State) (i : Nat) (x : Stream) (t : _) (u : _), x = s.stream i ∧ (∀ k ∈ s.slotNeeds i, s.givesSlots (s.flankOf k.1 k.2) = true ∧ ((s.sect k.1 k.2).lost = true → s.heldBack k.1 k.2 = false)) ∧ t = s.makeRoom i (s.slotNeeds i) ∧ t.giveSlots (s.slotNeeds i) = some u) ∧
    (∃ (s : State) (i : Nat) (x : Stream), x = s.stream i ∧ (s.loadsBusy i = true ∨ x.mayCastIn = false ∨ x.loading = false)) ∧
    (∃ (s : State) (i : Nat) (x : Stream), x = s.stream i ∧ (s.loadsBusy i = true ∨ x.mayCastIn = false ∨ x.loading = false)) ∧
    (∃ (s : State) (i : Nat) (x : Stream), x = s.stream i ∧ (s.loadsBusy i = true ∨ x.mayCastIn = false ∨ x.loading = false)) ∧
    (∃ (s : State) (i : Nat) (x : Stream) (t : _), x = s.stream i ∧ s.loadsBusy i = false ∧ x.loading = true ∧ t = (((s.sectsOf i).filter (fun k => (x.state == .castled || s.ops.any (fun o => o.kind == OpKind.castIn (stageCode k.1) k.2)) && !(s.sect k.1 k.2).lost)).foldl (fun u k => u.updSect k.1 k.2 Sect.load) (s.endLoads i)).updStream i (fun y => { y with loading := false, castIn := none, cnt := { y.cnt with castleIns := bump 64 y.cnt.castleIns 1 } }) ∧ x.state = .castled) ∧
    (∃ (s : State) (i : Nat) (x : Stream) (t : _), x = s.stream i ∧ s.loadsBusy i = false ∧ x.loading = true ∧ t = (((s.sectsOf i).filter (fun k => (x.state == .castled || s.ops.any (fun o => o.kind == OpKind.castIn (stageCode k.1) k.2)) && !(s.sect k.1 k.2).lost)).foldl (fun u k => u.updSect k.1 k.2 Sect.load) (s.endLoads i)).updStream i (fun y => { y with loading := false, castIn := none, cnt := { y.cnt with castleIns := bump 64 y.cnt.castleIns 1 } }) ∧ x.state = .paused) := by
  refine ⟨
    ⟨{ full with streams := [(0, { state := .paused })] }, 0, _, rfl, by decide +kernel⟩,
    ⟨{ full with streams := [(0, { state := .paused })] }, 0, _, rfl, by decide +kernel⟩,
    ⟨{ full with dt := 245759 }, 0, _, rfl, by decide +kernel⟩,
    ⟨{ full with dt := 245760 }, 0, _, rfl, by decide +kernel⟩,
    ⟨{ full with dt := 983039 }, 0, _, rfl, by decide +kernel⟩,
    ⟨{ full with dt := 983040 }, 0, _, _, rfl, by decide +kernel, by decide +kernel, rfl⟩,
    ⟨full, 0, _, rfl, by decide +kernel⟩,
    ⟨fullS (fun y => { y with encRing := [{ row := 0, gaps := 0, va := true, firstDt := 0, gammas := [], ready := false, passed := false }], silence := 30 }), 0, _, { row := 0, gaps := 0, va := true, firstDt := 0, gammas := [], ready := false, passed := false }, _, rfl, by decide +kernel, by decide +kernel, rfl⟩,
    ⟨fullS (fun y => { y with encRing := [{ row := 0, gaps := 0, va := false, firstDt := 0, gammas := [], ready := false, passed := false }], silence := 24 }), 0, _, { row := 0, gaps := 0, va := false, firstDt := 0, gammas := [], ready := false, passed := false }, _, rfl, by decide +kernel, by decide +kernel, rfl⟩,
    ⟨fullS (fun y => { y with encRing := [{ row := 0, gaps := 0, va := false, firstDt := 0, gammas := [], ready := false, passed := false }], silence := 25 }), 0, _, { row := 0, gaps := 0, va := false, firstDt := 0, gammas := [], ready := false, passed := false }, _, rfl, by decide +kernel, by decide +kernel, by decide +kernel, rfl⟩,
    ⟨{ full with flanks := [(0, { state := .outOfService })] }, 0, _, 0, rfl, by decide +kernel⟩,
    ⟨{ full with flanks := [(0, { repair := .draining })] }, 0, _, 0, rfl, by decide +kernel⟩,
    ⟨{ full with boot := { full.boot with fatal := some 3 } }, 0, _, 0, rfl, by decide +kernel⟩,
    ⟨full, 0, _, rfl, by decide +kernel⟩,
    ⟨{ full with branches := [], streams := [(0, { state := .castled, source := .tdm 0 0, castIn := some 5, enc := { valid := true, size := 4096 } })] }, 0, _, 0, [], _, rfl, by decide +kernel, by decide +kernel, by decide +kernel, by decide +kernel, taken_elim (by decide +kernel)⟩,
    ⟨{ full with branches := [], streams := [(0, { state := .castled, source := .tdm 0 0, castIn := some 5, enc := { valid := true, size := 4096 } })] }, 0, _, _, _, rfl, by decide +kernel, rfl, some_elim (by decide +kernel)⟩,
    ⟨{ full with ops := [{ id := 3, kind := .castIn 0 0, part := 0 }], feeders := [(3, { requests := [{ tag := 9, prog := 1, op := 3, part := 0, deadline := 0, kind := 3, read := true, gambit := false, addr := 0, other := 2 ^ 60, bytes := 32, issued := 0, data := 0 }] })] }, 0, _, rfl, by decide +kernel⟩,
    ⟨full, 0, _, rfl, by decide +kernel⟩,
    ⟨{ full with streams := [(0, { state := .castled, source := .tdm 0 0 })] }, 0, _, rfl, by decide +kernel⟩,
    ⟨{ full with streams := [(0, { state := .castled, source := .tdm 0 0, castIn := some 5, loading := true })] }, 0, _, _, rfl, by decide +kernel, by decide +kernel, rfl, by decide +kernel⟩,
    ⟨{ full with streams := [(0, { state := .paused, source := .tdm 0 0, castIn := some 5, loading := true, pausedRow := some 3 })] }, 0, _, _, rfl, by decide +kernel, by decide +kernel, rfl, by decide +kernel⟩⟩

theorem witness_CommitFlagAndRestoreRowsAct :
    (∃ (s : State) (st : Stage) (obj : Nat), (s.sect st obj).commit = none) ∧
    (∃ (s : State) (st : Stage) (obj : Nat), s.kindBusy (fun k => k == OpKind.commit (stageCode st) obj) = true) ∧
    (∃ (s : State) (st : Stage) (obj : Nat) (c : _) (i : _) (t : _) (w : _), (s.sect st obj).commit = some c ∧ s.kindBusy (fun k => k == OpKind.commit (stageCode st) obj) = false ∧ i = s.objStream st obj ∧ t = (s.setSect st obj ((s.sect st obj).committed c)).updStream i (fun y => { y with cnt := { y.cnt with commits := bump 64 y.cnt.commits 1 } }) ∧ w = ((t.releaseEntries i).pagesAdvance).endOps (fun o => o.kind == OpKind.commit (stageCode st) obj) ∧ (s.sect st obj).nextCommit = none) ∧
    (∃ (s : State) (st : Stage) (obj : Nat) (c : _) (i : _) (t : _) (w : _) (n : _), (s.sect st obj).commit = some c ∧ s.kindBusy (fun k => k == OpKind.commit (stageCode st) obj) = false ∧ i = s.objStream st obj ∧ t = (s.setSect st obj ((s.sect st obj).committed c)).updStream i (fun y => { y with cnt := { y.cnt with commits := bump 64 y.cnt.commits 1 } }) ∧ w = ((t.releaseEntries i).pagesAdvance).endOps (fun o => o.kind == OpKind.commit (stageCode st) obj) ∧ (s.sect st obj).nextCommit = some n) ∧
    (∃ (x : Sect), x.seq % 2 = 0) ∧
    (∃ (x : Sect), x.seq % 2 = 0) ∧
    (∃ (x : Sect), x.seq % 2 = 1) ∧
    (∃ (x : Sect), x.seq % 2 = 1) ∧
    (∃ (s : State) (st : Stage) (b : Nat) (row : _) (o : _), o = (if st = .encode then (s.branch b).stream else b) ∧ ((s.branch b).state ≠ .active ∨ s.owed st o row = false ∨ s.dt < s.heldDeadline st o row)) ∧
    (∃ (s : State) (st : Stage) (b : Nat) (row : _) (o : _), o = (if st = .encode then (s.branch b).stream else b) ∧ ((s.branch b).state ≠ .active ∨ s.owed st o row = false ∨ s.dt < s.heldDeadline st o row)) ∧
    (∃ (s : State) (st : Stage) (b : Nat) (row : _) (o : _), o = (if st = .encode then (s.branch b).stream else b) ∧ ((s.branch b).state ≠ .active ∨ s.owed st o row = false ∨ s.dt < s.heldDeadline st o row)) ∧
    (∃ (s : State) (st : Stage) (b : Nat) (row : _) (o : _), o = (if st = .encode then (s.branch b).stream else b) ∧ (s.branch b).state = .active ∧ s.owed st o row = true ∧ s.heldDeadline st o row ≤ s.dt) ∧
    (∃ (s : State) (st : Stage) (b : Nat) (row : _) (o : _), o = (if st = .encode then (s.branch b).stream else b) ∧ (s.branch b).state = .active ∧ s.owed st o row = true ∧ s.heldDeadline st o row ≤ s.dt) ∧
    (∃ (s : State) (st : Stage) (b : Nat) (row : _) (o : _), o = (if st = .encode then (s.branch b).stream else b) ∧ (s.branch b).state = .active ∧ s.owed st o row = true ∧ s.heldDeadline st o row ≤ s.dt) ∧
    (∃ (s : State) (st : Stage) (b : Nat) (o : _), o = (if st = .encode then (s.branch b).stream else b) ∧ st ≠ .encode) ∧
    (∃ (s : State) (st : Stage) (obj : Nat) (b : Nat) (row : _) (o : _), o = (if st = .encode then (s.branch b).stream else b) ∧ (s.stream obj).encFallen.contains row = true) ∧
    (∃ (s : State) (st : Stage) (obj : Nat) (b : Nat) (row : _) (o : _), o = (if st = .encode then (s.branch b).stream else b) ∧ (s.stream obj).encFallen.contains row = false ∧ (s.sect .encode obj).shadow row = false) ∧
    (∃ (s : State) (st : Stage) (b : Nat) (row : _) (o : _) (x : _) (t : _), x = s.branch b ∧ o = (if st = .encode then x.stream else b) ∧ x.state = .active ∧ earlier32 row x.firstRow = false ∧ x.skipped.contains row = false ∧ (s.sect st o).shadow row = false ∧ t = s.updBranch b (fun y => { y with cnt := y.cnt.fall st (x.policy == .hold && x.applied == .skip) }) ∧ x.applied = .hold) ∧
    (∃ (s : State) (st : Stage) (b : Nat) (row : _) (o : _) (x : _) (t : _), x = s.branch b ∧ o = (if st = .encode then x.stream else b) ∧ x.state = .active ∧ earlier32 row x.firstRow = false ∧ x.skipped.contains row = false ∧ (s.sect st o).shadow row = false ∧ t = s.updBranch b (fun y => { y with cnt := y.cnt.fall st (x.policy == .hold && x.applied == .skip) }) ∧ x.applied = .hold) ∧
    (∃ (s : State) (st : Stage) (b : Nat) (row : _) (o : _) (x : _) (t : _), x = s.branch b ∧ o = (if st = .encode then x.stream else b) ∧ x.state = .active ∧ earlier32 row x.firstRow = false ∧ x.skipped.contains row = false ∧ (s.sect st o).shadow row = false ∧ t = s.updBranch b (fun y => { y with cnt := y.cnt.fall st (x.policy == .hold && x.applied == .skip) }) ∧ x.applied = .hold) ∧
    (∃ (s : State) (st : Stage) (b : Nat) (row : _) (o : _) (x : _) (t : _), x = s.branch b ∧ o = (if st = .encode then x.stream else b) ∧ x.state = .active ∧ earlier32 row x.firstRow = false ∧ x.skipped.contains row = false ∧ (s.sect st o).shadow row = false ∧ t = s.updBranch b (fun y => { y with cnt := y.cnt.fall st (x.policy == .hold && x.applied == .skip) }) ∧ x.applied = .skip) ∧
    (∃ (s : State) (st : Stage) (b : Nat) (row : _) (o : _) (x : _) (t : _), x = s.branch b ∧ o = (if st = .encode then x.stream else b) ∧ x.state = .active ∧ earlier32 row x.firstRow = false ∧ x.skipped.contains row = false ∧ (s.sect st o).shadow row = false ∧ t = s.updBranch b (fun y => { y with cnt := y.cnt.fall st (x.policy == .hold && x.applied == .skip) }) ∧ x.applied = .skip) ∧
    (∃ (s : State) (st : Stage) (b : Nat) (row : _) (o : _) (x : _) (t : _), x = s.branch b ∧ o = (if st = .encode then x.stream else b) ∧ x.state = .active ∧ earlier32 row x.firstRow = false ∧ x.skipped.contains row = false ∧ (s.sect st o).shadow row = false ∧ t = s.updBranch b (fun y => { y with cnt := y.cnt.fall st (x.policy == .hold && x.applied == .skip) }) ∧ x.applied = .skip) ∧
    (∃ (s : State) (st : Stage) (b : Nat) (row : _) (o : _) (x : _) (t : _), x = s.branch b ∧ o = (if st = .encode then x.stream else b) ∧ x.state = .active ∧ earlier32 row x.firstRow = false ∧ x.skipped.contains row = false ∧ (s.sect st o).shadow row = false ∧ t = s.updBranch b (fun y => { y with cnt := y.cnt.fall st (x.policy == .hold && x.applied == .skip) }) ∧ x.applied = .skip) ∧
    (∃ (s : State) (st : Stage) (b : Nat) (row : _) (o : _) (x : _) (t : _), x = s.branch b ∧ o = (if st = .encode then x.stream else b) ∧ x.state = .active ∧ earlier32 row x.firstRow = false ∧ x.skipped.contains row = false ∧ (s.sect st o).shadow row = false ∧ t = s.updBranch b (fun y => { y with cnt := y.cnt.fall st (x.policy == .hold && x.applied == .skip) }) ∧ x.applied = .stop) ∧
    (∃ (s : State) (st : Stage) (b : Nat) (row : _) (o : _) (x : _) (t : _), x = s.branch b ∧ o = (if st = .encode then x.stream else b) ∧ x.state = .active ∧ earlier32 row x.firstRow = false ∧ x.skipped.contains row = false ∧ (s.sect st o).shadow row = false ∧ t = s.updBranch b (fun y => { y with cnt := y.cnt.fall st (x.policy == .hold && x.applied == .skip) }) ∧ x.applied = .stop) ∧
    (∃ (s : State) (st : Stage) (b : Nat) (row : _) (o : _) (x : _) (t : _), x = s.branch b ∧ o = (if st = .encode then x.stream else b) ∧ x.state = .active ∧ earlier32 row x.firstRow = false ∧ x.skipped.contains row = false ∧ (s.sect st o).shadow row = false ∧ t = s.updBranch b (fun y => { y with cnt := y.cnt.fall st (x.policy == .hold && x.applied == .skip) }) ∧ x.applied = .stop) ∧
    (∃ (s : State) (b : Nat) (gone : _) (t : _), gone = (s.branch b).orphans.filter (fun o => decide (o.report.start + 24576000 ≤ s.dt)) ∧ t = gone.foldl (fun (u : State) o => u.postMerged o.part b o.gen o.report) (if gone = [] then s else s.updBranch b (fun y => { y with orphans := y.orphans.filter (fun o => !decide (o.report.start + 24576000 ≤ s.dt)) })) ∧ (s.branch b).report = none) ∧
    (∃ (s : State) (b : Nat) (gone : _) (t : _), gone = (s.branch b).orphans.filter (fun o => decide (o.report.start + 24576000 ≤ s.dt)) ∧ t = gone.foldl (fun (u : State) o => u.postMerged o.part b o.gen o.report) (if gone = [] then s else s.updBranch b (fun y => { y with orphans := y.orphans.filter (fun o => !decide (o.report.start + 24576000 ≤ s.dt)) })) ∧ (s.branch b).report = none) ∧
    (∃ (s : State) (b : Nat) (gone : _) (t : _) (r : _), gone = (s.branch b).orphans.filter (fun o => decide (o.report.start + 24576000 ≤ s.dt)) ∧ t = gone.foldl (fun (u : State) o => u.postMerged o.part b o.gen o.report) (if gone = [] then s else s.updBranch b (fun y => { y with orphans := y.orphans.filter (fun o => !decide (o.report.start + 24576000 ≤ s.dt)) })) ∧ (s.branch b).report = some r ∧ s.dt < r.start + 24576000) ∧
    (∃ (s : State) (b : Nat) (gone : _) (t : _) (r : _), gone = (s.branch b).orphans.filter (fun o => decide (o.report.start + 24576000 ≤ s.dt)) ∧ t = gone.foldl (fun (u : State) o => u.postMerged o.part b o.gen o.report) (if gone = [] then s else s.updBranch b (fun y => { y with orphans := y.orphans.filter (fun o => !decide (o.report.start + 24576000 ≤ s.dt)) })) ∧ (s.branch b).report = some r ∧ r.start + 24576000 ≤ s.dt ∧ r.count = 0) ∧
    (∃ (s : State) (b : Nat) (gone : _) (t : _) (r : _), gone = (s.branch b).orphans.filter (fun o => decide (o.report.start + 24576000 ≤ s.dt)) ∧ t = gone.foldl (fun (u : State) o => u.postMerged o.part b o.gen o.report) (if gone = [] then s else s.updBranch b (fun y => { y with orphans := y.orphans.filter (fun o => !decide (o.report.start + 24576000 ≤ s.dt)) })) ∧ (s.branch b).report = some r ∧ r.start + 24576000 ≤ s.dt ∧ 0 < r.count) ∧
    (∃ (s : State) (b : Nat) (gone : _) (t : _) (r : _), gone = (s.branch b).orphans.filter (fun o => decide (o.report.start + 24576000 ≤ s.dt)) ∧ t = gone.foldl (fun (u : State) o => u.postMerged o.part b o.gen o.report) (if gone = [] then s else s.updBranch b (fun y => { y with orphans := y.orphans.filter (fun o => !decide (o.report.start + 24576000 ≤ s.dt)) })) ∧ (s.branch b).report = some r ∧ r.start + 24576000 ≤ s.dt ∧ 0 < r.count) ∧
    (∃ (s : State) (i : _) (lost : _) (placed : _), lost = (s.sectsOf i).filter (fun k => (s.sect k.1 k.2).lost) ∧ placed = (fun (v : State) (k : Stage × Nat) => (v.sect k.1 k.2).tile.isSome || (v.sect k.1 k.2).size == 0) ∧ (s.loadsBusy i = true ∨ s.serving = false ∨ lost.all (placed s) = false)) ∧
    (∃ (s : State) (i : _) (lost : _) (placed : _), lost = (s.sectsOf i).filter (fun k => (s.sect k.1 k.2).lost) ∧ placed = (fun (v : State) (k : Stage × Nat) => (v.sect k.1 k.2).tile.isSome || (v.sect k.1 k.2).size == 0) ∧ (s.loadsBusy i = true ∨ s.serving = false ∨ lost.all (placed s) = false)) ∧
    (∃ (s : State) (i : _) (lost : _) (placed : _) (u : _), lost = (s.sectsOf i).filter (fun k => (s.sect k.1 k.2).lost) ∧ placed = (fun (v : State) (k : Stage × Nat) => (v.sect k.1 k.2).tile.isSome || (v.sect k.1 k.2).size == 0) ∧ s.loadsBusy i = false ∧ s.serving = true ∧ lost.all (placed s) = true ∧ lost ≠ [] ∧ (s.stream i).state ≠ .frogging ∧ u = lost.foldl State.restoreSect (s.endLoads i)) ∧
    (∃ (s : State) (i : _) (lost : _) (placed : _) (u : _), lost = (s.sectsOf i).filter (fun k => (s.sect k.1 k.2).lost) ∧ placed = (fun (v : State) (k : Stage × Nat) => (v.sect k.1 k.2).tile.isSome || (v.sect k.1 k.2).size == 0) ∧ s.loadsBusy i = false ∧ s.serving = true ∧ lost.all (placed s) = true ∧ (lost ≠ [] ∨ ((s.stream i).frog.map (·.restored)) = some false) ∧ (s.stream i).state = .frogging ∧ u = lost.foldl State.restoreSect (((s.sectsOf i).filter (fun k => !(s.sect k.1 k.2).lost && s.ops.any (fun o => o.kind == OpKind.castIn (stageCode k.1) k.2))).foldl (fun v k => v.updSect k.1 k.2 Sect.load) (s.endLoads i))) ∧
    (∃ (s : State) (i : _) (lost : _) (placed : _) (u : _), lost = (s.sectsOf i).filter (fun k => (s.sect k.1 k.2).lost) ∧ placed = (fun (v : State) (k : Stage × Nat) => (v.sect k.1 k.2).tile.isSome || (v.sect k.1 k.2).size == 0) ∧ s.loadsBusy i = false ∧ s.serving = true ∧ lost.all (placed s) = true ∧ (lost ≠ [] ∨ ((s.stream i).frog.map (·.restored)) = some false) ∧ (s.stream i).state = .frogging ∧ u = lost.foldl State.restoreSect (((s.sectsOf i).filter (fun k => !(s.sect k.1 k.2).lost && s.ops.any (fun o => o.kind == OpKind.castIn (stageCode k.1) k.2))).foldl (fun v k => v.updSect k.1 k.2 Sect.load) (s.endLoads i))) := by
  refine ⟨
    ⟨full, .encode, 0, by decide +kernel⟩,
    ⟨{ full with ops := [{ id := 3, kind := .commit 0 0, part := 0 }], feeders := [(3, { requests := [{ tag := 9, prog := 1, op := 3, part := 0, deadline := 0, kind := 3, read := true, gambit := false, addr := 0, other := 0, bytes := 32, issued := 0, data := 0 }] })] }, .encode, 0, by decide +kernel⟩,
    ⟨fullS (fun y => { y with enc := { valid := true, row := 4, commit := some { row := 4, data := {}, idle := false, why := .interval } } }), .encode, 0, { row := 4, data := {}, idle := false, why := .interval }, _, _, _, by decide +kernel, by decide +kernel, rfl, rfl, rfl, by decide +kernel⟩,
    ⟨fullS (fun y => { y with enc := { valid := true, row := 4, commit := some { row := 4, data := {}, idle := false, why := .interval }, nextCommit := some { row := 5, data := {}, idle := false, why := .interval } } }), .encode, 0, { row := 4, data := {}, idle := false, why := .interval }, _, _, _, { row := 5, data := {}, idle := false, why := .interval }, by decide +kernel, by decide +kernel, rfl, rfl, rfl, by decide +kernel⟩,
    ⟨{}, by decide +kernel⟩,
    ⟨{}, by decide +kernel⟩,
    ⟨{ seq := 1 }, by decide +kernel⟩,
    ⟨{ seq := 1 }, by decide +kernel⟩,
    ⟨fullB (fun y => { y with state := .stopped }), .speak, 0, 0, _, rfl, by decide +kernel⟩,
    ⟨full, .speak, 0, 0, _, rfl, by decide +kernel⟩,
    ⟨{ fullB (fun y => { y with translate := { valid := true }, speak := { valid := true } }) with streams := [(0, { state := .resident, source := .tdm 0 0, enc := { valid := true } })], dt := 0 }, .encode, 0, 0, _, rfl, by decide +kernel⟩,
    ⟨{ fullB (fun y => { y with translate := { valid := true }, speak := { valid := true } }) with streams := [(0, { state := .resident, source := .tdm 0 0, enc := { valid := true } })], dt := 9000000 }, .encode, 0, 0, _, rfl, by decide +kernel⟩,
    ⟨{ fullB (fun y => { y with translate := { valid := true }, speak := { valid := true } }) with streams := [(0, { state := .resident, source := .tdm 0 0, enc := { valid := true } })], dt := 9000000 }, .translate, 0, 0, _, rfl, by decide +kernel⟩,
    ⟨{ fullB (fun y => { y with translate := { valid := true }, speak := { valid := true } }) with streams := [(0, { state := .resident, source := .tdm 0 0, enc := { valid := true } })], dt := 9000000 }, .speak, 0, 0, _, rfl, by decide +kernel⟩,
    ⟨{ fullB (fun y => { y with translate := { valid := true }, speak := { valid := true } }) with streams := [(0, { state := .resident, source := .tdm 0 0, enc := { valid := true } })], dt := 9000000 }, .translate, 0, _, rfl, by decide +kernel⟩,
    ⟨fullS (fun y => { y with encFallen := [6] }), .encode, 0, 0, 6, _, rfl, by decide +kernel⟩,
    ⟨{ fullB (fun y => { y with translate := { valid := true }, speak := { valid := true } }) with streams := [(0, { state := .resident, source := .tdm 0 0, enc := { valid := true } })], dt := 9000000 }, .encode, 0, 0, 6, _, rfl, by decide +kernel⟩,
    ⟨{ fullB (fun y => { y with policy := .hold, skipped := [], firstRow := 6, translate := { valid := true }, speak := { valid := true } }) with dt := 9000000 }, .encode, 0, 6, _, _, _, rfl, rfl, by decide +kernel, by decide +kernel, by decide +kernel, by decide +kernel, rfl, by decide +kernel⟩,
    ⟨{ fullB (fun y => { y with policy := .hold, skipped := [], firstRow := 6, translate := { valid := true }, speak := { valid := true } }) with dt := 9000000 }, .translate, 0, 6, _, _, _, rfl, rfl, by decide +kernel, by decide +kernel, by decide +kernel, by decide +kernel, rfl, by decide +kernel⟩,
    ⟨{ fullB (fun y => { y with policy := .hold, skipped := [], firstRow := 6, translate := { valid := true }, speak := { valid := true } }) with dt := 9000000 }, .speak, 0, 6, _, _, _, rfl, rfl, by decide +kernel, by decide +kernel, by decide +kernel, by decide +kernel, rfl, by decide +kernel⟩,
    ⟨{ fullB (fun y => { y with policy := .skip, skipped := [], firstRow := 6, translate := { valid := true }, speak := { valid := true } }) with dt := 9000000 }, .encode, 0, 6, _, _, _, rfl, rfl, by decide +kernel, by decide +kernel, by decide +kernel, by decide +kernel, rfl, by decide +kernel⟩,
    ⟨{ fullB (fun y => { y with policy := .skip, skipped := [], firstRow := 6, translate := { valid := true }, speak := { valid := true } }) with dt := 9000000 }, .translate, 0, 6, _, _, _, rfl, rfl, by decide +kernel, by decide +kernel, by decide +kernel, by decide +kernel, rfl, by decide +kernel⟩,
    ⟨{ fullB (fun y => { y with policy := .skip, skipped := [], firstRow := 6, translate := { valid := true }, speak := { valid := true } }) with dt := 9000000 }, .speak, 0, 6, _, _, _, rfl, rfl, by decide +kernel, by decide +kernel, by decide +kernel, by decide +kernel, rfl, by decide +kernel⟩,
    ⟨{ fullB (fun y => { y with policy := .hold, hold := 4, firstRow := 6, translate := { valid := true }, speak := { valid := true } }) with dt := 9000000 }, .speak, 0, 6, _, _, _, rfl, rfl, by decide +kernel, by decide +kernel, by decide +kernel, by decide +kernel, rfl, by decide +kernel⟩,
    ⟨{ fullB (fun y => { y with policy := .stop, skipped := [], firstRow := 6, translate := { valid := true }, speak := { valid := true } }) with dt := 9000000 }, .encode, 0, 6, _, _, _, rfl, rfl, by decide +kernel, by decide +kernel, by decide +kernel, by decide +kernel, rfl, by decide +kernel⟩,
    ⟨{ fullB (fun y => { y with policy := .stop, skipped := [], firstRow := 6, translate := { valid := true }, speak := { valid := true } }) with dt := 9000000 }, .translate, 0, 6, _, _, _, rfl, rfl, by decide +kernel, by decide +kernel, by decide +kernel, by decide +kernel, rfl, by decide +kernel⟩,
    ⟨{ fullB (fun y => { y with policy := .stop, skipped := [], firstRow := 6, translate := { valid := true }, speak := { valid := true } }) with dt := 9000000 }, .speak, 0, 6, _, _, _, rfl, rfl, by decide +kernel, by decide +kernel, by decide +kernel, by decide +kernel, rfl, by decide +kernel⟩,
    ⟨fullB (fun y => y), 0, _, _, rfl, rfl, by decide +kernel⟩,
    ⟨{ fullB (fun y => { y with orphans := [{ gen := 3, part := 0, report := { start := 10, stage := .speak, first := 2, count := 2, policy := .skip } }] }) with dt := 24576010 }, 0, _, _, rfl, rfl, by decide +kernel⟩,
    ⟨{ fullB (fun y => { y with report := some { start := 10, stage := .speak, first := 2, count := 1, policy := .skip } }) with dt := 24576009 }, 0, _, _, { start := 10, stage := .speak, first := 2, count := 1, policy := .skip }, rfl, rfl, by decide +kernel⟩,
    ⟨{ fullB (fun y => { y with report := some { start := 10, stage := .speak, first := 2, count := 0, policy := .skip } }) with dt := 24576010 }, 0, _, _, { start := 10, stage := .speak, first := 2, count := 0, policy := .skip }, rfl, rfl, by decide +kernel⟩,
    ⟨{ fullB (fun y => { y with report := some { start := 10, stage := .speak, first := 2, count := 1, policy := .skip } }) with dt := 24576010 }, 0, _, _, { start := 10, stage := .speak, first := 2, count := 1, policy := .skip }, rfl, rfl, by decide +kernel⟩,
    ⟨{ fullB (fun y => { y with report := some { start := 10, stage := .speak, first := 2, count := 1, policy := .skip }, orphans := [{ gen := 3, part := 0, report := { start := 10, stage := .speak, first := 2, count := 2, policy := .skip } }] }) with dt := 24576010 }, 0, _, _, { start := 10, stage := .speak, first := 2, count := 1, policy := .skip }, rfl, rfl, by decide +kernel⟩,
    ⟨{ full with ops := [{ id := 3, kind := .castIn 0 0, part := 0 }], feeders := [(3, { requests := [{ tag := 9, prog := 1, op := 3, part := 0, deadline := 0, kind := 3, read := true, gambit := false, addr := 0, other := 2 ^ 60, bytes := 32, issued := 0, data := 0 }] })] }, 0, _, _, rfl, rfl, by decide +kernel⟩,
    ⟨fullS (fun y => { y with enc := { valid := true, size := 4096, lost := true } }), 0, _, _, rfl, rfl, by decide +kernel⟩,
    ⟨fullS (fun y => { y with state := .paused, pausedRow := some 3, enc := { valid := true, size := 4096, lost := true, tile := some 0 } }), 0, _, _, _, rfl, rfl, by decide +kernel, by decide +kernel, by decide +kernel, by decide +kernel, by decide +kernel, rfl⟩,
    ⟨fullS (fun y => { y with state := .frogging, frog := some { cause := 1, rewind := false, restored := false, count := 1 } }), 0, _, _, _, rfl, rfl, by decide +kernel, by decide +kernel, by decide +kernel, by decide +kernel, by decide +kernel, rfl⟩,
    ⟨fullS (fun y => { y with state := .frogging, frog := some { cause := 1, rewind := false, restored := false, count := 1 }, enc := { valid := true, size := 4096, lost := true, tile := some 0 } }), 0, _, _, _, rfl, rfl, by decide +kernel, by decide +kernel, by decide +kernel, by decide +kernel, by decide +kernel, rfl⟩⟩

theorem witness_ZeroisationRowsAct :
    (∃ (s : State) (br : _) (k : _), s.stillTagged br k = true) ∧
    (∃ (s : State) (i : Nat), s.stillTagged false i = false ∧ (s.stream i).state ≠ .bindingOff) ∧
    (∃ (s : State) (b : Nat) (z : _) (w : _), s.stillTagged true b = false ∧ (s.branch b).state = .detaching ∧ (s.branch b).zero = some z ∧ z.started = false ∧ w = (s.beginZeroise true b (s.branch b).part z.acceptDt []).wipeBranch b) ∧
    (∃ (s : State) (b : Nat) (i : Nat) (z : _) (own : _) (bs : _) (c : _) (t : _) (u : _), s.stillTagged false i = false ∧ (s.stream i).state = .bindingOff ∧ (s.stream i).zero = some z ∧ z.started = false ∧ own = (s.pages.seqs.filter (fun q => q.owner == .encoder i)).flatMap (fun q => q.entries.map (·.ppn)) ∧ bs = (s.branchesOf i).filter (fun b => !(((s.branch b).zero.map (·.started)).getD false)) ∧ c = (s.beginZeroise false i (s.stream i).part z.acceptDt bs).dropCopies (fun o => o == .encoder i) ∧ t = (c.1.dropStaged i true).dropOwner (.encoder i) true ∧ u = bs.foldl (fun (a : State × List Nat) k => (((a.1.wipeBranch k).1.updBranch k (fun y => { y with zero := y.zero.map (fun (q : Zeroise) => { q with started := true }) }), a.2 ++ (a.1.wipeBranch k).2) : State × List Nat)) (t, []) ∧ s.drainedOut i = false) ∧
    (∃ (s : State) (b : Nat) (i : Nat) (z : _) (own : _) (bs : _) (c : _) (t : _) (u : _), s.stillTagged false i = false ∧ (s.stream i).state = .bindingOff ∧ (s.stream i).zero = some z ∧ z.started = false ∧ own = (s.pages.seqs.filter (fun q => q.owner == .encoder i)).flatMap (fun q => q.entries.map (·.ppn)) ∧ bs = (s.branchesOf i).filter (fun b => !(((s.branch b).zero.map (·.started)).getD false)) ∧ c = (s.beginZeroise false i (s.stream i).part z.acceptDt bs).dropCopies (fun o => o == .encoder i) ∧ t = (c.1.dropStaged i true).dropOwner (.encoder i) true ∧ u = bs.foldl (fun (a : State × List Nat) k => (((a.1.wipeBranch k).1.updBranch k (fun y => { y with zero := y.zero.map (fun (q : Zeroise) => { q with started := true }) }), a.2 ++ (a.1.wipeBranch k).2) : State × List Nat)) (t, []) ∧ s.drainedOut i = true) ∧
    (∃ (s : State) (b : Nat) (z : _), (s.branch b).state = .detaching ∧ (s.branch b).zero = some z ∧ (z.started = false ∨ s.pagesSwept z.pages = false ∨ s.zeroiseIdle true b = false)) ∧
    (∃ (s : State) (b : Nat) (z : _), (s.branch b).state = .detaching ∧ (s.branch b).zero = some z ∧ z.started = true ∧ s.pagesSwept z.pages = true ∧ s.zeroiseIdle true b = true ∧ (s.stream (s.branch b).stream).state = .bindingOff) ∧
    (∃ (s : State) (b : Nat) (z : _), (s.branch b).state = .detaching ∧ (s.branch b).zero = some z ∧ z.started = true ∧ s.pagesSwept z.pages = true ∧ s.zeroiseIdle true b = true ∧ (s.stream (s.branch b).stream).state ≠ .bindingOff) ∧
    (∃ (s : State) (i : Nat) (z : _) (x : _), x = s.stream i ∧ x.state = .bindingOff ∧ x.zero = some z ∧ s.branchesOf i = [] ∧ (z.started = false ∨ s.pagesSwept z.pages = false ∨ s.zeroiseIdle false i = false)) ∧
    (∃ (s : State) (b : Nat) (i : Nat) (z : _) (n : _) (x : _) (t : _) (u : _), x = s.stream i ∧ x.state = .bindingOff ∧ x.zero = some z ∧ s.branchesOf i = [] ∧ z.started = true ∧ s.pagesSwept z.pages = true ∧ s.zeroiseIdle false i = true ∧ z.commanded = true ∧ n = bump 64 (s.part x.part).zeroise 1 ∧ t = ((s.endZeroise false i).updPart x.part (fun q => { q with zeroise := n })).post x.part 0x8009 (streamHandle i x.gen) n ∧ u = (t.branchesOf i).foldl (fun (v : State) b => (v.endZeroise true b).branchGone b) t) := by
  refine ⟨
    ⟨{ full with dt := 200, flanks := [(0, { run := some { id := 7, content := 1, stage := .encode, items := [{ stage := .encode, obj := 0, content := 1, part := 0, row := 0, rows := 1, bucket := 0 }], start := 100, period := 491520, paused := 0, injected := false } })] }, false, 0, by decide +kernel⟩,
    ⟨full, 0, by decide +kernel⟩,
    ⟨{ full with branches := [(0, { state := .detaching, zero := some { acceptDt := 0, started := false, done := false } })], streams := [(0, { state := .resident, source := .tdm 0 0 })] }, 0, { acceptDt := 0, started := false, done := false }, _, by decide +kernel, by decide +kernel, by decide +kernel, by decide +kernel, rfl⟩,
    ⟨fullS (fun y => { y with state := .bindingOff, zero := some { acceptDt := 0, started := false, done := false }, drain := true, enc := { valid := true } }), 0, 0, { acceptDt := 0, started := false, done := false }, _, _, _, _, _, by decide +kernel, by decide +kernel, by decide +kernel, by decide +kernel, rfl, rfl, rfl, rfl, rfl, by decide +kernel⟩,
    ⟨fullS (fun y => { y with state := .bindingOff, zero := some { acceptDt := 0, started := false, done := false } }), 0, 0, { acceptDt := 0, started := false, done := false }, _, _, _, _, _, by decide +kernel, by decide +kernel, by decide +kernel, by decide +kernel, rfl, rfl, rfl, rfl, rfl, by decide +kernel⟩,
    ⟨{ full with branches := [(0, { state := .detaching, zero := some { acceptDt := 0, started := false, done := false } })], streams := [(0, { state := .resident, source := .tdm 0 0 })] }, 0, { acceptDt := 0, started := false, done := false }, by decide +kernel⟩,
    ⟨{ full with branches := [(0, { state := .detaching, zero := some { acceptDt := 0, started := true, done := false } })], streams := [(0, { state := .bindingOff, source := .tdm 0 0 })] }, 0, { acceptDt := 0, started := true, done := false }, by decide +kernel⟩,
    ⟨{ full with branches := [(0, { state := .detaching, zero := some { acceptDt := 0, started := true, done := false } })], streams := [(0, { state := .resident, source := .tdm 0 0 })] }, 0, { acceptDt := 0, started := true, done := false }, by decide +kernel⟩,
    ⟨{ full with branches := [], streams := [(0, { state := .bindingOff, zero := some { acceptDt := 0, started := false, done := false } })] }, 0, { acceptDt := 0, started := false, done := false }, _, rfl, by decide +kernel⟩,
    ⟨{ full with branches := [], streams := [(0, { state := .bindingOff, zero := some { acceptDt := 0, started := true, done := false } })] }, 0, 0, { acceptDt := 0, started := true, done := false }, _, _, _, _, rfl, by decide +kernel, by decide +kernel, by decide +kernel, by decide +kernel, by decide +kernel, (by decide +kernel), by decide +kernel, rfl, rfl, rfl⟩⟩

theorem witness_OutputRowsAct :
    (∃ (s : State) (b : Nat), (s.branch b).egRing = []) ∧
    (∃ (s : State) (b : Nat) (e : _) (rest : _) (start : _), (s.branch b).egRing = e :: rest ∧ start = s.playFrom b e.row ∧ s.dt < start) ∧
    (∃ (s : State) (b : Nat) (e : _) (rest : _) (start : _), (s.branch b).egRing = e :: rest ∧ start = s.playFrom b e.row ∧ start ≤ s.dt ∧ s.boot.fatal = none ∧ 1 ≤ (s.branch b).hold ∧ e.silent = true) ∧
    (∃ (s : State) (b : Nat) (e : _) (rest : _) (start : _), (s.branch b).egRing = e :: rest ∧ start = s.playFrom b e.row ∧ start ≤ s.dt ∧ s.boot.fatal = none ∧ ((s.branch b).hold = 0 ∨ e.silent = false) ∧ (s.branch b).lastPlayed = none) ∧
    (∃ (s : State) (b : Nat) (e : _) (rest : _) (start : _), (s.branch b).egRing = e :: rest ∧ start = s.playFrom b e.row ∧ start ≤ s.dt ∧ s.boot.fatal = none ∧ ((s.branch b).hold = 0 ∨ e.silent = false) ∧ (s.branch b).lastPlayed = none) ∧
    (∃ (s : State) (b : Nat) (e : _) (rest : _) (start : _) (r : _), (s.branch b).egRing = e :: rest ∧ start = s.playFrom b e.row ∧ start ≤ s.dt ∧ s.boot.fatal = none ∧ ((s.branch b).hold = 0 ∨ e.silent = false) ∧ (s.branch b).lastPlayed = some r ∧ (s.branch b).playEnd = start ∧ e.row = bump 32 r 1 ∧ (s.branch b).dropped = []) ∧
    (∃ (s : State) (i : Nat), (s.stream i).source = .none) ∧
    (∃ (s : State) (i : Nat) (r : _) (x : _) (pieces : _) (o : _) (closes : _) (slot : _), x = s.stream i ∧ x.source = .ring r ∧ closes = s.frameEnd i + 245760 * (x.nextFetch - x.frames) ∧ slot = r.slotOffset x.nextFetch ∧ pieces = hostPieces (s.port x.part).cfg.maxReadRequest r.slotBytes slot r.slotBytes ∧ o = s.newOp (.host x.part) x.part ∧ (s.closing i = false ∨ x.handed ≤ x.nextFetch ∨ s.dt + 491520 < closes ∨ (s.port x.part).canWrite = false ∨ (s.port x.part).freeTags < pieces.length)) ∧
    (∃ (s : State) (i : Nat) (r : _) (x : _) (pieces : _) (o : _) (closes : _) (slot : _), x = s.stream i ∧ x.source = .ring r ∧ closes = s.frameEnd i + 245760 * (x.nextFetch - x.frames) ∧ slot = r.slotOffset x.nextFetch ∧ pieces = hostPieces (s.port x.part).cfg.maxReadRequest r.slotBytes slot r.slotBytes ∧ o = s.newOp (.host x.part) x.part ∧ s.closing i = true ∧ x.state ≠ .bindingOff ∧ x.nextFetch < x.handed ∧ closes ≤ s.dt + 491520 ∧ (s.port x.part).canWrite = true ∧ pieces.length ≤ (s.port x.part).freeTags ∧ (s.port x.part).checkAperture r.aperture slot r.slotBytes true false = .ok) ∧
    (∃ (s : State) (b : Nat), (s.branch b).ring = none) ∧
    (∃ (s : State) (b : Nat) (consumed : _) (r : _) (x : _) (t : _), x = s.branch b ∧ x.ring = some r ∧ s.boot.fatal = none ∧ x.state ≠ .absent ∧ t = s.updBranch b (fun y => { y with ring := some (if r.consumed ≤ consumed ∧ consumed ≤ r.produced then { r with consumed := consumed } else r) }) ∧ r.rate = 0) ∧
    (∃ (s : State) (b : Nat) (consumed : _) (r : _) (x : _) (t : _), x = s.branch b ∧ x.ring = some r ∧ s.boot.fatal = none ∧ x.state ≠ .absent ∧ t = s.updBranch b (fun y => { y with ring := some (if r.consumed ≤ consumed ∧ consumed ≤ r.produced then { r with consumed := consumed } else r) }) ∧ r.rate ≠ 0 ∧ s.dt < x.ringNext + 245760 + outDelay r.rate) ∧
    (∃ (s : State) (b : Nat) (consumed : _) (r : _) (x : _) (t : _), x = s.branch b ∧ x.ring = some r ∧ s.boot.fatal = none ∧ x.state ≠ .absent ∧ t = s.updBranch b (fun y => { y with ring := some (if r.consumed ≤ consumed ∧ consumed ≤ r.produced then { r with consumed := consumed } else r) }) ∧ r.rate ≠ 0 ∧ x.ringNext + 245760 + outDelay r.rate ≤ s.dt) := by
  refine ⟨
    ⟨full, 0, by decide +kernel⟩,
    ⟨{ fullB (fun y => { y with egRing := [{ row := 0, silent := false, samples := [] }] }) with dt := 9 }, 0, { row := 0, silent := false, samples := [] }, [], _, by decide +kernel, rfl, by decide +kernel⟩,
    ⟨{ fullB (fun y => { y with egRing := [{ row := 0, silent := true, samples := [] }], hold := 1 }) with dt := 20000000 }, 0, { row := 0, silent := true, samples := [] }, [], _, by decide +kernel, rfl, by decide +kernel⟩,
    ⟨{ fullB (fun y => { y with egRing := [{ row := 0, silent := false, samples := [] }], hold := 1 }) with dt := 20000000 }, 0, { row := 0, silent := false, samples := [] }, [], _, by decide +kernel, rfl, by decide +kernel⟩,
    ⟨{ fullB (fun y => { y with egRing := [{ row := 0, silent := true, samples := [] }] }) with dt := 20000000 }, 0, { row := 0, silent := true, samples := [] }, [], _, by decide +kernel, rfl, by decide +kernel⟩,
    ⟨{ fullB (fun y => { y with egRing := [{ row := 0, silent := false, samples := [] }], lastPlayed := some 4294967295, playEnd := full.playAt 0 0 }) with dt := 20000000 }, 0, { row := 0, silent := false, samples := [] }, [], _, 4294967295, by decide +kernel, rfl, by decide +kernel⟩,
    ⟨{ full with streams := [] }, 0, by decide +kernel⟩,
    ⟨{ fullS (fun y => { y with source := .ring hostRing }) with dt := 10 }, 0, hostRing, _, _, _, _, _, rfl, by decide +kernel, rfl, rfl, rfl, rfl, by decide +kernel⟩,
    ⟨{ fullS (fun y => { y with source := .ring hostRing, handed := 1 }) with dt := 10 }, 0, hostRing, _, _, _, _, _, rfl, by decide +kernel, rfl, rfl, rfl, rfl, by decide +kernel⟩,
    ⟨full, 0, by decide +kernel⟩,
    ⟨{ fullB (fun y => { y with outs := [], outBlock := 1, ring := some { hostRing with rate := 0 } }) with dt := 10 }, 0, 9, { hostRing with rate := 0 }, _, _, rfl, by decide +kernel, by decide +kernel, by decide +kernel, rfl, by decide +kernel⟩,
    ⟨{ fullB (fun y => { y with outs := [], outBlock := 1, ring := some { hostRing with produced := 9, consumed := 8 } }) with dt := 10 }, 0, 9, { hostRing with produced := 9, consumed := 8 }, _, _, rfl, by decide +kernel, by decide +kernel, by decide +kernel, rfl, by decide +kernel⟩,
    ⟨{ fullB (fun y => { y with outs := [], outBlock := 1, ring := some { hostRing with produced := 9, consumed := 8 } }) with dt := 10000000 }, 0, 9, { hostRing with produced := 9, consumed := 8 }, _, _, rfl, by decide +kernel, by decide +kernel, by decide +kernel, rfl, by decide +kernel⟩⟩

theorem witness_GovernorWindowActs :
    (∃ (s : State), (s.boot.inReset = true ∨ s.dt % 24576 ≠ 0)) ∧
    (∃ (s : State), (s.boot.inReset = true ∨ s.dt % 24576 ≠ 0)) ∧
    (∃ (s : State), s.boot.inReset = false ∧ s.dt % 24576 = 0 ∧ s.boot.stage ≠ .ready) ∧
    (∃ (s : State) (m : Measurement) (t : _), s.boot.inReset = false ∧ s.dt % 24576 = 0 ∧ s.boot.stage = .ready ∧ t = { s with power := s.power.measure s.dt m } ∧ t.overLimit = true) ∧
    (∃ (s : State) (m : Measurement) (t : _), s.boot.inReset = false ∧ s.dt % 24576 = 0 ∧ s.boot.stage = .ready ∧ t = { s with power := s.power.measure s.dt m } ∧ t.overLimit = false ∧ t.under = true ∧ t.power.under + 1 < 10) ∧
    (∃ (s : State) (m : Measurement) (t : _), s.boot.inReset = false ∧ s.dt % 24576 = 0 ∧ s.boot.stage = .ready ∧ t = { s with power := s.power.measure s.dt m } ∧ t.overLimit = false ∧ t.under = true ∧ t.power.under + 1 < 10) ∧
    (∃ (s : State) (m : Measurement) (t : _), s.boot.inReset = false ∧ s.dt % 24576 = 0 ∧ s.boot.stage = .ready ∧ t = { s with power := s.power.measure s.dt m } ∧ t.overLimit = false ∧ t.under = true ∧ 10 ≤ t.power.under + 1) ∧
    (∃ (s : State) (m : Measurement) (t : _), s.boot.inReset = false ∧ s.dt % 24576 = 0 ∧ s.boot.stage = .ready ∧ t = { s with power := s.power.measure s.dt m } ∧ t.overLimit = false ∧ t.under = false) ∧
    (∃ (s : State) (m : Measurement) (t : _), s.boot.inReset = false ∧ s.dt % 24576 = 0 ∧ s.boot.stage = .ready ∧ t = { s with power := s.power.measure s.dt m } ∧ t.overLimit = false ∧ t.under = false) ∧
    (∃ (p : Power), p.history.length ≤ 1000) ∧
    (∃ (p : Power), p.point = 6 ∧ p.divisor = 6) ∧
    (∃ (p : Power), p.point = 6 ∧ p.divisor = 6) ∧
    (∃ (p : Power), p.avs.raise = none ∧ 4 ≤ p.divisor ∧ p.divisor < 6) ∧
    (∃ (p : Power), p.avs.raise = none ∧ 4 ≤ p.divisor ∧ p.divisor < 6) ∧
    (∃ (p : Power), p.avs.raise = none ∧ 4 ≤ p.divisor ∧ p.divisor < 6) := by
  refine ⟨
    ⟨{ ready with boot := { ready.boot with inReset := true } }, by decide +kernel⟩,
    ⟨{ ready with dt := 24575 }, by decide +kernel⟩,
    ⟨State.reset, by decide +kernel⟩,
    ⟨ready, { millivolts := 750, milliamps := 0, otherMilliwatts := 700001, regulatorTemp := 40, sensors := List.replicate 16 50 }, _, by decide +kernel, by decide +kernel, by decide +kernel, rfl, by decide +kernel⟩,
    ⟨ready, { millivolts := 750, milliamps := 0, otherMilliwatts := 0, regulatorTemp := 40, sensors := List.replicate 16 50 }, _, by decide +kernel, by decide +kernel, by decide +kernel, rfl, by decide +kernel⟩,
    ⟨{ ready with power := { ready.power with under := 8 } }, { millivolts := 750, milliamps := 0, otherMilliwatts := 0, regulatorTemp := 40, sensors := List.replicate 16 50 }, _, by decide +kernel, by decide +kernel, by decide +kernel, rfl, by decide +kernel⟩,
    ⟨{ ready with power := { ready.power with under := 9 } }, { millivolts := 750, milliamps := 0, otherMilliwatts := 0, regulatorTemp := 40, sensors := List.replicate 16 50 }, _, by decide +kernel, by decide +kernel, by decide +kernel, rfl, by decide +kernel⟩,
    ⟨ready, { millivolts := 750, milliamps := 0, otherMilliwatts := 700000, regulatorTemp := 40, sensors := List.replicate 16 50 }, _, by decide +kernel, by decide +kernel, by decide +kernel, rfl, by decide +kernel⟩,
    ⟨ready, { millivolts := 750, milliamps := 0, otherMilliwatts := 675000, regulatorTemp := 40, sensors := List.replicate 16 50 }, _, by decide +kernel, by decide +kernel, by decide +kernel, rfl, by decide +kernel⟩,
    ⟨{}, by decide +kernel⟩,
    ⟨{}, by decide +kernel⟩,
    ⟨{}, by decide +kernel⟩,
    ⟨{ divisor := 4 }, by decide +kernel⟩,
    ⟨{ divisor := 5 }, by decide +kernel⟩,
    ⟨{ divisor := 4 }, by decide +kernel⟩⟩

theorem witness_VoltageRowsAct :
    (∃ (s : State), s.power.avs.raise = none) ∧
    (∃ (s : State), s.power.avs.raise = none) ∧
    (∃ (s : State) (t : _) (d : _), s.power.avs.raise = some (t, d)) ∧
    (∃ (s : State) (t : _) (d : _), s.power.avs.raise = some (t, d) ∧ s.dt < t + 2458) ∧
    (∃ (s : State) (t : _) (d : _), s.power.avs.raise = some (t, d) ∧ t + 2458 ≤ s.dt) ∧
    (∃ (s : State), s.power.avs.faulted = false) ∧
    (∃ (s : State), (s.power.avs.faulted = true ∨ s.power.avs.failures < 3)) ∧
    (∃ (s : State), (s.power.avs.faulted = true ∨ s.power.avs.failures < 3)) ∧
    (∃ (s : State), s.power.avs.faulted = false ∧ 3 ≤ s.power.avs.failures) ∧
    (∃ (s : State) (trim : _), (s.boot.stage ≠ .ready ∨ trim % 5 ≠ 0 ∨ trim < -25 ∨ 50 < trim ∨ ∃ t, s.power.avs.lastTrim = some t ∧ s.dt < t + 2457600)) ∧
    (∃ (s : State) (trim : _), (s.boot.stage ≠ .ready ∨ trim % 5 ≠ 0 ∨ trim < -25 ∨ 50 < trim ∨ ∃ t, s.power.avs.lastTrim = some t ∧ s.dt < t + 2457600)) ∧
    (∃ (s : State) (trim : _), (s.boot.stage ≠ .ready ∨ trim % 5 ≠ 0 ∨ trim < -25 ∨ 50 < trim ∨ ∃ t, s.power.avs.lastTrim = some t ∧ s.dt < t + 2457600)) ∧
    (∃ (s : State) (trim : _), (s.boot.stage ≠ .ready ∨ trim % 5 ≠ 0 ∨ trim < -25 ∨ 50 < trim ∨ ∃ t, s.power.avs.lastTrim = some t ∧ s.dt < t + 2457600)) ∧
    (∃ (s : State) (trim : Int), s.boot.stage = .ready ∧ trim % 5 = 0 ∧ -25 ≤ trim ∧ trim ≤ 50 ∧ (∀ t, s.power.avs.lastTrim = some t → t + 2457600 ≤ s.dt)) ∧
    (∃ (s : State) (trim : Int), s.boot.stage = .ready ∧ trim % 5 = 0 ∧ -25 ≤ trim ∧ trim ≤ 50 ∧ (∀ t, s.power.avs.lastTrim = some t → t + 2457600 ≤ s.dt)) ∧
    (∃ (p : Power), p.avs.faulted = false) ∧
    (∃ (p : Power), p.avs.faulted = false) ∧
    (∃ (p : Power) (d : _), p.avs.faulted = false ∧ 600 ≤ vNominal d + p.avs.trim ∧ vNominal d + p.avs.trim ≤ 800) ∧
    (∃ (p : Power) (d : _), p.avs.faulted = false ∧ 600 ≤ vNominal d + p.avs.trim ∧ vNominal d + p.avs.trim ≤ 800) := by
  refine ⟨
    ⟨ready, by decide +kernel⟩,
    ⟨ready, by decide +kernel⟩,
    ⟨{ ready with dt := 0, power := { ready.power with avs := { raise := some (7, 5) } } }, 7, 5, by decide +kernel⟩,
    ⟨{ ready with dt := 2464, power := { ready.power with avs := { raise := some (7, 5) } } }, 7, 5, by decide +kernel⟩,
    ⟨{ ready with dt := 2465, power := { ready.power with avs := { raise := some (7, 5) } } }, 7, 5, by decide +kernel⟩,
    ⟨ready, by decide +kernel⟩,
    ⟨{ ready with dt := 0, power := { ready.power with avs := { faulted := true } } }, by decide +kernel⟩,
    ⟨{ ready with dt := 0, power := { ready.power with avs := { failures := 2 } } }, by decide +kernel⟩,
    ⟨{ ready with dt := 0, power := { ready.power with avs := { failures := 3 } } }, by decide +kernel⟩,
    ⟨ready, 3, by decide +kernel⟩,
    ⟨ready, -30, by decide +kernel⟩,
    ⟨ready, 55, by decide +kernel⟩,
    ⟨{ ready with dt := 2457604, power := { ready.power with avs := { lastTrim := some 5 } } }, 5, .inr (.inr (.inr (.inr ⟨5, by decide +kernel, by decide +kernel⟩)))⟩,
    ⟨ready, -25, by decide +kernel, by decide +kernel, by decide +kernel, by decide +kernel, by rintro _ ⟨⟩⟩,
    ⟨{ ready with dt := 2457605, power := { ready.power with avs := { lastTrim := some 5 } } }, 50, by decide +kernel, by decide +kernel, by decide +kernel, by decide +kernel, by rintro _ ⟨⟩; decide +kernel⟩,
    ⟨{}, by decide +kernel⟩,
    ⟨{}, by decide +kernel⟩,
    ⟨{ avs := { trim := 25 } }, 4, by decide +kernel⟩,
    ⟨{}, 6, by decide +kernel⟩⟩

theorem witness_HeatAndLockRowsAct :
    (∃ (s : State), s.power.prochot = true) ∧
    (∃ (s : State) (t : _), s.power.prochot = false ∧ t = s.updPower (fun p => { (p.setDivisor s.dt 6).countTo s.dt with prochot := true, prochotAssertions := bump 64 p.prochotAssertions 1 }) ∧ s.boot.stage = .ready) ∧
    (∃ (s : State) (t : _), s.power.prochot = false ∧ t = s.updPower (fun p => { (p.setDivisor s.dt 6).countTo s.dt with prochot := true, prochotAssertions := bump 64 p.prochotAssertions 1 }) ∧ s.power.divisor ≤ 6) ∧
    (∃ (s : State) (t : _), s.power.prochot = false ∧ t = s.updPower (fun p => { (p.setDivisor s.dt 6).countTo s.dt with prochot := true, prochotAssertions := bump 64 p.prochotAssertions 1 }) ∧ s.power.divisor ≤ 6) ∧
    (∃ (s : State), s.power.prochot = false ∧ s.boot.stage ≠ .ready) ∧
    (∃ (s : State), s.power.prochot = false) ∧
    (∃ (s : State) (t : _), s.power.prochot = true ∧ t = s.updPower (fun p => { p.countTo s.dt with prochot := false }) ∧ s.boot.stage = .ready) ∧
    (∃ (s : State) (t : _), s.power.prochot = true ∧ t = s.updPower (fun p => { p.countTo s.dt with prochot := false }) ∧ s.boot.stage ≠ .ready) ∧
    (∃ (s : State) (t : _), s.power.prochot = true ∧ t = s.updPower (fun p => { p.countTo s.dt with prochot := false })) ∧
    (∃ (k : _), 16 ≤ k) ∧
    (∃ (s : State) (k : _) (x : _), k < 16 ∧ x = s.power.sensor k ∧ 95 ≤ x.temp ∧ s.dt < x.deferredSince.getD s.dt + 1474560000) ∧
    (∃ (s : State) (k : _) (x : _), k < 16 ∧ x = s.power.sensor k ∧ (x.temp < 95 ∨ x.deferredSince.getD s.dt + 1474560000 ≤ s.dt)) ∧
    (∃ (s : State) (k : _) (x : _), k < 16 ∧ x = s.power.sensor k ∧ (x.temp < 95 ∨ x.deferredSince.getD s.dt + 1474560000 ≤ s.dt)) ∧
    (∃ (s : State), s.power.tripped = true) ∧
    (∃ (s : State) (t : _) (recs : _), s.power.tripped = false ∧ s.boot.aonIn = true ∧ t = s.enterReset .thermalTrip ∧ recs = (if s.boot.flash.records.length < 4096 then s.boot.flash.records ++ [false] else s.boot.flash.records)) ∧
    (∃ (s : State), s.power.locked = true) ∧
    (∃ (s : State), s.power.locked = true) ∧
    (∃ (s : State), s.power.locked = false) ∧
    (∃ (s : State), s.power.locked = false ∧ s.boot.inReset = true ∧ s.power.tripped = false ∧ s.boot.aonIn = true ∧ s.boot.ioIn = true) ∧
    (∃ (s : State), s.power.locked = false ∧ (s.boot.inReset = false ∨ s.power.tripped = true ∨ s.boot.aonIn = false ∨ s.boot.ioIn = false)) ∧
    (∃ (s : State), s.power.locked = false ∧ (s.boot.inReset = false ∨ s.power.tripped = true ∨ s.boot.aonIn = false ∨ s.boot.ioIn = false)) := by
  refine ⟨
    ⟨{ ready with dt := 0, power := { ready.power with prochot := true } }, by decide +kernel⟩,
    ⟨ready, _, by decide +kernel, rfl, by decide +kernel⟩,
    ⟨ready, _, by decide +kernel, rfl, by decide +kernel⟩,
    ⟨ready, _, by decide +kernel, rfl, by decide +kernel⟩,
    ⟨State.reset, by decide +kernel⟩,
    ⟨ready, by decide +kernel⟩,
    ⟨{ ready with dt := 0, power := { ready.power with prochot := true } }, _, by decide +kernel, rfl, by decide +kernel⟩,
    ⟨{ State.reset with power := { prochot := true } }, _, by decide +kernel, rfl, by decide +kernel⟩,
    ⟨{ ready with dt := 0, power := { ready.power with prochot := true } }, _, by decide +kernel, rfl⟩,
    ⟨16, by decide +kernel⟩,
    ⟨{ ready with dt := 1474560002, power := { ready.power with sensors := [(15, { temp := 95, deferredSince := some 3 })] } }, 15, { temp := 95, deferredSince := some 3 }, by decide +kernel⟩,
    ⟨{ ready with dt := 1474560003, power := { ready.power with sensors := [(15, { temp := 95, deferredSince := some 3 })] } }, 15, { temp := 95, deferredSince := some 3 }, by decide +kernel⟩,
    ⟨ready, 15, {}, by decide +kernel⟩,
    ⟨{ ready with dt := 0, power := { ready.power with tripped := true } }, by decide +kernel⟩,
    ⟨ready, _, _, by decide +kernel, by decide +kernel, rfl, rfl⟩,
    ⟨ready, by decide +kernel⟩,
    ⟨ready, by decide +kernel⟩,
    ⟨{ ready with dt := 0, power := { ready.power with locked := false } }, by decide +kernel⟩,
    ⟨{ ready with power := { ready.power with locked := false }, boot := { ready.boot with inReset := true, aonIn := true, ioIn := true } }, by decide +kernel⟩,
    ⟨{ ready with power := { ready.power with locked := false } }, by decide +kernel⟩,
    ⟨{ ready with power := { ready.power with locked := false }, boot := { ready.boot with inReset := true, aonIn := true, ioIn := false } }, by decide +kernel⟩⟩

theorem witness_ResetRowsAct :
    (∃ (s : State) (cause : _) (t : _), t = s.enterReset cause) ∧
    (∃ (s : State) (ns : _), s.boot.aonIn = true ∧ 10000 ≤ ns) ∧
    (∃ (s : State), s.boot.watchdogArmed = true ∧ s.boot.refreshing = false ∧ s.boot.watchdogFrom + 12288000 ≤ s.dt) ∧
    (∃ (s : State), s.boot.watchdogArmed = true ∧ s.boot.refreshing = false ∧ s.dt < s.boot.watchdogFrom + 12288000) ∧
    (∃ (s : State), (s.boot.watchdogArmed = false ∨ s.boot.refreshing = true)) ∧
    (∃ (s : State), (s.boot.stage = .ready ∨ s.boot.stage = .rom ∨ s.boot.stage = .imageCheck ∨ s.dt < 36864000)) ∧
    (∃ (s : State), (s.boot.stage = .ready ∨ s.boot.stage = .rom ∨ s.boot.stage = .imageCheck ∨ s.dt < 36864000)) ∧
    (∃ (s : State), (s.boot.stage = .training ∨ s.boot.stage = .clear ∨ s.boot.stage = .selfTest ∨ s.boot.stage = .config) ∧ s.boot.inReset = false ∧ 36864000 ≤ s.dt) ∧
    (∃ (s : State) (t : _), s.boot.resetDt = some t ∧ s.dt < t) ∧
    (∃ (s : State) (t : _), s.boot.resetDt = some t ∧ t ≤ s.dt) ∧
    (∃ (s : State) (t : _), s.boot.fatal = some t ∧ s.boot.refreshing = true ∧ s.dt < t + 245760) ∧
    (∃ (s : State) (t : _), s.boot.fatal = some t ∧ s.boot.refreshing = true ∧ t + 245760 ≤ s.dt) ∧
    (∃ (s : State), s.boot.inReset = true ∧ s.power.locked = true ∧ s.power.tripped = false ∧ s.boot.aonIn = true ∧ s.boot.ioIn = true) ∧
    (∃ (s : State), s.boot.inReset = false) ∧
    (∃ (s : State), s.boot.aonIn = true) ∧
    (∃ (s : State), s.boot.aonIn = false) := by
  refine ⟨
    ⟨ready, .command, _, rfl⟩,
    ⟨ready, 10000, by decide +kernel⟩,
    ⟨{ ready with dt := 12288005, boot := { ready.boot with watchdogArmed := true, refreshing := false, watchdogFrom := 5 } }, by decide +kernel⟩,
    ⟨{ ready with dt := 12288004, boot := { ready.boot with watchdogArmed := true, refreshing := false, watchdogFrom := 5 } }, by decide +kernel⟩,
    ⟨ready, by decide +kernel⟩,
    ⟨{ ready with dt := 36864000, boot := { ready.boot with stage := .ready } }, by decide +kernel⟩,
    ⟨{ ready with dt := 36863999, boot := { ready.boot with stage := .config } }, by decide +kernel⟩,
    ⟨{ ready with dt := 36864000, boot := { ready.boot with stage := .config } }, by decide +kernel⟩,
    ⟨{ ready with dt := 4, boot := { ready.boot with resetDt := some 5 } }, 5, by decide +kernel⟩,
    ⟨{ ready with dt := 5, boot := { ready.boot with resetDt := some 5 } }, 5, by decide +kernel⟩,
    ⟨{ ready with dt := 245764, boot := { ready.boot with fatal := some 5 } }, 5, by decide +kernel⟩,
    ⟨{ ready with dt := 245765, boot := { ready.boot with fatal := some 5 } }, 5, by decide +kernel⟩,
    ⟨{ ready with dt := 0, boot := { ready.boot with inReset := true } }, by decide +kernel⟩,
    ⟨ready, by decide +kernel⟩,
    ⟨ready, by decide +kernel⟩,
    ⟨{ ready with dt := 0, boot := { ready.boot with aonIn := false } }, by decide +kernel⟩⟩

theorem witness_ShortResetPulsesAreIgnored :
    (∃ (ns : Nat), ns < 1000) ∧
    (∃ (s : State) (ns : Nat), ns < 1000 ∧ Quiet s) := by
  refine ⟨
    ⟨999, by decide +kernel⟩,
    ⟨ready, 999, by decide +kernel, quiet_lists (by decide +kernel)⟩⟩

theorem witness_BootStagesAct :
    (∃ (s : State), (s.boot.stage ≠ .rom ∨ s.boot.inReset = true)) ∧
    (∃ (s : State), (s.boot.stage ≠ .rom ∨ s.boot.inReset = true)) ∧
    (∃ (s : State), s.boot.stage = .rom ∧ s.boot.inReset = false) ∧
    (∃ (s : State) (t : _) (d : _), s.boot.stage = .rom ∧ s.boot.inReset = false ∧ s.boot.flash.copy0.valid = true ∧ t = s.noteTimeout.reportTrip ∧ d = t.boot.flash.dir ∧ (d.slot d.preferred).bootable = true) ∧
    (∃ (s : State), s.boot.stage ≠ .imageCheck) ∧
    (∃ (s : State), s.boot.stage = .imageCheck) ∧
    (∃ (s : State) (t : _) (k : _), s.boot.stage = .imageCheck ∧ k = s.boot.runningSlot ∧ t = s.updDir (fun d => d.updSlot k (fun x => { x with state := .bad })) ∧ s.boot.triedOther = true) ∧
    (∃ (s : State) (t : _) (k : _), s.boot.stage = .imageCheck ∧ k = s.boot.runningSlot ∧ t = s.updDir (fun d => d.updSlot k (fun x => { x with state := .bad })) ∧ s.boot.triedOther = false ∧ (t.boot.flash.dir.slot (1 - k)).bootable = true) ∧
    (∃ (s : State), s.boot.stage ≠ .training) ∧
    (∃ (s : State), s.boot.stage = .training) ∧
    (∃ (s : State), s.boot.stage = .training) ∧
    (∃ (s : State), s.boot.stage = .clear) ∧
    (∃ (s : State), s.boot.stage = .selfTest) ∧
    (∃ (s : State), s.boot.stage ≠ .config) ∧
    (∃ (s : State) (rings : _) (t : _) (v : _), s.boot.stage = .config ∧ s.boot.siteDefault = true ∧ t = ((s.applySite defaultSite).initRoutes).setRings rings ∧ v = (t.updDir (fun d => d.updSlot t.boot.runningSlot (fun x => { x with state := .good, timeouts := 0 }))).updBoot (fun b => { b with stage := .ready, watchdogArmed := true, refreshing := true, flash := if 4096 ≤ b.flash.records.length then { b.flash with records := [] } else b.flash })) ∧
    (∃ (s : State), s.boot.writing = none) ∧
    (∃ (s : State) (w : _), s.boot.writing = some w) ∧
    (∃ (s : State) (w : _) (k : _) (version : _) (length : _), s.boot.writing = some w ∧ w.job = .image k version length) := by
  refine ⟨
    ⟨ready, by decide +kernel⟩,
    ⟨{ ready with dt := 0, boot := { ready.boot with stage := .rom, inReset := true } }, by decide +kernel⟩,
    ⟨State.reset, by decide +kernel⟩,
    ⟨State.reset, _, _, by decide +kernel, by decide +kernel, by decide +kernel, rfl, rfl, by decide +kernel⟩,
    ⟨ready, by decide +kernel⟩,
    ⟨{ ready with dt := 0, boot := { ready.boot with stage := .imageCheck, triedOther := false } }, by decide +kernel⟩,
    ⟨{ ready with dt := 0, boot := { ready.boot with stage := .imageCheck, triedOther := true } }, _, _, by decide +kernel, rfl, rfl, by decide +kernel⟩,
    ⟨{ ready with dt := 0, boot := { ready.boot with stage := .imageCheck, flash := { copy0 := { valid := true, slot0 := { state := .activated }, slot1 := { state := .good } } } } }, _, _, by decide +kernel, rfl, rfl, by decide +kernel⟩,
    ⟨ready, by decide +kernel⟩,
    ⟨{ ready with dt := 0, boot := { ready.boot with stage := .training } }, by decide +kernel⟩,
    ⟨{ ready with dt := 0, boot := { ready.boot with stage := .training } }, by decide +kernel⟩,
    ⟨{ ready with dt := 0, boot := { ready.boot with stage := .clear } }, by decide +kernel⟩,
    ⟨{ ready with dt := 0, boot := { ready.boot with stage := .selfTest } }, by decide +kernel⟩,
    ⟨ready, by decide +kernel⟩,
    ⟨{ ready with dt := 0, boot := { ready.boot with stage := .config, siteDefault := true } }, [], _, _, by decide +kernel, by decide +kernel, rfl, rfl⟩,
    ⟨ready, by decide +kernel⟩,
    ⟨{ ready with dt := 0, boot := { ready.boot with writing := some { port := 0, cmd := 3, job := .image 1 7 4096 } } }, { port := 0, cmd := 3, job := .image 1 7 4096 }, by decide +kernel⟩,
    ⟨{ ready with dt := 0, boot := { ready.boot with writing := some { port := 0, cmd := 3, job := .image 1 7 4096 } } }, { port := 0, cmd := 3, job := .image 1 7 4096 }, 1, 7, 4096, by decide +kernel⟩⟩

theorem witness_EndpointAnswersItsOwnAddresses :
    (∃ (s : State) (r : MgmtReq), s.addressed r.medium r.dstEid = false) ∧
    (∃ (s : State) (r : MgmtReq), s.addressed r.medium r.dstEid = false) ∧
    (∃ (s : State) (r : MgmtReq), s.addressed r.medium r.dstEid = false) := by
  refine ⟨
    ⟨ready, request .smbus 9, by decide +kernel⟩,
    ⟨ready, request (.host 1) 0, by decide +kernel⟩,
    ⟨ready, request .smbus 9, by decide +kernel⟩⟩

theorem witness_ControlRequestsAnswer :
    (∃ (s : State) (v : State) (u : State) (r : MgmtReq) (op : _) (eid : _), Table.sortedFrom 0 s.mgmt.media = true ∧ s.addressed r.medium r.dstEid = true ∧ v = headTaken s r.medium ∧ op ≤ 1 ∧ 8 ≤ eid ∧ eid ≤ 254 ∧ u = v.updMedium r.medium (fun y => { y with eid := eid }) ∧ (v.medium r.medium).eid ≠ eid ∧ v.mgmt.receiver.map (·.1) = some r.medium) ∧
    (∃ (s : State) (v : State) (u : State) (r : MgmtReq) (op : _) (eid : _), Table.sortedFrom 0 s.mgmt.media = true ∧ s.addressed r.medium r.dstEid = true ∧ v = headTaken s r.medium ∧ op ≤ 1 ∧ 8 ≤ eid ∧ eid ≤ 254 ∧ u = v.updMedium r.medium (fun y => { y with eid := eid }) ∧ (v.medium r.medium).eid ≠ eid ∧ v.mgmt.receiver.map (·.1) = some r.medium) ∧
    (∃ (s : State) (v : State) (u : State) (r : MgmtReq) (op : _) (eid : _), Table.sortedFrom 0 s.mgmt.media = true ∧ s.addressed r.medium r.dstEid = true ∧ v = headTaken s r.medium ∧ op ≤ 1 ∧ 8 ≤ eid ∧ eid ≤ 254 ∧ u = v.updMedium r.medium (fun y => { y with eid := eid }) ∧ ((v.medium r.medium).eid = eid ∨ v.mgmt.receiver.map (·.1) ≠ some r.medium)) ∧
    (∃ (s : State) (v : State) (u : State) (r : MgmtReq) (op : _) (eid : _), Table.sortedFrom 0 s.mgmt.media = true ∧ s.addressed r.medium r.dstEid = true ∧ v = headTaken s r.medium ∧ op ≤ 1 ∧ 8 ≤ eid ∧ eid ≤ 254 ∧ u = v.updMedium r.medium (fun y => { y with eid := eid }) ∧ ((v.medium r.medium).eid = eid ∨ v.mgmt.receiver.map (·.1) ≠ some r.medium)) ∧
    (∃ (s : State) (v : State) (r : MgmtReq) (op : _) (eid : _), Table.sortedFrom 0 s.mgmt.media = true ∧ s.addressed r.medium r.dstEid = true ∧ v = headTaken s r.medium ∧ (1 < op ∨ eid < 8 ∨ 254 < eid)) ∧
    (∃ (s : State) (v : State) (r : MgmtReq) (op : _) (eid : _), Table.sortedFrom 0 s.mgmt.media = true ∧ s.addressed r.medium r.dstEid = true ∧ v = headTaken s r.medium ∧ (1 < op ∨ eid < 8 ∨ 254 < eid)) ∧
    (∃ (s : State) (v : State) (r : MgmtReq) (op : _) (eid : _), Table.sortedFrom 0 s.mgmt.media = true ∧ s.addressed r.medium r.dstEid = true ∧ v = headTaken s r.medium ∧ (1 < op ∨ eid < 8 ∨ 254 < eid)) ∧
    (∃ (s : State) (v : State) (r : MgmtReq), Table.sortedFrom 0 s.mgmt.media = true ∧ s.addressed r.medium r.dstEid = true ∧ v = headTaken s r.medium) ∧
    (∃ (s : State) (v : State) (r : MgmtReq), Table.sortedFrom 0 s.mgmt.media = true ∧ s.addressed r.medium r.dstEid = true ∧ v = headTaken s r.medium) ∧
    (∃ (s : State) (v : State) (r : MgmtReq), Table.sortedFrom 0 s.mgmt.media = true ∧ s.addressed r.medium r.dstEid = true ∧ v = headTaken s r.medium) ∧
    (∃ (s : State) (v : State) (r : MgmtReq), Table.sortedFrom 0 s.mgmt.media = true ∧ s.addressed r.medium r.dstEid = true ∧ v = headTaken s r.medium) ∧
    (∃ (s : State) (v : State) (r : MgmtReq), Table.sortedFrom 0 s.mgmt.media = true ∧ s.addressed r.medium r.dstEid = true ∧ v = headTaken s r.medium) ∧
    (∃ (s : State) (v : State) (r : MgmtReq), Table.sortedFrom 0 s.mgmt.media = true ∧ s.addressed r.medium r.dstEid = true ∧ v = headTaken s r.medium) ∧
    (∃ (s : State) (v : State) (r : MgmtReq) (ty : _), Table.sortedFrom 0 s.mgmt.media = true ∧ s.addressed r.medium r.dstEid = true ∧ v = headTaken s r.medium ∧ (ty = 255 ∨ ty = 0)) ∧
    (∃ (s : State) (v : State) (r : MgmtReq) (ty : _), Table.sortedFrom 0 s.mgmt.media = true ∧ s.addressed r.medium r.dstEid = true ∧ v = headTaken s r.medium ∧ (ty = 255 ∨ ty = 0)) ∧
    (∃ (s : State) (v : State) (r : MgmtReq) (ty : _), Table.sortedFrom 0 s.mgmt.media = true ∧ s.addressed r.medium r.dstEid = true ∧ v = headTaken s r.medium ∧ ty = 1) ∧
    (∃ (s : State) (v : State) (r : MgmtReq) (ty : _), Table.sortedFrom 0 s.mgmt.media = true ∧ s.addressed r.medium r.dstEid = true ∧ v = headTaken s r.medium ∧ 1 < ty ∧ ty ≠ 255) ∧
    (∃ (s : State) (v : State) (r : MgmtReq) (ty : _), Table.sortedFrom 0 s.mgmt.media = true ∧ s.addressed r.medium r.dstEid = true ∧ v = headTaken s r.medium ∧ 1 < ty ∧ ty ≠ 255) ∧
    (∃ (s : State) (v : State) (r : MgmtReq), Table.sortedFrom 0 s.mgmt.media = true ∧ s.addressed r.medium r.dstEid = true ∧ v = headTaken s r.medium ∧ r.medium = .smbus) ∧
    (∃ (s : State) (v : State) (r : MgmtReq), Table.sortedFrom 0 s.mgmt.media = true ∧ s.addressed r.medium r.dstEid = true ∧ v = headTaken s r.medium ∧ r.medium = .smbus) ∧
    (∃ (s : State) (v : State) (r : MgmtReq) (n : _), Table.sortedFrom 0 s.mgmt.media = true ∧ s.addressed r.medium r.dstEid = true ∧ v = headTaken s r.medium ∧ r.medium = .host n) ∧
    (∃ (s : State) (v : State) (r : MgmtReq) (n : _), Table.sortedFrom 0 s.mgmt.media = true ∧ s.addressed r.medium r.dstEid = true ∧ v = headTaken s r.medium ∧ r.medium = .host n) := by
  refine ⟨
    ⟨{ ready with mgmt := { media := [(0, { eid := 8 })], receiver := some (.smbus, 20) } }, _, _, request .smbus 0, 1, 254, by decide +kernel, by decide +kernel, rfl, by decide +kernel, by decide +kernel, by decide +kernel, rfl, by decide +kernel⟩,
    ⟨{ ready with mgmt := { media := [(0, { eid := 8 })], receiver := some (.smbus, 20) } }, _, _, request .smbus 8, 0, 9, by decide +kernel, by decide +kernel, rfl, by decide +kernel, by decide +kernel, by decide +kernel, rfl, by decide +kernel⟩,
    ⟨ready, _, _, request .smbus 0, 0, 8, by decide +kernel, by decide +kernel, rfl, by decide +kernel, by decide +kernel, by decide +kernel, rfl, by decide +kernel⟩,
    ⟨{ ready with mgmt := { media := [(0, { eid := 8 })], receiver := some (.smbus, 20) } }, _, _, request .smbus 0, 0, 8, by decide +kernel, by decide +kernel, rfl, by decide +kernel, by decide +kernel, by decide +kernel, rfl, by decide +kernel⟩,
    ⟨ready, _, request .smbus 0, 2, 8, by decide +kernel, by decide +kernel, rfl, by decide +kernel⟩,
    ⟨ready, _, request .smbus 0, 0, 7, by decide +kernel, by decide +kernel, rfl, by decide +kernel⟩,
    ⟨ready, _, request .smbus 0, 0, 255, by decide +kernel, by decide +kernel, rfl, by decide +kernel⟩,
    ⟨ready, _, request .smbus 0, by decide +kernel, by decide +kernel, rfl⟩,
    ⟨ready, _, request (.host 0) 0, by decide +kernel, by decide +kernel, rfl⟩,
    ⟨ready, _, request .smbus 0, by decide +kernel, by decide +kernel, rfl⟩,
    ⟨ready, _, request .smbus 0, by decide +kernel, by decide +kernel, rfl⟩,
    ⟨ready, _, request .smbus 0, by decide +kernel, by decide +kernel, rfl⟩,
    ⟨ready, _, request .smbus 0, by decide +kernel, by decide +kernel, rfl⟩,
    ⟨ready, _, request .smbus 0, 255, by decide +kernel, by decide +kernel, rfl, by decide +kernel⟩,
    ⟨ready, _, request .smbus 0, 0, by decide +kernel, by decide +kernel, rfl, by decide +kernel⟩,
    ⟨ready, _, request .smbus 0, 1, by decide +kernel, by decide +kernel, rfl, by decide +kernel⟩,
    ⟨ready, _, request .smbus 0, 2, by decide +kernel, by decide +kernel, rfl, by decide +kernel⟩,
    ⟨ready, _, request .smbus 0, 254, by decide +kernel, by decide +kernel, rfl, by decide +kernel⟩,
    ⟨ready, _, request .smbus 0, by decide +kernel, by decide +kernel, rfl, by decide +kernel⟩,
    ⟨ready, _, request .smbus 0, by decide +kernel, by decide +kernel, rfl, by decide +kernel⟩,
    ⟨ready, _, request (.host 0) 0, 0, by decide +kernel, by decide +kernel, rfl, by decide +kernel⟩,
    ⟨ready, _, request (.host 0) 0, 0, by decide +kernel, by decide +kernel, rfl, by decide +kernel⟩⟩

theorem witness_PldmBaseRequestsAnswer :
    (∃ (s : State) (v : State) (r : MgmtReq) (tid : _), Table.sortedFrom 0 s.mgmt.media = true ∧ s.addressed r.medium r.dstEid = true ∧ v = headTaken s r.medium ∧ 1 ≤ tid ∧ tid ≤ 254) ∧
    (∃ (s : State) (v : State) (r : MgmtReq) (tid : _), Table.sortedFrom 0 s.mgmt.media = true ∧ s.addressed r.medium r.dstEid = true ∧ v = headTaken s r.medium ∧ 1 ≤ tid ∧ tid ≤ 254) ∧
    (∃ (s : State) (v : State) (r : MgmtReq) (tid : _), Table.sortedFrom 0 s.mgmt.media = true ∧ s.addressed r.medium r.dstEid = true ∧ v = headTaken s r.medium ∧ (tid < 1 ∨ 254 < tid)) ∧
    (∃ (s : State) (v : State) (r : MgmtReq) (tid : _), Table.sortedFrom 0 s.mgmt.media = true ∧ s.addressed r.medium r.dstEid = true ∧ v = headTaken s r.medium ∧ (tid < 1 ∨ 254 < tid)) ∧
    (∃ (s : State) (v : State) (r : MgmtReq), Table.sortedFrom 0 s.mgmt.media = true ∧ s.addressed r.medium r.dstEid = true ∧ v = headTaken s r.medium) ∧
    (∃ (s : State) (v : State) (r : MgmtReq), Table.sortedFrom 0 s.mgmt.media = true ∧ s.addressed r.medium r.dstEid = true ∧ v = headTaken s r.medium) ∧
    (∃ (s : State) (v : State) (r : MgmtReq), Table.sortedFrom 0 s.mgmt.media = true ∧ s.addressed r.medium r.dstEid = true ∧ v = headTaken s r.medium) ∧
    (∃ (s : State) (v : State) (r : MgmtReq), Table.sortedFrom 0 s.mgmt.media = true ∧ s.addressed r.medium r.dstEid = true ∧ v = headTaken s r.medium) ∧
    (∃ (s : State) (v : State) (r : MgmtReq), Table.sortedFrom 0 s.mgmt.media = true ∧ s.addressed r.medium r.dstEid = true ∧ v = headTaken s r.medium) ∧
    (∃ (s : State) (v : State) (r : MgmtReq), Table.sortedFrom 0 s.mgmt.media = true ∧ s.addressed r.medium r.dstEid = true ∧ v = headTaken s r.medium) ∧
    (∃ (s : State) (v : State) (r : MgmtReq), Table.sortedFrom 0 s.mgmt.media = true ∧ s.addressed r.medium r.dstEid = true ∧ v = headTaken s r.medium) ∧
    (∃ (s : State) (v : State) (r : MgmtReq) (ty : _), Table.sortedFrom 0 s.mgmt.media = true ∧ s.addressed r.medium r.dstEid = true ∧ v = headTaken s r.medium ∧ ty ≠ 0 ∧ ty ≠ 2) ∧
    (∃ (s : State) (v : State) (r : MgmtReq) (ty : _), Table.sortedFrom 0 s.mgmt.media = true ∧ s.addressed r.medium r.dstEid = true ∧ v = headTaken s r.medium ∧ ty ≠ 0 ∧ ty ≠ 2) ∧
    (∃ (s : State) (v : State) (r : MgmtReq) (k : _), Table.sortedFrom 0 s.mgmt.media = true ∧ s.addressed r.medium r.dstEid = true ∧ v = headTaken s r.medium ∧ k ≤ 1) ∧
    (∃ (s : State) (v : State) (r : MgmtReq) (k : _), Table.sortedFrom 0 s.mgmt.media = true ∧ s.addressed r.medium r.dstEid = true ∧ v = headTaken s r.medium ∧ k ≤ 1) ∧
    (∃ (s : State) (v : State) (r : MgmtReq) (k : _), Table.sortedFrom 0 s.mgmt.media = true ∧ s.addressed r.medium r.dstEid = true ∧ v = headTaken s r.medium ∧ 1 ≤ k ∧ k ≤ 35) ∧
    (∃ (s : State) (v : State) (r : MgmtReq) (k : _), Table.sortedFrom 0 s.mgmt.media = true ∧ s.addressed r.medium r.dstEid = true ∧ v = headTaken s r.medium ∧ 1 ≤ k ∧ k ≤ 35) ∧
    (∃ (s : State) (v : State) (r : MgmtReq) (k : _), Table.sortedFrom 0 s.mgmt.media = true ∧ s.addressed r.medium r.dstEid = true ∧ v = headTaken s r.medium ∧ 64 ≤ k ∧ k ≤ 91) ∧
    (∃ (s : State) (v : State) (r : MgmtReq) (k : _), Table.sortedFrom 0 s.mgmt.media = true ∧ s.addressed r.medium r.dstEid = true ∧ v = headTaken s r.medium ∧ 64 ≤ k ∧ k ≤ 91) ∧
    (∃ (s : State) (v : State) (r : MgmtReq) (k : _), Table.sortedFrom 0 s.mgmt.media = true ∧ s.addressed r.medium r.dstEid = true ∧ v = headTaken s r.medium ∧ 64 < k) := by
  refine ⟨
    ⟨ready, _, request .smbus 0, 1, by decide +kernel, by decide +kernel, rfl, by decide +kernel⟩,
    ⟨ready, _, request .smbus 0, 254, by decide +kernel, by decide +kernel, rfl, by decide +kernel⟩,
    ⟨ready, _, request .smbus 0, 0, by decide +kernel, by decide +kernel, rfl, by decide +kernel⟩,
    ⟨ready, _, request .smbus 0, 255, by decide +kernel, by decide +kernel, rfl, by decide +kernel⟩,
    ⟨ready, _, request .smbus 0, by decide +kernel, by decide +kernel, rfl⟩,
    ⟨ready, _, request .smbus 0, by decide +kernel, by decide +kernel, rfl⟩,
    ⟨ready, _, request .smbus 0, by decide +kernel, by decide +kernel, rfl⟩,
    ⟨ready, _, request .smbus 0, by decide +kernel, by decide +kernel, rfl⟩,
    ⟨ready, _, request .smbus 0, by decide +kernel, by decide +kernel, rfl⟩,
    ⟨ready, _, request .smbus 0, by decide +kernel, by decide +kernel, rfl⟩,
    ⟨ready, _, request .smbus 0, by decide +kernel, by decide +kernel, rfl⟩,
    ⟨ready, _, request .smbus 0, 1, by decide +kernel, by decide +kernel, rfl, by decide +kernel⟩,
    ⟨ready, _, request .smbus 0, 63, by decide +kernel, by decide +kernel, rfl, by decide +kernel⟩,
    ⟨ready, _, request .smbus 0, 0, by decide +kernel, by decide +kernel, rfl, by decide +kernel⟩,
    ⟨ready, _, request .smbus 0, 1, by decide +kernel, by decide +kernel, rfl, by decide +kernel⟩,
    ⟨ready, _, request .smbus 0, 1, by decide +kernel, by decide +kernel, rfl, by decide +kernel⟩,
    ⟨ready, _, request .smbus 0, 35, by decide +kernel, by decide +kernel, rfl, by decide +kernel⟩,
    ⟨ready, _, request .smbus 0, 64, by decide +kernel, by decide +kernel, rfl, by decide +kernel⟩,
    ⟨ready, _, request .smbus 0, 91, by decide +kernel, by decide +kernel, rfl, by decide +kernel⟩,
    ⟨ready, _, request .smbus 0, 65, by decide +kernel, by decide +kernel, rfl, by decide +kernel⟩⟩

theorem witness_SensorRequestsAnswer :
    (∃ (s : State) (v : State) (r : MgmtReq) (k : _), s.addressed r.medium r.dstEid = true ∧ v = headTaken s r.medium ∧ 1 ≤ k ∧ k ≤ 35 ∧ s.operational k = .enabled) ∧
    (∃ (s : State) (v : State) (r : MgmtReq) (k : _), s.addressed r.medium r.dstEid = true ∧ v = headTaken s r.medium ∧ 1 ≤ k ∧ k ≤ 35 ∧ s.operational k = .enabled) ∧
    (∃ (s : State) (v : State) (r : MgmtReq) (k : _), s.addressed r.medium r.dstEid = true ∧ v = headTaken s r.medium ∧ 1 ≤ k ∧ k ≤ 35 ∧ s.operational k ≠ .enabled) ∧
    (∃ (s : State) (v : State) (r : MgmtReq) (k : _), s.addressed r.medium r.dstEid = true ∧ v = headTaken s r.medium ∧ 1 ≤ k ∧ k ≤ 35 ∧ s.operational k ≠ .enabled) ∧
    (∃ (s : State) (v : State) (r : MgmtReq) (k : _), s.addressed r.medium r.dstEid = true ∧ v = headTaken s r.medium ∧ 1 ≤ k ∧ k ≤ 35) ∧
    (∃ (s : State) (v : State) (r : MgmtReq) (k : _), s.addressed r.medium r.dstEid = true ∧ v = headTaken s r.medium ∧ 1 ≤ k ∧ k ≤ 35) ∧
    (∃ (s : State) (v : State) (r : MgmtReq) (k : _), s.addressed r.medium r.dstEid = true ∧ v = headTaken s r.medium ∧ (k = 0 ∨ 35 < k)) ∧
    (∃ (s : State) (v : State) (r : MgmtReq) (k : _), s.addressed r.medium r.dstEid = true ∧ v = headTaken s r.medium ∧ (k = 0 ∨ 35 < k)) ∧
    (∃ (s : State) (v : State) (r : MgmtReq) (k : _), s.addressed r.medium r.dstEid = true ∧ v = headTaken s r.medium ∧ (k = 0 ∨ 35 < k)) ∧
    (∃ (s : State) (v : State) (r : MgmtReq) (k : _), s.addressed r.medium r.dstEid = true ∧ v = headTaken s r.medium ∧ (k = 0 ∨ 35 < k)) ∧
    (∃ (s : State) (v : State) (r : MgmtReq) (k : _), s.addressed r.medium r.dstEid = true ∧ v = headTaken s r.medium ∧ 64 ≤ k ∧ k ≤ 91 ∧ s.operational k = .enabled) ∧
    (∃ (s : State) (v : State) (r : MgmtReq) (k : _), s.addressed r.medium r.dstEid = true ∧ v = headTaken s r.medium ∧ 64 ≤ k ∧ k ≤ 91 ∧ s.operational k = .enabled) ∧
    (∃ (s : State) (v : State) (r : MgmtReq) (k : _), s.addressed r.medium r.dstEid = true ∧ v = headTaken s r.medium ∧ 64 ≤ k ∧ k ≤ 91 ∧ s.operational k ≠ .enabled ∧ k ≠ 67) ∧
    (∃ (s : State) (v : State) (r : MgmtReq) (k : _), s.addressed r.medium r.dstEid = true ∧ v = headTaken s r.medium ∧ (k < 64 ∨ 91 < k)) ∧
    (∃ (s : State) (v : State) (r : MgmtReq) (k : _), s.addressed r.medium r.dstEid = true ∧ v = headTaken s r.medium ∧ (k < 64 ∨ 91 < k)) ∧
    (∃ (s : State) (v : State) (r : MgmtReq), s.addressed r.medium r.dstEid = true ∧ v = headTaken s r.medium ∧ s.power.tripped = true) ∧
    (∃ (s : State) (v : State) (r : MgmtReq), s.addressed r.medium r.dstEid = true ∧ v = headTaken s r.medium ∧ s.power.tripped = true) ∧
    (∃ (s : State) (v : State) (r : MgmtReq), s.addressed r.medium r.dstEid = true ∧ v = headTaken s r.medium ∧ s.power.tripped = false ∧ s.boot.inReset = true) ∧
    (∃ (s : State) (v : State) (r : MgmtReq), s.addressed r.medium r.dstEid = true ∧ v = headTaken s r.medium ∧ s.power.tripped = false ∧ s.boot.inReset = true) ∧
    (∃ (s : State) (v : State) (r : MgmtReq), s.addressed r.medium r.dstEid = true ∧ v = headTaken s r.medium ∧ s.power.tripped = false ∧ s.boot.inReset = true) ∧
    (∃ (s : State) (v : State) (r : MgmtReq), s.addressed r.medium r.dstEid = true ∧ v = headTaken s r.medium ∧ s.power.tripped = false ∧ s.boot.inReset = true) ∧
    (∃ (s : State) (v : State) (r : MgmtReq), s.addressed r.medium r.dstEid = true ∧ v = headTaken s r.medium ∧ s.power.tripped = false ∧ s.boot.inReset = false ∧ s.boot.fatal.isSome = true) ∧
    (∃ (s : State) (v : State) (r : MgmtReq), s.addressed r.medium r.dstEid = true ∧ v = headTaken s r.medium ∧ s.power.tripped = false ∧ s.boot.inReset = false ∧ s.boot.fatal = none ∧ s.boot.stage = .ready) ∧
    (∃ (s : State) (v : State) (r : MgmtReq) (k : _), s.addressed r.medium r.dstEid = true ∧ v = headTaken s r.medium ∧ s.power.tripped = false ∧ s.boot.inReset = false ∧ s.boot.fatal = none ∧ s.boot.stage = .ready ∧ 1 ≤ k ∧ k ≤ 91) ∧
    (∃ (s : State) (v : State) (r : MgmtReq) (k : _), s.addressed r.medium r.dstEid = true ∧ v = headTaken s r.medium ∧ s.power.tripped = false ∧ s.boot.inReset = false ∧ s.boot.fatal = none ∧ s.boot.stage = .ready ∧ 1 ≤ k ∧ k ≤ 91) ∧
    (∃ (s : State) (v : State) (r : MgmtReq), s.addressed r.medium r.dstEid = true ∧ v = headTaken s r.medium) ∧
    (∃ (s : State) (v : State) (r : MgmtReq) (t : Thresholds) (before : _) (x : _), s.addressed r.medium r.dstEid = true ∧ v = headTaken s r.medium ∧ t.severity x < codeSeverity before ∧ t.cleared (codeSeverity before) x = false) := by
  refine ⟨
    ⟨ready, _, request .smbus 0, 1, by decide +kernel, rfl, by decide +kernel⟩,
    ⟨ready, _, request .smbus 0, 35, by decide +kernel, rfl, by decide +kernel⟩,
    ⟨State.reset, _, request .smbus 0, 1, by decide +kernel, rfl, by decide +kernel⟩,
    ⟨{ ready with boot := { ready.boot with inReset := true } }, _, request .smbus 0, 1, by decide +kernel, rfl, by decide +kernel⟩,
    ⟨ready, _, request .smbus 0, 1, by decide +kernel, rfl, by decide +kernel⟩,
    ⟨ready, _, request .smbus 0, 35, by decide +kernel, rfl, by decide +kernel⟩,
    ⟨ready, _, request .smbus 0, 0, by decide +kernel, rfl, by decide +kernel⟩,
    ⟨ready, _, request .smbus 0, 36, by decide +kernel, rfl, by decide +kernel⟩,
    ⟨ready, _, request .smbus 0, 0, by decide +kernel, rfl, by decide +kernel⟩,
    ⟨ready, _, request .smbus 0, 36, by decide +kernel, rfl, by decide +kernel⟩,
    ⟨ready, _, request .smbus 0, 64, by decide +kernel, rfl, by decide +kernel⟩,
    ⟨ready, _, request .smbus 0, 91, by decide +kernel, rfl, by decide +kernel⟩,
    ⟨{ ready with boot := { ready.boot with inReset := true } }, _, request .smbus 0, 65, by decide +kernel, rfl, by decide +kernel⟩,
    ⟨ready, _, request .smbus 0, 63, by decide +kernel, rfl, by decide +kernel⟩,
    ⟨ready, _, request .smbus 0, 92, by decide +kernel, rfl, by decide +kernel⟩,
    ⟨{ ready with dt := 0, power := { ready.power with tripped := true } }, _, request .smbus 0, by decide +kernel, rfl, by decide +kernel⟩,
    ⟨{ ready with dt := 0, power := { ready.power with tripped := true } }, _, request .smbus 0, by decide +kernel, rfl, by decide +kernel⟩,
    ⟨{ ready with boot := { ready.boot with inReset := true } }, _, request .smbus 0, by decide +kernel, rfl, by decide +kernel⟩,
    ⟨{ ready with boot := { ready.boot with inReset := true } }, _, request .smbus 0, by decide +kernel, rfl, by decide +kernel⟩,
    ⟨{ ready with boot := { ready.boot with inReset := true } }, _, request .smbus 0, by decide +kernel, rfl, by decide +kernel⟩,
    ⟨{ ready with boot := { ready.boot with inReset := true } }, _, request .smbus 0, by decide +kernel, rfl, by decide +kernel⟩,
    ⟨{ ready with dt := 0, boot := { ready.boot with fatal := some 3 } }, _, request .smbus 0, by decide +kernel, rfl, by decide +kernel⟩,
    ⟨ready, _, request .smbus 0, by decide +kernel, rfl, by decide +kernel⟩,
    ⟨ready, _, request .smbus 0, 1, by decide +kernel, rfl, by decide +kernel⟩,
    ⟨ready, _, request .smbus 0, 91, by decide +kernel, rfl, by decide +kernel⟩,
    ⟨ready, _, request .smbus 0, by decide +kernel, rfl⟩,
    ⟨ready, _, request .smbus 0, (ready.thresholds 1), 8, 99, by decide +kernel, rfl, by decide +kernel⟩⟩

theorem witness_EventRowsAct :
    (∃ (s : State) (v : State) (r : MgmtReq), v = headTaken s r.medium ∧ s.addressed r.medium r.dstEid = true) ∧
    (∃ (s : State) (v : State) (r : MgmtReq) (eid : _), v = headTaken s r.medium ∧ s.addressed r.medium r.dstEid = true ∧ v.mgmt.receiver = some (r.medium, eid)) ∧
    (∃ (s : State) (v : State) (r : MgmtReq) (eid : _), v = headTaken s r.medium ∧ s.addressed r.medium r.dstEid = true ∧ v.mgmt.receiver ≠ some (r.medium, eid)) ∧
    (∃ (s : State) (v : State) (r : MgmtReq) (eid : _), v = headTaken s r.medium ∧ s.addressed r.medium r.dstEid = true ∧ v.mgmt.receiver ≠ some (r.medium, eid)) ∧
    (∃ (s : State) (v : State) (r : MgmtReq) (e : _), v = headTaken s r.medium ∧ s.addressed r.medium r.dstEid = true ∧ 1 < e) ∧
    (∃ (s : State) (v : State) (r : MgmtReq), v = headTaken s r.medium ∧ s.addressed r.medium r.dstEid = true ∧ s.mgmt.receiver = none) ∧
    (∃ (s : State) (v : State) (r : MgmtReq) (m : _) (eid : _), v = headTaken s r.medium ∧ s.addressed r.medium r.dstEid = true ∧ s.mgmt.receiver = some (m, eid)) ∧
    (∃ (s : State) (v : State) (r : MgmtReq), v = headTaken s r.medium) ∧
    (∃ (s : State) (v : State) (r : MgmtReq) (m : _) (k : _), v = headTaken s r.medium ∧ (s.mgmt.receiver.map (·.1) ≠ some m ∨ s.mediumUp m = false ∨ s.mgmt.unacked.find? (fun e => e.sensor == k) = none)) ∧
    (∃ (s : State) (v : State) (r : MgmtReq) (m : _) (k : _) (eid : _) (e : _), v = headTaken s r.medium ∧ s.mgmt.receiver = some (m, eid) ∧ s.mediumUp m = true ∧ s.mgmt.unacked.find? (fun e => e.sensor == k) = some e) ∧
    (∃ (s : State) (v : State) (r : MgmtReq) (m : _) (k : _) (eid : _) (e : _), v = headTaken s r.medium ∧ s.mgmt.receiver = some (m, eid) ∧ s.mediumUp m = true ∧ s.mgmt.unacked.find? (fun e => e.sensor == k) = some e ∧ e.tries < 3) ∧
    (∃ (s : State) (v : State) (r : MgmtReq) (m : _) (k : _) (eid : _) (e : _), v = headTaken s r.medium ∧ s.mgmt.receiver = some (m, eid) ∧ s.mediumUp m = true ∧ s.mgmt.unacked.find? (fun e => e.sensor == k) = some e ∧ 3 ≤ e.tries) ∧
    (∃ (s : State) (v : State) (r : MgmtReq) (k : _), v = headTaken s r.medium ∧ (s.mgmt.receiver = none ∨ s.mgmt.unacked.find? (fun e => e.sensor == k) = none)) ∧
    (∃ (s : State) (v : State) (r : MgmtReq) (k : _), v = headTaken s r.medium ∧ ((s.watch k).sentDt = none ∨ s.endpointRuns = false ∨ ∃ t, (s.watch k).sentDt = some t ∧ t ≤ s.dt ∧ s.dt < t + 24576000)) ∧
    (∃ (s : State) (v : State) (r : MgmtReq) (k : _), v = headTaken s r.medium ∧ ((s.watch k).sentDt = none ∨ s.endpointRuns = false ∨ ∃ t, (s.watch k).sentDt = some t ∧ t ≤ s.dt ∧ s.dt < t + 24576000)) ∧
    (∃ (s : State) (v : State) (r : MgmtReq) (k : _) (t : _), v = headTaken s r.medium ∧ (s.watch k).sentDt = some t ∧ s.endpointRuns = true ∧ t + 24576000 ≤ s.dt ∧ (s.watch k).waiting = true) ∧
    (∃ (s : State) (v : State) (r : MgmtReq) (k : _) (t : _), v = headTaken s r.medium ∧ (s.watch k).sentDt = some t ∧ s.endpointRuns = true ∧ t + 24576000 ≤ s.dt ∧ (s.watch k).waiting = false) := by
  refine ⟨
    ⟨ready, _, request .smbus 0, rfl, by decide +kernel⟩,
    ⟨{ ready with mgmt := { media := [(0, { eid := 8 })], receiver := some (.smbus, 20) } }, _, request .smbus 0, 20, rfl, by decide +kernel⟩,
    ⟨ready, _, request .smbus 0, 20, rfl, by decide +kernel⟩,
    ⟨{ ready with mgmt := { media := [(0, { eid := 8 })], receiver := some (.smbus, 20) } }, _, request .smbus 0, 21, rfl, by decide +kernel⟩,
    ⟨ready, _, request .smbus 0, 2, rfl, by decide +kernel⟩,
    ⟨ready, _, request .smbus 0, rfl, by decide +kernel⟩,
    ⟨{ ready with mgmt := { media := [(0, { eid := 8 })], receiver := some (.smbus, 20) } }, _, request .smbus 0, .smbus, 20, rfl, by decide +kernel⟩,
    ⟨ready, _, request .smbus 0, rfl⟩,
    ⟨ready, _, request .smbus 0, .smbus, 64, rfl, by decide +kernel⟩,
    ⟨{ ready with mgmt := { receiver := some (.smbus, 20), unacked := [{ sensor := 64, state := 3, previous := 2, tries := 1 }] } }, _, request .smbus 0, .smbus, 64, 20, { sensor := 64, state := 3, previous := 2, tries := 1 }, rfl, by decide +kernel⟩,
    ⟨{ ready with mgmt := { receiver := some (.smbus, 20), unacked := [{ sensor := 64, state := 3, previous := 2, tries := 2 }] } }, _, request .smbus 0, .smbus, 64, 20, { sensor := 64, state := 3, previous := 2, tries := 2 }, rfl, by decide +kernel⟩,
    ⟨{ ready with mgmt := { receiver := some (.smbus, 20), unacked := [{ sensor := 64, state := 3, previous := 2, tries := 3 }] } }, _, request .smbus 0, .smbus, 64, 20, { sensor := 64, state := 3, previous := 2, tries := 3 }, rfl, by decide +kernel⟩,
    ⟨ready, _, request .smbus 0, 64, rfl, by decide +kernel⟩,
    ⟨ready, _, request .smbus 0, 64, rfl, by decide +kernel⟩,
    ⟨{ ready with dt := 24576004, mgmt := { receiver := some (.smbus, 20), sensors := [(64, { sentDt := some 5 })] } }, _, request .smbus 0, 64, rfl, .inr (.inr ⟨5, by decide +kernel, by decide +kernel, by decide +kernel⟩)⟩,
    ⟨{ ready with dt := 24576005, mgmt := { receiver := some (.smbus, 20), sensors := [(64, { sentDt := some 5, waiting := true })] } }, _, request .smbus 0, 64, 5, rfl, by decide +kernel⟩,
    ⟨{ ready with dt := 24576005, mgmt := { receiver := some (.smbus, 20), sensors := [(64, { sentDt := some 5 })] } }, _, request .smbus 0, 64, 5, rfl, by decide +kernel⟩⟩

theorem witness_PacketsReassemble :
    (∃ (s : State) (m : Medium) (p : MctpPacket), (s.addressed m p.dstEid = false ∨ 64 < p.payload.length ∨ (m = .smbus ∧ (p.pecOk = false ∨ p.slave ≠ s.smbusAddress)))) ∧
    (∃ (s : State) (m : Medium) (p : MctpPacket), (s.addressed m p.dstEid = false ∨ 64 < p.payload.length ∨ (m = .smbus ∧ (p.pecOk = false ∨ p.slave ≠ s.smbusAddress)))) ∧
    (∃ (s : State) (m : Medium) (p : MctpPacket), (s.addressed m p.dstEid = false ∨ 64 < p.payload.length ∨ (m = .smbus ∧ (p.pecOk = false ∨ p.slave ≠ s.smbusAddress)))) ∧
    (∃ (s : State) (m : Medium) (p : MctpPacket), (s.addressed m p.dstEid = false ∨ 64 < p.payload.length ∨ (m = .smbus ∧ (p.pecOk = false ∨ p.slave ≠ s.smbusAddress)))) ∧
    (∃ (s : State) (m : Medium) (p : MctpPacket) (others : _) (bs : _), s.addressed m p.dstEid = true ∧ p.payload.length ≤ 64 ∧ (m = .smbus → p.pecOk = true ∧ p.slave = s.smbusAddress) ∧ others = (s.medium m).parts.filter (fun y => !y.matches p) ∧ bs = p.payload.map (· % 256) ∧ p.som = true ∧ p.eom = false ∧ others.length < 4) ∧
    (∃ (s : State) (m : Medium) (p : MctpPacket) (others : _) (bs : _), s.addressed m p.dstEid = true ∧ p.payload.length ≤ 64 ∧ (m = .smbus → p.pecOk = true ∧ p.slave = s.smbusAddress) ∧ others = (s.medium m).parts.filter (fun y => !y.matches p) ∧ bs = p.payload.map (· % 256) ∧ p.som = true ∧ p.eom = false ∧ others.length < 4) ∧
    (∃ (s : State) (m : Medium) (p : MctpPacket) (others : _) (bs : _), s.addressed m p.dstEid = true ∧ p.payload.length ≤ 64 ∧ (m = .smbus → p.pecOk = true ∧ p.slave = s.smbusAddress) ∧ others = (s.medium m).parts.filter (fun y => !y.matches p) ∧ bs = p.payload.map (· % 256) ∧ p.som = true ∧ p.eom = false ∧ others.length < 4) ∧
    (∃ (s : State) (m : Medium) (p : MctpPacket) (others : _) (bs : _), s.addressed m p.dstEid = true ∧ p.payload.length ≤ 64 ∧ (m = .smbus → p.pecOk = true ∧ p.slave = s.smbusAddress) ∧ others = (s.medium m).parts.filter (fun y => !y.matches p) ∧ bs = p.payload.map (· % 256) ∧ p.som = true ∧ p.eom = true ∧ others.length < 4) ∧
    (∃ (s : State) (m : Medium) (p : MctpPacket) (others : _) (bs : _), s.addressed m p.dstEid = true ∧ p.payload.length ≤ 64 ∧ (m = .smbus → p.pecOk = true ∧ p.slave = s.smbusAddress) ∧ others = (s.medium m).parts.filter (fun y => !y.matches p) ∧ bs = p.payload.map (· % 256) ∧ p.som = true ∧ 4 ≤ others.length) ∧
    (∃ (s : State) (m : Medium) (p : MctpPacket) (others : _) (bs : _), s.addressed m p.dstEid = true ∧ p.payload.length ≤ 64 ∧ (m = .smbus → p.pecOk = true ∧ p.slave = s.smbusAddress) ∧ others = (s.medium m).parts.filter (fun y => !y.matches p) ∧ bs = p.payload.map (· % 256) ∧ p.som = false ∧ (s.medium m).parts.find? (fun y => y.matches p) = none) ∧
    (∃ (s : State) (m : Medium) (p : MctpPacket) (others : _) (bs : _) (x : _), s.addressed m p.dstEid = true ∧ p.payload.length ≤ 64 ∧ (m = .smbus → p.pecOk = true ∧ p.slave = s.smbusAddress) ∧ others = (s.medium m).parts.filter (fun y => !y.matches p) ∧ bs = p.payload.map (· % 256) ∧ p.som = false ∧ (s.medium m).parts.find? (fun y => y.matches p) = some x ∧ (x.nextSeq % 4 ≠ p.pktSeq % 4 ∨ 1024 < (x.bytes ++ bs).length)) ∧
    (∃ (s : State) (m : Medium) (p : MctpPacket) (others : _) (bs : _) (x : _), s.addressed m p.dstEid = true ∧ p.payload.length ≤ 64 ∧ (m = .smbus → p.pecOk = true ∧ p.slave = s.smbusAddress) ∧ others = (s.medium m).parts.filter (fun y => !y.matches p) ∧ bs = p.payload.map (· % 256) ∧ p.som = false ∧ (s.medium m).parts.find? (fun y => y.matches p) = some x ∧ (x.nextSeq % 4 ≠ p.pktSeq % 4 ∨ 1024 < (x.bytes ++ bs).length)) ∧
    (∃ (s : State) (m : Medium) (p : MctpPacket) (others : _) (bs : _) (x : _), s.addressed m p.dstEid = true ∧ p.payload.length ≤ 64 ∧ (m = .smbus → p.pecOk = true ∧ p.slave = s.smbusAddress) ∧ others = (s.medium m).parts.filter (fun y => !y.matches p) ∧ bs = p.payload.map (· % 256) ∧ p.som = false ∧ (s.medium m).parts.find? (fun y => y.matches p) = some x ∧ x.nextSeq % 4 = p.pktSeq % 4 ∧ (x.bytes ++ bs).length ≤ 1024 ∧ p.eom = true) ∧
    (∃ (s : State) (m : Medium) (p : MctpPacket) (others : _) (bs : _) (x : _), s.addressed m p.dstEid = true ∧ p.payload.length ≤ 64 ∧ (m = .smbus → p.pecOk = true ∧ p.slave = s.smbusAddress) ∧ others = (s.medium m).parts.filter (fun y => !y.matches p) ∧ bs = p.payload.map (· % 256) ∧ p.som = false ∧ (s.medium m).parts.find? (fun y => y.matches p) = some x ∧ x.nextSeq % 4 = p.pktSeq % 4 ∧ (x.bytes ++ bs).length ≤ 1024 ∧ p.eom = true) ∧
    (∃ (s : State) (m : Medium) (p : MctpPacket) (others : _) (bs : _) (x : _), s.addressed m p.dstEid = true ∧ p.payload.length ≤ 64 ∧ (m = .smbus → p.pecOk = true ∧ p.slave = s.smbusAddress) ∧ others = (s.medium m).parts.filter (fun y => !y.matches p) ∧ bs = p.payload.map (· % 256) ∧ p.som = false ∧ (s.medium m).parts.find? (fun y => y.matches p) = some x ∧ x.nextSeq % 4 = p.pktSeq % 4 ∧ (x.bytes ++ bs).length ≤ 1024 ∧ p.eom = false) ∧
    (∃ (x : Message), (1 < x.byte 0 % 128 ∨ x.byte 1 < 128)) ∧
    (∃ (x : Message), (1 < x.byte 0 % 128 ∨ x.byte 1 < 128)) ∧
    (∃ (s : State) (m : Medium) (x : Message), x.bytes ≠ [] ∧ x.byte 0 % 128 ≤ 1 ∧ 128 ≤ x.byte 1 ∧ x.error = none ∧ (s.medium m).messages = []) ∧
    (∃ (x : Message), x.byte 0 % 128 = 1 ∧ x.byte 2 % 64 ≠ 0 ∧ x.byte 2 % 64 ≠ 2) ∧
    (∃ (s : State), (s.endpointRuns = false ∨ s.mgmt.sent.any MgmtSent.onSmbus = false)) ∧
    (∃ (s : State), (s.endpointRuns = false ∨ s.mgmt.sent.any MgmtSent.onSmbus = false)) ∧
    (∃ (s : State), s.endpointRuns = true ∧ s.mgmt.sent.any MgmtSent.onSmbus = true) ∧
    (∃ (s : State), s.endpointRuns = true ∧ s.mgmt.sent.any MgmtSent.onSmbus = true ∧ (s.medium .smbus).retries = 0) ∧
    (∃ (s : State) (t : _), s.endpointRuns = true ∧ s.mgmt.sent.any MgmtSent.onSmbus = true ∧ (s.medium .smbus).retries ≠ 0 ∧ t = s.updMedium .smbus (fun y => { y with retries := 0 })) ∧
    (∃ (s : State), s.endpointRuns = true) ∧
    (∃ (s : State), s.endpointRuns = false) := by
  refine ⟨
    ⟨ready, .smbus, { packet true true 0 [1] with dstEid := 9 }, by decide +kernel⟩,
    ⟨ready, .smbus, packet true true 0 (List.replicate 65 1), by decide +kernel⟩,
    ⟨ready, .smbus, { packet true true 0 [1] with pecOk := false }, by decide +kernel⟩,
    ⟨ready, .smbus, { packet true true 0 [1] with slave := 0x3B }, by decide +kernel⟩,
    ⟨ready, .smbus, packet true false 0 (List.replicate 64 1), _, _, by decide +kernel, by decide +kernel, by decide +kernel, rfl, rfl, by decide +kernel⟩,
    ⟨ready, .host 0, { packet true false 0 [1] with pecOk := false }, _, _, by decide +kernel, by decide +kernel, by decide +kernel, rfl, rfl, by decide +kernel⟩,
    ⟨{ ready with mgmt := { media := [(0, { parts := [{ srcEid := 1, msgTag := 1, nextSeq := 1, bytes := [1] }, { srcEid := 2, msgTag := 1, nextSeq := 1, bytes := [1] }, { srcEid := 3, msgTag := 1, nextSeq := 1, bytes := [1] }] })] } }, .smbus, packet true false 0 [1], _, _, by decide +kernel, by decide +kernel, by decide +kernel, rfl, rfl, by decide +kernel⟩,
    ⟨ready, .smbus, packet true true 0 [1, 128, 2], _, _, by decide +kernel, by decide +kernel, by decide +kernel, rfl, rfl, by decide +kernel⟩,
    ⟨{ ready with mgmt := { media := [(0, { parts := [{ srcEid := 1, msgTag := 1, nextSeq := 1, bytes := [1] }, { srcEid := 2, msgTag := 1, nextSeq := 1, bytes := [1] }, { srcEid := 3, msgTag := 1, nextSeq := 1, bytes := [1] }, { srcEid := 4, msgTag := 1, nextSeq := 1, bytes := [1] }] })] } }, .smbus, packet true true 0 [1, 128, 2], _, _, by decide +kernel, by decide +kernel, by decide +kernel, rfl, rfl, by decide +kernel⟩,
    ⟨ready, .smbus, packet false true 0 [1], _, _, by decide +kernel, by decide +kernel, by decide +kernel, rfl, rfl, by decide +kernel⟩,
    ⟨{ ready with mgmt := { media := [(0, { parts := [{ srcEid := 9, msgTag := 1, nextSeq := 5, bytes := [1, 128, 2] }] })] } }, .smbus, packet false true 2 [1], _, _, { srcEid := 9, msgTag := 1, nextSeq := 5, bytes := [1, 128, 2] }, by decide +kernel, by decide +kernel, by decide +kernel, rfl, rfl, by decide +kernel⟩,
    ⟨{ ready with mgmt := { media := [(0, { parts := [{ srcEid := 9, msgTag := 1, nextSeq := 5, bytes := List.replicate 1024 1 }] })] } }, .smbus, packet false true 1 [1], _, _, { srcEid := 9, msgTag := 1, nextSeq := 5, bytes := List.replicate 1024 1 }, by decide +kernel, by decide +kernel, by decide +kernel, rfl, rfl, by decide +kernel⟩,
    ⟨{ ready with mgmt := { media := [(0, { parts := [{ srcEid := 9, msgTag := 1, nextSeq := 5, bytes := [1, 128, 2] }] })] } }, .smbus, packet false true 1 [1], _, _, { srcEid := 9, msgTag := 1, nextSeq := 5, bytes := [1, 128, 2] }, by decide +kernel, by decide +kernel, by decide +kernel, rfl, rfl, by decide +kernel⟩,
    ⟨{ ready with mgmt := { media := [(0, { parts := [{ srcEid := 9, msgTag := 1, nextSeq := 5, bytes := List.replicate 1023 1 }] })] } }, .smbus, packet false true 1 [1], _, _, { srcEid := 9, msgTag := 1, nextSeq := 5, bytes := List.replicate 1023 1 }, by decide +kernel, by decide +kernel, by decide +kernel, rfl, rfl, by decide +kernel⟩,
    ⟨{ ready with mgmt := { media := [(0, { parts := [{ srcEid := 9, msgTag := 1, nextSeq := 5, bytes := [1, 128, 2] }] })] } }, .smbus, packet false false 1 [1], _, _, { srcEid := 9, msgTag := 1, nextSeq := 5, bytes := [1, 128, 2] }, by decide +kernel, by decide +kernel, by decide +kernel, rfl, rfl, by decide +kernel⟩,
    ⟨{ srcEid := 9, bytes := [2, 128] }, by decide +kernel⟩,
    ⟨{ srcEid := 9, bytes := [1, 127] }, by decide +kernel⟩,
    ⟨ready, .smbus, { srcEid := 9, bytes := [1, 128, 2, 17] }, by decide +kernel⟩,
    ⟨{ srcEid := 9, bytes := [1, 128, 1] }, by decide +kernel⟩,
    ⟨ready, by decide +kernel⟩,
    ⟨ready, by decide +kernel⟩,
    ⟨{ ready with mgmt := { sent := [.response { medium := .smbus, dstEid := 9, inst := 3, code := 0, fields := [] }] } }, by decide +kernel⟩,
    ⟨{ ready with mgmt := { sent := [.response { medium := .smbus, dstEid := 9, inst := 3, code := 0, fields := [] }] } }, by decide +kernel⟩,
    ⟨{ ready with mgmt := { sent := [.response { medium := .smbus, dstEid := 9, inst := 3, code := 0, fields := [] }], media := [(0, { retries := 1 })] } }, _, by decide +kernel, by decide +kernel, by decide +kernel, rfl⟩,
    ⟨ready, by decide +kernel⟩,
    ⟨{ ready with dt := 0, boot := { ready.boot with aonIn := false } }, by decide +kernel⟩⟩

theorem witness_TapRowsAct :
    (∃ (s : State), s.endpointRuns = true) ∧
    (∃ (s : State), s.endpointRuns = false) ∧
    (∃ (s : State), s.endpointRuns = false) ∧
    (∃ (c : _), 3 < c) ∧
    (∃ (c : _), 3 < c) ∧
    (∃ (s : State), s.endpointRuns = true ∧ (s.pins.instr = .bypass ∨ s.pins.instr = .sample)) ∧
    (∃ (s : State), s.endpointRuns = true ∧ (s.pins.instr = .bypass ∨ s.pins.instr = .sample)) ∧
    (∃ (s : State) (x : Pin), s.endpointRuns = true ∧ s.pins.instr = .highz ∧ x.outputCell.isSome = true) ∧
    (∃ (s : State) (x : Pin) (k : _), s.endpointRuns = true ∧ (s.pins.instr = .extest ∨ s.pins.instr = .clamp) ∧ x.outputCell = some k ∧ x.openDrain = false ∧ flag s.pins.cells (x.cell + k + 1) = true) ∧
    (∃ (s : State) (x : Pin) (k : _), s.endpointRuns = true ∧ (s.pins.instr = .extest ∨ s.pins.instr = .clamp) ∧ x.outputCell = some k ∧ x.openDrain = false ∧ flag s.pins.cells (x.cell + k + 1) = false) ∧
    (∃ (s : State) (x : Pin) (k : _), s.endpointRuns = true ∧ (s.pins.instr = .extest ∨ s.pins.instr = .clamp) ∧ x.outputCell = some k ∧ x.openDrain = true) ∧
    (∃ (s : State), s.power.tripped = true) ∧
    (∃ (s : State), s.boot.stage ≠ .ready) := by
  refine ⟨
    ⟨ready, by decide +kernel⟩,
    ⟨{ ready with dt := 0, boot := { ready.boot with aonIn := false } }, by decide +kernel⟩,
    ⟨{ ready with dt := 0, boot := { ready.boot with aonIn := false } }, by decide +kernel⟩,
    ⟨4, by decide +kernel⟩,
    ⟨255, by decide +kernel⟩,
    ⟨ready, by decide +kernel⟩,
    ⟨{ ready with pins := { instr := .sample, cells := 0 } }, by decide +kernel⟩,
    ⟨{ ready with pins := { instr := .highz, cells := 0 } }, .tdmDout 0, by decide +kernel⟩,
    ⟨{ ready with pins := { instr := .extest, cells := 2 ^ 156 - 1 } }, .tdmDout 0, _, by decide +kernel, by decide +kernel, some_nat (by decide +kernel), by decide +kernel⟩,
    ⟨{ ready with pins := { instr := .clamp, cells := 0 } }, .tdmDout 0, _, by decide +kernel, by decide +kernel, some_nat (by decide +kernel), by decide +kernel⟩,
    ⟨{ ready with pins := { instr := .extest, cells := 0 } }, .thermTrip, _, by decide +kernel, by decide +kernel, some_nat (by decide +kernel), by decide +kernel⟩,
    ⟨{ ready with dt := 0, power := { ready.power with tripped := true } }, by decide +kernel⟩,
    ⟨State.reset, by decide +kernel⟩⟩

theorem witness_EmptyQueueTicks :
    (∃ (s : State), s.pending = [] ∧ s.boot.inReset = false) ∧
    (∃ (s : State), s.pending = [] ∧ s.boot.inReset = true) := by
  refine ⟨
    ⟨ready, by decide +kernel⟩,
    ⟨{ ready with boot := { ready.boot with inReset := true } }, by decide +kernel⟩⟩

theorem witness_EveryStepKeepsInvariant :
    (∃ (s : State) (t : State), Inv s ∧ step s = .next t) :=
    ⟨slow, _, inv_slow, rfl⟩

theorem witness_GovernorHoldsItsPoint :
    (∃ (s : State) (t : State), Inv s ∧ (t = s ∨ step s = .next t)) ∧
    (∃ (s : State) (t : State), Inv s ∧ (t = s ∨ step s = .next t) ∧ t.power.pace ≠ 0) ∧
    (∃ (p : Power), p.avs.faulted = true) ∧
    (∃ (p : Power), p.avs.faulted = false ∧ (p.cap = 27 ∨ p.cap = 28)) ∧
    (∃ (p : Power), p.avs.faulted = false ∧ (p.cap = 27 ∨ p.cap = 28)) ∧
    (∃ (p : Power), p.avs.faulted = false ∧ 20 ≤ p.cap ∧ p.cap ≤ 26) ∧
    (∃ (p : Power), p.avs.faulted = false ∧ 20 ≤ p.cap ∧ p.cap ≤ 26) ∧
    (∃ (p : Power), p.avs.faulted = false ∧ 14 ≤ p.cap ∧ p.cap ≤ 19) ∧
    (∃ (p : Power), p.avs.faulted = false ∧ 14 ≤ p.cap ∧ p.cap ≤ 19) := by
  refine ⟨
    ⟨slow, _, inv_slow, .inl rfl⟩,
    ⟨slow, _, inv_slow, .inl rfl, by decide +kernel⟩,
    ⟨{ avs := { faulted := true } }, by decide +kernel⟩,
    ⟨{ cap := 27 }, by decide +kernel, by decide +kernel⟩,
    ⟨{ cap := 28 }, by decide +kernel, by decide +kernel⟩,
    ⟨{ cap := 20 }, by decide +kernel, by decide +kernel, by decide +kernel⟩,
    ⟨{ cap := 26 }, by decide +kernel, by decide +kernel, by decide +kernel⟩,
    ⟨{ cap := 14 }, by decide +kernel, by decide +kernel, by decide +kernel⟩,
    ⟨{ cap := 19 }, by decide +kernel, by decide +kernel, by decide +kernel⟩⟩

theorem witness_MailboxBeforeReady :
    (∃ (s : State) (n : Nat) (off : _) (size : _), Quiet s ∧ Table.sortedFrom 0 s.ports = true ∧ (s.port n).reachable = true ∧ (s.port n).fwState ≠ 2 ∧ (s.port n).mbx.busy = false ∧ (s.port n).mbx.done = false ∧ sizeOk off size = true ∧ 0x1000 ≤ off ∧ off < 0x1100) ∧
    (∃ (s : State) (n : Nat) (off : _) (size : _), Quiet s ∧ Table.sortedFrom 0 s.ports = true ∧ (s.port n).reachable = true ∧ (s.port n).fwState ≠ 2 ∧ (s.port n).mbx.busy = false ∧ (s.port n).mbx.done = false ∧ sizeOk off size = true ∧ 0x1000 ≤ off ∧ off < 0x1100) ∧
    (∃ (s : State) (n : Nat), Quiet s ∧ Table.sortedFrom 0 s.ports = true ∧ (s.port n).reachable = true ∧ (s.port n).fwState ≠ 2) := by
  refine ⟨
    ⟨at0 (fun p => { p with fwState := 1 }), 0, 0x1000, 4, quiet_lists (by decide +kernel), by decide +kernel⟩,
    ⟨at0 (fun p => { p with fwState := 1 }), 0, 0x10F8, 8, quiet_lists (by decide +kernel), by decide +kernel⟩,
    ⟨at0 (fun p => { p with fwState := 1 }), 0, quiet_lists (by decide +kernel), by decide +kernel⟩⟩

theorem witness_DeadlinesCompareModulo :
    (∃ (a : Nat) (b : Nat) (d : _), a < 2 ^ 32 ∧ b < 2 ^ 32 ∧ d = (a + (2 ^ 32 - b)) % 2 ^ 32) ∧
    (∃ (a : Nat) (b : Nat) (d : _), a < 2 ^ 32 ∧ b < 2 ^ 32 ∧ d = (a + (2 ^ 32 - b)) % 2 ^ 32) ∧
    (∃ (a : Nat) (b : Nat) (d : _), a < 2 ^ 32 ∧ b < 2 ^ 32 ∧ d = (a + (2 ^ 32 - b)) % 2 ^ 32) ∧
    (∃ (a : Nat) (b : Nat) (d : _), a < 2 ^ 32 ∧ b < 2 ^ 32 ∧ d = (a + (2 ^ 32 - b)) % 2 ^ 32 ∧ later32 a b = true) ∧
    (∃ (a : Nat) (b : Nat) (d : _), a < 2 ^ 32 ∧ b < 2 ^ 32 ∧ d = (a + (2 ^ 32 - b)) % 2 ^ 32 ∧ earlier32 a b = true) := by
  refine ⟨
    ⟨0, 4294967295, 1, by decide +kernel⟩,
    ⟨2147483647, 0, _, by decide +kernel, by decide +kernel, rfl⟩,
    ⟨2147483648, 0, _, by decide +kernel, by decide +kernel, rfl⟩,
    ⟨0, 4294967295, _, by decide +kernel, by decide +kernel, rfl, by decide +kernel⟩,
    ⟨2147483648, 0, _, by decide +kernel, by decide +kernel, rfl, by decide +kernel⟩⟩

theorem witness_HeaderFailuresAnswerInOrder :
    (∃ (s : State) (n : Nat) (ext : Option Nat) (data : HostData) (c : Call), n < 4 ∧ Quiet s ∧ Table.sortedFrom 0 s.ports = true ∧ (s.port n).reachable = true ∧ (s.port n).fwState = 2 ∧ (s.port n).mbx.busy = false ∧ (s.port n).mbx.done = false ∧ c = Call.ofBytes n .mailbox (s.port n).mbx.inbound ext data ∧ c.version ≠ 1) ∧
    (∃ (s : State) (n : Nat) (ext : Option Nat) (data : HostData) (c : Call), n < 4 ∧ Quiet s ∧ Table.sortedFrom 0 s.ports = true ∧ (s.port n).reachable = true ∧ (s.port n).fwState = 2 ∧ (s.port n).mbx.busy = false ∧ (s.port n).mbx.done = false ∧ c = Call.ofBytes n .mailbox (s.port n).mbx.inbound ext data ∧ c.version = 1 ∧ cmdSpec c.opcode = none) ∧
    (∃ (s : State) (n : Nat) (ext : Option Nat) (data : HostData) (c : Call) (d : _), n < 4 ∧ Quiet s ∧ Table.sortedFrom 0 s.ports = true ∧ (s.port n).reachable = true ∧ (s.port n).fwState = 2 ∧ (s.port n).mbx.busy = false ∧ (s.port n).mbx.done = false ∧ c = Call.ofBytes n .mailbox (s.port n).mbx.inbound ext data ∧ c.version = 1 ∧ cmdSpec c.opcode = some d ∧ (lengthLimit c < c.length ∨ c.length ≠ d.length)) ∧
    (∃ (s : State) (n : Nat) (ext : Option Nat) (data : HostData) (c : Call) (d : _), n < 4 ∧ Quiet s ∧ Table.sortedFrom 0 s.ports = true ∧ (s.port n).reachable = true ∧ (s.port n).fwState = 2 ∧ (s.port n).mbx.busy = false ∧ (s.port n).mbx.done = false ∧ c = Call.ofBytes n .mailbox (s.port n).mbx.inbound ext data ∧ c.version = 1 ∧ cmdSpec c.opcode = some d ∧ (lengthLimit c < c.length ∨ c.length ≠ d.length)) ∧
    (∃ (s : State) (n : Nat) (ext : Option Nat) (data : HostData) (c : Call) (d : _), n < 4 ∧ Quiet s ∧ Table.sortedFrom 0 s.ports = true ∧ (s.port n).reachable = true ∧ (s.port n).fwState = 2 ∧ (s.port n).mbx.busy = false ∧ (s.port n).mbx.done = false ∧ c = Call.ofBytes n .mailbox (s.port n).mbx.inbound ext data ∧ c.version = 1 ∧ cmdSpec c.opcode = some d ∧ c.length ≤ lengthLimit c ∧ c.length = d.length ∧ c.resFlags ≠ 0) ∧
    (∃ (s : State) (n : Nat) (ext : Option Nat) (data : HostData) (c : Call) (d : _), n < 4 ∧ Quiet s ∧ Table.sortedFrom 0 s.ports = true ∧ (s.port n).reachable = true ∧ (s.port n).fwState = 2 ∧ (s.port n).mbx.busy = false ∧ (s.port n).mbx.done = false ∧ c = Call.ofBytes n .mailbox (s.port n).mbx.inbound ext data ∧ c.version = 1 ∧ cmdSpec c.opcode = some d ∧ c.length ≤ lengthLimit c ∧ c.length = d.length ∧ c.resFlags = 0 ∧ d.noHandle = true ∧ c.handle ≠ 0) := by
  refine ⟨
    ⟨at0 (fun p => { p with mbx := { p.mbx with inbound := 0x0914 } }), 0, none, .nothing, _, by decide +kernel, quiet_lists (by decide +kernel), by decide +kernel, by decide +kernel, by decide +kernel, by decide +kernel, by decide +kernel, rfl, by decide +kernel⟩,
    ⟨at0 (fun p => { p with mbx := { p.mbx with inbound := (0x0FFF + 2 ^ 24) } }), 0, none, .nothing, _, by decide +kernel, quiet_lists (by decide +kernel), by decide +kernel, by decide +kernel, by decide +kernel, by decide +kernel, by decide +kernel, rfl, by decide +kernel⟩,
    ⟨at0 (fun p => { p with mbx := { p.mbx with inbound := (0x0914 + 2 ^ 24 + 4 * 2 ^ 48) } }), 0, none, .nothing, _, { length := 0, noHandle := true, maxTicks := 24576 }, by decide +kernel, quiet_lists (by decide +kernel), by decide +kernel, by decide +kernel, by decide +kernel, by decide +kernel, by decide +kernel, rfl, by decide +kernel⟩,
    ⟨at0 (fun p => { p with mbx := { p.mbx with inbound := (0x0914 + 2 ^ 24 + 300 * 2 ^ 48) } }), 0, none, .nothing, _, { length := 0, noHandle := true, maxTicks := 24576 }, by decide +kernel, quiet_lists (by decide +kernel), by decide +kernel, by decide +kernel, by decide +kernel, by decide +kernel, by decide +kernel, rfl, by decide +kernel⟩,
    ⟨at0 (fun p => { p with mbx := { p.mbx with inbound := (0x0914 + 2 ^ 18 + 2 ^ 24) } }), 0, none, .nothing, _, { length := 0, noHandle := true, maxTicks := 24576 }, by decide +kernel, quiet_lists (by decide +kernel), by decide +kernel, by decide +kernel, by decide +kernel, by decide +kernel, by decide +kernel, rfl, by decide +kernel⟩,
    ⟨at0 (fun p => { p with mbx := { p.mbx with inbound := (0x0914 + 2 ^ 24 + 2 ^ 64) } }), 0, none, .nothing, _, { length := 0, noHandle := true, maxTicks := 24576 }, by decide +kernel, quiet_lists (by decide +kernel), by decide +kernel, by decide +kernel, by decide +kernel, by decide +kernel, by decide +kernel, rfl, by decide +kernel⟩⟩

theorem witness_ManagementChangesOnlyItsEndpoint :
    (∃ (i : Instr) (s : State), managementRow i = true ∧ Quiet s) :=
    ⟨.getTid (request .smbus 0), ready, by decide +kernel, quiet_lists (by decide +kernel)⟩

theorem witness_LeradMessagesAreTaken :
    (∃ (i : Instr) (s : State) (c : Call) (op : Nat) (k : _), leradRow i = some (c, op) ∧ Table.sortedFrom 0 s.ports = true ∧ c.chan = .pair k ∧ (s.port c.port).fwState = 2 ∧ (s.port c.port).mayRead k = true ∧ ((s.port c.port).pair k).reading = 0) ∧
    (∃ (i : Instr) (s : State) (c : Call) (op : Nat) (k : _), leradRow i = some (c, op) ∧ Table.sortedFrom 0 s.ports = true ∧ c.chan = .pair k ∧ ((s.port c.port).fwState ≠ 2 ∨ (s.port c.port).mayRead k = false ∨ 0 < ((s.port c.port).pair k).reading)) ∧
    (∃ (i : Instr) (s : State) (c : Call) (op : Nat) (k : _) (d : _), leradRow i = some (c, op) ∧ Table.sortedFrom 0 s.ports = true ∧ c.chan = .pair k ∧ c.version = 1 ∧ cmdSpec op = some d ∧ c.length ≤ lengthLimit c ∧ c.length = d.length ∧ c.resFlags = 0 ∧ (d.noHandle = true → c.handle = 0) ∧ d.admin = true) ∧
    (∃ (i : Instr) (s : State) (c : Call) (op : Nat), leradRow i = some (c, op) ∧ Table.sortedFrom 0 s.ports = true ∧ c.chan = .mailbox ∧ (s.port c.port).reachable = false) ∧
    (∃ (i : Instr) (s : State) (c : Call) (op : Nat), leradRow i = some (c, op) ∧ Table.sortedFrom 0 s.ports = true ∧ c.chan = .mailbox ∧ (s.port c.port).reachable = true ∧ ((s.port c.port).mbx.busy = true ∨ (s.port c.port).mbx.done = true) ∧ (s.port c.port).fwState = 2) ∧
    (∃ (i : Instr) (s : State) (c : Call) (op : Nat), leradRow i = some (c, op) ∧ Table.sortedFrom 0 s.ports = true ∧ c.chan = .mailbox ∧ (s.port c.port).reachable = true ∧ ((s.port c.port).mbx.busy = true ∨ (s.port c.port).mbx.done = true) ∧ (s.port c.port).fwState = 2) ∧
    (∃ (i : Instr) (s : State) (c : Call) (op : Nat), leradRow i = some (c, op) ∧ Table.sortedFrom 0 s.ports = true ∧ c.chan = .mailbox ∧ (s.port c.port).reachable = true ∧ ((s.port c.port).mbx.busy = true ∨ (s.port c.port).mbx.done = true) ∧ (s.port c.port).fwState ≠ 2) ∧
    (∃ (i : Instr) (s : State) (c : Call) (op : Nat), leradRow i = some (c, op) ∧ Table.sortedFrom 0 s.ports = true ∧ ({ c with opcode := op } : Call).wellFormed = true ∧ c.chan = .mailbox ∧ (s.port c.port).reachable = true ∧ (s.port c.port).mbx.busy = false ∧ (s.port c.port).mbx.done = false ∧ (s.port c.port).fwState = 2) ∧
    (∃ (i : Instr) (s : State) (c : Call) (op : Nat), leradRow i = some (c, op) ∧ Table.sortedFrom 0 s.ports = true ∧ ({ c with opcode := op } : Call).wellFormed = true ∧ c.chan = .mailbox ∧ (s.port c.port).reachable = true ∧ (s.port c.port).mbx.busy = false ∧ (s.port c.port).mbx.done = false ∧ (s.port c.port).fwState ≠ 2) := by
  refine ⟨
    ⟨.nop ({ call 0x0914 64 0 0 with port := 3, chan := .pair 2 }), { ready with ports := [(3, { port0 with pairs := [(2, { live := true, sqLog := 4, cqLog := 4, sqTail := 3 })] })] }, { call 0x0914 64 0 0 with port := 3, chan := .pair 2 }, 0x914, 2, by decide +kernel⟩,
    ⟨.nop ({ call 0x0914 64 0 0 with port := 3, chan := .pair 2 }), ready, { call 0x0914 64 0 0 with port := 3, chan := .pair 2 }, 0x914, 2, by decide +kernel, by decide +kernel, by decide +kernel, by decide +kernel⟩,
    ⟨.ringPairDelete { cmd 0x0911 0 0 with chan := .pair 2 }, ready, { cmd 0x0911 0 0 with chan := .pair 2 }, 0x911, 2, { length := 4, admin := true, noHandle := true, maxTicks := 245760 }, by decide +kernel⟩,
    ⟨.nop (call 0x0914 64 0 0), State.reset, call 0x0914 64 0 0, 0x914, by decide +kernel, by decide +kernel, by decide +kernel, by decide +kernel⟩,
    ⟨.nop (call 0x0914 64 0 0), at0 (fun p => { p with mbx := { p.mbx with busy := true } }), call 0x0914 64 0 0, 0x914, by decide +kernel⟩,
    ⟨.nop (call 0x0914 64 0 0), at0 (fun p => { p with mbx := { p.mbx with done := true } }), call 0x0914 64 0 0, 0x914, by decide +kernel⟩,
    ⟨.nop (call 0x0914 64 0 0), at0 (fun p => { p with fwState := 3, mbx := { p.mbx with busy := true } }), call 0x0914 64 0 0, 0x914, by decide +kernel⟩,
    ⟨.nop (call 0x0914 64 0 0), ready, call 0x0914 64 0 0, 0x914, by decide +kernel⟩,
    ⟨.nop (call 0x0914 64 0 0), at0 (fun p => { p with fwState := 1 }), call 0x0914 64 0 0, 0x914, by decide +kernel⟩⟩

/-! ## Worked examples of the manual -/

/-- Chapter 0, "a deadline across a 32-bit boundary". -/
theorem test_deadline_across_boundary : later32 0x000F0000 0xFFFF0000 = true ∧ earlier32 0xFFFF0000 0x000F0000 = true := by decide

/-- Table 4-2: N8F codes, in units of 2^-9. -/
theorem test_n8f : [0x00, 0x01, 0x07, 0x08, 0x38, 0x3C, 0x40, 0x7F, 0xFF].map n8fInt = [0, 1, 7, 8, 512, 768, 1024, 245760, -245760] := by decide

def row77 : RequantRow := { mult := 0xB504, shift := 7, corr := -3000, bias := 1000, zero := -20 }

/-- Chapter 4, "one element, three ways": gauge 0, gauge 1, and a negative accumulator rounded toward zero. -/
theorem test_requantise : ((requantise .int8 12345 row77 0 0).code, (requantise .int8 12345 row77 0 1).code, (requantise .int8 (-14345) row77 0 0).code) = (37, 8, -110) := by
  decide +kernel

def param7 : GaugeParam := { gamma0 := 0, gmin := -4, gmax := 3, tSat := 1, quietK := 8 }

/-- Chapter 4, "a speaker raises her voice": up after row 201, and down after the eighth quiet chunk. -/
theorem test_gauge_up : gaugeStep param7 {} { elements := 4096, saturated := 23, quiet := false } = { gamma := 1, satLast := 23 } := by decide
theorem test_gauge_down : gaugeStep param7 { gamma := 2, quiet := 7 } { elements := 4096, saturated := 0, quiet := true } = { gamma := 1 } := by decide

/-- Chapter 9, "where a lifeline lands". -/
theorem test_channel : [0x0240008000, 0x0240009000, 0x024000A000, 0x024000B000].map channelOf = [77, 109, 141, 173] := by decide +kernel

/-- The pipeline of chapter 2's "the deadlines of one chunk", and its stream cast on with anchor 245,760,000. -/
def pipe2 : Pipeline :=
  { pipe0 with encode := { pipe0.encode with lookahead := 1, budget := 245760 }, translate := { pipe0.translate with budget := 368640 },
               speak := { pipe0.speak with budget := 245760 } }

def deadlines : State := { fullS (fun y => { y with anchor := 245760000 }) with pipes := [(0, pipe2)] }

theorem test_deadlines : (deadlines.closeTime 0 0, deadlines.eligibleAt .encode 0 0, deadlines.deadlineAt .encode 0 0, deadlines.deadlineAt .translate 0 0,
    deadlines.deadlineAt .speak 0 0, deadlines.playAt 0 0, pipe2.latency) =
    (246743040, 247750656, 247996416, 248365056, 248610816, 248635392, 2875392) := by decide +kernel

/-- Table 15-4 and chapter 15's "a cap of 350 W under full load": a window at 391 W steps the pace, one at 343 W holds. -/
def capped (p1 : Nat) : State := { ready with dt := 1000022016, power := { ready.power with cap := 14, divisor := 6, pace := 0, history := [p1] } }

theorem test_governor_over : (capped 391000).overLimit = true ∧ ((capped 391000).power.stepDown 1000022016).pace = 1 := by decide +kernel
theorem test_governor_holds : (capped 343000).overLimit = false ∧ (capped 343000).under = false := by decide +kernel
theorem test_cap_ceiling : ({ cap := 14 } : Power).ceiling = 6 := by decide

/-- Table 18-1: the SMBus address by the straps GPIO7, GPIO6. -/
theorem test_smbus_address : [0, 1, 2, 3].map (fun x => ({ ready with boot := { ready.boot with straps := x } } : State).smbusAddress) = [0x3A, 0x3B, 0x38, 0x39] := by
  decide +kernel

/-- A sequence of six full pages and a tail of FILL 8. -/
def history : PageSeq :=
  { owner := .decoder 0, idx := 0, part := 0, base := 0, positions := 104,
    entries := (List.range 7).map (fun i => { index := i, ppn := 100 + i, fill := if i = 6 then 8 else 16, sealed := i != 6 }) }

def layer (m : AttnMode) (w k h : Nat) : AttnParam := { mode := m, window := w, retrieved := k, horizon := h, group := 1, keyZero := 0 }

/-- R207, R209, R210: the horizon, the window, and the two best of four candidates, the tie going to the page at the higher position. -/
theorem test_attention_full : (history.selected (layer .full 2 1 4) (fun _ => 0)).map (·.index) = [2, 3, 4, 5, 6] := by decide
theorem test_attention_window : (history.selected (layer .window 2 1 0) (fun _ => 0)).map (·.index) = [5, 6] := by decide
theorem test_attention_retrieval :
    (history.selected (layer .retrieval 2 2 5) (fun p => if p = 103 then 9 else 5)).map (·.index) = [3, 4, 5, 6] ∧
    attendedCount (history.selected (layer .retrieval 2 2 5) (fun p => if p = 103 then 9 else 5)) = 56 := by decide

/-- R210: the score of one page for a group of two heads. -/
theorem test_page_score : pageScore [3, 5] 1 2 [[2, 4], [1, 0]] = 7 := by decide

/-- R126, R210: the codes of a query are two's complement, so that a negative mean and a negative code agree in sign. -/
theorem test_page_score_signed : pageScore [-5] 0 0 [[0xFD]] = 15 ∧ pageScore [5] 0 0 [[0xFD]] = -15 := by decide

/-- Chapter 8, "one header": the second and the ninth stitch of H3's answer to logical tile 17. -/
def answer (seq : Nat) (last : Bool) : Stitch := { dest := 17, source := 259, seq := seq, last := last, cls := 1, multicast := false, kind := 1, length := 32, fence := false, tag := 0x0215, payload := 0 }

theorem test_stitch_header : (stitchHeader (answer 0x123 false), stitchHeader (answer 0x12A true)) = (0x0450312341100215, 0x0450312A41300215) := by decide

/-- Chapter 5, "a 16 KiB encoder slot": four recurrent layers in S16, two 8-bit ones, a convolution and 32 gauges. -/
theorem test_footprint :
    ({ package 0 with
        gauges := List.replicate 32 {},
        layers := List.replicate 4 { layer0 with precision := List.replicate 32 true } ++ List.replicate 2 { layer0 with precision := List.replicate 64 false } ++
          [{ layer0 with precision := List.replicate 114 false }] } : Package).footprint = 16384 := by decide +kernel

/-- R718 and Table 20-13: the balls of VDD_CORE, of VSS, and of the signals with the two sense pins. -/
theorem test_ball_core : ballCount (fun b => b == .power .core) = 988 := by decide +kernel
theorem test_ball_vss : ballCount (fun b => b == .vss) = 3191 := by decide +kernel
theorem test_ball_signals : ballCount (fun b => match b with | .vss => false | .power _ => false | _ => true) = 234 := by decide +kernel

/-- Table 6-2: an entry's word. -/
theorem test_page_entry : ({ index := 0, ppn := 524288, fill := 16, sealed := true } : PageEntry).word = 524288 + 16 * 2 ^ 25 + 2 ^ 30 + 2 ^ 31 := by decide

/-- R214: buckets. -/
theorem test_buckets : [0, 16, 17, 2048, 4096, 4097].map bucketOf = [16, 16, 32, 2048, 4096, 4097] := by decide

/-! ## The three ways a response goes (R478, R479) -/

theorem witness_Responds :
    (∃ c len, field (callPayload c) 64 32 = 0 ∧ len ≤ 232 ∧ headerCheck c = none) ∧
    (∃ c len, field (callPayload c) 64 32 = 0 ∧ 232 < len ∧ headerCheck c = none) ∧
    (∃ (s : State) (c : Call) (len : Nat), field (callPayload c) 64 32 ≠ 0 ∧ BufferOk c ∧
      (s.port c.port).checkAperture (field (callPayload c) 0 12) (field (callPayload c) 32 32) (field (callPayload c) 64 32) false true = .ok ∧
      len ≤ field (callPayload c) 64 32) ∧
    (∃ (s : State) (c : Call) (len : Nat), field (callPayload c) 64 32 ≠ 0 ∧ BufferOk c ∧
      (s.port c.port).checkAperture (field (callPayload c) 0 12) (field (callPayload c) 32 32) (field (callPayload c) 64 32) false true = .ok ∧
      field (callPayload c) 64 32 < len) := by
  refine ⟨⟨cmd 0x0105 0 0, 232, ?_⟩, ⟨cmd 0x0105 0 0, 233, ?_⟩, ⟨ready, cmd 0x0105 0 (64 * 2 ^ 32 + 128 * 2 ^ 64), 128, ?_⟩,
    ⟨ready, cmd 0x0105 0 (64 * 2 ^ 32 + 128 * 2 ^ 64), 129, ?_⟩⟩ <;> first | decide +kernel | (unfold BufferOk; decide +kernel)

end Sys2Proof.Tests
end

section
/-!
PROOFS. Proofs/Deadlines.lean: the order of 32-bit deadlines (R22), read off the one difference `sub32`.
-/
namespace Sys2Proof.Machine

theorem later32_iff_sub32 (a b : Nat) : later32 a b = true ↔ 1 ≤ sub32 a b ∧ sub32 a b ≤ 2 ^ 31 - 1 :=
  decide_eq_true_iff

theorem earlier32_iff_sub32 (a b : Nat) : earlier32 a b = true ↔ 2 ^ 31 ≤ sub32 a b :=
  decide_eq_true_iff

theorem sub32_of_lt {b : Nat} (hb : b < 2 ^ 32) (a : Nat) : sub32 a b = (a + (2 ^ 32 - b)) % 2 ^ 32 := by
  rw [sub32, Nat.mod_eq_of_lt hb, Nat.add_sub_assoc hb.le]

/-- Without the bounds only the residues of `a` and `b` would be equal. -/
theorem eq_iff_sub32_eq_zero {a b : Nat} (ha : a < 2 ^ 32) (hb : b < 2 ^ 32) : a = b ↔ sub32 a b = 0 := by
  rw [sub32_of_lt hb]
  omega

theorem earlier32_eq_false_of_later32 {a b : Nat} (h : later32 a b = true) : earlier32 a b = false := by
  obtain ⟨-, hle⟩ := (later32_iff_sub32 a b).mp h
  rw [Bool.eq_false_iff, Ne, earlier32_iff_sub32]
  omega

theorem ne_of_later32 {a b : Nat} (ha : a < 2 ^ 32) (hb : b < 2 ^ 32) (h : later32 a b = true) : a ≠ b := by
  obtain ⟨hpos, -⟩ := (later32_iff_sub32 a b).mp h
  rw [Ne, eq_iff_sub32_eq_zero ha hb]
  omega

theorem ne_of_earlier32 {a b : Nat} (ha : a < 2 ^ 32) (hb : b < 2 ^ 32) (h : earlier32 a b = true) : a ≠ b := by
  have hge := (earlier32_iff_sub32 a b).mp h
  rw [Ne, eq_iff_sub32_eq_zero ha hb]
  omega

/-- Settles O57: for 32-bit operands the model's difference `sub32` is the statement's `d`. -/
theorem deadlinesCompareModulo : Obligations.DeadlinesCompareModulo := by
  intro a b ha hb d hd
  rw [← sub32_of_lt hb] at hd
  subst hd
  exact ⟨later32_iff_sub32 a b, earlier32_iff_sub32 a b, eq_iff_sub32_eq_zero ha hb,
    fun h => ⟨earlier32_eq_false_of_later32 h, ne_of_later32 ha hb h⟩, ne_of_earlier32 ha hb⟩

end Sys2Proof.Machine
end

section
/-!
PROOFS. Proofs/StitchArrival.lean: what becomes of a stitch or notice that reaches its destination (R305), by how far its sequence lies from the context's next
expected one. The names below cut the state an arrival leaves into what R305 speaks of.
-/
namespace Sys2Proof.Machine
open Sys2Proof.Safety

/-- The sequence is held: its stitch waits in the context, or was delivered beyond E (R306). -/
def Context.hasSeq (c : Context) (q : Nat) : Bool := (c.at q).isSome || c.done.any (fun x => x.1 == q)

/-- How far sequence `q` lies ahead of E, modulo 4,096. -/
def Context.ahead (c : Context) (q : Nat) : Nat := (q + 4096 - c.expected) % 4096

/-- How far sequence `q` lies behind E, modulo 4,096. -/
def Context.behind (c : Context) (q : Nat) : Nat := (c.expected + 4096 - q) % 4096

/-- The contexts of `src` note an arrival at DT `now`. -/
def NetIf.noteArrival (n : NetIf) (src now : Nat) : NetIf :=
  { n with contexts := n.contexts.map (fun (y : Context) => if y.holder == src then { y with last := now } else y) }

/-- The contexts of its source hold a stitch that arrives at DT `now`. -/
def NetIf.holdStitch (n : NetIf) (st : Stitch) (now : Nat) : NetIf :=
  { n with contexts := n.contexts.map (fun (y : Context) => if y.holder == st.source then { y with held := y.held ++ [st], last := now } else y) }

/-- The two distances of R305 are one: modulo 4,096, what lies 1 to 64 behind E lies at least 4,032 ahead of it. -/
theorem Context.behind_window_iff {c : Context} {q : Nat} (hq : q < 4096) (hE : c.expected < 4096) :
    1 ≤ c.behind q ∧ c.behind q ≤ 64 ↔ 4032 ≤ c.ahead q := by
  unfold Context.behind Context.ahead
  omega

/-- At an endpoint that is not retired, a REQ or RSP stitch and a notice arrive alike. -/
theorem exec_eq_arriveAt {i : Instr} {s : State} {e : Nat} {st : Stitch} (hi : i = .e2eStitchArrival e st ∧ st.cls < 2 ∨ i = .notice e st)
    (hret : s.endpointRetired e = false) : exec i s = .next (s.arriveAt e st).settle := by
  obtain ⟨rfl, hcls⟩ | rfl := hi
  · have harr : s.stitchArrives e st = s.arriveAt e st := by
      simp [State.stitchArrives, hret, hcls]
    exact congrArg (fun t => Host.Outcome.next t.settle) harr
  · have harr : s.noticeReceived e st = s.arriveAt e st := by
      simp [State.noticeReceived, hret]
    exact congrArg (fun t => Host.Outcome.next t.settle) harr

section
variable {s : State} {e : Nat} {st : Stitch} {c : Context} (hc : (s.netif e).contexts.find? (fun c => c.holder == st.source) = some c)
include hc

/-- R305 at an endpoint with a context `c` for the stitch's source. -/
theorem State.arriveAt_eq_of_context :
    s.arriveAt e st =
      if c.ahead st.seq < 64 ∧ c.hasSeq st.seq = false then (s.updNetif e (fun n => n.holdStitch st s.dt)).deliverReady st.source e 64
      else if c.ahead st.seq < 64 ∨ 4032 ≤ c.ahead st.seq then
        s.updNetif e (fun n => { n.noteArrival st.source s.dt with duplicates := bump 32 n.duplicates 1 })
      else s.updNetif e (fun n => { n.noteArrival st.source s.dt with protocolErrors := bump 32 n.protocolErrors 1 }) := by
  unfold State.arriveAt
  rw [hc]
  rfl

theorem State.arriveAt_of_new (hahead : c.ahead st.seq < 64) (hnew : c.hasSeq st.seq = false) :
    s.arriveAt e st = (s.updNetif e (fun n => n.holdStitch st s.dt)).deliverReady st.source e 64 := by
  rw [State.arriveAt_eq_of_context hc, if_pos ⟨hahead, hnew⟩]

theorem State.arriveAt_of_duplicate (hq : st.seq < 4096) (hE : c.expected < 4096)
    (hdup : c.ahead st.seq < 64 ∧ c.hasSeq st.seq = true ∨ 1 ≤ c.behind st.seq ∧ c.behind st.seq ≤ 64) :
    s.arriveAt e st = s.updNetif e (fun n => { n.noteArrival st.source s.dt with duplicates := bump 32 n.duplicates 1 }) := by
  rw [Context.behind_window_iff hq hE] at hdup
  have hnotNew : ¬ (c.ahead st.seq < 64 ∧ c.hasSeq st.seq = false) := by
    rintro ⟨hahead, hnew⟩
    obtain ⟨-, hhas⟩ | hbehind := hdup
    · simp [hnew] at hhas
    · omega
  rw [State.arriveAt_eq_of_context hc, if_neg hnotNew, if_pos (hdup.imp_left And.left)]

theorem State.arriveAt_of_outside (hq : st.seq < 4096) (hE : c.expected < 4096) (hahead : 64 ≤ c.ahead st.seq) (hbehind : 64 < c.behind st.seq) :
    s.arriveAt e st = s.updNetif e (fun n => { n.noteArrival st.source s.dt with protocolErrors := bump 32 n.protocolErrors 1 }) := by
  have hfar : ¬ 4032 ≤ c.ahead st.seq := fun h => hbehind.not_ge ((Context.behind_window_iff hq hE).mpr h).2
  rw [State.arriveAt_eq_of_context hc, if_neg (fun h => hahead.not_gt h.1), if_neg (not_or.mpr ⟨hahead.not_gt, hfar⟩)]

end

/-- Settles O25: the three cases of R305, the stitch and the notice taking the one arrival. -/
theorem arrivingStitchIsHeldOrCounted : Obligations.ArrivingStitchIsHeldOrCounted := by
  intro s e i st c held hi hret hc hq hE hheld
  subst hheld
  have becomes {t : State} (h : s.arriveAt e st = t) : Becomes i s t := h ▸ exec_eq_arriveAt hi hret
  exact ⟨fun hahead hnew => becomes (State.arriveAt_of_new hc hahead hnew),
    fun hdup => becomes (State.arriveAt_of_duplicate hc hq hE hdup),
    fun hahead hbehind => becomes (State.arriveAt_of_outside hc hq hE hahead hbehind)⟩

end Sys2Proof.Machine
end

section
/-!
PROOFS. Proofs/VectorMasking.lean: a port's MSI-X messages under masking (R400): one that falls due is sent or leaves its vector pending, and VECTOR_UNMASK is that
change of the port alone.
-/
namespace Sys2Proof.Machine
open Sys2Proof.Safety

theorem unmasked_iff (p : HostPort) (v : Nat) :
    p.unmasked v = true ↔ p.canWrite = true ∧ p.cfg.msixEnable = true ∧ p.cfg.functionMask = false ∧ (p.vector v).mask = false := by
  simp [HostPort.unmasked, and_assoc]

theorem message_sent (p : HostPort) (v : Nat) :
    (p.message v).sent =
      if p.unmasked v then p.sent ++ [.msix v ((p.vector v).addr + 2 ^ 32 * (p.vector v).upper) (p.vector v).msgData] else p.sent := by
  unfold HostPort.message
  split <;> rfl

/-- Sent or not, the message leaves its vector counting from zero, and pending exactly where it could not go. -/
theorem message_vectors (p : HostPort) (v : Nat) :
    (p.message v).vectors = Table.set {} p.vectors v { p.vector v with count := 0, pending := !p.unmasked v } := by
  unfold HostPort.message
  split <;> simp [*, HostPort.setVector]

theorem vector_message {p : HostPort} (hs : Table.sortedFrom 0 p.vectors = true) (v : Nat) :
    (p.message v).vector v = { p.vector v with count := 0, pending := !p.unmasked v } := by
  rw [HostPort.vector, message_vectors, Table.get_set_same hs]

theorem unmask_eq_message {p : HostPort} {v : Nat} (hp : (p.vector v).pending = true) (hu : p.unmasked v = true) : p.unmask v = p.message v := by
  simp [HostPort.unmask, hp, hu]

theorem message_masked_pends {p : HostPort} {v : Nat} (hs : Table.sortedFrom 0 p.vectors = true)
    (hm : p.cfg.msixEnable = false ∨ p.cfg.functionMask = true ∨ (p.vector v).mask = true) :
    (p.message v).sent = p.sent ∧ ((p.message v).vector v).pending = true := by
  have hu : p.unmasked v = false := by
    rw [Bool.eq_false_iff, Ne, unmasked_iff]
    rintro ⟨-, hen, hfn, hmask⟩
    simp [hen, hfn, hmask] at hm
  exact ⟨by simp [message_sent, hu], by simp [vector_message hs, hu]⟩

theorem unmask_pending_sends {p : HostPort} {v : Nat} (hs : Table.sortedFrom 0 p.vectors = true) (hp : (p.vector v).pending = true)
    (hu : p.unmasked v = true) :
    (p.unmask v).sent = p.sent ++ [.msix v ((p.vector v).addr + 2 ^ 32 * (p.vector v).upper) (p.vector v).msgData] ∧
      ((p.unmask v).vector v).pending = false := by
  rw [unmask_eq_message hp hu]
  exact ⟨by simp [message_sent, hu], by simp [vector_message hs, hu]⟩

section
variable {s : State} {n : Nat}

/-- A VECTOR_UNMASK that is the change `g` of its port and keeps the port's accepted commands does nothing else in a quiet device. -/
theorem leaves_vectorUnmask {what : Unmask} {g : HostPort → HostPort} (hq : Quiet s) (hs : Table.sortedFrom 0 s.ports = true)
    (heq : s.vectorUnmask n what = s.updPort n g) (hacc : (g (s.port n)).accepted = (s.port n).accepted) :
    Leaves (.vectorUnmask n what) s (s.updPort n g) :=
  leaves_of rfl heq (quiet_updPort hs hq n g hacc)

variable (hup : (s.port n).link = .up) (hready : (s.port n).configReady = true)
include hup hready

theorem vectorUnmask_enable :
    s.vectorUnmask n .enable = s.updPort n (fun p => { p with cfg := { p.cfg with msixEnable := true } }.sendPending) := by
  simp [State.vectorUnmask, State.updPort, hup, hready]

theorem vectorUnmask_functionMask :
    s.vectorUnmask n .functionMask = s.updPort n (fun p => { p with cfg := { p.cfg with functionMask := false } }.sendPending) := by
  simp [State.vectorUnmask, State.updPort, hup, hready]

theorem vectorUnmask_vector {v : Nat} (hv : v < 64) (hhot : (s.port n).cfg.d3hot = false) :
    s.vectorUnmask n (.vector v) = s.updPort n (fun p => (p.setVector v { p.vector v with mask := false }).unmask v) := by
  simp [State.vectorUnmask, State.updPort, hup, hready, hv, hhot]

end

/-- Settles O13: a message goes out exactly where the vector is unmasked, and each VECTOR_UNMASK is the change of the port that follows. -/
theorem maskedVectorsPend : Obligations.MaskedVectorsPend := by
  refine ⟨fun p v hs => ⟨message_masked_pends hs, fun hw hen hfn hmask hp => ?_⟩, fun s n hq hs hup hready => ⟨?_, ?_, fun v hv hhot => ?_⟩⟩
  · exact unmask_pending_sends hs hp ((unmasked_iff p v).mpr ⟨hw, hen, hfn, hmask⟩)
  · exact leaves_vectorUnmask hq hs (vectorUnmask_enable hup hready) (sendPending_accepted _)
  · exact leaves_vectorUnmask hq hs (vectorUnmask_functionMask hup hready) (sendPending_accepted _)
  · exact leaves_vectorUnmask hq hs (vectorUnmask_vector hup hready hv hhot) (unmask_accepted _ v)

end Sys2Proof.Machine
end

section
/-!
PROOFS. Proofs/DoorbellChecks.lean: the three doorbells under the checks of R455: each is one chain of checks over the ring's size and its distances, and an 8-byte
write is two 4-byte writes.
-/
namespace Sys2Proof.Machine
open Sys2Proof.Safety

/-! ## The chain of checks -/

/-- R455 for one ring: the write at `off` is refused where the ring does not exist, where INDEX is at least `size`, and where `most < least`: a tail nearer than the
entries pending, or a head beyond the entries written. Any other write is the change `g` of the port. -/
def State.checkedDoorbell (s : State) (n off value : Nat) (live : Bool) (size least most : Nat) (g : HostPort → HostPort) : State :=
  if live = false then s.doorbellRefused n 9 off value
  else if size ≤ value then s.doorbellRefused n 0xA off value
  else if most < least then s.doorbellRefused n 0xB off value
  else s.updPort n g

/-- What an accepted EVENT_RING_HEAD_DOORBELL makes of its port: with an entry handed back, the events dropped before are reported (R463). -/
def HostPort.moveEventHead (dt value : Nat) (r : EventRing) (p : HostPort) : HostPort :=
  if value = r.head then { p with events := { r with head := value } }.rang else { p with events := { r with head := value } }.rang.postLost dt

@[simp] theorem moveEventHead_accepted (dt value : Nat) (r : EventRing) (p : HostPort) : (p.moveEventHead dt value r).accepted = p.accepted := by
  unfold HostPort.moveEventHead
  split <;> simp

/-- A row that is a checked doorbell, in a quiet device: each refusal is its one violation, and an accepted write its one change of the port. -/
theorem leaves_checkedDoorbell {i : Instr} {s : State} {n off value size least most : Nat} {live : Bool} {g : HostPort → HostPort} (hq : Quiet s)
    (hs : Table.sortedFrom 0 s.ports = true) (hexec : exec i s = .next (s.checkedDoorbell n off value live size least most g).settle)
    (hacc : (g (s.port n)).accepted = (s.port n).accepted) :
    (live = false → Leaves i s (s.violate n 9 .mmio true off 0 (value % 65536))) ∧
    (live = true → size ≤ value → Leaves i s (s.violate n 0xA .mmio true off 0 (value % 65536))) ∧
    (live = true → value < size → most < least → Leaves i s (s.violate n 0xB .mmio true off 0 (value % 65536))) ∧
    (live = true → value < size → least ≤ most → Leaves i s (s.updPort n g)) := by
  have refused (kind : Nat) (h : s.checkedDoorbell n off value live size least most g = s.doorbellRefused n kind off value) :
      Leaves i s (s.violate n kind .mmio true off 0 (value % 65536)) :=
    leaves_of hexec h (quiet_violate hs hq ..)
  refine ⟨fun hl => refused _ ?_, fun hl hsize => refused _ ?_, fun hl hsize hback => refused _ ?_, fun hl hsize hmove => ?_⟩
  · simp [State.checkedDoorbell, hl]
  · simp [State.checkedDoorbell, hl, hsize]
  · simp [State.checkedDoorbell, hl, hsize.not_ge, hback]
  · exact leaves_of hexec (by simp [State.checkedDoorbell, hl, hsize.not_ge, hmove.not_gt]) (quiet_updPort hs hq n g hacc)

/-- A checked doorbell leaves its port reachable where an accepted write does. -/
theorem checkedDoorbell_reachable {s : State} {n off value size least most : Nat} {live : Bool} {g : HostPort → HostPort}
    (hs : Table.sortedFrom 0 s.ports = true) (hg : (g (s.port n)).reachable = (s.port n).reachable) :
    ((s.checkedDoorbell n off value live size least most g).port n).reachable = (s.port n).reachable := by
  have refused (kind : Nat) : ((s.doorbellRefused n kind off value).port n).reachable = (s.port n).reachable := by
    rw [State.doorbellRefused, State.violate, State.port_updPort s hs]
    simp [HostPort.reachable]
  unfold State.checkedDoorbell
  split_ifs
  · exact refused _
  · exact refused _
  · exact refused _
  · rw [State.port_updPort s hs, hg]

/-! ## The three doorbells are checked -/

section
variable {s : State} {n : Nat} (hfw : (s.port n).fwState = 2)
include hfw

theorem sqDoorbell_eq_checked (k value : Nat) :
    s.sqDoorbell n k value = s.checkedDoorbell n (0x2000 + 4 * k) value ((s.port n).pair k).live (2 ^ ((s.port n).pair k).sqLog)
      ((s.port n).pair k).pendingEntries
      ((value + 2 ^ ((s.port n).pair k).sqLog - ((s.port n).pair k).sqHead) % 2 ^ ((s.port n).pair k).sqLog)
      (fun p => (p.setPair k { (s.port n).pair k with sqTail := value, doorbellDt := s.dt }).rang) := by
  simp [State.sqDoorbell, State.checkedDoorbell, State.updPort, hfw]

theorem cqDoorbell_eq_checked (k value : Nat) :
    s.cqDoorbell n k value = s.checkedDoorbell n (0x2080 + 4 * k) value ((s.port n).pair k).live (2 ^ ((s.port n).pair k).cqLog)
      ((value + 2 ^ ((s.port n).pair k).cqLog - ((s.port n).pair k).cqHead) % 2 ^ ((s.port n).pair k).cqLog)
      ((s.port n).pair k).unconsumed
      (fun p => (p.setPair k { (s.port n).pair k with cqHead := value }).rang) := by
  simp [State.cqDoorbell, State.checkedDoorbell, State.updPort, hfw]

theorem eventDoorbell_eq_checked (value : Nat) :
    s.eventDoorbell n value = s.checkedDoorbell n 0x2100 value (s.port n).events.live (s.port n).events.size
      ((value + (s.port n).events.size - (s.port n).events.head) % (s.port n).events.size) (s.port n).events.used
      (HostPort.moveEventHead s.dt value (s.port n).events) := by
  simp [State.eventDoorbell, State.checkedDoorbell, State.updPort, HostPort.moveEventHead, hfw]

end

/-! ## The doorbells in BAR0 (Table 19-1) -/

theorem touchesReserved_doorbells {off size : Nat} (hlo : 0x2000 ≤ off) (hhi : off + size ≤ 0x2104) : touchesReserved off size = false := by
  simp only [touchesReserved, bar0Reserved, List.any_eq_false, List.mem_range]
  intro j hj
  have hin : 0x2000 ≤ off + j ∧ off + j < 0x2104 := by omega
  simp [hin]

section
variable {s : State} {n off value : Nat} {ext : Option Nat} {data : HostData}

theorem dwordWrite_submissionTail (hlo : 0x2000 ≤ off) (hhi : off < 0x2080) :
    s.dwordWrite n off value ext data = s.sqDoorbell n ((off - 0x2000) / 4) value := by
  unfold State.dwordWrite
  rw [if_neg (by omega), if_neg (by omega), if_neg (by omega), if_pos ⟨hlo, hhi⟩]

theorem dwordWrite_completionHead (hlo : 0x2080 ≤ off) (hhi : off < 0x2100) :
    s.dwordWrite n off value ext data = s.cqDoorbell n ((off - 0x2080) / 4) value := by
  unfold State.dwordWrite
  rw [if_neg (by omega), if_neg (by omega), if_neg (by omega), if_neg (by omega), if_pos ⟨hlo, hhi⟩]

theorem dwordWrite_eventHead : s.dwordWrite n 0x2100 value ext data = s.eventDoorbell n value := by
  simp [State.dwordWrite]

/-- A write to one doorbell of a READY port that its host reaches leaves the port within its host's reach. -/
theorem dwordWrite_doorbell_reachable (hs : Table.sortedFrom 0 s.ports = true) (hfw : (s.port n).fwState = 2) (hlo : 0x2000 ≤ off)
    (hhi : off < 0x2100) : ((s.dwordWrite n off value ext data).port n).reachable = (s.port n).reachable := by
  by_cases hsq : off < 0x2080
  · rw [dwordWrite_submissionTail hlo hsq, sqDoorbell_eq_checked hfw]
    exact checkedDoorbell_reachable hs rfl
  · rw [dwordWrite_completionHead (by omega) hhi, cqDoorbell_eq_checked hfw]
    exact checkedDoorbell_reachable hs rfl

section
variable (hreach : (s.port n).reachable = true)
include hreach

theorem bar0Write_doorbell (halign : off % 4 = 0) (hlo : 0x2000 ≤ off) (hhi : off ≤ 0x2100) (hv : value < 2 ^ 32) :
    s.bar0Write n off 4 value ext data = s.dwordWrite n off value ext data := by
  have hnotInbound : ¬ (0x1000 ≤ off ∧ off < 0x1100) := by omega
  unfold State.bar0Write
  rw [Nat.mod_eq_of_lt hv]
  simp [hreach, sizeOk_four halign, touchesReserved_doorbells hlo (show off + 4 ≤ 0x2104 by omega), hnotInbound]

theorem bar0Write_doorbellPair {high : Nat} (halign : off % 8 = 0) (hlo : 0x2000 ≤ off) (hhi : off < 0x2100) (hv : value < 2 ^ 32)
    (hh : high < 2 ^ 32) :
    s.bar0Write n off 8 (value + 2 ^ 32 * high) ext data = (s.dwordWrite n off value ext data).dwordWrite n (off + 4) high ext data := by
  have hnotInbound : ¬ (0x1000 ≤ off ∧ off < 0x1100) := by omega
  have hlow : (value + 2 ^ 32 * high) % 2 ^ 32 = value := by omega
  have hhigh : (value + 2 ^ 32 * high) / 2 ^ 32 % 2 ^ 32 = high := by omega
  have hsize : sizeOk off 8 = true := by simp [sizeOk, halign]
  unfold State.bar0Write
  rw [hlow, hhigh]
  simp [hreach, hsize, touchesReserved_doorbells hlo (show off + 8 ≤ 0x2104 by omega), hnotInbound]

theorem exec_submissionTailDoorbell {k : Nat} (hk : k < 32) (hv : value < 2 ^ 32) :
    exec (.submissionTailDoorbell n k value) s = .next (s.sqDoorbell n k value).settle := by
  have hwrite : s.bar0Write n (0x2000 + 4 * (k % 32)) 4 value none .nothing = s.sqDoorbell n k value := by
    rw [bar0Write_doorbell hreach (by omega) (by omega) (by omega) hv, dwordWrite_submissionTail (by omega) (by omega),
      show (0x2000 + 4 * (k % 32) - 0x2000) / 4 = k by omega]
  exact congrArg (fun t => Host.Outcome.next t.settle) hwrite

theorem exec_completionHeadDoorbell {k : Nat} (hk : k < 32) (hv : value < 2 ^ 32) :
    exec (.completionHeadDoorbell n k value) s = .next (s.cqDoorbell n k value).settle := by
  have hwrite : s.bar0Write n (0x2080 + 4 * (k % 32)) 4 value none .nothing = s.cqDoorbell n k value := by
    rw [bar0Write_doorbell hreach (by omega) (by omega) (by omega) hv, dwordWrite_completionHead (by omega) (by omega),
      show (0x2080 + 4 * (k % 32) - 0x2080) / 4 = k by omega]
  exact congrArg (fun t => Host.Outcome.next t.settle) hwrite

theorem exec_eventRingHeadDoorbell (hv : value < 2 ^ 32) :
    exec (.eventRingHeadDoorbell n value) s = .next (s.eventDoorbell n value).settle := by
  have hwrite : s.bar0Write n 0x2100 4 value none .nothing = s.eventDoorbell n value := by
    rw [bar0Write_doorbell hreach (by omega) (by omega) (by omega) hv, dwordWrite_eventHead]
  exact congrArg (fun t => Host.Outcome.next t.settle) hwrite

end

end

/-- R455's last sentence: the port stays within reach after the lower doorbell, so the upper one acts as a write of its own. -/
theorem bar0Write_doorbellPair_eq_two {s : State} {n off value high : Nat} {ext : Option Nat} {data : HostData}
    (hs : Table.sortedFrom 0 s.ports = true) (hreach : (s.port n).reachable = true) (hfw : (s.port n).fwState = 2) (halign : off % 8 = 0)
    (hlo : 0x2000 ≤ off) (hhi : off < 0x2100) (hv : value < 2 ^ 32) (hh : high < 2 ^ 32) :
    s.bar0Write n off 8 (value + 2 ^ 32 * high) ext data = (s.bar0Write n off 4 value ext data).bar0Write n (off + 4) 4 high ext data := by
  have hreach' : ((s.dwordWrite n off value ext data).port n).reachable = true := by
    rw [dwordWrite_doorbell_reachable hs hfw hlo hhi, hreach]
  rw [bar0Write_doorbellPair hreach halign hlo hhi hv hh, bar0Write_doorbell hreach (by omega) hlo hhi.le hv,
    bar0Write_doorbell hreach' (by omega) (by omega) (by omega) hh]

/-- Settles O11: each doorbell is the one chain of R455's checks, and a refusal or a move is all that a quiet device does. -/
theorem doorbellChecks : Obligations.DoorbellChecks := by
  intro s n value hq hs hreach hfw hv
  refine ⟨fun k r hk hr => ?_, fun r hr => ?_, fun off high halign hlo hhi hh => ?_⟩
  · subst hr
    have hsq := exec_submissionTailDoorbell hreach hk hv
    have hcq := exec_completionHeadDoorbell hreach hk hv
    rw [sqDoorbell_eq_checked hfw] at hsq
    rw [cqDoorbell_eq_checked hfw] at hcq
    obtain ⟨habsent, hindex, hretreat, hmoves⟩ := leaves_checkedDoorbell hq hs hsq rfl
    exact ⟨habsent, hindex, hretreat, hmoves, leaves_checkedDoorbell hq hs hcq rfl⟩
  · subst hr
    have hevent := exec_eventRingHeadDoorbell hreach hv
    rw [eventDoorbell_eq_checked hfw] at hevent
    exact leaves_checkedDoorbell hq hs hevent (moveEventHead_accepted ..)
  · exact bar0Write_doorbellPair_eq_two hs hreach hfw halign hlo hhi hv hh

end Sys2Proof.Machine
end

section
/-!
PROOFS. Proofs/StepKeepsInvariant.lean: one step keeps the invariant, whichever row stands at the front of the queue. The rows' own lemmas are those of
Laws/KeepsExec.lean; here they are put together along `exec`.
-/
namespace Sys2Proof.Machine
open Sys2Proof.Safety

/-- One arm per row of the table, as in `exec`. -/
theorem exec_answers (i : Instr) (s : State) : Answers (exec i s) s := by
  cases i with
  | ringPairCreate c => exact execRingPairCreate_answers c s
  | ringPairDelete c => exact execRingPairDelete_answers c s
  | eventRingSet c => exact execEventRingSet_answers c s
  | coalesceSet c => exact execCoalesceSet_answers c s
  | nop c => exact execNop_answers c s
  | partitionQuery c => exact execPartitionQuery_answers c s
  | partitionQuotaSet c => exact execPartitionQuotaSet_answers c s
  | partitionHostLossSet c => exact execPartitionHostLossSet_answers c s
  | partitionTrimSet c => exact execPartitionTrimSet_answers c s
  | siteQuery c => exact execSiteQuery_answers c s
  | apertureRegister c => exact execApertureRegister_answers c s
  | apertureDeregister c => exact execApertureDeregister_answers c s
  | modelLoad c => exact execModelLoad_answers c s
  | modelPlacement port load image => exact execModelPlacement_answers port load image s
  | modelQuery c => exact execModelQuery_answers c s
  | modelUnload c => exact execModelUnload_answers c s
  | modelList c => exact execModelList_answers c s
  | pipelineCreate c => exact execPipelineCreate_answers c s
  | bindingReady pipe => exact execBindingReady_answers pipe s
  | relayout flank => exact execRelayout_answers flank s
  | pipelineQuery c => exact execPipelineQuery_answers c s
  | pipelinePrefixSet c => exact execPipelinePrefixSet_answers c s
  | pipelineDelete c => exact execPipelineDelete_answers c s
  | pipelineList c => exact execPipelineList_answers c s
  | streamCastOn c => exact execStreamCastOn_answers c s
  | castOnAllocationDone stream => exact execCastOnAllocationDone_answers stream s
  | streamFeed c => exact execStreamFeed_answers c s
  | streamPause c => exact execStreamPause_answers c s
  | streamResume c => exact execStreamResume_answers c s
  | streamRewind c => exact execStreamRewind_answers c s
  | streamBindOff c => exact execStreamBindOff_answers c s
  | streamInputSet c => exact execStreamInputSet_answers c s
  | streamInputSetEffect stream => exact execStreamInputSetEffect_answers stream s
  | streamQuery c => exact execStreamQuery_answers c s
  | streamList c => exact execStreamList_answers c s
  | branchAttach c => exact execBranchAttach_answers c s
  | attachAllocationDone branch => exact execAttachAllocationDone_answers branch s
  | branchDetach c => exact execBranchDetach_answers c s
  | branchResume c => exact execBranchResume_answers c s
  | branchOutputSet c => exact execBranchOutputSet_answers c s
  | branchOutputSetEffect branch => exact execBranchOutputSetEffect_answers branch s
  | branchQuery c => exact execBranchQuery_answers c s
  | portConfigure c => exact execPortConfigure_answers c s
  | portEnable c => exact execPortEnable_answers c s
  | portEnableEffect tdm => exact execPortEnableEffect_answers tdm s
  | portQuery c => exact execPortQuery_answers c s
  | telemetryRead c => exact execTelemetryRead_answers c s
  | diagJournalRead c => exact execDiagJournalRead_answers c s
  | diagInject c => exact execDiagInject_answers c s
  | diagTdmLoopback c => exact execDiagTdmLoopback_answers c s
  | loopbackEffect tdm => exact execLoopbackEffect_answers tdm s
  | deviceQuery c => exact execDeviceQuery_answers c s
  | powerCapSet c => exact execPowerCapSet_answers c s
  | firmwareStage c => exact execFirmwareStage_answers c s
  | flashWriteDone ok => exact execFlashWriteDone_answers ok s
  | firmwareActivate c => exact execFirmwareActivate_answers c s
  | deviceReset c => exact execDeviceReset_answers c s
  | resetDtReached => exact execResetDtReached_answers s
  | siteConfigStage c => exact execSiteConfigStage_answers c s
  | commandTimeLimit port id => exact execCommandTimeLimit_answers port id s
  | go port extBytes data => exact execGo_answers port extBytes data s
  | doneClear port irqEn => exact execDoneClear_answers port irqEn s
  | inboundWrite port offset size value => exact execInboundWrite_answers port offset size value s
  | submissionTailDoorbell port pair value => exact execSubmissionTailDoorbell_answers port pair value s
  | completionHeadDoorbell port pair value => exact execCompletionHeadDoorbell_answers port pair value s
  | eventRingHeadDoorbell port value => exact execEventRingHeadDoorbell_answers port value s
  | dtLoRead port => exact execDtLoRead_answers port s
  | reservedOffsetAccess port write offset size => exact execReservedOffsetAccess_answers port write offset size s
  | mmioSize port write offset size => exact execMmioSize_answers port write offset size s
  | mmioPoisoned port offset size => exact execMmioPoisoned_answers port offset size s
  | registerWrite port offset size value => exact execRegisterWrite_answers port offset size value s
  | vectorUnmask port what => exact execVectorUnmask_answers port what s
  | perstAsserted port => exact execPerstAsserted_answers port s
  | perstReleased port => exact execPerstReleased_answers port s
  | hotReset port => exact execHotReset_answers port s
  | flr port => exact execFlr_answers port s
  | configSpaceReady port => exact execConfigSpaceReady_answers port s
  | hostLossApply port => exact execHostLossApply_answers port s
  | dlUp port => exact execDlUp_answers port s
  | dlDown port => exact execDlDown_answers port s
  | d3hot port => exact execD3hot_answers port s
  | d0Return port => exact execD0Return_answers port s
  | busMasterEnable port on => exact execBusMasterEnable_answers port on s
  | entryFetch port => exact execEntryFetch_answers port s
  | entryFetchRetry port pair => exact execEntryFetchRetry_answers port pair s
  | aggTimeExpiry port vector => exact execAggTimeExpiry_answers port vector s
  | hostCompletion port tag status poisoned data => exact execHostCompletion_answers port tag status poisoned data s
  | completionTimeout port tag => exact execCompletionTimeout_answers port tag s
  | quarantineEnd port tag => exact execQuarantineEnd_answers port tag s
  | feederRingDoorbell feeder ring tail deadline descs => exact execFeederRingDoorbell_answers feeder ring tail deadline descs s
  | skein feeder ring => exact execSkein_answers feeder ring s
  | descriptorStart feeder => exact execDescriptorStart_answers feeder s
  | requestIssue feeder => exact execRequestIssue_answers feeder s
  | done feeder tag => exact execDone_answers feeder tag s
  | data feeder tag => exact execData_answers feeder tag s
  | swap tile pair => exact execSwap_answers tile pair s
  | arrive flank index op => exact execArrive_answers flank index op s
  | stalemateCheck flank index => exact execStalemateCheck_answers flank index s
  | memTimeout feeder tag => exact execMemTimeout_answers feeder tag s
  | read feeder tag upset => exact execRead_answers feeder tag upset s
  | write feeder tag => exact execWrite_answers feeder tag s
  | put16 feeder tag upset => exact execPut16_answers feeder tag upset s
  | zero feeder tag => exact execZero_answers feeder tag s
  | refreshForced channel => exact execRefreshForced_answers channel s
  | scrubRead channel upset => exact execScrubRead_answers channel upset s
  | stackTemperatureReadout stack temp => exact execStackTemperatureReadout_answers stack temp s
  | controllerReset channel => exact execControllerReset_answers channel s
  | controllerResetDone channel => exact execControllerResetDone_answers channel s
  | hopReceive tile port word => exact execHopReceive_answers tile port word s
  | nak tile port ackSeq => exact execNak_answers tile port ackSeq s
  | hopAckTimeout tile port => exact execHopAckTimeout_answers tile port s
  | linkGiveUp tile port => exact execLinkGiveUp_answers tile port s
  | invalidSidebandLimit tile port => exact execInvalidSidebandLimit_answers tile port s
  | e2eStitchArrival endpoint st => exact execE2eStitchArrival_answers endpoint st s
  | credit src dst value multicast => exact execCredit_answers src dst value multicast s
  | creditTimer src dst => exact execCreditTimer_answers src dst s
  | openCtx src dst => exact execOpenCtx_answers src dst s
  | closeCtx src dst => exact execCloseCtx_answers src dst s
  | closeAck src dst => exact execCloseAck_answers src dst s
  | probe src dst => exact execProbe_answers src dst s
  | probeTimer src dst => exact execProbeTimer_answers src dst s
  | probeGiveUp src dst => exact execProbeGiveUp_answers src dst s
  | unreachable src dst sequence => exact execUnreachable_answers src dst sequence s
  | multicastStitch tile st => exact execMulticastStitch_answers tile st s
  | notice endpoint st => exact execNotice_answers endpoint st s
  | lookup tile ppn => exact execLookup_answers tile ppn s
  | holder tile ppn holder => exact execHolder_answers tile ppn holder s
  | noneAnswer tile ppn => exact execNoneAnswer_answers tile ppn s
  | peerRead holder ppn requester => exact execPeerRead_answers holder ppn requester s
  | evict tile ppn => exact execEvict_answers tile ppn s
  | invalidate tile ppn => exact execInvalidate_answers tile ppn s
  | dropped tile ppn => exact execDropped_answers tile ppn s
  | notHeld tile ppn => exact execNotHeld_answers tile ppn s
  | sweepStart ppn => exact execSweepStart_answers ppn s
  | sweepComplete ppn => exact execSweepComplete_answers ppn s
  | copyOnWriteDone ppn => exact execCopyOnWriteDone_answers ppn s
  | itemEligible stage obj row rows attended => exact execItemEligible_answers stage obj row rows attended s
  | dispatchTimer flank => exact execDispatchTimer_answers flank s
  | task tile work => exact execTask_answers tile work s
  | blockProduct tile head x w first rerun => exact execBlockProduct_answers tile head x w first rerun s
  | drainComplete flank => exact execDrainComplete_answers flank s
  | spareLoaded flank => exact execSpareLoaded_answers flank s
  | resliceLoaded flank => exact execResliceLoaded_answers flank s
  | taskEnd flank result => exact execTaskEnd_answers flank result s
  | taskWatchdog flank => exact execTaskWatchdog_answers flank s
  | flagFall branch stage row => exact execFlagFall_answers branch stage row s
  | flagFallIntervalEnd branch => exact execFlagFallIntervalEnd_answers branch s
  | chunkClose stream => exact execChunkClose_answers stream s
  | frameClose stream => exact execFrameClose_answers stream s
  | ingressConditioningDone stream => exact execIngressConditioningDone_answers stream s
  | castlingInStart flank => exact execCastlingInStart_answers flank s
  | castlingInDone stream => exact execCastlingInDone_answers stream s
  | commitComplete stage obj => exact execCommitComplete_answers stage obj s
  | frogRestoreDone stream => exact execFrogRestoreDone_answers stream s
  | zeroisationStart ofBranch slot => exact execZeroisationStart_answers ofBranch slot s
  | zeroisationDone stream => exact execZeroisationDone_answers stream s
  | branchZeroised branch => exact execBranchZeroised_answers branch s
  | outputChunkStart branch => exact execOutputChunkStart_answers branch s
  | tdmFrame tdm words => exact execTdmFrame_answers tdm words s
  | hostFrameFetch stream => exact execHostFrameFetch_answers stream s
  | outputRingFrameWrite branch consumed => exact execOutputRingFrameWrite_answers branch consumed s
  | governorWindow m => exact execGovernorWindow_answers m s
  | trimUpdate trim => exact execTrimUpdate_answers trim s
  | avsTargetReached => exact execAvsTargetReached_answers s
  | voltageWaitTimeout => exact execVoltageWaitTimeout_answers s
  | avsTransactionFail => exact execAvsTransactionFail_answers s
  | regulatorFault => exact execRegulatorFault_answers s
  | prochotAsserted => exact execProchotAsserted_answers s
  | prochotDeasserted => exact execProchotDeasserted_answers s
  | sensorRecalibration sensor => exact execSensorRecalibration_answers sensor s
  | thermalTrip => exact execThermalTrip_answers s
  | lossOfLock => exact execLossOfLock_answers s
  | lockRegained => exact execLockRegained_answers s
  | coldReset straps => exact execColdReset_answers straps s
  | sysReset nanoseconds => exact execSysReset_answers nanoseconds s
  | resetEnd => exact execResetEnd_answers s
  | rom flashReadable => exact execRom_answers flashReadable s
  | imageCheck passed => exact execImageCheck_answers passed s
  | training failing => exact execTraining_answers failing s
  | clear => exact execClear_answers s
  | selfTest failing => exact execSelfTest_answers failing s
  | config rings => exact execConfig_answers rings s
  | fwWatchdog => exact execFwWatchdog_answers s
  | bootTimeout => exact execBootTimeout_answers s
  | watchdogRefreshStop => exact execWatchdogRefreshStop_answers s
  | snapshotRefresh => exact execSnapshotRefresh_answers s
  | mctpPacket medium packet => exact execMctpPacket_answers medium packet s
  | setEndpointId r operation eid => exact execSetEndpointId_answers r operation eid s
  | getEndpointId r => exact execGetEndpointId_answers r s
  | getEndpointUuid r => exact execGetEndpointUuid_answers r s
  | getMctpVersionSupport r type => exact execGetMctpVersionSupport_answers r type s
  | getMessageTypeSupport r => exact execGetMessageTypeSupport_answers r s
  | getVendorDefinedMessageSupport r => exact execGetVendorDefinedMessageSupport_answers r s
  | prepareForEndpointDiscovery r => exact execPrepareForEndpointDiscovery_answers r s
  | endpointDiscovery r => exact execEndpointDiscovery_answers r s
  | getNetworkId r => exact execGetNetworkId_answers r s
  | setTid r tid => exact execSetTid_answers r tid s
  | getTid r => exact execGetTid_answers r s
  | getPldmVersion r type => exact execGetPldmVersion_answers r type s
  | getPldmTypes r => exact execGetPldmTypes_answers r s
  | getPldmCommands r type => exact execGetPldmCommands_answers r type s
  | setEventReceiver r enable eid => exact execSetEventReceiver_answers r enable eid s
  | getEventReceiver r => exact execGetEventReceiver_answers r s
  | getSensorReading r sensor => exact execGetSensorReading_answers r sensor s
  | getSensorThresholds r sensor => exact execGetSensorThresholds_answers r sensor s
  | getStateSensorReadings r sensor => exact execGetStateSensorReadings_answers r sensor s
  | getPdrRepositoryInfo r => exact execGetPdrRepositoryInfo_answers r s
  | getPdr r record => exact execGetPdr_answers r record s
  | platformEventAck medium sensor => exact execPlatformEventAck_answers medium sensor s
  | platformEventRetry sensor => exact execPlatformEventRetry_answers sensor s
  | eventRateIntervalEnd sensor => exact execEventRateIntervalEnd_answers sensor s
  | smbusRetry lost => exact execSmbusRetry_answers lost s
  | instructionUpdate code cells => exact execInstructionUpdate_answers code cells s
  | testLogicReset => exact execTestLogicReset_answers s
  | powerRemoval aon => exact execPowerRemoval_answers aon s
  | vddIoReturn => exact execVddIoReturn_answers s
  | hotResetExit port => exact execHotResetExit_answers port s
  | drainTimeout flank => exact execDrainTimeout_answers flank s
  | perBankRefresh channel => exact execPerBankRefresh_answers channel s
  | relayoutDone flank => exact execRelayoutDone_answers flank s
  | smbusBusTimeout => exact execSmbusBusTimeout_answers s

/-- The invariant reads nothing of the queue. -/
theorem inv_putPending {s : State} (h : Inv s) (is : List Instr) : Inv { s with pending := is } := by
  obtain ⟨hgovernor, hstores, hbounds, htables⟩ := h
  exact ⟨hgovernor, hstores, hbounds, { htables with }⟩

theorem inv_exec {i : Instr} {s t : State} (hi : Inv s) (h : exec i s = .next t) : Inv t := by
  obtain ⟨u, hu, hkeeps⟩ := exec_answers i s
  obtain rfl : u = t := Host.Outcome.next.inj (hu.symm.trans h)
  exact hkeeps.2 hi

/-- A tick on an empty queue, else the front command on the queue's rest. -/
theorem inv_step {s t : State} (hi : Inv s) (h : step s = .next t) : Inv t := by
  unfold step at h
  split at h
  · obtain rfl := Host.Outcome.next.inj h
    exact (tick_keeps s (Keeps.refl s)).2 hi
  · next _ rest _ => exact inv_exec (inv_putPending hi rest) h

end Sys2Proof.Machine
end

section
/-!
PROOFS. Proofs/OperatingPoint.lean: the operating point of R567 and the ceilings of Table 15-4.
-/
namespace Sys2Proof.Machine
open Sys2Proof.Safety

/-! ## The ceiling (R564, R581) -/

theorem capCeiling_eq_four {cap : Nat} (h : 27 ≤ cap) : capCeiling cap = 4 := if_pos h

theorem capCeiling_eq_five {cap : Nat} (hlo : 20 ≤ cap) (hhi : cap < 27) : capCeiling cap = 5 := by
  rw [capCeiling, if_neg (Nat.not_le.mpr hhi), if_pos hlo]

theorem capCeiling_eq_six {cap : Nat} (h : cap < 20) : capCeiling cap = 6 := by
  rw [capCeiling, if_neg (by omega), if_neg (Nat.not_le.mpr h)]

theorem ceiling_of_faulted {p : Power} (h : p.avs.faulted = true) : p.ceiling = 6 := if_pos h

theorem ceiling_of_not_faulted {p : Power} (h : p.avs.faulted = false) : p.ceiling = capCeiling p.cap :=
  if_neg (Bool.not_eq_true _ ▸ h)

/-! ## The operating point (R567) -/

/-- What the invariant says of the divisor and the pace, without the raise and the target it also bounds. -/
theorem operatingPoint_of_governorOk {p : Power} (h : GovernorOk p) :
    (p.divisor = 4 ∨ p.divisor = 5 ∨ p.divisor = 6) ∧ p.pace ≤ 7 ∧ (p.pace ≠ 0 → p.divisor = 6) ∧ p.ceiling ≤ p.divisor := by
  obtain ⟨hlo, hhi, hceiling, hpace, hpaced, -⟩ := h
  exact ⟨by omega, hpace, fun hne => (hpaced (Nat.pos_of_ne_zero hne)).1, hceiling⟩

/-- Settles O55: the invariant holds the operating point within R567, and a step keeps the invariant. -/
theorem governorHoldsItsPoint : Obligations.GovernorHoldsItsPoint := by
  refine ⟨fun s t hi hstep => ?_, fun p => ⟨ceiling_of_faulted, fun hf hcap => ?_, fun hf hlo hhi => ?_, fun hf _ hhi => ?_⟩⟩
  · have hit : Inv t := by
      obtain rfl | hnext := hstep
      · exact hi
      · exact inv_step hi hnext
    exact operatingPoint_of_governorOk hit.1
  · rw [ceiling_of_not_faulted hf, capCeiling_eq_four (by omega)]
  · rw [ceiling_of_not_faulted hf, capCeiling_eq_five hlo (by omega)]
  · rw [ceiling_of_not_faulted hf, capCeiling_eq_six (by omega)]

end Sys2Proof.Machine
end

section
/-!
PROOFS. Proofs/ShortResetPulses.lean: a low pulse on SYS_RESET_N shorter than 1 µs (R584), which is below both lengths the row compares it with.
-/
namespace Sys2Proof.Machine
open Sys2Proof.Safety

/-- A pulse below 1,000 ns resets nothing, whatever Config.shortPulseResets says of the pulses between 1 µs and 10 µs. -/
theorem sysReset_of_lt {ns : Nat} (s : State) (h : ns < 1000) : s.sysReset ns = s := by
  have hshort : ¬ 1000 ≤ ns := Nat.not_le.mpr h
  have hreset : ¬ 10000 ≤ ns := by omega
  simp [State.sysReset, hshort, hreset]

/-- Settles O40: the row's effect is the state itself, so only what follows every command is left, the block's settling. -/
theorem shortResetPulsesAreIgnored : Obligations.ShortResetPulsesAreIgnored := by
  intro s ns h
  have hsame : s.sysReset ns = s := sysReset_of_lt s h
  exact ⟨becomes_of rfl hsame, fun hquiet => leaves_of rfl hsame hquiet⟩

end Sys2Proof.Machine
end

section
/-!
PROOFS. Proofs/MailboxRegisters.lean: the inbound area and GO as BAR0 reaches them (Table 19-1), and what both do while FW_STATE does not read READY (R680).
-/
namespace Sys2Proof.Machine
open Sys2Proof.Safety

/-! ## The inbound area and GO in BAR0 -/

theorem touchesReserved_inbound {off size : Nat} (hlo : 0x1000 ≤ off) (hhi : off < 0x1100) (hsize : sizeOk off size = true) :
    touchesReserved off size = false := by
  have hend : size ≤ 8 := by
    simp only [sizeOk, Bool.or_eq_true, Bool.and_eq_true, beq_iff_eq] at hsize
    omega
  simp only [touchesReserved, bar0Reserved, List.any_eq_false, List.mem_range]
  intro j hj
  have hin : 0x1000 ≤ off + j ∧ off + j < 0x1208 := by omega
  simp [hin]

section
variable {s : State} {n : Nat}

/-- Another inbound area leaves the violation log, BUSY and DONE. The change `g` stays a variable here: with `off - 0x1000` in its place the kernel counts down from
0x1000. -/
theorem updInbound_keeps {t : State} (hs : Table.sortedFrom 0 s.ports = true) (g : Nat → Nat)
    (ht : t = s.updPort n (fun p => { p with mbx := { p.mbx with inbound := g p.mbx.inbound } })) :
    (t.port n).vlog = (s.port n).vlog ∧ (t.port n).mbx.busy = (s.port n).mbx.busy ∧ (t.port n).mbx.done = (s.port n).mbx.done := by
  rw [ht, State.port_updPort s hs]
  exact ⟨rfl, rfl, rfl⟩

/-- BUSY and DONE both 0 let the bytes through; the port changes in its inbound area alone. -/
theorem inboundWrite_free (hbusy : (s.port n).mbx.busy = false) (hdone : (s.port n).mbx.done = false) (off size value : Nat) :
    s.inboundWrite n off size value =
      s.updPort n (fun p => { p with mbx := { p.mbx with inbound := putBytes p.mbx.inbound (off - 0x1000) size value } }) := by
  simp [State.inboundWrite, State.updPort, hbusy, hdone]

/-- R443 comes before R442: GO asks for READY first, so even at a mailbox in use it records nothing. -/
theorem goMailbox_before_ready (hfw : (s.port n).fwState ≠ 2) (ext : Option Nat) (data : HostData) : s.goMailbox n ext data = s := by
  simp [State.goMailbox, hfw]

variable (hreach : (s.port n).reachable = true)
include hreach

/-- The inbound area takes a write whole, 8 bytes as well as 4. -/
theorem exec_inboundWrite {off size : Nat} (value : Nat) (hsize : sizeOk off size = true) (hlo : 0x1000 ≤ off) (hhi : off < 0x1100) :
    exec (.inboundWrite n off size value) s = .next (s.inboundWrite n off size value).settle := by
  have hwrite : s.bar0Write n off size value none .nothing = s.inboundWrite n off size value := by
    simp [State.bar0Write, hreach, hsize, touchesReserved_inbound hlo hhi hsize, hlo, hhi]
  exact congrArg (fun t => Host.Outcome.next t.settle) hwrite

theorem exec_go (ext : Option Nat) (data : HostData) : exec (.go n ext data) s = .next (s.goMailbox n ext data).settle := by
  have hreserved : touchesReserved 0x1200 4 = false := by decide
  have hbit : flag 1 0 = true := by decide
  have hwrite : s.bar0Write n 0x1200 4 1 ext data = s.goMailbox n ext data := by
    simp [State.bar0Write, State.dwordWrite, hreach, sizeOk_four (off := 0x1200) rfl, hreserved, hbit]
  exact congrArg (fun t => Host.Outcome.next t.settle) hwrite

/-- A free mailbox stores the write whatever FW_STATE reads: at READY under R442, before it under R680. -/
theorem leaves_inboundWrite_free (hq : Quiet s) (hs : Table.sortedFrom 0 s.ports = true) (hbusy : (s.port n).mbx.busy = false)
    (hdone : (s.port n).mbx.done = false) {off size : Nat} (value : Nat) (hsize : sizeOk off size = true) (hlo : 0x1000 ≤ off) (hhi : off < 0x1100) :
    Leaves (.inboundWrite n off size value) s
      (s.updPort n (fun p => { p with mbx := { p.mbx with inbound := putBytes p.mbx.inbound (off - 0x1000) size value } })) :=
  leaves_of (exec_inboundWrite hreach value hsize hlo hhi) (inboundWrite_free hbusy hdone off size value) (quiet_updPort hs hq n _ rfl)

theorem leaves_go_before_ready (hq : Quiet s) (hfw : (s.port n).fwState ≠ 2) (ext : Option Nat) (data : HostData) : Leaves (.go n ext data) s s :=
  leaves_of (exec_go hreach ext data) (goMailbox_before_ready hfw ext data) hq

end

/-! ## Before READY (R680) -/

theorem watchSensors_ports (s : State) : s.watchSensors.ports = s.ports := by
  obtain ⟨m, hm⟩ := watchSensors_frame s
  rw [hm]

/-- Settles O56: the write asks for BUSY and DONE alone, and GO for READY first; neither path reaches the violation log. -/
theorem mailboxBeforeReady : Obligations.MailboxBeforeReady := by
  intro s n hq hs hreach hfw
  refine ⟨fun off size value hbusy hdone hsize hlo hhi => ?_, fun ext data => ?_⟩
  · obtain ⟨hvlog, hbusyKept, hdoneKept⟩ := updInbound_keeps (n := n) hs (putBytes · (off - 0x1000) size value) rfl
    exact ⟨_, leaves_inboundWrite_free hreach hq hs hbusy hdone value hsize hlo hhi, rfl, hvlog, hbusyKept.trans hbusy, hdoneKept.trans hdone⟩
  · have hports : s.watchSensors.ports = s.ports := watchSensors_ports s
    have hport : s.watchSensors.port n = s.port n := by rw [State.port, hports, State.port]
    exact ⟨_, leaves_go_before_ready hreach hq hfw ext data, rfl, hports, by rw [hport], by rw [hport]⟩

end Sys2Proof.Machine
end

section
/-!
PROOFS. Proofs/Steps.lean: what a step is (the front command, or a tick), that every row answers, and the invariant at reset and over steps.
-/
namespace Sys2Proof.Machine
open Sys2Proof.Safety

/-! ## Steps -/

/-- Settles O49: the queue that is not empty is the second case of `step`. -/
theorem stepRunsFrontCommand : Obligations.StepRunsFrontCommand :=
  fun _ _ _ => rfl

theorem step_of_empty {s : State} (h : s.pending = []) : step s = .next (tick s) := by
  rw [step, h]

theorem tick_running {s : State} (h : s.boot.inReset = false) : tick s = { s with dt := (s.dt + 1) % 2 ^ 64 } := by
  simp [tick, bump, h]

theorem tick_inReset {s : State} (h : s.boot.inReset = true) : tick s = s := by
  simp [tick, h]

/-- Settles O50: with no command waiting a step is one tick, and a reset holds DT. -/
theorem emptyQueueTicks : Obligations.EmptyQueueTicks :=
  fun _ hempty => ⟨fun hrun => by rw [step_of_empty hempty, tick_running hrun], fun hreset => by rw [step_of_empty hempty, tick_inReset hreset]⟩

/-- Settles O54: each row answers, and what it answers keeps the queue. -/
theorem everyRowAnswers : Obligations.EveryRowAnswers := by
  intro i s
  obtain ⟨t, ht, hkeeps⟩ := exec_answers i s
  exact ⟨t, ht, hkeeps.1⟩

/-! ## Reset -/

/-- Settles O51: every table of the reset state is empty, so what it holds reads as the default of its type. -/
theorem resetState : Obligations.ResetState := by
  have port (n : Nat) : State.reset.port n = {} := rfl
  refine ⟨rfl, rfl, rfl, rfl, rfl, rfl, rfl, fun n => ?_, fun _ => rfl, fun _ => rfl, rfl, rfl, rfl, rfl, rfl, rfl, fun _ => rfl, fun _ => rfl, rfl, rfl, rfl⟩
  rw [port n]
  exact ⟨rfl, rfl, rfl, rfl, rfl, rfl, fun _ => rfl, fun _ => rfl, rfl, rfl⟩

theorem governorOk_reset : GovernorOk State.reset.power :=
  ⟨by decide, by decide, by decide, by decide, by decide, by rintro t d ⟨⟩, by decide, by decide⟩

theorem tablesOk_reset : TablesOk State.reset := by
  constructor <;> rfl

/-- Settles O52: at reset the stores and tables are empty and the governor stands at root/6. -/
theorem resetMeetsInvariant : Obligations.ResetMeetsInvariant :=
  ⟨governorOk_reset, ⟨rfl, rfl⟩, ⟨by decide, by decide, by decide, by decide⟩, tablesOk_reset⟩

/-- Settles O53: a step is a tick or one row's effect, and both keep the invariant. -/
theorem everyStepKeepsInvariant : Obligations.EveryStepKeepsInvariant :=
  fun _ _ => inv_step

end Sys2Proof.Machine
end

section
/-!
PROOFS. Proofs/LeradEffects.lean: what the proofs about Lerad commands share: when all checks pass, and what a command is shown to reply or wait for when its effect
leaves the ports alone or changes its own port only.
-/
namespace Sys2Proof.Machine
open Sys2Proof.Safety

/-! ## Checks -/

theorem firstFail_eq_none_iff {xs : List (Bool × Answer)} : firstFail xs = none ↔ ∀ x ∈ xs, x.1 = false := by
  induction xs with
  | nil => simp [firstFail]
  | cons x xs ih =>
    obtain ⟨bad, a⟩ := x
    cases bad <;> simp [firstFail, ih]

@[simp] theorem resZero_fst (x lo w : Nat) : (resZero x lo w).1 = decide (field x lo w ≠ 0) := rfl
@[simp] theorem resValue_fst (bad : Bool) (lo : Nat) : (resValue bad lo).1 = bad := rfl
@[simp] theorem rangeFail_fst (bad : Bool) (lo : Nat) : (rangeFail bad lo).1 = bad := rfl
@[simp] theorem alignFail_fst (bad : Bool) (lo : Nat) : (alignFail bad lo).1 = bad := rfl
@[simp] theorem argFail_fst (bad : Bool) (status lo : Nat) : (argFail bad status lo).1 = bad := rfl
@[simp] theorem plainFail_fst (bad : Bool) (status : Nat) : (plainFail bad status).1 = bad := rfl

/-! ## Replies and waits by what the effect changes -/

section
variable {i : Instr} {s : State} {c : Call} {op : Nat} {u : State} {a : Answer} {k : Nat} {g : HostPort → HostPort}

/-- An effect that leaves the ports alone. -/
theorem replies_of_ports (h : MailboxFree s c op) (hexec : exec i s = .next (s.lerad c op))
    (hrun : (taken s c op).runCall (entryOf s c op) = (u, .done a)) (hp : u.ports = (taken s c op).ports) : Replies i s c op u a :=
  replies_of h hexec hrun (hp ▸ sorted_taken s c op (sorted_of_free h)) (accepted_of_ports hp)

/-- An effect on the command's own port that keeps its accepted commands. -/
theorem replies_of_updPort (h : MailboxFree s c op) (hexec : exec i s = .next (s.lerad c op))
    (hrun : (taken s c op).runCall (entryOf s c op) = ((taken s c op).updPort c.port g, .done a)) (hg : ∀ p, (g p).accepted = p.accepted) :
    Replies i s c op ((taken s c op).updPort c.port g) a :=
  have hs := sorted_taken s c op (sorted_of_free h)
  replies_of h hexec hrun (sorted_setPort _ hs _ _) (accepted_updPort _ hs _ g (hg _))

theorem waits_of_ports (h : MailboxFree s c op) (hexec : exec i s = .next (s.lerad c op))
    (hrun : (taken s c op).runCall (entryOf s c op) = (u, .wait k)) (hp : u.ports = (taken s c op).ports) : Waits i s c op u k :=
  waits_of h hexec hrun (hp ▸ sorted_taken s c op (sorted_of_free h)) (accepted_of_ports hp)

theorem waits_of_updPort (h : MailboxFree s c op) (hexec : exec i s = .next (s.lerad c op))
    (hrun : (taken s c op).runCall (entryOf s c op) = ((taken s c op).updPort c.port g, .wait k)) (hg : ∀ p, (g p).accepted = p.accepted) :
    Waits i s c op ((taken s c op).updPort c.port g) k :=
  have hs := sorted_taken s c op (sorted_of_free h)
  waits_of h hexec hrun (sorted_setPort _ hs _ _) (accepted_updPort _ hs _ g (hg _))

end

end Sys2Proof.Machine
end

section
/-!
PROOFS. Proofs/TransportCommands.lean: the transport commands of Table 12-6 that answer at once.
-/
namespace Sys2Proof.Machine
open Sys2Proof.Safety

section
variable {s : State} {c : Call}

theorem replies_nop (h : MailboxFree s c 0x0914) : Replies (.nop c) s c 0x0914 (taken s c 0x0914) { result := s.dt } :=
  replies_of_ports h rfl rfl rfl

theorem run_coalesceSet : (taken s c 0x0913).runCall (entryOf s c 0x0913) = (taken s c 0x0913).coalesceSet { c with opcode := 0x0913 } (callPayload c) := (rfl)

theorem replies_coalesceSet (h : MailboxFree s c 0x0913) (h6 : field (callPayload c) 6 2 = 0) (h16 : field (callPayload c) 16 16 = 0)
    (htime : field (callPayload c) 32 32 ≤ 245760) :
    Replies (.coalesceSet c) s c 0x0913
      ((taken s c 0x0913).updPort c.port (fun p => p.setVector (field (callPayload c) 0 6)
        { p.vector (field (callPayload c) 0 6) with aggCount := field (callPayload c) 8 8, aggTime := field (callPayload c) 32 32 })) {} :=
  replies_of_updPort h rfl
    (run_coalesceSet.trans (checked_ok (firstFail_eq_none_iff.mpr (by simp [h6, h16, htime]))))
    (fun _ => rfl)

theorem run_ringPairCreate :
    (taken s c 0x0910).runCall (entryOf s c 0x0910) = (taken s c 0x0910).ringPairCreate { c with opcode := 0x0910 } (callPayload c) := (rfl)

theorem run_eventRingSet :
    (taken s c 0x0912).runCall (entryOf s c 0x0912) = (taken s c 0x0912).eventRingSet { c with opcode := 0x0912 } (callPayload c) := (rfl)

end

/-- Settles O1: each of the four passes its checks in the state that acceptance leaves, whose rings and apertures are those of before. -/
theorem transportCommandsReply : Obligations.TransportCommandsReply := by
  intro s c x hx
  subst hx
  refine ⟨replies_nop, replies_coalesceSet, ?_, ?_⟩
  · intro h h5 h30 h44 h60 hsq hsq' hcq hcq' hap hap' hoff hoff' hlive hself hothers
    have hs := sorted_of_free h
    refine replies_of_updPort h rfl (run_ringPairCreate.trans ?_) (fun _ => rfl)
    unfold State.ringPairCreate
    dsimp only
    rw [checked_ok (firstFail_eq_none_iff.mpr (by simp [*])), withRange_ok (by rw [checkAperture_taken c _ hs]; exact hap),
      withRange_ok (by rw [checkAperture_taken c _ hs]; exact hap'), pair_taken c _ hs, span_taken c _ hs, span_taken c _ hs, ringSpans_taken c _ hs,
      checked_ok (firstFail_eq_none_iff.mpr (by simpa [hoff, hoff', hlive, hself] using hothers))]
    rfl
  · intro h h20 hlog hlog' hap hoff hlive r hr
    have hs := sorted_of_free h
    have hport := taken_port s c 0x0912 hs
    have hrun : (taken s c 0x0912).eventRingSet { c with opcode := 0x0912 } (callPayload c) =
        ((taken s c 0x0912).setPort c.port (r.1.postLost s.dt), .done { result := r.2 }) := by
      unfold State.eventRingSet
      dsimp only
      rw [checked_ok (firstFail_eq_none_iff.mpr (by simp [*])), withRange_ok (by rw [checkAperture_taken c _ hs]; exact hap),
        checked_ok (firstFail_eq_none_iff.mpr (by simp [hport, hoff, hlive])), hr]
      simp only [hport]
      rfl
    have hacc : (r.1.postLost s.dt).accepted = ((taken s c 0x0912).port c.port).accepted := by
      rw [postLost_accepted, hr, deliverHeld_accepted]
    exact replies_of h rfl (run_eventRingSet.trans hrun) (sorted_setPort _ (sorted_taken s c _ hs) _ _)
      (accepted_updPort _ (sorted_taken s c _ hs) c.port (fun _ => r.1.postLost s.dt) hacc)

end Sys2Proof.Machine
end

section
/-!
PROOFS. Proofs/Queries.lean: the queries and lists (R478, R479): each checks its buffer's descriptor, names its object and responds with a record; TELEMETRY_READ and
DIAG_JOURNAL_READ do the same with their own checks.
-/
namespace Sys2Proof.Machine
open Sys2Proof.Safety

section
variable {i : Instr} {s : State} {c : Call} {op : Nat} {u : State} {len v k : Nat} {r : Option Nat} {o : Option Nat} {f : Nat → State × Reply}
  (hb : BufferOk c) (h : MailboxFree s c op) (hexec : exec i s = .next (s.lerad c op))
include hb h hexec

/-- A query that only checks its descriptor. -/
theorem responds_of_checked
    (hrun : (taken s c op).runCall (entryOf s c op) = checked (taken s c op) (bufferChecks { c with opcode := op } (callPayload c))
      fun _ => u.respond { c with opcode := op } (callPayload c) len v r)
    (hp : u.ports = (taken s c op).ports) : Responds i s c op u len v r := by
  obtain ⟨-, hchan, -⟩ := id h
  exact responds_of h hexec (hrun.trans (checked_ok (bufferChecks_ok hb hchan op))) hp

/-- A query of a live object. -/
theorem responds_of_named
    (hrun : (taken s c op).runCall (entryOf s c op) = checked (taken s c op) (bufferChecks { c with opcode := op } (callPayload c))
      fun _ => named (taken s c op) o f)
    (ho : o = some k) (hf : f k = u.respond { c with opcode := op } (callPayload c) len v r) (hp : u.ports = (taken s c op).ports) :
    Responds i s c op u len v r := by
  rw [named_some ho, hf] at hrun
  exact responds_of_checked hb h hexec hrun hp

end

/-- Settles O2: each query is its descriptor's checks, its live object, and the record that its response carries. -/
theorem queriesRespond : Obligations.QueriesRespond := by
  intro s c hb
  refine ⟨?_, ?_, ?_, ?_, ?_, ?_, ?_, ?_, ?_, ?_, ?_⟩
  · exact fun n h hn => responds_of_named hb h rfl rfl hn rfl rfl
  · exact fun h => responds_of_checked hb h rfl rfl rfl
  · exact fun m h hm => responds_of_named hb h rfl rfl hm rfl rfl
  · rintro hs h rfl
    exact responds_of_checked hb h rfl rfl rfl
  · exact fun m h hm => responds_of_named hb h rfl rfl hm rfl rfl
  · rintro hs h rfl
    exact responds_of_checked hb h rfl rfl rfl
  · exact fun m h hm => responds_of_named hb h rfl rfl hm rfl rfl
  · rintro is h rfl
    exact responds_of_checked hb h rfl rfl rfl
  · exact fun m h hm => responds_of_named hb h rfl rfl hm rfl rfl
  · exact fun m h hm => responds_of_named hb h rfl rfl hm rfl rfl
  · exact fun h => responds_of_checked hb h rfl rfl rfl

theorem firstFail_append {xs ys : List (Bool × Answer)} : firstFail (xs ++ ys) = none ↔ firstFail xs = none ∧ firstFail ys = none := by
  simp only [firstFail_eq_none_iff, List.forall_mem_append]

section
variable {s : State} {c : Call} {x : Nat} (hchecks : firstFail (bufferChecks c x) = none)
include hchecks

theorem journalRead_of_cons {e : JEntry} {es rs : List JEntry} (hentries : s.journal.entries = e :: es)
    (hrs : rs = (s.journalFor c.port (field x 96 32)).take (field x 128 32)) :
    s.journalRead c x = s.respond c x (32 * rs.length) (concatRecords 256 (rs.map JEntry.bytes)) (some e.seq) := by
  rw [State.journalRead, checked_ok hchecks, hentries, hrs]

theorem journalRead_of_nil (hentries : s.journal.entries = []) :
    s.journalRead c x = ({ s with free := s.free + 1 } : State).respond c x 0 0 (some (Config.freeValue s.free % 2 ^ 32)) := by
  rw [State.journalRead, checked_ok hchecks, hentries]
  rfl

end

/-- Settles O3: both commands pass their checks and respond; a free value stands for the newest sequence of an empty journal. -/
theorem telemetryAndJournalRespond : Obligations.TelemetryAndJournalRespond := by
  intro s c x hx hb
  subst hx
  have hbuffer {op : Nat} (h : MailboxFree s c op) : firstFail (bufferChecks { c with opcode := op } (callPayload c)) = none :=
    bufferChecks_ok hb h.2.1 op
  refine ⟨?_, ?_, ?_⟩
  · intro r h h104 hlast hhas hpos hle hr
    have hgroup : (groupLast (field (callPayload c) 96 8)).isNone = false := by simpa using hlast
    have hrun : (taken s c 0x0701).telemetryRead { c with opcode := 0x0701 } (callPayload c) =
        (taken s c 0x0701).respond { c with opcode := 0x0701 } (callPayload c) r.1 r.2 none := by
      unfold State.telemetryRead
      dsimp only
      rw [checked_ok, hr]
      rw [firstFail_append, firstFail_append]
      refine ⟨⟨firstFail_eq_none_iff.mpr (by simp [hb.1, h104]), hbuffer h⟩, firstFail_eq_none_iff.mpr ?_⟩
      simp only [List.forall_mem_cons, rangeFail_fst, hgroup, hhas]
      simp [hpos.ne', hle]
    exact responds_of h rfl hrun rfl
  · intro e es rs h hentries hrs
    exact responds_of h rfl (journalRead_of_cons (hbuffer h) hentries hrs) rfl
  · intro h hentries
    exact responds_of h rfl (journalRead_of_nil (hbuffer h) hentries) rfl

end Sys2Proof.Machine
end

section
/-!
PROOFS. Proofs/PartitionCommands.lean: PARTITION_HOST_LOSS_SET, PARTITION_TRIM_SET, POWER_CAP_SET and PORT_CONFIGURE: each passes its checks and answers with its one
change.
-/
namespace Sys2Proof.Machine
open Sys2Proof.Safety

/-- A partition with TRIM_NONE trims nothing (R230). -/
theorem trimCheck_of_trimNone {s : State} {n : Nat} (h : (s.part n).trimNone = true) : s.trimCheck n = s := by
  simp [State.trimCheck, h]

theorem part_updPart {s : State} (hs : Table.sortedFrom 0 s.parts = true) (n : Nat) (g : Partition → Partition) : (s.updPart n g).part n = g (s.part n) :=
  Table.get_set_same hs n _

section
variable {s : State} {c : Call} {x n : Nat}

theorem partitionHostLossSet_ok (h4 : field x 4 28 = 0) (h0 : field x 0 2 ≠ 3) (h2 : field x 2 2 ≠ 3) (hn : s.partOf c.port c.handle false = some n) :
    s.partitionHostLossSet c x = (s.updPart n (fun p => { p with hlTdm := field x 0 2, hlHost := field x 2 2 }), .done {}) := by
  rw [State.partitionHostLossSet, checked_ok (firstFail_eq_none_iff.mpr (by simp [h4, h0, h2])), named_some hn]
  rfl

theorem partitionTrimSet_ok (hn : s.partOf c.port c.handle true = some n) (hplan : s.isPlan c.port = true) (h1 : field x 1 31 = 0) :
    s.partitionTrimSet c x = ((s.updPart n (fun p => { p with trimNone := flag x 0 })).trimCheck n, .done {}) := by
  rw [State.partitionTrimSet, named_some hn, checked_ok (firstFail_eq_none_iff.mpr (by simp [hplan, h1]))]
  rfl

theorem partitionTrimSet_trimNone (hs : Table.sortedFrom 0 s.parts = true) (hn : s.partOf c.port c.handle true = some n) (hplan : s.isPlan c.port = true)
    (h1 : field x 1 31 = 0) (hflag : flag x 0 = true) :
    s.partitionTrimSet c x = (s.updPart n (fun p => { p with trimNone := true }), .done {}) := by
  rw [partitionTrimSet_ok hn hplan h1, hflag, trimCheck_of_trimNone (by rw [part_updPart hs])]

theorem powerCapSet_ok (h5 : field x 5 27 = 0) (hcap : field x 0 5 = 0 ∨ 14 ≤ field x 0 5 ∧ field x 0 5 ≤ 28) :
    s.powerCapSet c x = (s.setCap (if field x 0 5 = 0 then s.site.cap else field x 0 5) 0, .done {}) := by
  have hrange : ¬ (field x 0 5 ≠ 0 ∧ (field x 0 5 < 14 ∨ 28 < field x 0 5)) := by omega
  rw [State.powerCapSet, checked_ok (firstFail_eq_none_iff.mpr (by simpa [h5] using hrange))]
  rfl

theorem portConfigure_ok (hslots : (tdmConfigOf x).slots ≠ 3) (hwidth : (tdmConfigOf x).width ≠ 3) (h21 : field x 21 43 = 0)
    (hsup : (tdmConfigOf x).supported = true) (hin : (tdmConfigOf x).sentInEn = true → (tdmConfigOf x).sentIn < (tdmConfigOf x).count)
    (hout : (tdmConfigOf x).sentOutEn = true → (tdmConfigOf x).sentOut < (tdmConfigOf x).count) (hn : s.tdmOf c.port c.handle = some n)
    (hdis : (s.tdm n).state = .disabled) (hnone : (s.tdm n).enableAt = none) (hmap : s.tdmMapped n = false) :
    s.portConfigure c x = (s.updTdm n (fun p => { p with cfg := tdmConfigOf x }), .done {}) := by
  unfold State.portConfigure
  dsimp only
  rw [checked_ok (firstFail_eq_none_iff.mpr (by simpa [hslots, hwidth, h21, hsup] using ⟨hin, hout⟩)), named_some hn,
    checked_ok (firstFail_eq_none_iff.mpr (by simp [hdis, hnone, hmap]))]
  rfl

end

/-- Settles O4: the four commands pass their checks, and each answers SUCCESS with its own change made. -/
theorem partitionCommandsReply : Obligations.PartitionCommandsReply := by
  intro s c x hx
  subst hx
  refine ⟨?_, ?_, ?_, ?_⟩
  · intro n h h4 h0 h2 hn
    exact replies_of_ports h rfl (partitionHostLossSet_ok h4 h0 h2 hn) rfl
  · intro n h hn hplan h1
    exact ⟨starts_of h rfl (partitionTrimSet_ok hn hplan h1),
      fun hflag hparts => replies_of_ports h rfl (partitionTrimSet_trimNone hparts hn hplan h1 hflag) rfl⟩
  · intro h hplan h5 hcap
    exact starts_of h rfl ((run_powerCapSet hplan).trans (powerCapSet_ok h5 hcap))
  · intro t h hslots hwidth h21 hsup hin hout ht hdis hnone hmap
    exact replies_of_ports h rfl (portConfigure_ok hslots hwidth h21 hsup hin hout ht hdis hnone hmap) rfl

end Sys2Proof.Machine
end

section
/-!
PROOFS. Proofs/ApertureCommands.lean: APERTURE_REGISTER, MODEL_UNLOAD, STREAM_FEED, BRANCH_RESUME, FIRMWARE_ACTIVATE and DIAG_INJECT that pass their checks.
-/
namespace Sys2Proof.Machine
open Sys2Proof.Safety

section
variable {s : State} {c : Call} {x i : Nat}

theorem apertureRegister_ok (h87 : field x 87 41 = 0) (hbase : field x 0 64 % 4096 = 0) (hpos : 0 < field x 64 21) (hle : field x 64 21 ≤ 1048576)
    (hend : field x 0 64 + 4096 * field x 64 21 ≤ 2 ^ 64) (hgrant : (flag x 85 || flag x 86) = true)
    (hfree : Table.firstWhere none (s.port c.port).apertures (fun a => a.isNone) 0 4096 = some i) :
    s.apertureRegister c x = (s.updPort c.port (fun p => { p with
      apertures := Table.set none p.apertures i (some { base := field x 0 64, bytes := 4096 * field x 64 21, read := flag x 85, write := flag x 86 }) }),
      .done { handle := 0x02000000 + i }) := by
  have hpages : ¬ (field x 64 21 = 0 ∨ 1048576 < field x 64 21 ∨ 2 ^ 64 < field x 0 64 + 4096 * field x 64 21) := by omega
  have hsome : (!flag x 85 && !flag x 86) = false := by rw [← Bool.not_or, hgrant]; rfl
  unfold State.apertureRegister
  dsimp only
  rw [hfree, checked_ok (firstFail_eq_none_iff.mpr ?_)]
  · rfl
  · simp only [List.forall_mem_cons, resZero_fst, alignFail_fst, rangeFail_fst, plainFail_fst, hsome, decide_eq_false hpages]
    simp [h87, hbase]

/-- Another model still has the content: the slot is all there is to free. -/
theorem modelUnload_shared {t : State} (hi : s.modelOf c.port c.handle = some i) (hnamed : s.modelNamed i = false)
    (ht : t = s.setModel i { s.model i with live := false, gen := bump 16 (s.model i).gen 1 })
    (hstill : t.models.any (fun e => e.2.live && e.2.content == (s.model i).content) = true) : s.modelUnload c = (t, .done {}) := by
  subst ht
  rw [State.modelUnload, named_some hi]
  simp only [hnamed, hstill]
  rfl

/-- The last model of its content: its pages are owed their zeros. -/
theorem modelUnload_last {t : State} (hi : s.modelOf c.port c.handle = some i) (hnamed : s.modelNamed i = false)
    (ht : t = s.setModel i { s.model i with live := false, gen := bump 16 (s.model i).gen 1 })
    (hstill : t.models.any (fun e => e.2.live && e.2.content == (s.model i).content) = false) :
    s.modelUnload c =
      (t.newOpDue (.erase (s.model i).content) c.port s.dt [{ kind := 6, bytes := 4096 * (s.content (s.model i).content).pages }], .wait (s.model i).content) := by
  subst ht
  rw [State.modelUnload, named_some hi]
  simp only [hnamed, hstill]
  rfl

section
variable {r : HostRing} (hi : s.streamOf c.port c.handle = some i) (hstate : (s.stream i).state.runs = true ∨ (s.stream i).state = .paused)
  (hring : (s.stream i).source = .ring r)
include hi hstate hring

theorem streamFeed_same (htotal : field x 0 64 = (s.stream i).handed) : s.streamFeed c x = (s, .done { result := r.consumed }) := by
  have hruns : ((s.stream i).state.runs || (s.stream i).state == .paused) = true := by simpa using hstate
  rw [State.streamFeed, named_some hi]
  simp only [hruns, hring, htotal]
  rfl

theorem streamFeed_more (hmore : (s.stream i).handed < field x 0 64) (hroom : field x 0 64 ≤ r.consumed + 2 ^ r.log) :
    s.streamFeed c x =
      ((s.updStream i (fun y => { y with
          handed := field x 0 64, source := .ring (r.notified (field x 0 64 - (s.stream i).handed)).1,
          lateFrames := bump 32 y.lateFrames (min (field x 0 64) (s.stream i).frames - (s.stream i).handed) })).signalTimes c.port r.vector
            (r.notified (field x 0 64 - (s.stream i).handed)).2,
        .done { result := r.consumed }) := by
  have hruns : ((s.stream i).state.runs || (s.stream i).state == .paused) = true := by simpa using hstate
  have hrange : ¬ (field x 0 64 < (s.stream i).handed ∨ r.consumed + 2 ^ r.log < field x 0 64) := by omega
  rw [State.streamFeed, named_some hi]
  simp only [hruns, hring, if_neg hmore.ne', if_neg hrange]
  rfl

end

theorem branchResume_stopped (hi : s.branchOf c.port c.handle = some i) (hstop : (s.branch i).state = .stopped) :
    s.branchResume c =
      ((((s.updBranch i (fun y => { y with
          state := .active, firstRow := s.firstRowNow (s.branch i).stream, hold := 0, tokRow := s.firstRowNow (s.branch i).stream, stopRow := none, skipped := [],
          skipStage := [] })).resumeSect .translate i (s.firstRowNow (s.branch i).stream)).resumeSect .speak i (s.firstRowNow (s.branch i).stream)),
        .done { result := s.firstRowNow (s.branch i).stream }) := by
  rw [State.branchResume, named_some hi]
  simp only [hstop]
  rfl

theorem firmwareActivate_staged (hidle : s.flashBusy = false) (hstaged : (s.boot.flash.dir.slot s.boot.spareSlot).state = .staged) :
    s.firmwareActivate c =
      (s.updDir (fun d => { d.updSlot s.boot.spareSlot (fun y => { y with state := .activated }) with preferred := s.boot.spareSlot }),
        .done { result := (s.boot.flash.dir.slot s.boot.spareSlot).version }) := by
  unfold State.firmwareActivate
  dsimp only
  rw [checked_ok (firstFail_eq_none_iff.mpr (by simp [hidle, hstaged]))]
  rfl

/-! ## DIAG_INJECT -/

section
variable (hres : firstFail (injectReserved x) = none) (halign : field x 64 64 % 32 = 0)
include hres halign

theorem injectChecks_pass (hcoord : field x 0 4 = 1 ∨ field x 0 4 = 2 ∨ field x 0 4 = 5 → field x 8 8 / 16 ≤ 11 ∧ field x 8 8 % 16 ≤ 11)
    (hcount : field x 0 4 = 5 → 1 ≤ field x 19 4 ∧ field x 19 4 ≤ 8) :
    firstFail (injectReserved x ++
      [rangeFail (decide (field x 0 4 = 1 ∨ field x 0 4 = 2 ∨ field x 0 4 = 5) && decide (11 < field x 8 8 / 16 ∨ 11 < field x 8 8 % 16)) 8,
       rangeFail (decide (field x 0 4 = 5) && decide (field x 19 4 = 0 ∨ 8 < field x 19 4)) 19, alignFail (decide (field x 64 64 % 32 ≠ 0)) 64]) = none := by
  refine firstFail_append.mpr ⟨hres, firstFail_eq_none_iff.mpr ?_⟩
  simp only [List.forall_mem_cons, rangeFail_fst, alignFail_fst, Bool.and_eq_false_iff, decide_eq_false_iff_not]
  refine ⟨?_, ?_, by simpa using halign, by simp⟩
  · by_cases h : field x 0 4 = 1 ∨ field x 0 4 = 2 ∨ field x 0 4 = 5
    · exact .inr (by have := hcoord h; omega)
    · exact .inl h
  · by_cases h : field x 0 4 = 5
    · exact .inr (by have := hcount h; omega)
    · exact .inl h

section
variable (hx : field x 8 8 / 16 ≤ 11) (hy : field x 8 8 % 16 ≤ 11)
include hx hy

theorem diagInject_residueOnce (hk : field x 0 4 = 1) :
    s.diagInject c x = (s.updTile (coordTile (field x 8 8)) (fun y => { y with residue := .once }), .done {}) := by
  unfold State.diagInject
  dsimp only
  rw [checked_ok (injectChecks_pass hres halign (fun _ => ⟨hx, hy⟩) (by omega))]
  simp only [hk]
  rfl

theorem diagInject_residueTwice (hk : field x 0 4 = 2) (hrepair : (s.flank (coordTile (field x 8 8) / 48)).state ≠ .repairing)
    (htiles : s.enabledTiles (coordTile (field x 8 8) / 48) ≠ 40) :
    s.diagInject c x = (s.updTile (coordTile (field x 8 8)) (fun y => { y with residue := .twice }), .done {}) := by
  unfold State.diagInject
  dsimp only
  rw [checked_ok (injectChecks_pass hres halign (fun _ => ⟨hx, hy⟩) (by omega))]
  simp only [hk, hrepair, htiles]
  rfl

theorem diagInject_link (hk : field x 0 4 = 5) (hcount : 1 ≤ field x 19 4) (hcount' : field x 19 4 ≤ 8) :
    s.diagInject c x =
      (s.updLink (linkKey (coordTile (field x 8 8)) (field x 16 3)) (fun l => { l with inject := field x 19 4 }), .done {}) := by
  unfold State.diagInject
  dsimp only
  rw [checked_ok (injectChecks_pass hres halign (fun _ => ⟨hx, hy⟩) (fun _ => ⟨hcount, hcount'⟩))]
  simp only [hk]
  rfl

end

section
variable (hmem : field x 64 64 < memEnd) (hown : s.windowAt (field x 64 64) = .part c.port)
include hmem hown

theorem diagInject_single (hk : field x 0 4 = 3) :
    s.diagInject c x =
      (s.updErr (field x 64 64 / 32) (fun e => { e.invert (field x 64 64 / 32) with single := true, reported := false }), .done {}) := by
  unfold State.diagInject
  dsimp only
  rw [checked_ok (injectChecks_pass hres halign (by omega) (by omega))]
  simp [hk, hown, hmem]
  rfl

theorem diagInject_double (hk : field x 0 4 = 4) :
    s.diagInject c x = (s.updErr (field x 64 64 / 32) (fun e => (e.invert (field x 64 64 / 32)).invert (field x 64 64 / 32)), .done {}) := by
  unfold State.diagInject
  dsimp only
  rw [checked_ok (injectChecks_pass hres halign (by omega) (by omega))]
  simp [hk, hown, hmem]
  rfl

end

end

end

/-- Settles O5: each command passes its checks and makes its one change; acceptance changes no aperture, so the lowest free index is that of before. -/
theorem apertureAndModelCommandsReply : Obligations.ApertureAndModelCommandsReply := by
  intro s c x hx
  subst hx
  refine ⟨?_, ?_, ?_, ?_, ?_, ?_⟩
  · intro i h h87 hbase hpos hle hend hgrant hfree
    have hfree' : Table.firstWhere none ((taken s c 0x0201).port c.port).apertures (fun a => a.isNone) 0 4096 = some i := by
      rw [taken_port s c _ (sorted_of_free h)]
      exact hfree
    exact replies_of_updPort h rfl (apertureRegister_ok h87 hbase hpos hle hend hgrant hfree') (fun _ => rfl)
  · intro m t h hm hnamed ht
    have hports : t.ports = (taken s c 0x0303).ports := by rw [ht]; rfl
    exact ⟨fun hstill => replies_of_ports h rfl (modelUnload_shared hm hnamed ht hstill) hports,
      fun hstill => waits_of_ports h rfl (modelUnload_last hm hnamed ht hstill) hports⟩
  · intro i r h hi hstate hring
    exact ⟨fun htotal => replies_of_ports h rfl (streamFeed_same hi hstate hring htotal) rfl,
      fun hmore hroom => starts_of h rfl (streamFeed_more hi hstate hring hmore hroom)⟩
  · intro b h hb hstop
    exact starts_of h rfl (branchResume_stopped hb hstop)
  · intro h hplan hidle hstaged
    exact replies_of_ports h rfl ((run_firmwareActivate hplan).trans (firmwareActivate_staged hidle hstaged)) rfl
  · intro h hplan hres
    have replies {u : State} (hrun : (taken s c 0x0802).diagInject { c with opcode := 0x0802 } (callPayload c) = (u, .done {}))
        (hports : u.ports = (taken s c 0x0802).ports) : Replies (.diagInject c) s c 0x0802 u {} :=
      replies_of_ports h rfl ((run_diagInject hplan).trans hrun) hports
    exact ⟨fun hk hx hy halign => replies (diagInject_residueOnce hres halign hx hy hk) rfl,
      fun hk hx hy halign hrepair htiles => replies (diagInject_residueTwice hres halign hx hy hk hrepair htiles) rfl,
      fun hk halign hmem hown => replies (diagInject_single hres halign hmem hown hk) rfl,
      fun hk halign hmem hown => replies (diagInject_double hres halign hmem hown hk) rfl,
      fun hk hx hy hcount hcount' halign => replies (diagInject_link hres halign hx hy hk hcount hcount') rfl⟩

end Sys2Proof.Machine
end

section
/-!
PROOFS. Proofs/WaitingSetupCommands.lean: deletions, loads, prefixes and flash work that pass their checks, take what they need, and wait.
-/
namespace Sys2Proof.Machine
open Sys2Proof.Safety

section
variable {s : State} {c : Call} {x i : Nat}

theorem ringPairDelete_ok (h5 : field x 5 27 = 0) (hlive : ((s.port c.port).pair (field x 0 5)).live = true) :
    s.ringPairDelete c x =
      (s.updPort c.port (fun p => (p.dropReads (field x 0 5)).setPair (field x 0 5)
        { p.pair (field x 0 5) with deleting := true, sqHead := (p.pair (field x 0 5)).sqTail, reading := 0, got := [], failed := [] }), .wait (field x 0 5)) := by
  rw [State.ringPairDelete, checked_ok (firstFail_eq_none_iff.mpr (by simp [h5, hlive]))]

theorem apertureDeregister_ok {a : Aperture} (hclass : c.handle / 2 ^ 24 = 2) (hi : i = c.handle % 2 ^ 24) (ha : (s.port c.port).aperture i = some a)
    (huse : s.apertureInUse c.port i = false) :
    s.apertureDeregister c =
      (s.updPort c.port (fun p => { p with
        apertures := Table.set none p.apertures i ((Table.get none p.apertures i).map (fun a => { a with closing := true })) }), .wait i) := by
  subst hi
  unfold State.apertureDeregister
  simp only [hclass, ha, huse]
  rfl

theorem modelLoad_ok {id dt : Nat} (h12 : field x 12 20 = 0) (h85 : field x 85 11 = 0) (halign : field x 32 32 % 4096 = 0) (hpages : field x 64 21 ≠ 0)
    (hap : (s.port c.port).checkAperture (field x 0 12) (field x 32 32) (4096 * field x 64 21) true false = .ok)
    (hquota : s.liveModels c.port < (s.part c.port).models) (hall : s.allModels < 24)
    (hmem : s.memUsed c.port + 4096 * field x 64 21 ≤ (s.part c.port).memBytes) :
    s.modelLoad c x id dt =
      ((s.newOpDue (.package s.nextLoad) c.port (dt + 24576000) [{ kind := 3, bytes := 4096 * field x 64 21 }]).addLoad
        { id := s.nextLoad, port := c.port, cmd := id, aperture := field x 0 12, offset := field x 32 32, pages := field x 64 21,
          op := (s.newOp (.package s.nextLoad) c.port).2 }, .wait s.nextLoad) := by
  unfold State.modelLoad
  dsimp only
  rw [checked_ok (firstFail_eq_none_iff.mpr (by simp [h12, h85, halign, hpages])), hap]
  dsimp only
  rw [checked_ok (firstFail_eq_none_iff.mpr (by simp [hquota, hall, hmem]))]

section
variable (h12 : field x 12 20 = 0) (halign : field x 32 32 % 4 = 0) (hi : s.pipeOf c.port c.handle = some i) (htr : (s.pipe i).translate.present = true)
include h12 halign hi htr

theorem pipelinePrefixSet_none (hzero : field x 64 32 = 0) : s.pipelinePrefixSet c x = (s.dropPrefix i, .done {}) := by
  unfold State.pipelinePrefixSet
  dsimp only
  rw [checked_ok (firstFail_eq_none_iff.mpr (by simp [h12, halign, hzero])), named_some hi]
  simp only [htr, hzero]
  rfl

theorem pipelinePrefixSet_reserves {ids : List Nat} {need : Nat} (hle : field x 64 32 ≤ 65536) (hzero : field x 64 32 ≠ 0)
    (hap : (s.port c.port).checkAperture (field x 0 12) (field x 32 32) (4 * field x 64 32) true false = .ok) (hdata : c.data = .tokens ids)
    (hvocab : ∀ t ∈ ids.take (field x 64 32), t < ((s.stagePackage i .translate).map (·.vocabulary)).getD 0) (hneed : need = s.prefixNeed i (field x 64 32))
    (hpool : (s.part (s.pipe i).part).reservedPages + need ≤ (s.part (s.pipe i).part).freeSwept + (s.part (s.pipe i).part).unswept)
    (htable : (s.part (s.pipe i).part).tableEntries + need ≤ 8 * (s.part (s.pipe i).part).nPool) :
    s.pipelinePrefixSet c x =
      (s.updPart (s.pipe i).part (fun y => { y with reservedPages := y.reservedPages + need, tableEntries := y.tableEntries + need }), .wait i) := by
  have hwords : (ids.take (field x 64 32)).findIdx? (fun t => decide (((s.stagePackage i .translate).map (·.vocabulary)).getD 0 ≤ t)) = none := by
    rw [List.findIdx?_eq_none_iff]
    simpa only [decide_eq_false_iff_not, Nat.not_le] using hvocab
  have hroom : ¬ ((s.part (s.pipe i).part).freeSwept + (s.part (s.pipe i).part).unswept < (s.part (s.pipe i).part).reservedPages + need ∨
      8 * (s.part (s.pipe i).part).nPool < (s.part (s.pipe i).part).tableEntries + need) := by omega
  unfold State.pipelinePrefixSet
  dsimp only
  rw [checked_ok (firstFail_eq_none_iff.mpr (by simp [h12, halign, hle])), named_some hi]
  simp only [htr, hzero, hap, hdata, dataIds, hwords, ← hneed, if_neg hroom]
  rfl

end

theorem pipelineDelete_ok (hi : s.pipeOf c.port c.handle = some i) (hfree : s.pipeStreams i = 0) :
    s.pipelineDelete c = ((s.dropPrefix i).setPipe i { (s.dropPrefix i).pipe i with deleting := true }, .wait i) := by
  rw [State.pipelineDelete, named_some hi]
  simp only [hfree]
  rfl

section
variable {id : Nat} (hap : (s.port c.port).checkAperture (field x 0 12) (field x 32 32) (4096 * field x 64 21) true false = .ok) (hidle : s.flashBusy = false)
include hap hidle

theorem firmwareStage_ok {ver len : Nat} (hchecks : firstFail (stagingChecks x 8192) = none) (hdata : c.data = .image true true ver len) :
    s.firmwareStage c x id = (s.startImage c.port id ver len, .wait 0) := by
  rw [State.firmwareStage, checked_ok hchecks, withRange_ok hap, checked_ok (firstFail_eq_none_iff.mpr (by simp [hidle]))]
  simp only [hdata]
  rfl

theorem siteConfigStage_ok {img : Nat} (hchecks : firstFail (stagingChecks x 1048576) = none) (hdata : c.data = .site img) (hvalid : siteValid img = true) :
    s.siteConfigStage c x id = (s.startSite c.port id img, .wait 0) := by
  rw [State.siteConfigStage, checked_ok hchecks, withRange_ok hap, checked_ok (firstFail_eq_none_iff.mpr (by simp [hidle]))]
  simp only [hdata, hvalid]
  rfl

end

end

section
variable {s : State} {c : Call}

theorem aperture_taken {op i : Nat} (hs : Table.sortedFrom 0 s.ports = true) : ((taken s c op).port c.port).aperture i = (s.port c.port).aperture i := by
  rw [taken_port s c op hs, HostPort.aperture, HostPort.aperture]

theorem run_ringPairDelete :
    (taken s c 0x0911).runCall (entryOf s c 0x0911) = (taken s c 0x0911).ringPairDelete { c with opcode := 0x0911 } (callPayload c) := (rfl)

theorem run_apertureDeregister :
    (taken s c 0x0202).runCall (entryOf s c 0x0202) = (taken s c 0x0202).apertureDeregister { c with opcode := 0x0202 } := (rfl)

theorem run_modelLoad : (taken s c 0x0301).runCall (entryOf s c 0x0301) =
    (taken s c 0x0301).modelLoad { c with opcode := 0x0301 } (callPayload c) (s.port c.port).nextId s.dt := (rfl)

theorem run_pipelinePrefixSet :
    (taken s c 0x0403).runCall (entryOf s c 0x0403) = (taken s c 0x0403).pipelinePrefixSet { c with opcode := 0x0403 } (callPayload c) := (rfl)

theorem run_pipelineDelete : (taken s c 0x0404).runCall (entryOf s c 0x0404) = (taken s c 0x0404).pipelineDelete { c with opcode := 0x0404 } := (rfl)

end

/-- Settles O6: each command passes its checks after acceptance as before, and waits with what it took. -/
theorem waitingSetupCommandsWait : Obligations.WaitingSetupCommandsWait := by
  intro s c x hx
  subst hx
  have aperture {op ap off bytes : Nat} (h : MailboxFree s c op) (hap : (s.port c.port).checkAperture ap off bytes true false = .ok) :
      ((taken s c op).port c.port).checkAperture ap off bytes true false = .ok := by
    rw [checkAperture_taken c op (sorted_of_free h), hap]
  refine ⟨?_, ?_, ?_, ?_, ?_, ?_, ?_⟩
  · intro h h5 hlive
    refine waits_of_updPort h rfl (run_ringPairDelete.trans ?_) (fun _ => rfl)
    exact ringPairDelete_ok h5 (by rw [pair_taken c _ (sorted_of_free h), hlive])
  · intro i a h hclass hi ha huse
    refine waits_of_updPort h rfl (run_apertureDeregister.trans ?_) (fun _ => rfl)
    exact apertureDeregister_ok hclass hi ((aperture_taken (sorted_of_free h)).trans ha) huse
  · rintro ap off pages h rfl rfl rfl h12 h85 halign hpages hap hquota hall hmem
    refine starts_of h rfl (run_modelLoad.trans ?_)
    exact modelLoad_ok h12 h85 halign hpages (aperture h hap) hquota hall hmem
  · rintro i tokens ids need h rfl h12 halign hle hzero hi htr hap hdata hvocab hneed hpool htable
    refine waits_of_ports h rfl (run_pipelinePrefixSet.trans ?_) rfl
    exact pipelinePrefixSet_reserves (s := taken s c 0x0403) (c := { c with opcode := 0x0403 }) h12 halign hi htr hle hzero (aperture h hap)
      hdata hvocab hneed hpool htable
  · intro i t h hi hfree ht
    subst ht
    refine starts_of h rfl (run_pipelineDelete.trans ?_)
    exact pipelineDelete_ok (s := taken s c 0x0404) (c := { c with opcode := 0x0404 }) hi hfree
  · intro ver len h hplan hchecks hap hidle hdata
    refine starts_of h rfl ((run_firmwareStage hplan).trans ?_)
    exact firmwareStage_ok (c := { c with opcode := 0x0903 }) (aperture h hap) hidle hchecks hdata
  · intro img h hplan hchecks hap hidle hdata hvalid
    refine starts_of h rfl ((run_siteConfigStage hplan).trans ?_)
    exact siteConfigStage_ok (c := { c with opcode := 0x0906 }) (aperture h hap) hidle hchecks hdata hvalid

end Sys2Proof.Machine
end

section
/-!
PROOFS. Proofs/QuotaCommands.lean: PARTITION_QUOTA_SET, PIPELINE_CREATE, PIPELINE_PREFIX_SET to none and DEVICE_RESET that pass their checks.
-/
namespace Sys2Proof.Machine
open Sys2Proof.Safety

section
variable {s : State} {c : Call} {x : Nat}

/-- The checks of PARTITION_QUOTA_SET, as it makes them of the record `new` and of the ports `moved` (R483). -/
theorem quotaSet_checks_pass {p n : Nat} {new : Partition} {moved : List Nat} (hplan : s.isPlan p = true) (hchecks : firstFail (quotaChecks x) = none)
    (hpool : 4288 * new.nPool ≤ new.memBytes) (hwindow : new.memBytes ≤ new.windowMib * mib) (hstreams : s.quotaSum n new (·.streams) ≤ 1024)
    (hbranches : s.quotaSum n new (·.branches) ≤ 2048) (hpipes : s.quotaSum n new (·.pipelines) ≤ 32) (hmodels : s.quotaSum n new (·.models) ≤ 24)
    (hidle : moved.all s.tdmIdle = true) :
    firstFail ([plainFail (!s.isPlan p) 0x0402] ++ quotaChecks x ++
       [rangeFail (decide (new.memBytes < 4288 * new.nPool ∨ new.windowMib * mib < new.memBytes)) 64,
        plainFail (decide (1024 < s.quotaSum n new (·.streams) ∨ 2048 < s.quotaSum n new (·.branches) ∨ 32 < s.quotaSum n new (·.pipelines) ∨
          24 < s.quotaSum n new (·.models))) 0x0307,
        plainFail (!(moved.all s.tdmIdle)) 0x0406]) = none := by
  have hmem : ¬ (new.memBytes < 4288 * new.nPool ∨ new.windowMib * mib < new.memBytes) := not_or.mpr ⟨hpool.not_gt, hwindow.not_gt⟩
  have hsums : ¬ (1024 < s.quotaSum n new (·.streams) ∨ 2048 < s.quotaSum n new (·.branches) ∨ 32 < s.quotaSum n new (·.pipelines) ∨
      24 < s.quotaSum n new (·.models)) := by omega
  refine firstFail_append.mpr ⟨firstFail_append.mpr ⟨firstFail_eq_none_iff.mpr (by simp [hplan]), hchecks⟩, firstFail_eq_none_iff.mpr ?_⟩
  simp only [List.forall_mem_cons, rangeFail_fst, plainFail_fst, decide_eq_false hmem, decide_eq_false hsums, hidle]
  simp

theorem pipelineCreate_ok {slot : Nat} {t : State} (hchecks : firstFail (shapeChecks x ++ s.stageChecks c.port x) = none)
    (hlive : s.livePipes c.port < (s.part c.port).pipelines) (hfree : s.freePipe = some slot)
    (hflanks : ∀ st ∈ payloadStages x, (s.flank (s.stageCfg c.port x (stageCode st)).flank).state ≠ .outOfService)
    (hbind : s.bindStages c.port x slot (payloadStages x) = .inr t) :
    s.pipelineCreate c x =
      (t.setPipe slot
        { t.pipe slot with
            live := true, part := c.port, period := periodTicks (field x 0 2), commit := if field x 4 4 = 0 then 1 else field x 4 4, gambit := field x 8 3,
            fanout := field x 16 5, encode := s.stageCfg c.port x 0, translate := s.stageCfg c.port x 1, speak := s.stageCfg c.port x 2, ready := false,
            deleting := false, prefixTokens := 0, prefixPages := [] }, .wait slot) := by
  unfold State.pipelineCreate
  dsimp only
  rw [checked_ok, hfree, Option.getD_some, hbind]
  refine firstFail_append.mpr ⟨firstFail_append.mpr ⟨hchecks, firstFail_eq_none_iff.mpr (by simp [hlive, hfree])⟩, firstFail_eq_none_iff.mpr ?_⟩
  intro y hy
  obtain ⟨st, hst, rfl⟩ := List.mem_map.mp hy
  simpa [modelFail] using hflanks st hst

section
variable (h48 : field x 48 16 = 0) (hkey : field x 0 32 = 0x5A5A1440) (hdelay : field x 32 16 = 0 ∨ 100 ≤ field x 32 16 ∧ field x 32 16 ≤ 10000)
  (hwriting : s.boot.writing = none)
include h48 hkey hdelay hwriting

theorem deviceReset_checks_pass :
    firstFail [resZero x 48 16, rangeFail (decide (field x 0 32 ≠ 0x5A5A1440)) 0,
      rangeFail (decide (field x 32 16 ≠ 0 ∧ (field x 32 16 < 100 ∨ 10000 < field x 32 16))) 32, plainFail s.boot.writing.isSome 0x040A] = none := by
  have hrange : ¬ (field x 32 16 ≠ 0 ∧ (field x 32 16 < 100 ∨ 10000 < field x 32 16)) := by omega
  refine firstFail_eq_none_iff.mpr ?_
  simp only [List.forall_mem_cons, resZero_fst, rangeFail_fst, plainFail_fst, decide_eq_false hrange, h48, hkey, hwriting]
  simp

theorem deviceReset_fixed {dt t : Nat} (hreset : s.boot.resetDt = some t) : s.deviceReset c x dt = (s, .done { result := t }) := by
  unfold State.deviceReset
  dsimp only
  rw [checked_ok (deviceReset_checks_pass h48 hkey hdelay hwriting), hreset]
  rfl

theorem deviceReset_fixes {dt t : Nat} (hreset : s.boot.resetDt = none) (ht : t = dt + 24576 * (if field x 32 16 = 0 then 1000 else field x 32 16)) :
    s.deviceReset c x dt = ((s.updBoot (fun b => { b with resetDt := some t })).postAll 0x8016 t, .done { result := t }) := by
  subst ht
  unfold State.deviceReset
  dsimp only
  rw [checked_ok (deviceReset_checks_pass h48 hkey hdelay hwriting), hreset]
  rfl

end

theorem run_partitionQuotaSet :
    (taken s c 0x0102).runCall (entryOf s c 0x0102) = (taken s c 0x0102).partitionQuotaSet { c with opcode := 0x0102 } (callPayload c) := (rfl)

theorem run_pipelineCreate :
    (taken s c 0x0401).runCall (entryOf s c 0x0401) = (taken s c 0x0401).pipelineCreate { c with opcode := 0x0401 } (callPayload c) := (rfl)

end

/-- Settles O7: every check passes after acceptance as before, and what follows is the effect that the statement names. -/
theorem pipelineAndQuotaCommandsStart : Obligations.PipelineAndQuotaCommandsStart := by
  intro s c x hx
  subst hx
  refine ⟨?_, ?_, ?_, ?_⟩
  · intro n new moved t3 h hn hnew hplan hchecks hpool hwindow hstreams hbranches hpipes hmodels hmoved hidle ht3
    subst hnew hmoved ht3
    refine starts_of h rfl (run_partitionQuotaSet.trans ((named_some hn).trans ?_))
    exact checked_ok (quotaSet_checks_pass (s := taken s c 0x0102) hplan hchecks hpool hwindow hstreams hbranches hpipes hmodels hidle)
  · intro slot t h hchecks hlive hfree hflanks hbind
    refine starts_of h rfl (run_pipelineCreate.trans ?_)
    exact pipelineCreate_ok (s := taken s c 0x0401) (c := { c with opcode := 0x0401 }) hchecks hlive hfree hflanks hbind
  · intro i h h12 halign hzero hi htr
    refine starts_of h rfl (run_pipelinePrefixSet.trans ?_)
    exact pipelinePrefixSet_none (s := taken s c 0x0403) (c := { c with opcode := 0x0403 }) h12 halign hi htr hzero
  · intro h hplan h48 hkey hdelay hwriting
    have hwriting' : (taken s c 0x0905).boot.writing = none := hwriting
    refine ⟨fun t ht => replies_of_ports h rfl ((run_deviceReset hplan).trans ?_) rfl, fun t hnone ht => starts_of h rfl ((run_deviceReset hplan).trans ?_)⟩
    · exact deviceReset_fixed h48 hkey hdelay hwriting' ht
    · exact deviceReset_fixes h48 hkey hdelay hwriting' hnone ht

end Sys2Proof.Machine
end

section
/-!
PROOFS. Proofs/StreamCommands.lean: the stream commands of Table 14-1 that pass their checks and wait for their effect.
-/
namespace Sys2Proof.Machine
open Sys2Proof.Safety

section
variable {s : State} {c : Call} {x i : Nat}

theorem streamCastOn_ok {p id dt : Nat} {q : InputSpec} (hq : q = inputSpec x 32)
    (hchecks : firstFail (inputReserved x 32 ++ [resZero x 160 96] ++ s.inputRanges c.port x 32) = none) (hp : s.pipeOf c.port (field x 0 32) = some p)
    (hring : s.ringAperture c.port q.source.ringOf = .ok) (htaken : s.inTaken q.source = false) (hquota : s.openStreams c.port < (s.part c.port).streams)
    (hfree : s.freeStream = some i) :
    s.streamCastOn c x id dt =
      ((s.setStream i
        { state := .castOn, gen := bump 14 (s.stream i).gen 1, part := c.port, pipe := p, acceptDt := dt, cmd := id, anchor := frameBoundary dt,
          source := q.source, gain := q.gain, theta := q.theta, lmin := q.lmin, hangLen := q.hang }).mapIn i q.source, .wait i) := by
  subst hq
  unfold State.streamCastOn
  dsimp only
  rw [checked_ok hchecks, named_some hp, withRing_ok hring, checked_ok (firstFail_eq_none_iff.mpr (by simp [htaken, hquota, hfree])), hfree]
  rfl

theorem streamPause_ok (hi : s.streamOf c.port c.handle = some i) (hruns : (s.stream i).state.runs = true) :
    s.streamPause c = (s.updStream i (fun y => { y with pause := some .command }), .wait i) := by
  rw [State.streamPause, named_some hi, if_pos hruns]

theorem streamResume_ok (hi : s.streamOf c.port c.handle = some i) (hpaused : (s.stream i).state = .paused) : s.streamResume c = (s, .wait i) := by
  rw [State.streamResume, named_some hi, hpaused]
  rfl

theorem streamRewind_ok (hi : s.streamOf c.port c.handle = some i) (hstate : (s.stream i).state = .resident ∨ (s.stream i).state = .castled) :
    s.streamRewind c = (s.frog i (s.sectsOf i) 0 true, .wait i) := by
  rw [State.streamRewind, named_some hi]
  obtain hstate | hstate := hstate <;> rw [hstate]

theorem streamBindOff_castOn (h1 : field x 1 31 = 0) (hi : s.streamOf c.port c.handle = some i) (hstate : (s.stream i).state = .castOn) :
    s.streamBindOff c x = (s.updStream i (fun y => { y with deferBind := some (flag x 0) }), .wait i) := by
  rw [State.streamBindOff, checked_ok (firstFail_eq_none_iff.mpr (by simp [h1])), named_some hi, hstate]

theorem streamBindOff_open (h1 : field x 1 31 = 0) (hi : s.streamOf c.port c.handle = some i) (hcast : (s.stream i).state ≠ .castOn)
    (hbinding : (s.stream i).state ≠ .bindingOff) : s.streamBindOff c x = (s.bindOff i (flag x 0) 0, .wait i) := by
  rw [State.streamBindOff, checked_ok (firstFail_eq_none_iff.mpr (by simp [h1])), named_some hi]
  split
  · contradiction
  · contradiction
  · rfl

theorem streamInputSet_ok {q : InputSpec} (hq : q = inputSpec x 0) (hchecks : firstFail (inputReserved x 0 ++ s.inputRanges c.port x 0) = none)
    (hi : s.streamOf c.port c.handle = some i) (hring : s.ringAperture c.port q.source.ringOf = .ok)
    (hstate : (s.stream i).state.runs = true ∨ (s.stream i).state = .paused) (htaken : s.inTaken q.source = false) :
    s.streamInputSet c x s.dt =
      (s.updStream i (fun y =>
        { y with nextSource := some q.source, nextGain := q.gain, nextTheta := q.theta, nextLmin := q.lmin, nextHang := q.hang, switchDt := nextBoundary s.dt }),
        .wait i) := by
  have hruns : ((s.stream i).state.runs || (s.stream i).state == .paused) = true := by simpa using hstate
  subst hq
  unfold State.streamInputSet
  dsimp only
  rw [checked_ok hchecks, named_some hi, withRing_ok hring, checked_ok (firstFail_eq_none_iff.mpr (by simp [hruns, htaken])), effectBoundary_self]

/-! ## What the accepted command runs -/

theorem run_streamCastOn : (taken s c 0x0501).runCall (entryOf s c 0x0501) =
    (taken s c 0x0501).streamCastOn { c with opcode := 0x0501 } (callPayload c) (s.port c.port).nextId s.dt := (rfl)

theorem run_streamPause : (taken s c 0x0503).runCall (entryOf s c 0x0503) = (taken s c 0x0503).streamPause { c with opcode := 0x0503 } := (rfl)

theorem run_streamResume : (taken s c 0x0504).runCall (entryOf s c 0x0504) = (taken s c 0x0504).streamResume { c with opcode := 0x0504 } := (rfl)

theorem run_streamRewind : (taken s c 0x0505).runCall (entryOf s c 0x0505) = (taken s c 0x0505).streamRewind { c with opcode := 0x0505 } := (rfl)

theorem run_streamBindOff :
    (taken s c 0x0506).runCall (entryOf s c 0x0506) = (taken s c 0x0506).streamBindOff { c with opcode := 0x0506 } (callPayload c) := (rfl)

theorem run_streamInputSet :
    (taken s c 0x0507).runCall (entryOf s c 0x0507) = (taken s c 0x0507).streamInputSet { c with opcode := 0x0507 } (callPayload c) s.dt := (rfl)

end

/-- Mapping an input slot leaves the ports alone. -/
theorem mapIn_ports (s : State) (i : Nat) (q : Source) : (s.mapIn i q).ports = s.ports := by
  unfold State.mapIn
  split <;> rfl

/-- Settles O8: each command passes its checks after acceptance as before; a command that starts when it is accepted takes the next 10 ms boundary. -/
theorem streamCommandsWait : Obligations.StreamCommandsWait := by
  intro s c x hx
  subst hx
  refine ⟨?_, ?_, ?_, ?_, ?_, ?_⟩
  · intro p i q h hq hchecks hp hring htaken hquota hfree
    refine waits_of_ports h rfl (run_streamCastOn.trans ?_) (mapIn_ports ..)
    exact streamCastOn_ok (s := taken s c 0x0501) (c := { c with opcode := 0x0501 }) hq hchecks hp
      ((ringAperture_taken c _ (sorted_of_free h) _).trans hring) htaken hquota hfree
  · intro i h hi hruns
    refine waits_of_ports h rfl (run_streamPause.trans ?_) rfl
    exact streamPause_ok (s := taken s c 0x0503) (c := { c with opcode := 0x0503 }) hi hruns
  · intro i h hi hpaused
    refine waits_of_ports h rfl (run_streamResume.trans ?_) rfl
    exact streamResume_ok (s := taken s c 0x0504) (c := { c with opcode := 0x0504 }) hi hpaused
  · intro i h hi hstate
    refine starts_of h rfl (run_streamRewind.trans ?_)
    exact streamRewind_ok (s := taken s c 0x0505) (c := { c with opcode := 0x0505 }) hi hstate
  · intro i h h1 hi
    refine ⟨fun hcast => waits_of_ports h rfl (run_streamBindOff.trans ?_) rfl, fun hcast hbinding => starts_of h rfl (run_streamBindOff.trans ?_)⟩
    · exact streamBindOff_castOn (s := taken s c 0x0506) (c := { c with opcode := 0x0506 }) h1 hi hcast
    · exact streamBindOff_open (s := taken s c 0x0506) (c := { c with opcode := 0x0506 }) h1 hi hcast hbinding
  · intro i q h hq hchecks hi hring hstate htaken
    refine waits_of_ports h rfl (run_streamInputSet.trans ?_) rfl
    exact streamInputSet_ok (s := taken s c 0x0507) (c := { c with opcode := 0x0507 }) hq hchecks hi ((ringAperture_taken c _ (sorted_of_free h) _).trans hring)
      hstate htaken

end Sys2Proof.Machine
end

section
/-!
PROOFS. Proofs/BranchCommands.lean: the branch commands, PORT_ENABLE and DIAG_TDM_LOOPBACK of Table 14-1 that pass their checks.
-/
namespace Sys2Proof.Machine
open Sys2Proof.Safety

section
variable {s : State} {c : Call} {x i b : Nat}

theorem branchAttach_ok {id : Nat} {q : OutputSpec} (hq : q = outputSpec x 64) (hpolicy : field x 32 2 ≠ 3) (h34 : field x 34 30 = 0)
    (hchecks : firstFail (outputReserved x 64 ++ s.outputRanges c.port x 64) = none) (hi : s.streamOf c.port c.handle = some i)
    (hshape : firstFail (s.spoken (s.stream i).pipe x ++ outputShape (s.pipe (s.stream i).pipe) x 64) = none) (hring : s.ringAperture c.port q.ring = .ok)
    (hruns : (s.stream i).state.runs = true) (htwice : hasTwice q.outs = false) (htaken : q.outs.any (s.outTaken none) = false)
    (htr : (s.pipe (s.stream i).pipe).translate.present = true) (hfan : (s.branchesOf i).length < (s.pipe (s.stream i).pipe).fanout)
    (hquota : s.openBranches c.port < (s.part c.port).branches) (hfree : s.freeBranch = some b) :
    s.branchAttach c x id =
      ((s.setBranch b
        { state := .attaching, gen := bump 13 (s.branch b).gen 1, part := c.port, stream := i, acceptDt := s.dt, cmd := id,
          language := field x 0 16, voice := field x 16 16, policy := policyOf (field x 32 2), orphans := (s.branch b).orphans }).setOutputs b q.block q.outs q.ring
        q.gain, .wait b) := by
  subst hq
  obtain ⟨hreserved, hranges⟩ := firstFail_append.mp hchecks
  have hfields : firstFail ([resValue (decide (field x 32 2 = 3)) 32, resZero x 34 30] ++ outputReserved x 64 ++ s.outputRanges c.port x 64) = none :=
    firstFail_append.mpr ⟨firstFail_append.mpr ⟨firstFail_eq_none_iff.mpr (by simp [hpolicy, h34]), hreserved⟩, hranges⟩
  unfold State.branchAttach
  dsimp only
  rw [checked_ok hfields, named_some hi, checked_ok hshape, withRing_ok hring,
    checked_ok (firstFail_eq_none_iff.mpr (by simp only [List.forall_mem_cons, plainFail_fst, hruns, htwice, htaken, htr, hfree]; simp [hfan, hquota])), hfree]
  rfl

theorem branchDetach_ok (hb : s.branchOf c.port c.handle = some b) (hstate : (s.branch b).state = .active ∨ (s.branch b).state = .stopped) :
    s.branchDetach c = ((s.detach b 0 false).updPart (s.branch b).part (fun q => { q with detaches := bump 64 q.detaches 1 }), .wait b) := by
  have hlive : ((s.branch b).state == .active || (s.branch b).state == .stopped) = true := by simpa using hstate
  rw [State.branchDetach, named_some hb]
  simp only [hlive]
  rfl

theorem branchOutputSet_ok {q : OutputSpec} (hq : q = outputSpec x 0) (hchecks : firstFail (outputReserved x 0 ++ s.outputRanges c.port x 0) = none)
    (hb : s.branchOf c.port c.handle = some b) (hshape : firstFail (outputShape (s.pipeOfStream (s.branch b).stream) x 0) = none)
    (hring : s.ringAperture c.port q.ring = .ok) (hstate : (s.branch b).state = .active ∨ (s.branch b).state = .stopped) (htwice : hasTwice q.outs = false)
    (htaken : q.outs.any (s.outTaken (some b)) = false) :
    s.branchOutputSet c x s.dt =
      (s.updBranch b (fun y => { y with nextOut := some (q.block, q.outs, q.ring), nextGain := q.gain, switchDt := nextBoundary s.dt }), .wait b) := by
  have hlive : ((s.branch b).state == .active || (s.branch b).state == .stopped) = true := by simpa using hstate
  subst hq
  unfold State.branchOutputSet
  dsimp only
  rw [checked_ok hchecks, named_some hb, checked_ok hshape, withRing_ok hring,
    checked_ok (firstFail_eq_none_iff.mpr (by simp only [List.forall_mem_cons, plainFail_fst, hlive, htwice, htaken]; simp)), effectBoundary_self]

section
variable {t : Nat} (h1 : field x 1 31 = 0) (ht : s.tdmOf c.port c.handle = some t)
include h1 ht

theorem portEnable_stands {dt : Nat} (hnone : (s.tdm t).enableAt = none) (hon : ((s.tdm t).state != .disabled) = flag x 0) :
    s.portEnable c x dt = (s, .done { result := dt }) := by
  rw [State.portEnable, checked_ok (firstFail_eq_none_iff.mpr (by simp [h1])), named_some ht]
  simp only [hnone, hon]
  simp [answered]

theorem portEnable_schedules (hchange : ¬ ((s.tdm t).enableAt = none ∧ ((s.tdm t).state != .disabled) = flag x 0))
    (hmap : flag x 0 = true ∨ s.tdmMapped t = false) :
    s.portEnable c x s.dt = (s.updTdm t (fun p => { p with enableAt := some (nextBoundary s.dt, flag x 0) }), .wait t) := by
  have hstands : ((s.tdm t).enableAt.isNone && ((s.tdm t).state != .disabled) == flag x 0) = false := by
    rw [Bool.eq_false_iff, Ne, Bool.and_eq_true, Option.isNone_iff_eq_none, beq_iff_eq]
    exact hchange
  have hfree : (!flag x 0 && s.tdmMapped t) = false := by
    obtain h | h := hmap <;> simp [h]
  rw [State.portEnable, checked_ok (firstFail_eq_none_iff.mpr (by simp [h1])), named_some ht]
  simp only [hstands, hfree, effectBoundary_self]
  rfl

theorem tdmLoopback_ok :
    s.tdmLoopback c x s.dt = (s.updTdm t (fun p => { p with loopAt := some (nextBoundary s.dt, flag x 0) }), .wait t) := by
  rw [State.tdmLoopback, checked_ok (firstFail_eq_none_iff.mpr (by simp [h1])), named_some ht, effectBoundary_self]

end

/-! ## What the accepted command runs -/

theorem run_branchAttach : (taken s c 0x0511).runCall (entryOf s c 0x0511) =
    (taken s c 0x0511).branchAttach { c with opcode := 0x0511 } (callPayload c) (s.port c.port).nextId := (rfl)

theorem run_branchDetach : (taken s c 0x0512).runCall (entryOf s c 0x0512) = (taken s c 0x0512).branchDetach { c with opcode := 0x0512 } := (rfl)

theorem run_branchOutputSet :
    (taken s c 0x0514).runCall (entryOf s c 0x0514) = (taken s c 0x0514).branchOutputSet { c with opcode := 0x0514 } (callPayload c) s.dt := (rfl)

theorem run_portEnable :
    (taken s c 0x0602).runCall (entryOf s c 0x0602) = (taken s c 0x0602).portEnable { c with opcode := 0x0602 } (callPayload c) s.dt := (rfl)

theorem run_tdmLoopback :
    (taken s c 0x0803).runCall (entryOf s c 0x0803) = (taken s c 0x0803).tdmLoopback { c with opcode := 0x0803 } (callPayload c) s.dt := (rfl)

end

/-! ## A branch's outputs leave the ports alone -/

/-- A fold of changes that each leave the ports alone leaves them alone. -/
theorem foldl_ports {α : Type} {f : State → α → State} (hf : ∀ s a, (f s a).ports = s.ports) (xs : List α) (s : State) : (xs.foldl f s).ports = s.ports := by
  induction xs generalizing s with
  | nil => rfl
  | cons a xs ih => rw [List.foldl_cons, ih, hf]

theorem countIdle_ports (s : State) (t : Nat) : (s.countIdle t).ports = s.ports := by
  unfold State.countIdle
  split
  · rfl
  · refine foldl_ports ?_ (s.mappedOut t) s
    exact fun _ _ => rfl

theorem mapOut_ports (s : State) (b port slot : Nat) : (s.mapOut b port slot).ports = s.ports := countIdle_ports s port

theorem unmapOut_ports (s : State) (port slot : Nat) (count : Bool) : (s.unmapOut port slot count).ports = s.ports := countIdle_ports s port

theorem setOutputs_ports (s : State) (b block : Nat) (outs : List (Nat × Nat)) (ring : Option HostRing) (gain : Int) :
    (s.setOutputs b block outs ring gain).ports = s.ports := by
  have mapped (gone new : List (Nat × Nat)) :
      (new.foldl (fun (v : State) o => v.mapOut b o.1 o.2) (gone.foldl (fun (u : State) o => u.unmapOut o.1 o.2 true) s)).ports = s.ports :=
    (foldl_ports (fun t _ => mapOut_ports t ..) new _).trans (foldl_ports (fun t _ => unmapOut_ports t ..) gone s)
  unfold State.setOutputs
  dsimp only
  split <;> split <;> exact mapped _ _

/-- Settles O9: each command passes its checks after acceptance as before; a command that starts when it is accepted takes the next 10 ms boundary. -/
theorem branchAndPortCommandsWait : Obligations.BranchAndPortCommandsWait := by
  intro s c x hx
  subst hx
  refine ⟨?_, ?_, ?_, ?_, ?_⟩
  · intro i b q h hq hpolicy h34 hchecks hi hshape hring hruns htwice htaken htr hfan hquota hfree
    refine waits_of_ports h rfl (run_branchAttach.trans ?_) (setOutputs_ports ..)
    exact branchAttach_ok (s := taken s c 0x0511) (c := { c with opcode := 0x0511 }) hq hpolicy h34 hchecks hi hshape
      ((ringAperture_taken c _ (sorted_of_free h) _).trans hring) hruns htwice htaken htr hfan hquota hfree
  · intro b h hb hstate
    refine starts_of h rfl (run_branchDetach.trans ?_)
    exact branchDetach_ok (s := taken s c 0x0512) (c := { c with opcode := 0x0512 }) hb hstate
  · intro b q h hq hchecks hb hshape hring hstate htwice htaken
    refine waits_of_ports h rfl (run_branchOutputSet.trans ?_) rfl
    exact branchOutputSet_ok (s := taken s c 0x0514) (c := { c with opcode := 0x0514 }) hq hchecks hb hshape
      ((ringAperture_taken c _ (sorted_of_free h) _).trans hring) hstate htwice htaken
  · rintro t on h h1 ht rfl
    refine ⟨fun hnone hon => replies_of_ports h rfl (run_portEnable.trans ?_) rfl,
      fun hchange hmap => waits_of_ports h rfl (run_portEnable.trans ?_) rfl⟩
    · exact portEnable_stands (s := taken s c 0x0602) (c := { c with opcode := 0x0602 }) h1 ht hnone hon
    · exact portEnable_schedules (s := taken s c 0x0602) (c := { c with opcode := 0x0602 }) h1 ht hchange hmap
  · intro t h h1 ht
    refine waits_of_ports h rfl (run_tdmLoopback.trans ?_) rfl
    exact tdmLoopback_ok (s := taken s c 0x0803) (c := { c with opcode := 0x0803 }) h1 ht

end Sys2Proof.Machine
end

section
/-!
PROOFS. Proofs/MailboxAccesses.lean: the mailbox registers at READY, and the accesses of BAR0 that only record or act on one register (Tables 19-1, 19-3 and 19-6).
-/
namespace Sys2Proof.Machine
open Sys2Proof.Safety

section
variable {s : State} {n : Nat}

/-! ## The mailbox -/

theorem inboundWrite_busy (hbusy : (s.port n).mbx.busy = true ∨ (s.port n).mbx.done = true) (off size value : Nat) :
    s.inboundWrite n off size value = s.violate n 8 .mmio true off 0 0 := by
  have hheld : ((s.port n).mbx.busy || (s.port n).mbx.done) = true := by simpa using hbusy
  rw [State.inboundWrite]
  exact if_pos hheld

section
variable (hreach : (s.port n).reachable = true) (hfw : (s.port n).fwState = 2)
include hreach hfw

theorem goMailbox_busy (hbusy : (s.port n).mbx.busy = true ∨ (s.port n).mbx.done = true) (ext : Option Nat) (data : HostData) :
    s.goMailbox n ext data = s.violate n 8 .mmio true 0x1200 0 0 := by
  have hheld : ((s.port n).mbx.busy || (s.port n).mbx.done) = true := by simpa using hbusy
  simp [State.goMailbox, hreach, hfw, hheld]

theorem goMailbox_free (hbusy : (s.port n).mbx.busy = false) (hdone : (s.port n).mbx.done = false) (ext : Option Nat) (data : HostData) :
    s.goMailbox n ext data =
      (s.updPort n (fun p => { p with mbx := { p.mbx with busy := true } })).accept (Call.ofBytes n .mailbox (s.port n).mbx.inbound ext data) := by
  simp [State.goMailbox, hreach, hfw, hbusy, hdone]

end

theorem statusWrite_doneClear (irq : Bool) :
    s.statusWrite n (2 + 4 * bit irq) = s.updPort n (fun p => { p with mbx := { p.mbx with done := false, irqEn := irq } }) := by
  have hdone : flag (2 + 4 * bit irq) 1 = true := by cases irq <;> decide
  have hirq : flag (2 + 4 * bit irq) 2 = irq := by cases irq <;> decide
  simp [State.statusWrite, hdone, hirq]

theorem exec_doneClear (hreach : (s.port n).reachable = true) (irq : Bool) :
    exec (.doneClear n irq) s = .next (s.updPort n (fun p => { p with mbx := { p.mbx with done := false, irqEn := irq } })).settle := by
  have hreserved : touchesReserved 0x1204 4 = false := by decide
  have hvalue : (2 + 4 * bit irq) % 2 ^ 32 = 2 + 4 * bit irq := by cases irq <;> decide
  have hwrite : s.bar0Write n 0x1204 4 (2 + 4 * bit irq) none .nothing =
      s.updPort n (fun p => { p with mbx := { p.mbx with done := false, irqEn := irq } }) := by
    rw [← statusWrite_doneClear irq, State.bar0Write, hvalue]
    simp [State.dwordWrite, hreach, sizeOk_four (off := 0x1204) rfl, hreserved]
  exact congrArg (fun t => Host.Outcome.next t.settle) hwrite

end

/-- Settles O10: a write to the inbound area and GO ask whether the mailbox is free; DONE is cleared whatever it held. -/
theorem mailboxRegistersAct : Obligations.MailboxRegistersAct := by
  intro s n hq hs hreach
  refine ⟨fun off size value hsize hlo hhi => ⟨fun hbusy hdone => ?_, fun hbusy => ?_⟩,
    fun ext data => ⟨fun hfw => ?_, fun hfw hbusy => ?_, fun hfw hbusy hdone => ?_⟩, fun irq => ?_⟩
  · exact leaves_inboundWrite_free hreach hq hs hbusy hdone value hsize hlo hhi
  · exact leaves_of (exec_inboundWrite hreach value hsize hlo hhi) (inboundWrite_busy hbusy off size value) (quiet_violate hs hq ..)
  · exact leaves_go_before_ready hreach hq hfw ext data
  · exact leaves_of (exec_go hreach ext data) (goMailbox_busy hreach hfw hbusy ext data) (quiet_violate hs hq ..)
  · exact becomes_of (exec_go hreach ext data) (goMailbox_free hreach hfw hbusy hdone ext data)
  · exact leaves_of (exec_doneClear hreach irq) rfl (quiet_updPort hs hq n _ rfl)

/-! ## Accesses that only record -/

section
variable {s : State} {n off size : Nat} (hreach : (s.port n).reachable = true)
include hreach

/-- A write of 4 or 8 bytes to read-only registers reaches no register that takes a value. -/
theorem bar0Write_readOnly (value : Nat) (hsize : sizeOk off size = true) (hres : touchesReserved off size = false)
    (hoff : off + size ≤ 0x2C ∨ 0x1100 ≤ off ∧ off + size ≤ 0x1200 ∨ 0x3000 ≤ off ∧ off < 0x10000 ∨ 0x11000 ≤ off) :
    s.bar0Write n off size value none .nothing = s := by
  have haligned : size = 4 ∧ off % 4 = 0 ∨ size = 8 ∧ off % 8 = 0 := by simpa [sizeOk] using hsize
  have hinbound : ¬ (0x1000 ≤ off ∧ off < 0x1100) := by omega
  have hlow (v : Nat) : s.dwordWrite n off v none .nothing = s := dwordWrite_readOnly s n off v none .nothing (by omega)
  unfold State.bar0Write
  simp only [hreach, hsize, hres, if_neg hinbound, hlow]
  obtain ⟨rfl, halign⟩ | ⟨rfl, halign⟩ := haligned
  · rfl
  · exact dwordWrite_readOnly s n (off + 4) _ none .nothing (by omega)

theorem bar0Write_msixTable (value : Nat) (halign : off % 4 = 0) (hlo : 0x10000 ≤ off) (hhi : off < 0x10400) :
    s.bar0Write n off 4 value none .nothing = s.updPort n (fun p => p.tableWrite off (value % 2 ^ 32)) := by
  have hres : touchesReserved off 4 = false := by
    simp only [touchesReserved, bar0Reserved, List.any_eq_false, List.mem_range]
    intro j hj
    have hin : 0x10000 ≤ off + j ∧ off + j < 0x10400 := by omega
    simp [hin]
  have hword : s.dwordWrite n off (value % 2 ^ 32) none .nothing = s.updPort n (fun p => p.tableWrite off (value % 2 ^ 32)) := by
    unfold State.dwordWrite
    rw [if_neg (by omega), if_neg (by omega), if_neg (by omega), if_neg (by omega), if_neg (by omega), if_neg (by omega), if_pos ⟨hlo, hhi⟩]
  have hinbound : ¬ (0x1000 ≤ off ∧ off < 0x1100) := by omega
  unfold State.bar0Write
  simp only [hreach, sizeOk_four halign, hres, if_neg hinbound, hword]
  rfl

theorem bar0Access_dtLo : s.bar0Access n 0x4000 4 = s.updPort n (fun p => { p with dtLatch := s.dt / 2 ^ 32 % 2 ^ 32 }) := by
  have hres : touchesReserved 0x4000 4 = false := by decide
  simp [State.bar0Access, hreach, sizeOk_four (off := 0x4000) rfl, hres]

end

/-- Settles O12: each access is one violation, one change of its port, or nothing. -/
theorem accessRefusalsRecord : Obligations.AccessRefusalsRecord := by
  intro s n off size value hq hs hreach
  refine ⟨fun write hsize hres => ?_, fun write hsize => ?_, ?_, fun hsize hres hoff => ?_, fun halign hlo hhi => ?_, ?_⟩
  · exact leaves_of rfl (by simp [State.reservedAccess, hreach, hsize, hres]) (quiet_violate hs hq ..)
  · exact leaves_of rfl (by simp [State.sizeAccess, hreach, hsize]) (quiet_violate hs hq ..)
  · have hq' := quiet_updPort hs hq n (fun p => { p with cfg := { p.cfg with aerPoisonedTlp := true } }) rfl
    exact leaves_of rfl (by simp [State.poisonedWrite, hreach]) (quiet_violate (sorted_setPort s hs n _) hq' ..)
  · exact leaves_of rfl (bar0Write_readOnly hreach value hsize hres hoff) hq
  · exact leaves_of rfl (bar0Write_msixTable hreach value halign hlo hhi) (quiet_updPort hs hq n _ (tableWrite_accepted ..))
  · exact leaves_of rfl (bar0Access_dtLo hreach) (quiet_updPort hs hq n _ rfl)

end Sys2Proof.Machine
end

section
/-!
PROOFS. Proofs/PortPower.lean: the rows that change when a port may write (R401, R421), and the expired aggregation time (R466): each changes its one port.
-/
namespace Sys2Proof.Machine
open Sys2Proof.Safety

section
variable {s : State} {n : Nat}

theorem enterD3_reachable (hreach : (s.port n).reachable = true) :
    s.enterD3 n = s.updPort n (fun p => { (if p.canWrite then p.noteCapacity else p) with cfg := { p.cfg with d3hot := true } }) := by
  simp [State.enterD3, State.updPort, hreach]

section
variable (hlink : (s.port n).link = .up)
include hlink

theorem leaveD3_hot (hhot : (s.port n).cfg.d3hot = true) :
    s.leaveD3 n = s.updPort n (fun p =>
      if p.cfg.busMaster then { p with cfg := { p.cfg with d3hot := false } }.release s.dt else { p with cfg := { p.cfg with d3hot := false } }) := by
  simp [State.leaveD3, State.withConfig, State.updPort, HostPort.canWrite, hlink, hhot]

variable (hready : (s.port n).configReady = true)
include hready

theorem setBusMaster_on (hhot : (s.port n).cfg.d3hot = false) (hbus : (s.port n).cfg.busMaster = false) :
    s.setBusMaster n true = s.updPort n (fun p => { p with cfg := { p.cfg with busMaster := true } }.release s.dt) := by
  simp [State.setBusMaster, State.withConfig, State.updPort, HostPort.canWrite, hlink, hready, hhot, hbus]

theorem setBusMaster_off (hhot : (s.port n).cfg.d3hot = false) (hbus : (s.port n).cfg.busMaster = true) :
    s.setBusMaster n false = s.updPort n (fun p => { p.noteCapacity with cfg := { p.cfg with busMaster := false } }) := by
  simp [State.setBusMaster, State.withConfig, State.updPort, HostPort.canWrite, hlink, hready, hhot, hbus]

theorem setBusMaster_hot (hhot : (s.port n).cfg.d3hot = true) (on : Bool) :
    s.setBusMaster n on = s.updPort n (fun p => { p with cfg := { p.cfg with busMaster := on } }) := by
  simp [State.setBusMaster, State.withConfig, State.updPort, HostPort.canWrite, hlink, hready, hhot]

end

theorem aggExpires_due {v : Nat} (hcount : 0 < ((s.port n).vector v).count) (htime : 0 < ((s.port n).vector v).aggTime)
    (hdue : ((s.port n).vector v).firstDt + ((s.port n).vector v).aggTime ≤ s.dt) : s.aggExpires n v = s.updPort n (fun p => p.message v) := by
  rw [State.aggExpires]
  exact if_neg (by omega)

end

/-- Settles O14: each row is its one change of the port, which keeps the port's accepted commands. -/
theorem powerAndBusMasterRows : Obligations.PowerAndBusMasterRows := by
  intro s n hq hs
  have hport (g : HostPort → HostPort) (hg : (g (s.port n)).accepted = (s.port n).accepted) : Quiet (s.updPort n g) := quiet_updPort hs hq n g hg
  refine ⟨fun hreach => ?_, fun hlink hhot => ?_, fun hlink hready hhot hbus => ?_, fun hlink hready hhot hbus => ?_, fun hlink hready hhot on => ?_,
    fun v hcount htime hdue => ?_⟩
  · exact leaves_of rfl (enterD3_reachable hreach) (hport _ (by dsimp only; split <;> rfl))
  · exact leaves_of rfl (leaveD3_hot hlink hhot) (hport _ (by dsimp only; split <;> simp))
  · exact leaves_of rfl (setBusMaster_on hlink hready hhot hbus) (hport _ (release_accepted ..))
  · exact leaves_of rfl (setBusMaster_off hlink hready hhot hbus) (hport _ rfl)
  · exact leaves_of rfl (setBusMaster_hot hlink hready hhot on) (hport _ rfl)
  · exact leaves_of rfl (aggExpires_due hcount htime hdue) (hport _ (message_accepted ..))

end Sys2Proof.Machine
end

section
/-!
PROOFS. Proofs/LinkAndReset.lean: link changes and port resets (Tables 11-4 to 11-6), each the branch of its row that its port's state selects.
-/
namespace Sys2Proof.Machine
open Sys2Proof.Safety

section
variable {s : State} {n : Nat}

theorem dlUp_training (h : (s.port n).link = .training) : s.dlUp n = (s.setPort n { s.port n with link := .up }).notifyDiscovery n := by
  simp [State.dlUp, h]

theorem dlUp_lost (h : (s.port n).link = .lost) {q : HostPort} (hq : q = { s.port n with link := .up, lossDropped := 0 }) :
    s.dlUp n =
      ((s.setPort n (if q.canWrite then q.release s.dt else q)).post n 0x8003 (partHandle n)
        (pack [(2, 0), (14, 0), (48, (s.port n).lossDt), (32, (s.port n).lossDropped)])).notifyDiscovery n := by
  subst hq
  simp [State.dlUp, h]

theorem dlDown_up (h : (s.port n).link = .up) {q : HostPort} (hq : q = (if (s.port n).canWrite then (s.port n).noteCapacity else s.port n)) :
    s.dlDown n =
      ((s.setPort n { q with link := .lost, lossDropped := 0, lossDt := s.dt, cnt := { q.cnt with linkLosses := bump 32 q.cnt.linkLosses 1 } }).dropMedium
        n false).failPort n := by
  subst hq
  simp [State.dlDown, h]

theorem perstOn_released (hn : n < 4) (h : (s.port n).perst = false) :
    s.perstOn n = (s.portReset n .perst).updPort n (fun p => { p with perst := true, hotReset := false, link := .downReset }) := by
  simp [State.perstOn, Nat.not_le.mpr hn, h]

theorem perstOff_eq (hn : n < 4) : s.perstOff n = (s.updPort n (fun p => { p with perst := false })).leaveReset n :=
  if_neg (Nat.not_le.mpr hn)

theorem hotReset_linked (h : (s.port n).link ≠ .downReset) :
    s.hotReset n = (s.portReset n .hotReset).updPort n (fun p => { p with hotReset := true, link := .downReset }) :=
  if_neg h

theorem hotResetExit_held (h : (s.port n).hotReset = true) : s.hotResetExit n = (s.updPort n (fun p => { p with hotReset := false })).leaveReset n := by
  simp [State.hotResetExit, h]

theorem leaveReset_free (hlink : (s.port n).link = .downReset) (hperst : (s.port n).perst = false) (hhot : (s.port n).hotReset = false)
    (hreset : s.boot.inReset = false) : s.leaveReset n = s.setPort n { s.port n with link := .training, readyBound := some (s.dt + 1966080) } :=
  if_pos ⟨hlink, hperst, hhot, hreset⟩

theorem flr_ready (hlink : (s.port n).link = .up) (hready : (s.port n).configReady = true) :
    s.flr n = (s.portReset n .flr).updPort n (fun q => { q with readyBound := some (s.dt + 2457600) }) :=
  if_pos ⟨hlink, hready⟩

theorem configSpaceReady_bound (hlink : (s.port n).link ≠ .downReset) (hbound : (s.port n).readyBound ≠ none) :
    s.configSpaceReady n = s.setPort n { s.port n with configReady := true, readyBound := none } := by
  simp [State.configSpaceReady, hlink, hbound]

end

/-- Settles O15: in each row the port's state selects the one branch that the statement names. -/
theorem linkAndResetRows : Obligations.LinkAndResetRows := by
  intro s n hn
  refine ⟨fun h => becomes_of rfl (dlUp_training h), fun h q hq => becomes_of rfl (dlUp_lost h hq), fun h q hq => becomes_of rfl (dlDown_up h hq),
    fun h => becomes_of rfl (perstOn_released hn h), becomes_of rfl (perstOff_eq hn), fun h => becomes_of rfl (hotReset_linked h),
    fun h => becomes_of rfl (hotResetExit_held h), leaveReset_free, fun hlink hready => becomes_of rfl (flr_ready hlink hready),
    fun hlink hbound => becomes_of rfl (configSpaceReady_bound hlink hbound), fun r acts e hpending hready hserving hacts he => becomes_of rfl ?_⟩
  subst hacts he
  unfold State.hostLossApply
  dsimp only
  rw [hpending]
  dsimp only
  rw [if_neg (by simp [hready, hserving]), List.map_map]
  rfl

end Sys2Proof.Machine
end

section
/-!
PROOFS. Proofs/HostRequests.lean: what a port asks of its host: entry reads, completions, timeouts, quarantined tags (R412 to R424, R448 to R454), and the snapshot
(R689).
-/
namespace Sys2Proof.Machine
open Sys2Proof.Safety

section
variable {s : State} {n tag : Nat}

theorem entryFetch_reads {k : Nat} (hfw : (s.port n).fwState = 2)
    (hnext : ((List.range 32).map (fun j => ((s.port n).nextPair + j) % 32)).find? (fun k => (s.port n).mayRead k) = some k)
    (htag : (s.port n).freePcieTag.isSome = true) :
    s.entryFetch n =
      (s.issueRead n k ((((s.port n).pair k).sqHead + ((s.port n).pair k).reading) % 2 ^ ((s.port n).pair k).sqLog) ((s.port n).readCount k) 0).updPort n
        (fun q => { q.setPair k { q.pair k with reading := ((s.port n).pair k).reading + (s.port n).readCount k } with nextPair := (k + 1) % 32 }) := by
  have hfree : (s.port n).freePcieTag.isNone = false := Option.isNone_eq_false_iff.mpr htag
  unfold State.entryFetch
  dsimp only
  rw [if_neg (not_not.mpr hfw), hnext, hfree]
  rfl

theorem fetchRetry_due {k : Nat} {f : Nat × Nat × Nat × Nat} (hfailed : ((s.port n).pair k).failed.find? (fun f => decide (f.2.2.2 ≤ s.dt)) = some f)
    (hwrite : (s.port n).canWrite = true) (hfw : (s.port n).fwState = 2) (htag : (s.port n).freePcieTag.isSome = true) :
    s.fetchRetry n k =
      (s.updPort n (fun q => { q.setPair k { (s.port n).pair k with failed := ((s.port n).pair k).failed.erase f } with
        cnt := { q.cnt with fetchRetries := bump 32 q.cnt.fetchRetries 1 } })).issueRead n k f.1 f.2.1 f.2.2.1 := by
  have hfree : (s.port n).freePcieTag.isNone = false := Option.isNone_eq_false_iff.mpr htag
  unfold State.fetchRetry
  dsimp only
  rw [hfailed, hwrite, hfw, hfree]
  rfl

/-! ## Completions -/

section
variable {status : CplStatus} {poisoned : Bool} {data : CplData} (hlink : (s.port n).link = .up)
include hlink

theorem hostCompletion_good {r : HostRequest} (hr : (s.port n).requests.find? (fun r => r.pcieTag == tag) = some r) (hcarries : carriesFor data r = true) :
    s.hostCompletion n tag .ok false data = ((s.setPort n ((s.port n).without r)).hostBrings r n data).updPort n HostPort.closeQuiet := by
  unfold State.hostCompletion
  dsimp only
  rw [if_neg (not_not.mpr hlink), hr]
  simp only [hcarries]
  rfl

theorem hostCompletion_bad {r : HostRequest} (hr : (s.port n).requests.find? (fun r => r.pcieTag == tag) = some r) (hbad : status ≠ .ok ∨ poisoned = true)
    {q : HostPort} (hq : q = (s.port n).without r) :
    s.hostCompletion n tag status poisoned data =
      ((s.setPort n { q with cfg := { q.cfg with aerPoisonedTlp := q.cfg.aerPoisonedTlp || poisoned },
                             cnt := { q.cnt with errorCompletions := bump 32 q.cnt.errorCompletions 1 } }).hostFails n r 5 false false).updPort n
        HostPort.closeQuiet := by
  have hnotGood : ¬ (status = .ok ∧ poisoned = false) := by
    rintro ⟨rfl, rfl⟩
    simp at hbad
  subst hq
  unfold State.hostCompletion
  dsimp only
  rw [if_neg (not_not.mpr hlink), hr]
  exact if_neg hnotGood

theorem hostCompletion_unexpected (hr : (s.port n).requests.find? (fun r => r.pcieTag == tag) = none) :
    s.hostCompletion n tag status poisoned data =
      (s.setPort n { s.port n with
          cfg := { (s.port n).cfg with aerUnexpectedCompletion := true },
          cnt := { (s.port n).cnt with lateCompletions := bump 32 (s.port n).cnt.lateCompletions (bit ((s.port n).quarantine.any (fun q => q.pcieTag == tag))) } }).updFeeder 3
        (fun x => { x with cnt := { x.cnt with late := bump 64 x.cnt.late (bit ((s.port n).quarantine.any (fun q => q.pcieTag == tag))) } }) := by
  unfold State.hostCompletion
  dsimp only
  rw [if_neg (not_not.mpr hlink), hr]

end

theorem completionTimeout_due {r : HostRequest} {limit : Nat} {q : HostPort} (hr : (s.port n).requests.find? (fun r => r.pcieTag == tag) = some r)
    (hlimit : limit = timeoutTicks (s.port n).cfg.completionTimeout) (hdue : r.issued + limit ≤ s.dt) (hq : q = (s.port n).without r) :
    s.completionTimeout n tag =
      ((s.setPort n { q with cfg := { q.cfg with aerCompletionTimeout := true },
                             quarantine := q.quarantine ++ [{ pcieTag := tag, fxTag := r.fxTag, ends := s.dt + 2 * limit }],
                             cnt := { q.cnt with completionTimeouts := bump 32 q.cnt.completionTimeouts 1 } }).hostFails n r 4 true false).updPort n
        HostPort.closeQuiet := by
  subst hlimit hq
  unfold State.completionTimeout
  dsimp only
  rw [hr]
  exact if_neg hdue.not_gt

section
variable {q : QuarantinedTag} {t : State} (hq : (s.port n).quarantine.find? (fun q => q.pcieTag == tag && decide (q.ends ≤ s.dt)) = some q)
  (ht : t = s.setPort n { s.port n with quarantine := (s.port n).quarantine.erase q })
include hq ht

theorem quarantineEnd_free (hnone : t.request 3 q.fxTag = none) : s.quarantineEnd n tag = t := by
  subst ht
  unfold State.quarantineEnd
  dsimp only
  rw [hq]
  dsimp only
  rw [hnone]

theorem quarantineEnd_returns {r : Request} (hr : t.request 3 q.fxTag = some r) (hquar : r.quarantined.isSome = true) (hkind : r.kind = 3) :
    s.quarantineEnd n tag = t.returnTag 3 r := by
  subst ht
  unfold State.quarantineEnd
  dsimp only
  rw [hq]
  dsimp only
  rw [hr]
  exact if_pos (by simp [hquar, hkind])

end

theorem snapshotRefresh_due (hserving : s.serving = true) (hdt : s.dt % 24576 = 0) :
    s.snapshotRefresh =
      (List.range 4).foldl (fun (t : State) k => t.updPort k (fun p =>
        { p with snap := { seq := bump 64 p.snap.seq 2, dt := s.dt, words := (s.snapWords k).filter (fun w => decide (w.2 ≠ 0)) } })) s :=
  if_neg (by simp [hserving, hdt])

end

/-- Settles O16: in each row what waits under the pair or tag selects the one branch that the statement names. -/
theorem hostRequestRows : Obligations.HostRequestRows := by
  intro s n tag
  refine ⟨fun k hfw hnext htag => becomes_of rfl (entryFetch_reads hfw hnext htag),
    fun k f hfailed hwrite hfw htag => becomes_of rfl (fetchRetry_due hfailed hwrite hfw htag),
    fun r status poisoned data hlink hr => ⟨fun hcarries => becomes_of rfl (hostCompletion_good hlink hr hcarries),
      fun hbad q hq => becomes_of rfl (hostCompletion_bad hlink hr hbad hq)⟩,
    fun status poisoned data hlink hr => becomes_of rfl (hostCompletion_unexpected hlink hr),
    fun r limit q hr hlimit hdue hq => becomes_of rfl (completionTimeout_due hr hlimit hdue hq),
    fun q t hq ht => ⟨fun hnone => becomes_of rfl (quarantineEnd_free hq ht hnone),
      fun r hr hquar hkind => becomes_of rfl (quarantineEnd_returns hq ht hr hquar hkind)⟩,
    fun hserving hdt => becomes_of rfl (snapshotRefresh_due hserving hdt)⟩

end Sys2Proof.Machine
end

section
/-!
PROOFS. Proofs/FeederRings.lean: what a doorbell, a skein and a descriptor start do to a feeder ring (R244 to R260).
-/
namespace Sys2Proof.Machine
open Sys2Proof.Safety

section
variable {s : State} {f r : Nat}

theorem ringDoorbell_dead (hlive : ((s.feeder f).ring r).live = false) (tail deadline : Nat) (descs : List Nat) :
    s.ringDoorbell f r tail deadline descs = s := by
  simp [State.ringDoorbell, hlive]

theorem ringDoorbell_misfit {descs : List Nat} (hfit : (descs.map s.stampDesc).all (fun w => (Desc.ofBytes w).fitsRing f r) = false)
    (tail deadline : Nat) : s.ringDoorbell f r tail deadline descs = s := by
  unfold State.ringDoorbell
  dsimp only
  rw [hfit, Bool.not_false, Bool.or_true, if_pos rfl]

theorem ringDoorbell_live {x : FRing} {ds : List Nat} (hx : x = (s.feeder f).ring r) (tail deadline : Nat) {descs : List Nat} (hds : ds = descs.map s.stampDesc)
    (hlive : x.live = true) (hfit : ds.all (fun w => (Desc.ofBytes w).fitsRing f r) = true) :
    s.ringDoorbell f r tail deadline descs =
      (s.writeRing x x.tail ds).updRing f r (fun y =>
        { y with tail := tail % 2 ^ y.log, deadline := earliestDeadline deadline ds, skein := y.skein.filter (fun k => k.1 / 8 != x.tail / 8) }) := by
  subst hx hds
  unfold State.ringDoorbell
  dsimp only
  rw [hlive, hfit]
  rfl

theorem wants_iff (x : FRing) : x.wants = true ↔ x.live = true ∧ x.head ≠ x.tail ∧ x.skein = none := by
  simp [FRing.wants, and_assoc]

theorem fetchSkein_outOfTurn (hturn : s.firstAt (channelOf ((s.feeder f).ring r).skeinAddr) f ((s.feeder f).ring r).deadline = false) :
    s.fetchSkein f r = s := by
  simp [State.fetchSkein, hturn]

theorem fetchSkein_reads (hwants : ((s.feeder f).ring r).wants = true)
    (hturn : s.firstAt (channelOf ((s.feeder f).ring r).skeinAddr) f ((s.feeder f).ring r).deadline = true)
    (hgood : ∀ b ∈ burstsOf ((s.feeder f).ring r).skeinAddr 256, eccOf b (s.mem.err b) ≠ .uncorrectable) :
    s.fetchSkein f r =
      (s.servedAt (channelOf ((s.feeder f).ring r).skeinAddr) f).updRing f r (fun y =>
        { y with skein := some (((s.feeder f).ring r).head / 8 * 8,
                                (List.range 8).map (fun j => s.memRead (((s.feeder f).ring r).skeinAddr + 32 * j) 32)) }) := by
  have hbad : (burstsOf ((s.feeder f).ring r).skeinAddr 256).filter (fun b => eccOf b (s.mem.err b) == .uncorrectable) = [] :=
    List.filter_eq_nil_iff.mpr (fun b hb => by simpa using hgood b hb)
  unfold State.fetchSkein
  dsimp only
  rw [hwants, hturn, hbad]
  rfl

/-! ## Starting the descriptor R245 chooses -/

section
variable {d : Desc} {t : State} (hnext : s.nextRing f = some (r, d))
  (ht : t = (s.updRing f r (fun y => { y with
            head := (((s.feeder f).ring r).head + 1) % 2 ^ ((s.feeder f).ring r).log,
            skein := if (((s.feeder f).ring r).head + 1) % 2 ^ ((s.feeder f).ring r).log % 8 = 0 then none else y.skein })).updFeeder f
              (fun y => { y with lastRing := r }))
include hnext ht

theorem startDesc_aborted (haborted : s.ops.any (fun o => o.id == d.task && o.aborted) = true) : s.startDesc f = t.reapOps := by
  subst ht
  unfold State.startDesc
  rw [hnext]
  dsimp only
  exact if_pos haborted

theorem startDesc_bad (hrunning : s.ops.any (fun o => o.id == d.task && o.aborted) = false) (hbad : d.ok f = false) :
    s.startDesc f = t.transferFault f d 0 { kind := 0x06, endpoint := 300 + f, address := d.src } := by
  subst ht
  unfold State.startDesc
  rw [hnext]
  dsimp only
  rw [hrunning, if_neg Bool.false_ne_true, hbad]
  rfl

theorem startDesc_good (hrunning : s.ops.any (fun o => o.id == d.task && o.aborted) = false) (hgood : d.ok f = true) (hplain : d.needle = false)
    {p : Progress} (hp : p = { id := (s.feeder f).nextProg, ring := r, index := ((s.feeder f).ring r).head, desc := d, copies := s.copiesOf d, unicast := s.asUnicast d })
    {u : State} (hu : u = t.updFeeder f (fun y => { y with progress := y.progress ++ [p], nextProg := y.nextProg + 1 })) :
    s.startDesc f = if p.total = 0 then u.descDone f p else u := by
  subst ht hp hu
  unfold State.startDesc
  rw [hnext]
  dsimp only
  rw [hrunning, hgood, hplain]
  rfl

end
end

/-- Settles O17: a doorbell, a skein and a descriptor start each by the branch of the row that its clause names. -/
theorem ringRowsAct : Obligations.RingRowsAct := by
  intro s f r
  refine ⟨?_, ?_, ?_, ?_, ?_⟩
  · exact fun tail deadline descs hlive => becomes_of rfl (ringDoorbell_dead hlive tail deadline descs)
  · intro tail deadline descs x ds hx hds hlive
    exact ⟨fun hfit => becomes_of rfl (ringDoorbell_live hx tail deadline hds hlive hfit),
      fun hfit => becomes_of rfl (ringDoorbell_misfit (hds ▸ hfit) tail deadline)⟩
  · exact fun x d ds => rfl
  · rintro x a rfl rfl hlive hmore hskein
    exact ⟨fun hturn hgood => becomes_of rfl (fetchSkein_reads ((wants_iff _).mpr ⟨hlive, hmore, hskein⟩) hturn hgood),
      fun hturn => becomes_of rfl (fetchSkein_outOfTurn hturn)⟩
  · rintro d x t hnext rfl ht
    exact ⟨fun haborted => becomes_of rfl (startDesc_aborted hnext ht haborted),
      fun hrunning hbad => becomes_of rfl (startDesc_bad hnext ht hrunning hbad),
      fun p u hrunning hgood hplain hp hu => becomes_of rfl (startDesc_good hnext ht hrunning hgood hplain hp hu)⟩

end Sys2Proof.Machine
end

section
/-!
PROOFS. Proofs/Tags.lean: a request takes a tag, its data and its DONE come back, and a request whose answer is missing times out (R240, R246, R270 to R275).
-/
namespace Sys2Proof.Machine
open Sys2Proof.Safety

section
variable {s : State} {f tag : Nat}

/-! ## REQUEST_ISSUE -/

theorem issueRequest_none (hnext : s.nextIssue f = none) : s.issueRequest f = s := by
  simp [State.issueRequest, hnext]

theorem issueRequest_noTag {p : Progress} (hnext : s.nextIssue f = some p) (hfull : 2048 ≤ (s.feeder f).requests.length ∨ 6144 ≤ s.allTags) :
    s.issueRequest f = s.updFeeder f (fun y => { y with waitFrom := some (y.waitFrom.getD s.dt) }) := by
  unfold State.issueRequest
  rw [hnext]
  exact if_pos hfull

/-- Only a move to or from a host is cut at its port's limits. -/
theorem pieceOf_device {p : Progress} (h3 : p.desc.kind ≠ 3) (h4 : p.desc.kind ≠ 4) : s.pieceOf p = p.piece := by
  simp [State.pieceOf, h3, h4]

section
variable {p : Progress} {u : State} {read : Bool} {dst n : Nat} (hnext : s.nextIssue f = some p)
  (hroom : (s.feeder f).requests.length < 2048) (hall : s.allTags < 6144) (h3 : p.desc.kind ≠ 3) (h4 : p.desc.kind ≠ 4) (h1 : p.desc.kind ≠ 1)
  (hu : u = s.updFeeder f (fun y => { y with waitFrom := none, cnt := { y.cnt with
        tagPoolWaits := bump 64 y.cnt.tagPoolWaits (((s.feeder f).waitFrom.map (fun w => (s.dt - w) * 200 / 3)).getD 0) } }))
  (hread : read = (p.desc.kind != 6 && p.desc.kind != 8)) (hdst : dst = 256 + channelOf p.piece.1 / 32) (hn : n = requestStitches p.desc.kind read p.piece.2.2)
  (hinject : u.canInject dst = true) (hnear : u.nearRoute f p.desc p.piece.2.1 = true) (hopen : (u.window (300 + f) dst).isOpen = true)
include hnext hroom hall h3 h4 h1 hu hread hdst hn hinject hnear hopen

/-- A request of the kinds 0, 2, 5, 6 and 8 that has its tag and its window: it goes out where the window has room, and waits on it where not. -/
theorem issueRequest_open :
    s.issueRequest f = if !(u.window (300 + f) dst).room n then u.windowWaits (300 + f) dst
      else
        (u.addRequest f p
          { tag := (s.feeder f).freeTag, prog := p.id, op := p.desc.task, part := p.desc.part, deadline := p.desc.deadline,
            kind := if p.copyOf.isSome then 0 else p.desc.kind, read := read, gambit := p.desc.gambit, addr := p.piece.1, other := p.piece.2.1,
            bytes := p.piece.2.2, issued := s.dt, data := if p.desc.kind = 8 then p.desc.dst else 0,
            buffered := decide (0 < s.bufferNeed p p.piece.2.2) }).sendMessage (300 + f) dst p.desc.task 0 (requestKind p.desc.kind read)
          (s.feeder f).freeTag n
          (pack [(37, p.piece.1), (64, p.piece.2.1), (32, p.desc.deadline), (9, p.piece.2.2), (2, p.desc.part), (1, bit p.desc.gambit)]
            + 2 ^ 145 * (if p.desc.kind = 8 then p.desc.dst else 0)) := by
  have htags : ¬ (2048 ≤ (s.feeder f).requests.length ∨ 6144 ≤ s.allTags) := by omega
  have hkind : (p.desc.kind != 1) = true := bne_iff_ne.mpr h1
  subst hread hdst hn
  unfold State.issueRequest
  rw [hnext]
  dsimp only
  rw [if_neg htags, pieceOf_device h3 h4]
  simp only [if_neg h3, if_neg h4, if_neg h1, hkind, Bool.true_and]
  cases hw : (s.feeder f).waitFrom <;>
  · rw [hw] at hu
    simp only [Option.map_none, Option.map_some, Option.getD_none, Option.getD_some] at hu
    simp only [← hu, hinject, hnear, hopen]
    rfl

end

/-! ## DATA, DONE and the memory timeout -/

section
variable {r : Request} (hr : s.request f tag = some r)
include hr

section
variable (hfetched : r.fetched = true)
include hfetched

theorem dataArrives_late (hlate : r.quarantined.isSome = true) (hread : r.read = true) :
    s.dataArrives f tag = (s.updFeeder f (fun x => { x with cnt := { x.cnt with late := bump 64 x.cnt.late 1 } })).returnTag f r := by
  unfold State.dataArrives
  rw [hr]
  simp only [hread, hfetched, hlate]
  rfl

theorem dataArrives_dead (hheld : r.quarantined = none) (hread : r.read = true) (hdead : s.requestDead f r = true) :
    s.dataArrives f tag =
      (s.updFeeder f (fun x => { x with cnt := { x.cnt with sacrificed := bump 64 x.cnt.sacrificed (if r.gambit then r.bytes else 0) } })).returnTag f r := by
  unfold State.dataArrives
  rw [hr]
  simp only [hread, hfetched, hheld, hdead]
  rfl

theorem dataArrives_lands {p : Progress} (hheld : r.quarantined = none) (hread : r.read = true) (hdead : s.requestDead f r = false)
    (hp : s.progressOf f r = some p) (h2 : r.kind ≠ 2) (hbuffered : r.buffered = false) :
    s.dataArrives f tag =
      ((s.updFeeder f (fun x => { x with cnt := { x.cnt with bytesRead := bump 64 x.cnt.bytesRead r.bytes } })).landData p.desc p.half r).updRequest f tag
        (fun y => { y with read := false }) := by
  unfold State.dataArrives
  rw [hr]
  simp only [hread, hfetched, hheld, hdead, hp, if_neg h2, hbuffered]
  rfl

theorem tagDone_late (hlate : r.quarantined.isSome = true) :
    s.tagDone f tag = (s.updFeeder f (fun x => { x with cnt := { x.cnt with late := bump 64 x.cnt.late 1 } })).returnTag f r := by
  unfold State.tagDone
  rw [hr]
  simp only [hfetched, hlate]
  rfl

theorem tagDone_write {p : Progress} (hheld : r.quarantined = none) (hwrite : r.read = false) (hbuffered : r.buffered = false) (hp : s.progressOf f r = some p) :
    s.tagDone f tag =
      (s.updFeeder f (fun x => { x with cnt := { x.cnt with
        bytesWritten := bump 64 x.cnt.bytesWritten
          (if r.failed then 0 else if r.kind = 1 ∨ r.kind = 2 ∨ r.kind = 3 ∨ r.kind = 6 ∨ r.kind = 8 then r.bytes else 0) } })).returnTag f r := by
  unfold State.tagDone
  rw [hr]
  simp only [hfetched, hheld, hwrite, hbuffered, hp]
  rfl

end

theorem memTimeout_early (hearly : 200 * (s.dt - r.issued) < 3 * 81920) : s.memTimeout f tag = s := by
  unfold State.memTimeout
  rw [hr]
  simp [hearly]

theorem memTimeout_due {p : Progress} (hfetched : r.fetched = false) (hfailed : r.failed = false) (hheld : r.quarantined = none)
    (hhost : r.kind = 3 → r.read = false) (hsteady : (s.window (300 + f) (256 + channelOf r.addr / 32)).probeFrom = none)
    (hdue : 3 * 81920 ≤ 200 * (s.dt - r.issued)) (hp : s.progressOf f r = some p) :
    s.memTimeout f tag =
      ((s.updRequest f tag (fun y => { y with failed := true, quarantined := some s.dt })).updFeeder f
        (fun x => { x with cnt := { x.cnt with watchdog := bump 32 x.cnt.watchdog 1 } })).transferFault f p.desc p.id
          { kind := 0x03, endpoint := 256 + channelOf r.addr / 32, detail := tag, address := r.addr } := by
  have hnotHost : (r.kind == 3 && r.read) = false := by
    rw [Bool.and_eq_false_imp]
    simpa using hhost
  unfold State.memTimeout
  rw [hr]
  simp only [hfetched, hfailed, hheld, hnotHost, hsteady, decide_eq_false hdue.not_gt, hp]
  rfl

end
end

/-- Settles O18: each clause is one branch of issueRequest, dataArrives, tagDone or memTimeout. -/
theorem requestsIssueAndReturn : Obligations.RequestsIssueAndReturn := by
  intro s f tag
  refine ⟨?_, ?_, ?_, ?_, ?_, ?_⟩
  · exact fun hnext => becomes_of rfl (issueRequest_none hnext)
  · exact fun p hnext hfull => becomes_of rfl (issueRequest_noTag hnext hfull)
  · rintro p u x read dst n v hnext rfl hroom hall h3 h4 h1 hu hread hdst hn rfl hinject hnear hopen
    have hissue := issueRequest_open hnext hroom hall h3 h4 h1 hu hread hdst hn hinject hnear hopen
    exact ⟨fun hfits => becomes_of rfl (hissue.trans (by rw [hfits]; rfl)), fun hfull => becomes_of rfl (hissue.trans (by rw [hfull]; rfl))⟩
  · intro r hr hfetched
    refine ⟨?_, ?_, ?_, ?_, ?_⟩
    · exact fun hlate hread => becomes_of rfl (dataArrives_late hr hfetched hlate hread)
    · exact fun hheld hread hdead => becomes_of rfl (dataArrives_dead hr hfetched hheld hread hdead)
    · rintro p t hheld hread hdead hp h2 hbuffered rfl
      exact becomes_of rfl (dataArrives_lands hr hfetched hheld hread hdead hp h2 hbuffered)
    · exact fun p hheld hwrite hbuffered hp => becomes_of rfl (tagDone_write hr hfetched hheld hwrite hbuffered hp)
    · exact fun hlate => becomes_of rfl (tagDone_late hr hfetched hlate)
  · exact fun r p hr hfetched hfailed hheld hhost hsteady hdue hp => becomes_of rfl (memTimeout_due hr hfetched hfailed hheld hhost hsteady hdue hp)
  · exact fun r hr hearly => becomes_of rfl (memTimeout_early hr hearly)

end Sys2Proof.Machine
end

section
/-!
PROOFS. Proofs/MemoryBackground.lean: refreshes, the scrub, the stack readout and a controller's reset (R334 to R345).
-/
namespace Sys2Proof.Machine
open Sys2Proof.Safety

/-! ## Where the scrub of a pseudo-channel goes -/

/-- The row number that the scrub puts into the low bits undoes the hash of R328. -/
theorem xor_hash_cancel (c a b d e : Nat) : ((((c ^^^ ((a ^^^ b) ^^^ (d ^^^ e))) ^^^ a) ^^^ b) ^^^ d) ^^^ e = c := by
  refine Nat.eq_of_testBit_eq fun i => ?_
  simp only [Nat.testBit_xor]
  cases c.testBit i <;> cases a.testBit i <;> cases b.testBit i <;> cases d.testBit i <;> cases e.testBit i <;> rfl

theorem scrubAddress_inside {c pos : Nat} (hc : c < 192) (hpos : pos < 16777216) :
    channelOf (scrubAddress c pos) = c ∧ scrubAddress c pos < memEnd := by
  obtain ⟨l, hl⟩ : ∃ l, pos / 128 = l := ⟨_, rfl⟩
  obtain ⟨low, hlow⟩ : ∃ low, (c % 32) ^^^ ((field l 0 5 ^^^ field l 5 5) ^^^ (field l 10 5 ^^^ field l 15 2)) = low := ⟨_, rfl⟩
  have hfield : ∀ lo w, w ≤ 5 → field l lo w < 2 ^ 5 := fun lo w hw =>
    (Nat.mod_lt _ (by positivity)).trans_le (Nat.pow_le_pow_right (by decide) hw)
  have hlow32 : low < 2 ^ 5 := hlow ▸ Nat.xor_lt_two_pow (by omega)
    (Nat.xor_lt_two_pow (Nat.xor_lt_two_pow (hfield 0 5 (by decide)) (hfield 5 5 (by decide)))
      (Nat.xor_lt_two_pow (hfield 10 5 (by decide)) (hfield 15 2 (by decide))))
  have haddr : scrubAddress c pos = 4096 * (6 * (32 * l + low) + c / 32) + 32 * (pos % 128) := by rw [← hlow, ← hl]; rfl
  have hq : scrubAddress c pos / 4096 / 6 = 32 * l + low := by omega
  have hstack : scrubAddress c pos / 4096 % 6 = c / 32 := by omega
  have h0 : field (32 * l + low) 0 5 = low := by unfold field; omega
  have h5 : field (32 * l + low) 5 5 = field l 0 5 := by unfold field; omega
  have h10 : field (32 * l + low) 10 5 = field l 5 5 := by unfold field; omega
  have h15 : field (32 * l + low) 15 5 = field l 10 5 := by unfold field; omega
  have h20 : field (32 * l + low) 20 2 = field l 15 2 := by unfold field; omega
  constructor
  · calc channelOf (scrubAddress c pos) = 32 * (c / 32) + ((((low ^^^ field l 0 5) ^^^ field l 5 5) ^^^ field l 10 5) ^^^ field l 15 2) := by
          unfold channelOf
          dsimp only
          rw [hq, hstack, h0, h5, h10, h15, h20]
          rfl
      _ = 32 * (c / 32) + c % 32 := by rw [← hlow, xor_hash_cancel]
      _ = c := Nat.div_add_mod c 32
  · rw [haddr]
    unfold memEnd
    omega

/-! ## The rows -/

section
variable {s : State} {c : Nat}

theorem refreshForced_counts (hc : c < 192) :
    s.refreshForced c = s.updChannel c (fun x => { x with refreshSlots := bump 64 x.refreshSlots 1, refreshForced := bump 32 x.refreshForced 1 }) := if_pos hc

theorem perBankRefresh_counts (hc : c < 192) :
    s.perBankRefresh c = s.updChannel c (fun x => { x with refreshSlots := bump 64 x.refreshSlots 1 }) := if_pos hc

theorem scrubWriteBack_none (hback : (s.channel c).writeBack = none) : s.scrubWriteBack c = s := by
  simp [State.scrubWriteBack, hback]

@[simp] theorem updChannel_err (g : PseudoChannel → PseudoChannel) : (s.updChannel c g).mem.err = s.mem.err := rfl

/-- A burst without a wrong byte reads clean. -/
theorem eccOf_clean {b : Nat} {e : BurstErr} (hgood : e.bytes = []) : eccOf b e = .clean := by
  simp [eccOf, hgood]

theorem scrubRead_clean (hc : c < 192) (hreset : (s.channel c).inReset = false) (hback : (s.channel c).writeBack = none)
    (hnext : (s.channel c).scrubPosition + 1 < 16777216) (hgood : (s.mem.err (scrubAddress c (s.channel c).scrubPosition / 32)).bytes = []) :
    s.scrubRead c [] =
      s.updChannel c (fun x => { x with
        scrubPosition := (s.channel c).scrubPosition + 1, scrubSlots := bump 64 x.scrubSlots 1, scrubForced := bump 32 x.scrubForced (bit (s.scrubBehind c)) }) := by
  have hrun : ¬ (192 ≤ c ∨ (s.channel c).inReset = true) := by simp [hc, hreset]
  have hup : s.upset [] = s := rfl
  have hpos : ((s.channel c).scrubPosition + 1) % channelBursts = (s.channel c).scrubPosition + 1 := Nat.mod_eq_of_lt hnext
  unfold State.scrubRead
  dsimp only
  rw [if_neg hrun, hup, scrubWriteBack_none hback, hpos, if_neg (Nat.succ_ne_zero _)]
  rw [updChannel_err, eccOf_clean hgood]

theorem stackReadout_stores {k temp : Nat} {y : Stack} (hk : k < 6) (htemp : temp < 256)
    (hy : y = { tempNow := temp, tempMax := max (Table.get {} s.mem.stackRegs k).tempMax temp,
                fast := decide (85 ≤ temp ∨ 82 ≤ temp ∧ (Table.get {} s.mem.stackRegs k).fast = true) }) :
    s.stackReadout k temp = { s with mem := { s.mem with stackRegs := Table.set {} s.mem.stackRegs k y } } := by
  have hfast : (if 85 ≤ temp then true else if temp < 82 then false else (Table.get {} s.mem.stackRegs k).fast)
      = decide (85 ≤ temp ∨ 82 ≤ temp ∧ (Table.get {} s.mem.stackRegs k).fast = true) := by
    by_cases h85 : 85 ≤ temp
    · simp [h85]
    · by_cases h82 : temp < 82
      · simp [h85, h82, h82.not_ge]
      · simp [h85, h82, Nat.le_of_not_lt h82]
  subst hy
  unfold State.stackReadout Table.upd
  rw [if_pos hk, Nat.mod_eq_of_lt htemp, ← hfast]

theorem controllerResetDone_ends (hreset : (s.channel c).inReset = true) :
    s.controllerResetDone c =
      (List.range 3).foldl (fun (u : State) f => u.updFlank f (fun x =>
        { x with run := x.run.map (fun r => if ((s.requestsAt c).map (fun y => y.2.op)).contains r.id
            then { r with paused := r.paused + (s.dt - (s.channel c).resetFrom) } else r) }))
        (s.updChannel c (fun k => { k with inReset := false, resetFrom := 0 })) := by
  unfold State.controllerResetDone
  dsimp only
  rw [hreset]
  rfl

theorem controllerReset_notDue (hdue : s.resetDue c = false) : s.controllerReset c = s := by
  simp [State.controllerReset, hdue]

theorem controllerReset_due (hc : c < 192) (hreset : (s.channel c).inReset = false) (hdue : s.resetDue c = true)
    {queued : List (Nat × Request)} (hqueued : queued = (s.requestsAt c).filter (fun x => !x.2.fetched && x.2.quarantined.isNone && !(x.2.kind == 3 && x.2.read)))
    {t : State} (ht : t = queued.foldl (fun (v : State) x => v.resetFails c x.1 x.2)
        (s.updChannel c (fun k => { k with inReset := true, resetFrom := s.dt, controllerResets := bump 16 k.controllerResets 1 }))) :
    s.controllerReset c =
      ((((s.requestsAt c).filter (fun x => x.2.quarantined.isSome) ++ queued).foldl (fun (v : State) x => v.tagBack x.1 x.2.tag) t).journalWrite
        { JEntry.blank 0x21 with endpoint := 256 + c / 32, detail := pack [(8, c), (16, queued.length)] }).dispatchAll := by
  have hacts : ¬ (192 ≤ c ∨ (s.channel c).inReset = true ∨ s.resetDue c = false) := by simp [hc, hreset, hdue]
  subst ht hqueued
  exact if_neg hacts

end

/-- Settles O21: the background rows of the memory, each by what it counts and holds; the scrub's address inverts the channel hash. -/
theorem memoryBackgroundActs : Obligations.MemoryBackgroundActs := by
  intro s c hquiet hc
  refine ⟨?_, ?_, ?_, ?_, ?_, ?_, ?_, ?_⟩
  · exact leaves_of rfl (refreshForced_counts hc) (quiet_updChannel hquiet c _)
  · exact leaves_of rfl (perBankRefresh_counts hc) (quiet_updChannel hquiet c _)
  · rintro pos rfl hreset hback hnext hgood
    exact leaves_of rfl (scrubRead_clean hc hreset hback hnext hgood) (quiet_updChannel hquiet c _)
  · exact fun pos hpos => scrubAddress_inside hc hpos
  · rintro k temp x y hk htemp rfl hy
    exact leaves_of rfl (stackReadout_stores hk htemp hy) (quiet_mem hquiet _)
  · exact fun hreset => becomes_of rfl (controllerResetDone_ends hreset)
  · exact fun hdue => leaves_of rfl (controllerReset_notDue hdue) hquiet
  · exact fun queued t hreset hdue hqueued ht => becomes_of rfl (controllerReset_due hc hreset hdue hqueued ht)

end Sys2Proof.Machine
end

section
/-!
PROOFS. Proofs/PageCache.lean: the page cache's lookups and answers (R195 to R204, Tables 6-5 and 6-6).
-/
namespace Sys2Proof.Machine
open Sys2Proof.Safety

/-- Counting for a page's owner touches a partition alone. -/
theorem updOwner_frame (s : State) (ppn : Nat) (g : Partition → Partition) : ∃ v, s.updOwner ppn g = { s with parts := v } := by
  unfold State.updOwner
  cases s.pageOwner ppn with
  | none => exact ⟨s.parts, rfl⟩
  | some n => exact ⟨_, rfl⟩

@[simp] theorem updOwner_pages (s : State) (ppn : Nat) (g : Partition → Partition) : (s.updOwner ppn g).pages = s.pages := by
  obtain ⟨v, h⟩ := updOwner_frame s ppn g
  rw [h]

theorem dirEntry_of_pages {s t : State} (h : t.pages = s.pages) (ppn : Nat) : t.dirEntry ppn = s.dirEntry ppn := by
  unfold State.dirEntry
  rw [h]

theorem page_of_pages {s t : State} (h : t.pages = s.pages) (ppn : Nat) : t.page ppn = s.page ppn := by
  unfold State.page
  rw [h]

theorem sealedPage_of_pages {s t : State} (h : t.pages = s.pages) (ppn : Nat) : t.sealedPage ppn = s.sealedPage ppn := by
  unfold State.sealedPage
  rw [h]

section
variable {s : State} {tile ppn : Nat}

/-! ## LOOKUP -/

section
variable {t : State} (hon : (s.tile tile).state = .enabled) (hframes : s.frameCount (tile / 48) ≠ 0) (hnew : (s.tile tile).frames.contains ppn = false)
  (hidle : (s.tile tile).awaits ppn = false)
  (ht : t = (s.updTile tile (fun y => { y with waits := y.waits ++ [.lookup ppn] })).updOwner ppn (fun p => { p with lookups := bump 64 p.lookups 1 }))
include hon hframes hnew hidle ht

theorem lookup_counted (hlooks : s.looksUp ppn = true) :
    s.lookup tile ppn = if (s.dirEntry ppn).writePending then t.setDir ppn { s.dirEntry ppn with held := (s.dirEntry ppn).held ++ [tile] } else t.answerLookup ppn tile := by
  subst ht
  unfold State.lookup
  dsimp only
  rw [hon, beq_eq_false_iff_ne.mpr hframes, hlooks, hnew, hidle]
  rfl

theorem lookup_held (hwrite : (s.dirEntry ppn).writePending = true) :
    s.lookup tile ppn = t.setDir ppn { s.dirEntry ppn with held := (s.dirEntry ppn).held ++ [tile] } := by
  rw [lookup_counted hon hframes hnew hidle ht (by simp [State.looksUp, hwrite]), if_pos hwrite]

theorem lookup_answered (hwrite : (s.dirEntry ppn).writePending = false) (hsealed : s.sealedPage ppn = true)
    (hpage : (s.page ppn).state = .allocated ∨ (s.page ppn).state = .trimPending) : s.lookup tile ppn = t.answerLookup ppn tile := by
  rw [lookup_counted hon hframes hnew hidle ht (by simpa [State.looksUp, hsealed] using Or.inr hpage), hwrite]
  rfl

end

/-- A page that may be cached makes the asking tile its holder. -/
theorem answerLookup_takes (hstate : (s.page ppn).state = .allocated) (hsealed : s.sealedPage ppn = true)
    (hfree : (s.dirEntry ppn).holder (tile / 48) = 255 ∨ (s.dirEntry ppn).holder (tile / 48) = (s.tile tile).logical) :
    s.answerLookup ppn tile =
      ((s.putDir ppn ((s.dirEntry ppn).setHolder (tile / 48) (s.tile tile).logical)).cacheSend .none tile ppn 0).updPart ((s.pageOwner ppn).getD 0)
        (fun p => { p with cacheMemory := bump 64 p.cacheMemory 1 }) := by
  have hcacheable : ((s.page ppn).state == .allocated && s.sealedPage ppn) = true := by simp [hstate, hsealed]
  unfold State.sealedPage at hcacheable
  unfold State.answerLookup
  dsimp only
  rw [if_pos hfree, if_pos hcacheable]

theorem answerLookup_memory (hstate : (s.page ppn).state = .trimPending)
    (hfree : (s.dirEntry ppn).holder (tile / 48) = 255 ∨ (s.dirEntry ppn).holder (tile / 48) = (s.tile tile).logical) :
    s.answerLookup ppn tile =
      (s.cacheSend .none tile ppn 0).updPart ((s.pageOwner ppn).getD 0) (fun p => { p with cacheMemory := bump 64 p.cacheMemory 1 }) := by
  unfold State.answerLookup
  dsimp only
  rw [if_pos hfree, hstate]
  rfl

theorem answerLookup_peer (hother : (s.dirEntry ppn).holder (tile / 48) ≠ 255) (hnotSelf : (s.dirEntry ppn).holder (tile / 48) ≠ (s.tile tile).logical) :
    s.answerLookup ppn tile =
      (s.cacheSend .holder tile ppn ((s.dirEntry ppn).holder (tile / 48))).updPart ((s.pageOwner ppn).getD 0)
        (fun p => { p with cachePeer := bump 64 p.cachePeer 1 }) := by
  unfold State.answerLookup
  exact if_neg (by simp [hother, hnotSelf])

/-! ## The answers -/

theorem holderAnswer_waits {m : CacheMsg} (hm : s.cacheMsg .holder tile ppn = some m) :
    s.holderAnswer tile ppn m.holder = (s.cacheTake m).updTile tile (fun y => { y with waits := y.waits.erase (.lookup ppn) ++ [.peer ppn m.holder] }) := by
  unfold State.holderAnswer
  rw [hm]
  exact if_neg (not_not.mpr rfl)

/-- Where the tile is the page's holder and has a frame free, the page takes it. -/
theorem takeFrame_free (hroom : (s.tile tile).frames.length < s.frameCount (tile / 48)) :
    s.takeFrame tile ppn = s.updTile tile (fun y => { y with frames := y.frames ++ [ppn] }) := if_pos hroom

section
variable {m : CacheMsg} (hm : s.cacheMsg .none tile ppn = some m) {t : State}
  (ht : t = (s.cacheTake m).updTile tile (fun y => { y with waits := y.waits.erase (.lookup ppn) }))
include hm ht

theorem noneAnswer_running {r : RunTask} (hrun : (t.flank (tile / 48)).run = some r) :
    s.noneAnswer tile ppn =
      (((if t.cacheable ppn && ((t.dirEntry ppn).holder (tile / 48) == (t.tile tile).logical) then t.takeFrame tile ppn else t).updTile tile
        (fun y => { y with waits := y.waits ++ [.memory ppn] })).owePage r.id ppn) := by
  subst ht
  unfold State.noneAnswer
  rw [hm]
  dsimp only
  rw [hrun]

theorem noneAnswer_stopped (hrun : (t.flank (tile / 48)).run = none) :
    s.noneAnswer tile ppn = if (t.dirEntry ppn).holder (tile / 48) == (t.tile tile).logical then t.cacheSend .evict tile ppn 0 else t := by
  subst ht
  unfold State.noneAnswer
  rw [hm]
  dsimp only
  rw [hrun]

end

section
variable {holder requester : Nat} (hholder : s.logicalTile holder = some tile)
include hholder

theorem peerRead_waits (hpending : (s.tile tile).waits.contains (.memory ppn) = true) : s.peerRead holder ppn requester = s := by
  unfold State.peerRead
  rw [hholder]
  exact if_pos (by rw [hpending, Bool.or_true])

theorem peerRead_brings (hwaits : (s.tile requester).waits.contains (.peer ppn holder) = true) (hflank : requester / 48 = tile / 48)
    (hready : (s.tile tile).waits.contains (.memory ppn) = false) :
    s.peerRead holder ppn requester =
      ((s.updTile requester (fun y => { y with waits := y.waits.erase (.peer ppn holder), fetched := y.fetched ++ [ppn] })).updTile tile
        (fun y => if y.frames.contains ppn then { y with frames := y.frames.erase ppn ++ [ppn] } else y)).finishDrop tile ppn := by
  unfold State.peerRead
  rw [hholder]
  exact if_neg (by rw [hwaits, hflank, hready, bne_self_eq_false]; decide)

end

section
variable {m : CacheMsg} (hm : s.cacheMsg .evict tile ppn = some m)
include hm

theorem evict_ignored (hnot : (s.dirEntry ppn).holder (tile / 48) ≠ (s.tile tile).logical ∨ (s.dirEntry ppn).holder (tile / 48) = 255) :
    s.evict tile ppn = s.cacheTake m := by
  unfold State.evict
  rw [hm]
  exact if_pos hnot

theorem evict_held (hmine : (s.dirEntry ppn).holder (tile / 48) = (s.tile tile).logical) (hheld : (s.dirEntry ppn).holder (tile / 48) ≠ 255) :
    s.evict tile ppn =
      if (s.dirEntry ppn).inv (tile / 48) then (s.cacheTake m).holderAnswered ppn (tile / 48) true
      else (s.cacheTake m).putDir ppn ((s.dirEntry ppn).setHolder (tile / 48) 255) := by
  unfold State.evict
  rw [hm]
  exact if_neg (not_or.mpr ⟨not_not.mpr hmine, hheld⟩)

end
end

/-- Settles O22: the lookup by what the directory says of the page, and each answer by the message it takes. -/
theorem pageCacheLookups : Obligations.PageCacheLookups := by
  intro s tile ppn
  refine ⟨?_, ?_, ?_, ?_, ?_⟩
  · intro t hon hframes hnew hidle ht
    have hpages : t.pages = s.pages := by rw [ht, updOwner_pages, State.updTile_pages]
    have hdir := dirEntry_of_pages hpages ppn
    have hpage := page_of_pages hpages ppn
    refine ⟨fun hwrite => becomes_of rfl (lookup_held hon hframes hnew hidle ht hwrite), ?_⟩
    rintro logical owner hwrite hsealed rfl rfl
    have hanswer := lookup_answered hon hframes hnew hidle ht hwrite hsealed
    refine ⟨fun hstate hfree => ?_, fun hstate hfree => ?_, fun hstate hother hnotSelf => ?_⟩
    · have htakes := answerLookup_takes (hpage ▸ hstate) (sealedPage_of_pages hpages ppn ▸ hsealed) (hdir ▸ hfree)
      exact becomes_of rfl ((hanswer (.inl hstate)).trans (hdir ▸ htakes))
    · exact becomes_of rfl ((hanswer (.inr hstate)).trans (answerLookup_memory (hpage ▸ hstate) (hdir ▸ hfree)))
    · have hpeer := answerLookup_peer (s := t) (hdir ▸ hother) (hdir ▸ hnotSelf)
      exact becomes_of rfl ((hanswer hstate).trans (hdir ▸ hpeer))
  · exact fun m hm => becomes_of rfl (holderAnswer_waits hm)
  · intro m t hm ht
    refine ⟨fun r hrun hcacheable hmine hroom => ?_, fun r hrun hnot => ?_, fun hrun hmine => ?_, fun hrun hother => ?_⟩
    · exact becomes_of rfl ((noneAnswer_running hm ht hrun).trans (by rw [hcacheable, beq_iff_eq.mpr hmine, ← takeFrame_free hroom]; rfl))
    · exact becomes_of rfl ((noneAnswer_running hm ht hrun).trans (by rw [hnot]; rfl))
    · exact becomes_of rfl ((noneAnswer_stopped hm ht hrun).trans (if_pos (beq_iff_eq.mpr hmine)))
    · exact becomes_of rfl ((noneAnswer_stopped hm ht hrun).trans (if_neg (by rwa [beq_iff_eq])))
  · intro holder requester hholder hwaits hflank
    exact ⟨fun hready => becomes_of rfl (peerRead_brings hholder hwaits hflank hready), fun hpending => becomes_of rfl (peerRead_waits hholder hpending)⟩
  · intro m hm
    refine ⟨fun hnot => becomes_of rfl (evict_ignored hm hnot), fun hmine hheld hinv => ?_, fun hmine hheld hinv => ?_⟩
    · exact becomes_of rfl ((evict_held hm hmine hheld).trans (if_pos hinv))
    · exact becomes_of rfl ((evict_held hm hmine hheld).trans (by rw [hinv]; rfl))

end Sys2Proof.Machine
end

section
/-!
PROOFS. Proofs/PageWork.lean: dropped pages, the sweeper and copies on write (R204 to R230).
-/
namespace Sys2Proof.Machine
open Sys2Proof.Safety

section
variable {s : State} {tile ppn : Nat}

/-! ## Dropping a page from a tile -/

theorem invalidateAt_taken {m : CacheMsg} (hm : s.cacheMsg .invalidate tile ppn = some m) :
    s.invalidateAt tile ppn =
      if ((s.cacheTake m).tile tile).frames.contains ppn then
        ((s.cacheTake m).updTile tile (fun y => { y with
          invalidating := if y.invalidating.contains ppn then y.invalidating else y.invalidating ++ [ppn] })).finishDrop tile ppn
      else (s.cacheTake m).cacheSend .notHeld tile ppn 0 := by
  unfold State.invalidateAt
  rw [hm]

theorem finishDrop_drops (hmarked : (s.tile tile).invalidating.contains ppn = true) (hread : s.rowReading tile ppn = false)
    (hwait : (s.tile tile).waits.contains (.memory ppn) = false) :
    s.finishDrop tile ppn =
      (s.updTile tile (fun y => { y with frames := y.frames.erase ppn, invalidating := y.invalidating.erase ppn })).cacheSend .dropped tile ppn 0 :=
  if_pos (by rw [hmarked, hread, hwait]; rfl)

theorem finishDrop_waits (hbusy : s.rowReading tile ppn = true ∨ (s.tile tile).waits.contains (.memory ppn) = true) : s.finishDrop tile ppn = s :=
  if_neg (by rcases hbusy with h | h <;> rw [h] <;> simp)

theorem droppedAnswer_taken {m : CacheMsg} (hm : s.cacheMsg .dropped tile ppn = some m) :
    s.droppedAnswer tile ppn =
      if (s.dirEntry ppn).inv (tile / 48) then (s.cacheTake m).holderAnswered ppn (tile / 48) false else s.cacheTake m := by
  unfold State.droppedAnswer
  rw [hm]
  rfl

theorem notHeldAnswer_taken {m : CacheMsg} (hm : s.cacheMsg .notHeld tile ppn = some m) :
    s.notHeldAnswer tile ppn =
      if (s.dirEntry ppn).inv (tile / 48) then (s.cacheTake m).holderAnswered ppn (tile / 48) true
      else (s.cacheTake m).updOwner ppn (fun p => { p with crossings := bump 64 p.crossings 1 }) := by
  unfold State.notHeldAnswer
  rw [hm]
  rfl

/-! ## The sweeper -/

section
variable {n : Nat} (howner : s.pageOwner ppn = some n)
include howner

theorem sweepStart_tagged (htag : s.pageTagged ppn = true) : s.sweepStart ppn = s := by
  unfold State.sweepStart
  rw [howner]
  exact if_pos (by rw [htag, Bool.or_true])

variable (hunswept : (s.page ppn).state = .freeUnswept)
include hunswept

theorem sweepStart_starts (hidle : (s.page ppn).sweeping = false) (htag : s.pageTagged ppn = false)
    (hsure : (s.page ppn).foreground = true ∨ (s.part n).lsw ≤ (s.part n).freeSwept) :
    s.sweepStart ppn =
      ((s.updPage ppn (fun x => { x with sweeping := true })).updChannel (channelOf (4096 * ppn)) (fun c =>
        { c with sweepSlots := bump 64 c.sweepSlots 16 })).updChannel (channelOf (s.summaryAddr n ppn)) (fun c =>
        { c with sweepSlots := bump 64 c.sweepSlots 1 }) := by
  have hstart : ((s.page ppn).state != .freeUnswept || (s.page ppn).sweeping || s.pageTagged ppn) = false := by rw [hunswept, hidle, htag]; rfl
  have hplain : ((s.page ppn).foreground || decide ((s.part n).lsw ≤ (s.part n).freeSwept)) = true := by simpa using hsure
  unfold State.sweepStart
  rw [howner]
  dsimp only
  rw [hstart, hplain]
  rfl

theorem sweepComplete_zeros (hsweep : (s.page ppn).sweeping = true) :
    s.sweepComplete ppn =
      ((((s.memZero (4096 * ppn) 4096).memZero (s.summaryAddr n ppn) 128).updPage ppn (fun r => { state := .freeSwept, reserved := r.reserved })).updPart n
        (fun p => { p with unswept := p.unswept - 1 })).endEpisodes n := by
  unfold State.sweepComplete
  rw [howner]
  exact if_neg (by rw [hunswept, hsweep]; decide)

end

/-! ## Copies -/

/-- The branch whose own entry an unshared copy becomes can still take it. -/
def State.takesCopy (s : State) : SeqOwner → Bool
  | .view b => (s.branch b).state == .attaching || (s.branch b).state == .active || (s.branch b).state == .stopped
  | .decoder b => (s.branch b).state == .attaching || (s.branch b).state == .active || (s.branch b).state == .stopped
  | _ => false

section
variable {c : Copy} (hc : s.pages.copies.find? (fun c => c.newPpn == ppn) = some c)
include hc

theorem copyDone_busy (hbusy : s.kindBusy (fun k => k == OpKind.copy ppn) = true) : s.copyDone ppn = s := by
  unfold State.copyDone
  rw [hc]
  exact if_pos hbusy

variable (hidle : s.kindBusy (fun k => k == OpKind.copy ppn) = false)
include hidle

theorem copyDone_shared (hshared : c.fresh = none) :
    s.copyDone ppn =
      if (s.endCopy c).pages.seqs.any c.names || (s.endCopy c).pages.staged.any c.names then
        (((s.endCopy c).renameEntry c).dropRef c.oldPpn false).updOwner ppn (fun p => { p with cowCopies := bump 64 p.cowCopies 1 })
      else (s.endCopy c).dropRef ppn false := by
  unfold State.copyDone
  rw [hc]
  dsimp only
  rw [hidle, hshared]
  rfl

theorem copyDone_private {e : PageEntry} (hprivate : c.fresh = some e) :
    s.copyDone ppn =
      if (s.endCopy c).takesCopy c.owner then
        (((s.endCopy c).updPage ppn (fun r => { r with time := ((s.endCopy c).page c.oldPpn).time })).giveEntry
          { owner := c.owner, idx := c.idx, part := ((s.endCopy c).pageOwner ppn).getD 0, entry := e } { e with ppn := ppn }).updOwner ppn
            (fun p => { p with cowCopies := bump 64 p.cowCopies 1 })
      else (s.endCopy c).dropRef ppn false := by
  unfold State.copyDone
  rw [hc]
  dsimp only
  rw [hidle, hprivate]
  rfl

end

theorem takesCopy_open {b : Nat} {o : SeqOwner} (ho : o = .view b ∨ o = .decoder b)
    (hopen : (s.branch b).state = .attaching ∨ (s.branch b).state = .active ∨ (s.branch b).state = .stopped) : s.takesCopy o = true := by
  rcases ho with rfl | rfl <;> rcases hopen with h | h | h <;> simp [State.takesCopy, h]

theorem takesCopy_gone {b : Nat} {o : SeqOwner} (ho : o = .view b ∨ o = .decoder b)
    (hgone : (s.branch b).state = .detaching ∨ (s.branch b).state = .absent) : s.takesCopy o = false := by
  rcases ho with rfl | rfl <;> rcases hgone with h | h <;> simp [State.takesCopy, h]

end

/-- Settles O23: each answer by the message it takes, the sweep by its page's state, the end of a copy by what is left of its sequence. -/
theorem invalidationsSweepsAndCopies : Obligations.InvalidationsSweepsAndCopies := by
  intro s tile ppn
  refine ⟨?_, ?_, ?_, ?_, ?_, ?_⟩
  · intro m hm
    exact ⟨fun hheld => becomes_of rfl ((invalidateAt_taken hm).trans (if_pos hheld)),
      fun hnot => becomes_of rfl ((invalidateAt_taken hm).trans (by rw [hnot]; rfl))⟩
  · exact ⟨finishDrop_drops, finishDrop_waits⟩
  · intro m hm
    exact ⟨fun hinv => becomes_of rfl ((droppedAnswer_taken hm).trans (if_pos hinv)),
      fun hinv => becomes_of rfl ((droppedAnswer_taken hm).trans (by rw [hinv]; rfl))⟩
  · intro m hm
    exact ⟨fun hinv => becomes_of rfl ((notHeldAnswer_taken hm).trans (if_pos hinv)),
      fun hinv => becomes_of rfl ((notHeldAnswer_taken hm).trans (by rw [hinv]; rfl))⟩
  · intro n howner hunswept
    exact ⟨fun hidle htag hsure => becomes_of rfl (sweepStart_starts howner hunswept hidle htag hsure),
      fun _ htag => becomes_of rfl (sweepStart_tagged howner htag),
      fun hsweep => becomes_of rfl (sweepComplete_zeros howner hunswept hsweep)⟩
  · rintro c t hc rfl
    refine ⟨fun hbusy => becomes_of rfl (copyDone_busy hc hbusy), fun hidle hshared => ⟨fun hnamed => ?_, fun hgone => ?_⟩,
      fun e b hidle hprivate howner => ⟨fun hopen => ?_, fun hgone => ?_⟩⟩
    · exact becomes_of rfl ((copyDone_shared hc hidle hshared).trans (if_pos hnamed))
    · exact becomes_of rfl ((copyDone_shared hc hidle hshared).trans (by rw [hgone]; rfl))
    · exact becomes_of rfl ((copyDone_private hc hidle hprivate).trans (if_pos (takesCopy_open howner hopen)))
    · exact becomes_of rfl ((copyDone_private hc hidle hprivate).trans (by rw [takesCopy_gone howner hgone]; rfl))

end Sys2Proof.Machine
end

section
/-!
PROOFS. Proofs/Hop.lean: one hop's receiver, replay and the failure of a link (R285 to R300, Table 8-6).
-/
namespace Sys2Proof.Machine
open Sys2Proof.Safety

section
variable {s : State} {t p : Nat}

theorem updLink_congr {key : Nat} {g h : Link → Link} (heq : g (s.link key) = h (s.link key)) : s.updLink key g = s.updLink key h := by
  unfold State.updLink
  rw [heq]

theorem hopReceive_down (hdown : (s.link (linkKey t p)).down = true) (w : HopWord) : s.hopReceive t p w = s := if_pos hdown

/-! ## A word received on an UP link -/

section
variable {w : HopWord} {u : State} (hup : (s.link (linkKey t p)).down = false) (hfwd : w.fwdParity = true)
  (hrev : w.revParity = true) (hu : u = s.updLink (linkKey t p) (fun l => { l.reverse w with invalid := 0 }))
include hup hfwd hrev hu

theorem hopReceive_empty (hnone : w.stitch = none) : s.hopReceive t p w = u := by
  subst hu
  unfold State.hopReceive
  dsimp only
  rw [hup, hnone, hfwd, hrev]
  rfl

variable (hinject : (s.link (farKey t p)).inject = 0) {st : Stitch} (hst : w.stitch = some st)
include hinject hst

/-- A valid word with a stitch acts by its byte errors and its hop sequence. -/
theorem hopReceive_stitch :
    s.hopReceive t p w =
      if 4 < w.byteErrors then u.updLink (linkKey t p) (fun m => { m with uncorrectable := bump 32 m.uncorrectable 1, nakSent := true })
      else
        let v := if w.byteErrors = 0 then u else u.updLink (linkKey t p) (fun m => { m with corrections := bump 64 m.corrections 1 })
        if w.hopSeq = (u.link (linkKey t p)).expected then
          let v := v.updLink (linkKey t p) (fun m => { m with expected := bump 8 m.expected 1, nakSent := false }.freed st.cls)
          if st.multicast then v else v.forward t w.detours st
        else if ((u.link (linkKey t p)).expected + 255 - w.hopSeq) % 256 < 16 then
          v.updLink (linkKey t p) (fun m => { m with hopDuplicates := bump 32 m.hopDuplicates 1 })
        else v.updLink (linkKey t p) (fun m => { m with nakSent := true }) := by
  subst hu
  unfold State.hopReceive
  dsimp only
  rw [hup, hst, hfwd, hrev, Option.isSome_some, if_pos rfl, hinject]
  simp only [Bool.true_eq_false, false_or]
  rfl

theorem hopReceive_uncorrectable (hmany : 4 < w.byteErrors) :
    s.hopReceive t p w = u.updLink (linkKey t p) (fun m => { m with uncorrectable := bump 32 m.uncorrectable 1, nakSent := true }) :=
  (hopReceive_stitch hup hfwd hrev hu hinject hst).trans (if_pos hmany)

section
variable {v : State} (hv : v = (if w.byteErrors = 0 then u else u.updLink (linkKey t p) (fun m => { m with corrections := bump 64 m.corrections 1 })))
  (hfew : w.byteErrors ≤ 4)
include hv hfew

theorem hopReceive_next (hnext : w.hopSeq = (u.link (linkKey t p)).expected) (hplain : st.multicast = false) :
    s.hopReceive t p w =
      (v.updLink (linkKey t p) (fun m => { m with expected := bump 8 m.expected 1, nakSent := false }.freed st.cls)).forward t w.detours st := by
  rw [hopReceive_stitch hup hfwd hrev hu hinject hst, if_neg hfew.not_gt, ← hv]
  dsimp only
  rw [if_pos hnext, hplain]
  rfl

theorem hopReceive_duplicate (hother : w.hopSeq ≠ (u.link (linkKey t p)).expected)
    (hold : ((u.link (linkKey t p)).expected + 255 - w.hopSeq) % 256 < 16) :
    s.hopReceive t p w = v.updLink (linkKey t p) (fun m => { m with hopDuplicates := bump 32 m.hopDuplicates 1 }) := by
  rw [hopReceive_stitch hup hfwd hrev hu hinject hst, if_neg hfew.not_gt, ← hv]
  dsimp only
  rw [if_neg hother, if_pos hold]

theorem hopReceive_nak (hother : w.hopSeq ≠ (u.link (linkKey t p)).expected)
    (hnew : 16 ≤ ((u.link (linkKey t p)).expected + 255 - w.hopSeq) % 256) :
    s.hopReceive t p w = v.updLink (linkKey t p) (fun m => { m with nakSent := true }) := by
  rw [hopReceive_stitch hup hfwd hrev hu hinject hst, if_neg hfew.not_gt, ← hv]
  dsimp only
  rw [if_neg hother, if_neg hnew.not_gt]

end
end

/-! ## Replay and failure -/

theorem hopAckTimeout_replays (hup : (s.link (linkKey t p)).down = false) (hheld : (s.link (linkKey t p)).replay ≠ []) :
    s.hopAckTimeout t p = s.updLink (linkKey t p) (fun l => { l with replays := l.replays + 1, retries := bump 32 l.retries 1 }) :=
  updLink_congr (if_neg (by rw [hup, Bool.false_or, List.isEmpty_iff]; exact hheld))

end

/-- Settles O24: the receiver by what the word holds, and the limits of replays and of invalid words. -/
theorem hopRowsAct : Obligations.HopRowsAct := by
  intro s t p
  refine ⟨?_, ?_, ?_, ?_, ?_, ?_, ?_, ?_, ?_⟩
  · exact fun w hdown => becomes_of rfl (hopReceive_down hdown w)
  · intro w u hup hinject hfwd hrev hu
    refine ⟨fun hnone => becomes_of rfl (hopReceive_empty hup hfwd hrev hu hnone), fun st hst => ⟨fun hmany => ?_, fun v hv hfew => ⟨?_, ?_, ?_⟩⟩⟩
    · exact becomes_of rfl (hopReceive_uncorrectable hup hfwd hrev hu hinject hst hmany)
    · exact fun hnext hplain => becomes_of rfl (hopReceive_next hup hfwd hrev hu hinject hst hv hfew hnext hplain)
    · exact fun hother hold => becomes_of rfl (hopReceive_duplicate hup hfwd hrev hu hinject hst hv hfew hother hold)
    · exact fun hother hnew => becomes_of rfl (hopReceive_nak hup hfwd hrev hu hinject hst hv hfew hother hnew)
  · exact fun ack => becomes_of rfl rfl
  · exact fun hup hheld => becomes_of rfl (hopAckTimeout_replays hup hheld)
  · exact fun hfew => becomes_of rfl (if_neg hfew.not_ge)
  · exact fun hmany => becomes_of rfl (if_pos hmany)
  · exact fun hfew => becomes_of rfl (if_neg hfew.not_ge)
  · exact fun hmany => becomes_of rfl (if_pos hmany)
  · exact fun hdown => if_pos hdown

end Sys2Proof.Machine
end

section
/-!
PROOFS. Proofs/Credits.lean: credits, probes, notices, multicasts (R301 to R312) and the handing over of contexts (R303).
-/
namespace Sys2Proof.Machine
open Sys2Proof.Safety

section
variable {s : State} {src dst value : Nat}

/-! ## CREDIT -/

theorem creditArrives_beyond (hopen : (s.window src dst).isOpen = true)
    (hfar : ((s.window src dst).seq + 4096 - (s.window src dst).acked) % 4096 < (value + 4096 - (s.window src dst).acked) % 4096) :
    s.creditArrives src dst value = s := if_pos ⟨hopen, hfar⟩

theorem creditArrives_moves (hsteady : (s.window src dst).probeFrom = none) (hopen : (s.window src dst).isOpen = true)
    (hsent : (value + 4096 - (s.window src dst).acked) % 4096 ≤ ((s.window src dst).seq + 4096 - (s.window src dst).acked) % 4096) :
    s.creditArrives src dst value =
      s.updWindow src dst (fun _ => { s.window src dst with
        acked := value,
        unacked := (s.window src dst).unacked.filter
          (fun u => decide ((value + 4096 - (s.window src dst).acked) % 4096 ≤ (u.1 + 4096 - (s.window src dst).acked) % 4096)),
        probeFrom := none,
        since := if (value + 4096 - (s.window src dst).acked) % 4096 = 0 then (s.window src dst).since else s.dt }) := by
  unfold State.creditArrives
  dsimp only
  rw [if_neg (fun h => hsent.not_gt h.2), hopen, hsteady, ite_self]
  rfl

theorem creditArrives_opens (hsteady : (s.window src dst).probeFrom = none) (hclosed : (s.window src dst).isOpen = false) :
    s.creditArrives src dst value =
      (s.updNetif src (fun n => match (s.window src dst).openFrom with
        | some d => { n with openWaits := bump 64 n.openWaits (fclk (s.dt - d)) }
        | none => n)).updWindow src dst (fun _ => { s.window src dst with isOpen := true, opening := false, acked := value, openFrom := none }) := by
  unfold State.creditArrives
  dsimp only
  rw [hclosed, hsteady]
  rfl

/-! ## CREDIT_TIMER and PROBE -/

section
variable {c : Context} (hc : (s.netif dst).contexts.find? (fun c => c.holder == src) = some c)
include hc

theorem creditTimer_idle (hsame : c.expected = c.credited) : s.creditTimer src dst = s := by
  unfold State.creditTimer
  rw [hc]
  exact if_pos hsame

theorem creditTimer_owed (hmoved : c.expected ≠ c.credited) : s.creditTimer src dst = s.credit src dst := by
  unfold State.creditTimer
  rw [hc]
  exact if_neg hmoved

theorem credit_sends :
    s.credit src dst =
      (s.updNetif dst (fun n => { n with contexts := n.contexts.map (fun (x : Context) => if x.holder == src then { x with credited := x.expected } else x) })).sendCtl
        1 dst src c.expected := by
  unfold State.credit
  rw [hc]

end

/-! ## Notices and multicast stitches -/

theorem noticeReceived_stray {st : Stitch} (hlive : s.endpointRetired dst = false) (hnone : (s.netif dst).contexts.find? (fun c => c.holder == st.source) = none) :
    s.noticeReceived dst st = s.updNetif dst (fun n => { n with protocolErrors := bump 32 n.protocolErrors 1 }) := by
  unfold State.noticeReceived State.arriveAt
  rw [hlive, hnone]
  rfl

section
variable {st : Stitch} {t : Nat} {u : State}
  (hu : u = (if onSpan st.tag t && ((s.tile t).state == .enabled || (s.tile t).state == .loading)
        then s.updNetif (s.tile t).logical (fun n => { n with delivered := n.delivered ++ [st] }) else s))
include hu

theorem multicastAt_last (hlast : spanNext st.tag t = none) : s.multicastAt t st = u.sendCtl 1 1023 st.source ((st.seq + 1) % 4096) := by
  subst hu
  unfold State.multicastAt
  rw [hlast]

theorem multicastAt_passes {p : Nat} (hnext : spanNext st.tag t = some p) (hup : (u.link (linkKey t p)).down = false) :
    s.multicastAt t st = u.enqueue (linkKey t p) 0 st := by
  subst hu
  unfold State.multicastAt
  rw [hnext]
  exact if_neg (by rw [hup]; exact Bool.false_ne_true)

end
end

/-- Settles O26: each row by the state of the window, of the context or of the link it meets. -/
theorem creditRowsAct : Obligations.CreditRowsAct := by
  intro s src dst value
  refine ⟨?_, becomes_of rfl rfl, ?_, ?_, ?_⟩
  · rintro w rfl hsteady
    exact ⟨fun hopen hfar => becomes_of rfl (creditArrives_beyond hopen hfar), fun hopen hsent => becomes_of rfl (creditArrives_moves hsteady hopen hsent),
      fun hclosed => becomes_of rfl (creditArrives_opens hsteady hclosed)⟩
  · intro c hc
    exact ⟨fun hsame => becomes_of rfl (creditTimer_idle hc hsame), fun hmoved => becomes_of rfl (creditTimer_owed hc hmoved),
      becomes_of rfl (credit_sends hc)⟩
  · exact fun st hlive hnone => becomes_of rfl (noticeReceived_stray hlive hnone)
  · intro st u t hu
    exact ⟨fun hlast => becomes_of rfl (multicastAt_last hu hlast), fun p hnext hup => becomes_of rfl (multicastAt_passes hu hnext hup)⟩

/-! ## Contexts -/

section
variable {s : State} {src dst : Nat}

theorem openAt_known (hknown : (s.netif dst).contexts.any (fun c => c.holder == src) = true) (q : Nat) : s.openAt src dst q = s.credit src dst :=
  if_pos hknown

section
variable (hnew : (s.netif dst).contexts.any (fun c => c.holder == src) = false)
include hnew

theorem openAt_binds (hroom : (s.netif dst).contexts.length < contextLimit dst) (q : Nat) : s.openAt src dst q = s.bindContext src dst q :=
  (if_neg (by rw [hnew]; exact Bool.false_ne_true)).trans (if_pos hroom)

theorem openAt_waits (hfull : contextLimit dst ≤ (s.netif dst).contexts.length) (q : Nat) :
    s.openAt src dst q =
      (if (s.netif dst).waiting.any (fun w => w.1 == src) then s else s.updNetif dst (fun x => { x with waiting := x.waiting ++ [(src, q)] })).reclaimAt dst :=
  (if_neg (by rw [hnew]; exact Bool.false_ne_true)).trans (if_neg hfull.not_gt)

end

theorem closeReceived_done (hnone : (s.window src dst).unacked = []) :
    s.closeReceived src dst = (s.updWindow src dst (fun x => { x with isOpen := false, opening := false, closing := false })).sendCtl 5 src dst 0 :=
  if_pos (List.isEmpty_iff.mpr hnone)

theorem closeReceived_marks (hsome : (s.window src dst).unacked ≠ []) :
    s.closeReceived src dst = s.updWindow src dst (fun x => { x with closing := true }) :=
  if_neg (by rwa [List.isEmpty_iff])

theorem closeAckReceived_idle (hnone : (s.netif dst).contexts.any (fun c => c.holder == src && c.closing) = false) : s.closeAckReceived src dst = s :=
  if_neg (by rw [hnone]; exact Bool.false_ne_true)

theorem probeTimer_idle (hidle : (s.window src dst).unacked = [] ∨ 200 * (s.dt - (s.window src dst).since) < 3 * 2048) : s.probeTimer src dst = s :=
  if_pos (by simpa using hidle)

theorem probeTimer_due (hsome : (s.window src dst).unacked ≠ []) (hdue : 3 * 2048 ≤ 200 * (s.dt - (s.window src dst).since)) :
    s.probeTimer src dst =
      ((s.updWindow src dst (fun w => { w with probeFrom := some (w.probeFrom.getD s.dt), since := s.dt })).updNetif src
        (fun n => { n with probes := bump 32 n.probes 1 })).sendCtl 2 src dst 0 :=
  if_neg (by simpa using And.intro hsome hdue)

section
variable {t : Nat} (ht : (s.window src dst).probeFrom = some t)
include ht

theorem probeGiveUp_early (hearly : 200 * (s.dt - t) < 3 * 8192) : s.probeGiveUp src dst = s := by
  unfold State.probeGiveUp
  rw [ht]
  exact if_neg hearly.not_ge

theorem probeGiveUp_due (hdue : 3 * 8192 ≤ 200 * (s.dt - t)) : s.probeGiveUp src dst = s.giveUp src dst := by
  unfold State.probeGiveUp
  rw [ht]
  exact if_pos hdue

end

theorem unreachableReceived_counts {q : Nat} (hgone : (s.window src dst).unacked.any (fun u => u.1 == q) = false) :
    s.unreachableReceived src dst q = s.updNetif src (fun n => { n with unreachable := bump 32 n.unreachable 1 }) :=
  if_neg (by rw [hgone]; exact Bool.false_ne_true)

end

/-- Settles O27: each row by whether the context, the window or the unacknowledged stitch is there, and by its time limit. -/
theorem contextRowsAct : Obligations.ContextRowsAct := by
  intro s src dst
  refine ⟨?_, ?_, ?_, ?_, ?_, ?_, ?_, ?_, ?_, ?_, ?_, ?_, ?_, ?_⟩
  · exact fun hknown => becomes_of rfl (openAt_known hknown _)
  · exact fun hnew hroom => becomes_of rfl (openAt_binds hnew hroom _)
  · exact fun hnew hfull => becomes_of rfl (openAt_waits hnew hfull _)
  · exact fun hnone => becomes_of rfl (closeReceived_done hnone)
  · exact fun hsome => becomes_of rfl (closeReceived_marks hsome)
  · exact fun hclosing => becomes_of rfl (if_pos hclosing)
  · exact fun hnone => becomes_of rfl (closeAckReceived_idle hnone)
  · exact fun hidle => becomes_of rfl (probeTimer_idle hidle)
  · exact fun hsome hdue => becomes_of rfl (probeTimer_due hsome hdue)
  · exact fun t ht hearly => becomes_of rfl (probeGiveUp_early ht hearly)
  · exact fun t ht hdue => becomes_of rfl (probeGiveUp_due ht hdue)
  · exact fun q hheld => becomes_of rfl (if_pos hheld)
  · exact fun q hgone => becomes_of rfl (unreachableReceived_counts hgone)
  · rintro ops u rfl rfl
    rfl

end Sys2Proof.Machine
end

section
/-!
PROOFS. Proofs/Boundaries.lean: what takes effect at a boundary: inputs, outputs, port enables, loopbacks, and a port's frame (R349 to R368).
-/
namespace Sys2Proof.Machine
open Sys2Proof.Safety

section
variable {s : State} {i b t : Nat}

/-! ## Switched inputs and outputs -/

section
variable {src : Source} (hsrc : (s.stream i).nextSource = some src)
include hsrc

theorem inputSwitch_early (hearly : s.dt < (s.stream i).switchDt) : s.inputSwitch i = s := by
  unfold State.inputSwitch
  dsimp only
  rw [hsrc]
  exact if_pos (.inl hearly)

theorem inputSwitch_due (hdue : (s.stream i).switchDt ≤ s.dt) (hopen : (s.stream i).state ≠ .closed) (hstays : (s.stream i).state ≠ .bindingOff) :
    s.inputSwitch i =
      (((s.unmapIn i).updStream i (fun y => { y with
        source := src.from y.frames, nextSource := none, gain := y.nextGain, theta := y.nextTheta, lmin := y.nextLmin, hangLen := y.nextHang, fetched := [], arriving := [],
        fetchNext := y.frames, handed := max y.handed y.frames,
        ingress := { y.ingress with hist := [], oldHist := if s.sourceRate (s.stream i).source = 48 then (s.stream i).ingress.hist else [], fresh := true,
                                    dcX := 0, dcY := 0, preX := 0, raw := [], frameGap := false, realFrom := 0 } })).mapIn
          i src).completeKey (s.stream i).part 0x0507 i {} := by
  unfold State.inputSwitch
  dsimp only
  rw [hsrc]
  exact if_neg (by simp [hdue.not_gt, hopen, hstays])

end

section
variable {o : Nat × List (Nat × Nat) × Option HostRing} (ho : (s.branch b).nextOut = some o)
include ho

theorem outputSwitch_early (hearly : s.dt < (s.branch b).switchDt) : s.outputSwitch b = s := by
  unfold State.outputSwitch
  dsimp only
  rw [ho]
  exact if_pos (.inl hearly)

theorem outputSwitch_due (hdue : (s.branch b).switchDt ≤ s.dt) (hopen : (s.branch b).state = .active ∨ (s.branch b).state = .stopped) :
    s.outputSwitch b = (s.setOutputs b o.1 o.2.1 o.2.2 (s.branch b).nextGain).completeKey (s.branch b).part 0x0514 b {} := by
  have hacts : ¬ (s.dt < (s.branch b).switchDt ∨ (s.branch b).state ≠ .active ∧ (s.branch b).state ≠ .stopped) := by
    rintro (h | ⟨ha, hs⟩)
    · exact hdue.not_gt h
    · exact hopen.elim ha hs
  unfold State.outputSwitch
  dsimp only
  rw [ho]
  exact if_neg hacts

end

/-! ## Port enables and loopbacks -/

section
variable {when0 : Nat} {on : Bool} (hat : (s.tdm t).enableAt = some (when0, on))
include hat

theorem enableEffect_early (hearly : s.dt < when0) : s.enableEffect t = s := by
  unfold State.enableEffect
  rw [hat]
  exact if_pos hearly

theorem enableEffect_due (hdue : when0 ≤ s.dt) {u : State}
    (hu : u = (s.countIdle t).updTdm t (fun p => { p with enableAt := none, prevValid := false, prevWord := 0, validRun := 0, invalidRun := 0 })) :
    s.enableEffect t =
      (if on then (if (s.tdm t).cfg.sentInEn then (u.updTdm t (fun p => { p with state := .acquiring })).gapInputs t else u.tdmRuns t)
        else (s.mappedOut t).foldl (fun (w : State) m => w.updOut (slotKey t m.1) (fun o => { o with held := [], lag := 0, idleFrom := s.dt }))
          (u.updTdm t (fun p => { p with state := .disabled, dout := [] }))).completeKey ((s.tdmOwner t).getD 0) 0x0602 t { result := when0 } := by
  subst hu
  unfold State.enableEffect
  rw [hat]
  exact if_neg hdue.not_gt

end

section
variable {when0 : Nat} {on : Bool} (hat : (s.tdm t).loopAt = some (when0, on))
include hat

theorem loopEffect_early (hearly : s.dt < when0) : s.loopEffect t = s := by
  unfold State.loopEffect
  rw [hat]
  exact if_pos hearly

theorem loopEffect_due (hdue : when0 ≤ s.dt) :
    s.loopEffect t = (s.updTdm t (fun p => { p with loopAt := none, loopback := on })).completeKey ((s.tdmOwner t).getD 0) 0x0803 t { result := when0 } := by
  unfold State.loopEffect
  rw [hat]
  exact if_neg hdue.not_gt

end

/-! ## A frame of a port -/

theorem tdmFrame_disabled (hoff : (s.tdm t).state = .disabled) (words : List Nat) : s.tdmFrame t words = s := if_pos (.inr hoff)

theorem tdmFrame_plays (ht : t < 16) (hon : (s.tdm t).state ≠ .disabled) {start : Nat}
    (hstart : start = (s.dt - 1) / (s.tdm t).cfg.period * (s.tdm t).cfg.period) {u : State} (hu : u = s.playPort t start) {words din : List Nat}
    (hdin : din = if (s.tdm t).loopback then (u.tdm t).dout.map (fun w => w.getD 0) else words) :
    s.tdmFrame t words = (u.takeInputs t start din).sentinel t (din.getD (s.tdm t).cfg.sentIn 0) := by
  subst hdin hu hstart
  exact if_neg (not_or.mpr ⟨ht.not_ge, hon⟩)

end

/-- Settles O29: each effect before and at its boundary, and a port's frame by its state and its loopback. -/
theorem boundaryEffectsAct : Obligations.BoundaryEffectsAct := by
  intro s t
  refine ⟨?_, ?_, ?_, ?_, ?_, ?_⟩
  · rintro i src x rfl hsrc
    exact ⟨fun hearly => becomes_of rfl (inputSwitch_early hsrc hearly), fun hdue hopen hstays => becomes_of rfl (inputSwitch_due hsrc hdue hopen hstays)⟩
  · rintro b x o rfl ho
    exact ⟨fun hearly => becomes_of rfl (outputSwitch_early ho hearly), fun hdue hopen => becomes_of rfl (outputSwitch_due ho hdue hopen)⟩
  · intro when0 on u hat hu
    refine ⟨fun hearly => becomes_of rfl (enableEffect_early hat hearly), fun hdue hon hplain => ?_, fun hdue hon hsent => ?_, fun hdue hoff => ?_⟩
    · exact becomes_of rfl ((enableEffect_due hat hdue hu).trans (by rw [hon, hplain]; rfl))
    · exact becomes_of rfl ((enableEffect_due hat hdue hu).trans (by rw [hon, hsent]; rfl))
    · exact becomes_of rfl ((enableEffect_due hat hdue hu).trans (by rw [hoff]; rfl))
  · intro when0 on hat
    exact ⟨fun hearly => becomes_of rfl (loopEffect_early hat hearly), fun hdue => becomes_of rfl (loopEffect_due hat hdue)⟩
  · exact fun words hoff => becomes_of rfl (tdmFrame_disabled hoff words)
  · intro words start u ht hon hstart hu
    refine ⟨fun hplain => ?_, fun hloop din hdin => ?_⟩
    · exact becomes_of rfl (tdmFrame_plays ht hon hstart hu (by rw [hplain]; rfl))
    · exact becomes_of rfl (tdmFrame_plays ht hon hstart hu (hdin.trans (by rw [hloop]; rfl)))

end Sys2Proof.Machine
end

section
/-!
PROOFS. Proofs/Tasks.lean: items, tasks, their end and their watchdog (R96 to R110, Table 17-2).
-/
namespace Sys2Proof.Machine
open Sys2Proof.Safety

section
variable {s : State}

/-! ## Items -/

section
variable {st : Stage} {obj n rows attended : Nat}

theorem admitItem_known
    (hknown : ((s.flank (s.flankOf st obj)).items.any (fun y => y.stage == st && y.obj == obj && y.row == n) || s.running st obj n) = true) :
    s.admitItem st obj n rows attended = s := by
  unfold State.admitItem
  exact if_pos (by rw [hknown]; simp only [Bool.true_or])

theorem admitItem_refused
    (hnot : attended ≠ s.attendedOf st obj ∨ s.rowWanted st obj n = false ∨ s.inputReady st obj n = false ∨ s.dt < s.eligibleAt st obj n) :
    s.admitItem st obj n rows attended = s := by
  unfold State.admitItem
  exact if_pos (by rcases hnot with h | h | h | h <;> simp [h])

theorem admitItem_adds
    (hnew : ((s.flank (s.flankOf st obj)).items.any (fun y => y.stage == st && y.obj == obj && y.row == n) || s.running st obj n) = false)
    (hattended : attended = s.attendedOf st obj) (hwanted : s.rowWanted st obj n = true) (hready : s.inputReady st obj n = true)
    (htime : s.eligibleAt st obj n ≤ s.dt) (hpresent : ((s.pipeOfStream (s.objStream st obj)).stage st).present = true) :
    s.admitItem st obj n rows attended =
      (s.updFlank (s.flankOf st obj) (fun x => { x with items := x.items ++
        [{ stage := st, obj := obj, content := s.contentOf st obj, part := (s.stream (s.objStream st obj)).part, row := n, rows := rows,
           bucket := bucketOf attended, attended := attended }] })).dispatch (s.flankOf st obj) := by
  subst hattended
  unfold State.admitItem
  exact if_neg (by rw [hnew]; simp [hwanted, hready, htime, hpresent])

end

section
variable {f : Nat}

/-! ## Dispatch and work -/

section
variable {t : Nat} (ht : (s.flank f).timer = some t)
include ht

theorem timerExpires_early (hearly : s.dt < t) : s.timerExpires f = s := by
  unfold State.timerExpires
  rw [ht]
  exact if_pos hearly

theorem timerExpires_due (hdue : t ≤ s.dt) : s.timerExpires f = (s.updFlank f (fun x => { x with timer := none })).dispatch f := by
  unfold State.timerExpires
  rw [ht]
  exact if_neg hdue.not_gt

end

theorem taskAt_off {t : Nat} (hoff : (s.tile t).state ≠ .enabled) (work : List TileOp) : s.taskAt t work = s := if_neg (fun h => hoff h.2)

/-! ## The end of a task -/

theorem roundAdvance_none (hrun : (s.flank f).run = none) : s.roundAdvance f = s := by
  unfold State.roundAdvance
  rw [hrun]

theorem taskEnd_none (hrun : (s.flank f).run = none) (res : TaskResult) : s.taskEnd f res = s := by
  unfold State.taskEnd
  dsimp only
  rw [roundAdvance_none hrun, hrun]

section
variable {z : State} {r : RunTask} (hz : z = s.roundAdvance f) (hrun : (z.flank f).run = some r)
include hz hrun

theorem taskEnd_unfinished (hwork : z.taskComplete f r = false) (res : TaskResult) : s.taskEnd f res = z := by
  unfold State.taskEnd
  rw [← hz]
  dsimp only
  rw [hrun]
  exact if_pos (by rw [hwork]; rfl)

theorem taskEnd_ends (hdone : z.taskComplete f r = true) {res : TaskResult} {y t u v : State} {took : Nat} (hy : y = (flankTiles f).foldl State.tileStops z)
    (htook : took = y.dt - r.start)
    (ht : t = (y.leaveTask f r).updFlank f (fun x => { x with expiries := 0, resetDone := false, paceEnd := y.dt + ceilDiv (took * y.power.pace) 8 }))
    (hu : u = t.updBinding f r.content (fun b =>
      { b with measured := { rows := (r.items.map (·.rows)).foldl (· + ·) 0, ticks := took, divisor := y.power.divisor, stop := y.dt } :: y.recentTasks b }))
    (hv : v = (r.items.foldl (fun (w : State) it => w.itemEnd r res.items it) u).endOps (fun o => o.id == r.id)) :
    s.taskEnd f res = ((r.items.map (fun it => y.objStream it.stage it.obj)).eraseDups.foldl (fun (w : State) i => w.advance i) v).dispatchAll := by
  unfold State.taskEnd
  rw [← hz]
  dsimp only
  rw [hrun]
  refine (if_neg (by rw [hdone]; decide)).trans ?_
  rw [hv, hu, ht, htook, hy]

end

/-! ## The watchdog -/

section
variable {r : RunTask} (hrun : (s.flank f).run = some r) (hfree : s.watchStops r = [])
include hrun hfree

/-- With no stop to take off, the watchdog acts by the batch period and the expiries before. -/
theorem taskWatchdog_running :
    s.taskWatchdog f =
      if s.dt < r.start + r.period + r.paused then s
      else
        let n := (s.flank f).expiries + 1
        let t := (s.updFlank f (fun x => { x with expiries := n })).abortOpAs r.id
          { kind := 0x10, endpoint := 288, detail := pack [(8, stageCode r.stage), (4, f), (4, n)] } 4
        if 3 ≤ n ∧ (t.flank f).resetDone = true then t.fatalFault 4 0
        else if n = 2 then
          (((t.flankReset f).journalWrite { JEntry.blank 0x24 with endpoint := 288, recovery := Recovery.flankReset.code, detail := f }).updFlank f
            (fun x => { x with resetDone := true })).dispatchAll
        else t.dispatchAll := by
  have hheld : s.watchHeld r = 0 := by
    unfold State.watchHeld
    rw [hfree]
  unfold State.taskWatchdog
  rw [hrun]
  dsimp only
  rw [hheld, Nat.add_zero]

theorem taskWatchdog_early (hearly : s.dt < r.start + r.period + r.paused) : s.taskWatchdog f = s :=
  (taskWatchdog_running hrun hfree).trans (if_pos hearly)

variable (hdue : r.start + r.period + r.paused ≤ s.dt)
include hdue

theorem taskWatchdog_aborts (hfirst : (s.flank f).expiries = 0) :
    s.taskWatchdog f =
      ((s.updFlank f (fun x => { x with expiries := 1 })).abortOpAs r.id
        { kind := 0x10, endpoint := 288, detail := pack [(8, stageCode r.stage), (4, f), (4, 1)] } 4).dispatchAll := by
  rw [taskWatchdog_running hrun hfree, if_neg hdue.not_gt, hfirst]
  exact (if_neg (by omega)).trans (if_neg (by omega))

theorem taskWatchdog_resets (hsecond : (s.flank f).expiries = 1) {t : State}
    (ht : t = (s.updFlank f (fun x => { x with expiries := 2 })).abortOpAs r.id
      { kind := 0x10, endpoint := 288, detail := pack [(8, stageCode r.stage), (4, f), (4, 2)] } 4) :
    s.taskWatchdog f =
      (((t.flankReset f).journalWrite { JEntry.blank 0x24 with endpoint := 288, recovery := Recovery.flankReset.code, detail := f }).updFlank f
        (fun x => { x with resetDone := true })).dispatchAll := by
  subst ht
  rw [taskWatchdog_running hrun hfree, if_neg hdue.not_gt, hsecond]
  exact (if_neg (by omega)).trans (if_pos rfl)

end
end
end

/-- Settles O30: the item's tests, the timers, and the task's end and watchdog by what is still incomplete and by the time. -/
theorem taskRowsAct : Obligations.TaskRowsAct := by
  intro s f
  refine ⟨?_, ?_, ?_, ?_, ?_, ?_, ?_, ?_⟩
  · rintro st obj n rows attended known rfl rfl
    exact ⟨fun hknown => becomes_of rfl (admitItem_known hknown), fun hnot => becomes_of rfl (admitItem_refused hnot),
      fun hnew hattended hwanted hready htime hpresent => becomes_of rfl (admitItem_adds hnew hattended hwanted hready htime hpresent)⟩
  · exact fun t ht => ⟨fun hearly => becomes_of rfl (timerExpires_early ht hearly), fun hdue => becomes_of rfl (timerExpires_due ht hdue)⟩
  · exact fun t work hoff => becomes_of rfl (taskAt_off hoff work)
  · exact fun t work ht hon => becomes_of rfl (if_pos ⟨ht, hon⟩)
  · exact fun hrun res => becomes_of rfl (taskEnd_none hrun res)
  · intro res z r hz hrun
    exact ⟨fun hwork => becomes_of rfl (taskEnd_unfinished hz hrun hwork res),
      fun y t u v took hdone hy htook ht hu hv => becomes_of rfl (taskEnd_ends hz hrun hdone hy htook ht hu hv)⟩
  · exact fun r => rfl
  · intro r t hrun hfree
    refine ⟨fun hearly => becomes_of rfl (taskWatchdog_early hrun hfree hearly), fun hdue hfirst ht => ?_, fun hdue hsecond ht => ?_⟩
    · exact becomes_of rfl ((taskWatchdog_aborts hrun hfree hdue hfirst).trans (congrArg State.dispatchAll ht.symm))
    · exact becomes_of rfl (taskWatchdog_resets hrun hfree hdue hsecond ht)

end Sys2Proof.Machine
end

section
/-!
PROOFS. Proofs/Repairs.lean: block products with their residue check, repairs and re-layouts (R91, R111 to R121, R318).
-/
namespace Sys2Proof.Machine
open Sys2Proof.Safety

section
variable {s : State} {f t : Nat}

/-! ## A block product -/

section
variable {fmt : NumFormat} {begins : Bool} {x w first again : List (List Int)}

theorem blockStep_idle (hidle : s.productTask t = none) : s.blockStep t fmt begins x w first again = s := by
  unfold State.blockStep
  dsimp only
  rw [hidle]

section
variable {task : Option Nat} {add : State → List (List Int) → State} {u : State} (htask : s.productTask t = some task)
  (hadd : add = fun (v : State) (y : List (List Int)) => (task.map (fun id => v.addProduct t id fmt begins y)).getD v)
  (hu : u = s.updTile t (fun k => { k with residue := .none }))
include htask hadd hu

/-- A block that is computed passes by its first or its second residue, which an armed error spoils, or retires the tile. -/
theorem blockStep_computed :
    s.blockStep t fmt begins x w first again =
      if residueOk x w first && (s.tile t).residue == .none then add s first
      else if residueOk x w again && (s.tile t).residue != .twice then
        add ((if (s.tile t).residue = .once then u.journalWrite { JEntry.blank 0x30 with
          coord := coordByte t, endpoint := holderId (s.tile t).logical, injected := true, detail := 1 } else u).updTile t
            (fun k => { k with residueReruns := bump 64 k.residueReruns 1 })) again
      else u.retire t ((s.tile t).residue == .twice) := by
  subst hadd hu
  unfold State.blockStep
  dsimp only
  rw [htask]
  cases task <;> rfl

theorem blockStep_passes (hplain : (s.tile t).residue = .none) (hfirst : residueOk x w first = true) : s.blockStep t fmt begins x w first again = add s first := by
  rw [blockStep_computed htask hadd hu, hplain, hfirst]
  rfl

theorem blockStep_reruns (hplain : (s.tile t).residue = .none) (hfirst : residueOk x w first = false) (hagain : residueOk x w again = true) :
    s.blockStep t fmt begins x w first again = add (u.updTile t (fun k => { k with residueReruns := bump 64 k.residueReruns 1 })) again := by
  rw [blockStep_computed htask hadd hu, hplain, hfirst, hagain]
  rfl

theorem blockStep_retires (hplain : (s.tile t).residue = .none) (hfirst : residueOk x w first = false) (hagain : residueOk x w again = false) :
    s.blockStep t fmt begins x w first again = u.retire t false := by
  rw [blockStep_computed htask hadd hu, hplain, hfirst, hagain]
  rfl

theorem blockStep_injected (htwice : (s.tile t).residue = .twice) : s.blockStep t fmt begins x w first again = u.retire t true := by
  rw [blockStep_computed htask hadd hu, htwice]
  simp

end
end

theorem productTask_running {r : RunTask} (hon : (s.tile t).state = .enabled) (hrun : (s.flank (t / 48)).run = some r) : s.productTask t = some (some r.id) := by
  unfold State.productTask
  rw [hon, hrun]

theorem productTask_loading (hloads : (s.tile t).state = .loading) : s.productTask t = some none := by
  unfold State.productTask
  rw [hloads]

/-! ## A repair step by step -/

section
variable {k logical : Nat} (hrep : s.repairOf f = some (k, logical))
include hrep

section
variable (hdraining : (s.flank f).repair = .draining)
include hdraining

theorem drainComplete_draining : s.drainComplete f = if s.endpointIdle logical then s.drained f k logical else s := by
  unfold State.drainComplete
  rw [hdraining, hrep]

section
variable {start : Nat} (hstart : (s.flank f).drainStart = some start)
include hstart

theorem drainTimeout_early (hearly : s.dt < start + 46695) : s.drainTimeout f = s := by
  unfold State.drainTimeout
  rw [hdraining, hrep, hstart]
  exact if_pos hearly

theorem drainTimeout_drops (hdue : start + 46695 ≤ s.dt)
    (hone : (((s.netif logical).contexts.map (fun (c : Context) => c.holder)) ++
      (s.fabric.windows.filter (fun (w : Nat × Window) => w.1 % 1024 == logical && w.2.acked != w.2.seq)).map (fun (w : Nat × Window) => w.1 / 1024)).eraseDups = [t]) :
    s.drainTimeout f =
      (((s.window t logical).unacked.map (fun (y : Nat × Nat) => y.2)).eraseDups.filter (fun o => o != 0)).foldl (fun (v : State) o => v.abortOp o
        { kind := 0x08, feeder := if 300 ≤ t ∧ t ≤ 303 then t - 300 else 7, endpoint := logical, address := logical }) (s.dropContext t logical) := by
  unfold State.drainTimeout
  rw [hdraining, hrep, hstart]
  dsimp only
  rw [if_neg hdue.not_gt, hone]
  rfl

end
end

theorem spareLoaded_enables {sp : Nat} (hspare : (s.flank f).repair = .loadingSpare sp) :
    s.spareLoaded f = (((s.moveTile sp .enabled).rebuildGroup f).noteRepair f k (coordByte sp) 0).repairDone f := by
  unfold State.spareLoaded
  rw [hspare, hrep]

theorem resliceLoaded_finishes {u : State} {r : State × Nat} (hslice : (s.flank f).repair = .reslicing)
    (hu : u = ((flankTiles f).foldl (fun (v : State) k => if (v.tile k).state = .loading then v.moveTile k .enabled else v) s).updFlank f
        (fun x => { x with bindings := x.bindings.map (fun b => { b with loaded := true }) }))
    (hr : r = u.reslice f (u.enabledTiles f)) :
    s.resliceLoaded f = ((r.1.rebuildGroup f).noteRepair f k 255 r.2).repairDone f := by
  subst hr hu
  unfold State.resliceLoaded
  rw [hslice, hrep]

end

theorem resliceLoaded_none (hnone : (s.flank f).repair = .none) : s.resliceLoaded f = s := by
  unfold State.resliceLoaded
  rw [hnone]

/-! ## A re-layout -/

theorem relayoutStart_running (hrun : (s.flank f).run ≠ none) : s.relayoutStart f = s := if_pos (.inr (.inl hrun))

theorem relayoutStart_starts (hwait : (s.flank f).relayoutWait = true) (hrun : (s.flank f).run = none) (hnone : (s.flank f).relayout = none)
    (hop : (s.flank f).state = .operational) :
    s.relayoutStart f = (s.flankReset f).updFlank f (fun y => { y with relayout := some s.dt, relayoutWait := false }) :=
  if_neg (by rw [hwait, hrun, hnone, hop]; decide)

end

/-- Settles O31: the block product by its residues, a repair by its step, a re-layout by the task that runs. -/
theorem repairRowsAct : Obligations.RepairRowsAct := by
  intro s f t
  refine ⟨?_, ?_, ?_, ?_, ?_, ?_, ?_, ?_, ?_, ?_, ?_⟩
  · intro fmt begins x w first again add u hu
    refine ⟨fun hidle => becomes_of rfl (blockStep_idle hidle), fun task htask hadd => ⟨?_, ?_, ?_, ?_⟩⟩
    · exact fun hplain hfirst => becomes_of rfl (blockStep_passes htask hadd hu hplain hfirst)
    · exact fun hplain hfirst hagain => becomes_of rfl (blockStep_reruns htask hadd hu hplain hfirst hagain)
    · exact fun hplain hfirst hagain => becomes_of rfl (blockStep_retires htask hadd hu hplain hfirst hagain)
    · exact fun htwice => becomes_of rfl (blockStep_injected htask hadd hu htwice)
  · exact fun id fmt begins y => rfl
  · exact ⟨fun r => productTask_running, productTask_loading⟩
  · intro k logical hdraining hrep
    refine ⟨fun hidle => ?_, fun hbusy => ?_, fun start hstart hearly => ?_⟩
    · exact becomes_of rfl ((drainComplete_draining hrep hdraining).trans (if_pos hidle))
    · exact becomes_of rfl ((drainComplete_draining hrep hdraining).trans (by rw [hbusy]; rfl))
    · exact becomes_of rfl (drainTimeout_early hrep hdraining hstart hearly)
  · rintro k logical start ops u hdraining hrep hstart hdue hone rfl rfl
    exact becomes_of rfl (drainTimeout_drops hrep hdraining hstart hdue hone)
  · exact fun sp k logical hspare hrep => becomes_of rfl (spareLoaded_enables hrep hspare)
  · exact fun hnone => becomes_of rfl (resliceLoaded_none hnone)
  · exact fun k logical u r hslice hrep hu hr => becomes_of rfl (resliceLoaded_finishes hrep hslice hu hr)
  · exact fun hrun => becomes_of rfl (relayoutStart_running hrun)
  · exact fun hwait hrun hnone hop => becomes_of rfl (relayoutStart_starts hwait hrun hnone hop)
  · exact fun hsome => becomes_of rfl (if_neg hsome)

end Sys2Proof.Machine
end

section
/-!
PROOFS. Proofs/Falls.lean: commits of lifelines (R172 to R180), flag falls and their merged reports (R80 to R87), and the restoring of sections (R181 to R190).
-/
namespace Sys2Proof.Machine
open Sys2Proof.Safety

section
variable {s : State} {st : Stage} {obj b : Nat}

/-! ## Commits -/

theorem commitComplete_none (hnone : (s.sect st obj).commit = none) : s.commitComplete st obj = s := by
  unfold State.commitComplete
  dsimp only
  rw [hnone]

theorem commitComplete_busy (hbusy : s.kindBusy (fun k => k == OpKind.commit (stageCode st) obj) = true) : s.commitComplete st obj = s := by
  unfold State.commitComplete
  dsimp only
  cases (s.sect st obj).commit with
  | none => rfl
  | some c => exact if_pos hbusy

section
variable {c : Commit} {t w : State} (hc : (s.sect st obj).commit = some c) (hidle : s.kindBusy (fun k => k == OpKind.commit (stageCode st) obj) = false)
  (ht : t = (s.setSect st obj ((s.sect st obj).committed c)).updStream (s.objStream st obj) (fun y => { y with cnt := { y.cnt with commits := bump 64 y.cnt.commits 1 } }))
  (hw : w = ((t.releaseEntries (s.objStream st obj)).pagesAdvance).endOps (fun o => o.kind == OpKind.commit (stageCode st) obj))
include hc hidle ht hw

theorem commitComplete_last (hlast : (s.sect st obj).nextCommit = none) :
    s.commitComplete st obj = ((w.commitDue st obj).advance (s.objStream st obj)).dispatchAll := by
  subst hw ht
  unfold State.commitComplete
  dsimp only
  rw [hc, hlast]
  exact if_neg (by rw [hidle]; exact Bool.false_ne_true)

theorem commitComplete_next {n : Commit} (hnext : (s.sect st obj).nextCommit = some n) :
    s.commitComplete st obj = ((w.beginCommit st obj n).advance (s.objStream st obj)).dispatchAll := by
  subst hw ht
  unfold State.commitComplete
  dsimp only
  rw [hc, hnext]
  exact if_neg (by rw [hidle]; exact Bool.false_ne_true)

end

/-- A commit flips the half: what was written is the half the entry names, the other stays. -/
theorem committed_flips (x : Sect) (c : Commit) :
    (x.seq % 2 = 0 → (x.committed c).half1 = c.data ∧ (x.committed c).half0 = x.half0) ∧
    (x.seq % 2 = 1 → (x.committed c).half0 = c.data ∧ (x.committed c).half1 = x.half1) ∧
    (x.committed c).row = c.row ∧ (x.committed c).dirIdle = c.idle ∧ (x.committed c).commit = none ∧ (x.committed c).seq = (x.seq + 1) % 2 ^ 32 := by
  unfold Sect.committed
  rcases Nat.mod_two_eq_zero_or_one x.seq with heven | hodd
  · simp [heven, bump]
  · simp [hodd, bump]

/-! ## Flag falls -/

section
variable {row o : Nat} (ho : o = if st = .encode then (s.branch b).stream else b)
include ho

theorem flagFall_eq :
    s.flagFall b st row =
      if (s.branch b).state ≠ .active ∨ s.owed st o row = false ∨ s.dt < s.heldDeadline st o row then s
      else ((s.fallAt st o row).advance (s.branch b).stream).dispatchAll := by
  subst ho
  unfold State.flagFall
  cases st <;> rfl

theorem flagFall_not (hnot : (s.branch b).state ≠ .active ∨ s.owed st o row = false ∨ s.dt < s.heldDeadline st o row) : s.flagFall b st row = s :=
  (flagFall_eq ho).trans (if_pos hnot)

theorem flagFall_falls (hactive : (s.branch b).state = .active) (howed : s.owed st o row = true) (hdue : s.heldDeadline st o row ≤ s.dt) :
    s.flagFall b st row = ((s.fallAt st o row).advance (s.branch b).stream).dispatchAll :=
  (flagFall_eq ho).trans (if_neg (by rw [howed]; simp [hactive, hdue]))

end

theorem fallAt_branch (hst : st ≠ .encode) (row : Nat) : s.fallAt st b row = s.declareFall b st row := by
  unfold State.fallAt
  cases st with
  | encode => exact absurd rfl hst
  | translate => rfl
  | speak => rfl

theorem fallAt_again {row : Nat} (hfallen : (s.stream obj).encFallen.contains row = true) : s.fallAt .encode obj row = s := 
  if_pos (by rw [hfallen, Bool.true_or])

theorem fallAt_encode {row : Nat} (hnew : (s.stream obj).encFallen.contains row = false) (hlive : (s.sect .encode obj).shadow row = false) :
    s.fallAt .encode obj row =
      ((s.branchesOf obj).foldl (fun t k => t.declareFall k .encode row)
        (s.updStream obj (fun x => { x with encFallen := x.encFallen ++ [row] }))).rerunSettled .encode obj (fun r => r == row) :=
  if_neg (by rw [hnew, hlive]; decide)

section
variable {row o : Nat} {x : Branch} {t : State} (hx : x = s.branch b) (ho : o = if st = .encode then x.stream else b) (hactive : x.state = .active)
  (hfirst : earlier32 row x.firstRow = false) (hkept : x.skipped.contains row = false) (hlive : (s.sect st o).shadow row = false)
  (ht : t = s.updBranch b (fun y => { y with cnt := y.cnt.fall st (x.policy == .hold && x.applied == .skip) }))
include hx ho hactive hfirst hkept hlive ht

/-- A fall of a live row is declared by the policy that applies. -/
theorem declareFall_applies :
    s.declareFall b st row = match x.applied with
      | .hold => ((t.updBranch b (fun y => { y with hold := y.hold + 1 })).rerunSettled st o (fun r => r == row)).reportFall b st row .hold
      | .skip =>
        (((t.updBranch b (fun y => { y with skipped := y.skipped ++ [row], skipStage := y.skipStage ++ [(row, st)] })).cancelWork b row false).leftOut b
          (fun r => r == row)).reportFall b st row .skip
      | .stop =>
        ((((t.updBranch b (fun y => { y with state := .stopped, stopRow := some row })).cancelWork b row true).leftOut b
          (fun r => !earlier32 r row)).reportFall b st row .stop).postBranch b .active .stopped 1 row := by
  subst hx ho ht
  have hfalls : ¬ ((s.branch b).state ≠ .active ∨ earlier32 row (s.branch b).firstRow = true ∨ (s.branch b).skipped.contains row = true ∨
      (s.sect st (if st = .encode then (s.branch b).stream else b)).shadow row = true) := by
    rw [hfirst, hkept, hlive]
    simp [hactive]
  unfold State.declareFall
  dsimp only
  rw [if_neg hfalls]
  cases (s.branch b).applied <;> rfl

end

/-! ## Merged reports -/

section
variable {t : State} {gone : List Orphan} (hgone : gone = (s.branch b).orphans.filter (fun o => decide (o.report.start + 24576000 ≤ s.dt)))
  (ht : t = gone.foldl (fun (u : State) o => u.postMerged o.part b o.gen o.report)
        (if gone = [] then s else s.updBranch b (fun y => { y with orphans := y.orphans.filter (fun o => !decide (o.report.start + 24576000 ≤ s.dt)) })))
include hgone ht

/-- The reports of branches that have left the slot come first; then that of the branch there, when its interval is over. -/
theorem flagIntervalEnd_eq :
    s.flagIntervalEnd b = match (s.branch b).report with
      | none => t
      | some r =>
        if !r.due s.dt then t
        else if r.count = 0 then t.updBranch b (fun y => { y with report := none })
        else (t.updBranch b (fun y => { y with report := none })).postMerged (s.branch b).part b (s.branch b).gen r := by
  have hstart : t = gone.foldl (fun (u : State) o => u.postMerged o.part b o.gen o.report)
      (if gone.isEmpty then s else s.updBranch b (fun y => { y with orphans := y.orphans.filter (fun o => !o.report.due s.dt) })) := by
    rw [ht]
    cases gone <;> rfl
  subst hstart hgone
  unfold State.flagIntervalEnd
  dsimp only
  cases (s.branch b).report <;> rfl

theorem flagIntervalEnd_none (hnone : (s.branch b).report = none) : s.flagIntervalEnd b = t := by
  rw [flagIntervalEnd_eq hgone ht, hnone]

section
variable {r : FlagReport} (hr : (s.branch b).report = some r)
include hr

theorem flagIntervalEnd_early (hearly : s.dt < r.start + 24576000) : s.flagIntervalEnd b = t := by
  rw [flagIntervalEnd_eq hgone ht, hr]
  exact if_pos (by simpa [FlagReport.due] using hearly)

theorem flagIntervalEnd_due (hdue : r.start + 24576000 ≤ s.dt) :
    s.flagIntervalEnd b =
      if r.count = 0 then t.updBranch b (fun y => { y with report := none })
      else (t.updBranch b (fun y => { y with report := none })).postMerged (s.branch b).part b (s.branch b).gen r := by
  rw [flagIntervalEnd_eq hgone ht, hr]
  exact if_neg (by simpa [FlagReport.due] using hdue)

end
end

/-! ## Restored sections -/

section
variable {i : Nat} {lost : List (Stage × Nat)} {placed : State → Stage × Nat → Bool} (hlost : lost = (s.sectsOf i).filter (fun k => (s.sect k.1 k.2).lost))
  (hplaced : placed = fun (v : State) (k : Stage × Nat) => (v.sect k.1 k.2).tile.isSome || (v.sect k.1 k.2).size == 0)
include hlost hplaced

theorem restoreEnds_not (hnot : s.loadsBusy i = true ∨ s.serving = false ∨ lost.all (placed s) = false) : s.restoreEnds i = s := by
  subst hlost hplaced
  unfold State.restoreEnds State.frogRestore
  cases hbusy : s.loadsBusy i with
  | true => rfl
  | false =>
    refine (if_neg Bool.false_ne_true).trans (if_pos ?_)
    rcases hnot with h | h | h
    · exact absurd (hbusy ▸ h) Bool.false_ne_true
    · rw [h, Bool.not_false, Bool.or_true, Bool.true_or]
    · rw [h, Bool.not_false, Bool.true_or, Bool.true_or]

variable {u : State} (hidle : s.loadsBusy i = false) (hserving : s.serving = true) (hall : lost.all (placed s) = true)
  (howes : lost ≠ [] ∨ (s.stream i).frog.map (·.restored) = some false)
include hidle hserving hall howes

/-- Once the loads are done and every lost section has its slot, the lost sections are restored and what follows goes on; of a stream that frogs, the sections loaded
before count as loaded too. -/
theorem restoreEnds_restores
    (hu : u = lost.foldl State.restoreSect
      ((if (s.stream i).state == .frogging then
          (s.sectsOf i).filter (fun k => !(s.sect k.1 k.2).lost && s.ops.any (fun o => o.kind == OpKind.castIn (stageCode k.1) k.2)) else []).foldl
        (fun v k => v.updSect k.1 k.2 Sect.load) (s.endLoads i))) :
    s.restoreEnds i = ((u.updStream i (fun y => { y with frog := y.frog.map (fun f => { f with restored := (u.sectsOf i).all (placed u) }) })).advance i).dispatchAll := by
  have hacts : ¬ (!lost.all (placed s) || !s.serving || (lost.isEmpty && ((s.stream i).frog.map (·.restored)).getD true)) = true := by
    rw [hall, hserving]
    rcases howes with h | h
    · simp [h]
    · simp [h]
  rw [hu]
  subst hlost hplaced
  unfold State.restoreEnds State.frogRestore
  exact (if_neg (by rw [hidle]; exact Bool.false_ne_true)).trans (if_neg hacts)

end
end

/-- Settles O33: commits, falls, merged reports and restores by what is owed and by the time. -/
theorem commitFlagAndRestoreRowsAct : Obligations.CommitFlagAndRestoreRowsAct := by
  intro s st obj b
  refine ⟨?_, ?_, ?_, committed_flips, ?_, ?_, ?_, ?_⟩
  · exact fun hnone => becomes_of rfl (commitComplete_none hnone)
  · exact fun hbusy => becomes_of rfl (commitComplete_busy hbusy)
  · rintro c i t w hc hidle rfl ht hw
    exact ⟨fun hlast => becomes_of rfl (commitComplete_last hc hidle ht hw hlast), fun n hnext => becomes_of rfl (commitComplete_next hc hidle ht hw hnext)⟩
  · intro row o ho
    exact ⟨fun hnot => becomes_of rfl (flagFall_not ho hnot), fun hactive howed hdue => becomes_of rfl (flagFall_falls ho hactive howed hdue),
      fun hst => fallAt_branch hst row, fallAt_again, fallAt_encode⟩
  · intro row o x t hx ho hactive hfirst hkept hlive ht
    have happlies := declareFall_applies hx ho hactive hfirst hkept hlive ht
    exact ⟨fun hhold => happlies.trans (by rw [hhold]), fun hskip => happlies.trans (by rw [hskip]), fun hstop => happlies.trans (by rw [hstop])⟩
  · intro gone t hgone ht
    refine ⟨fun hnone => becomes_of rfl (flagIntervalEnd_none hgone ht hnone), fun r hr => ⟨fun hearly => ?_, fun hdue hzero => ?_, fun hdue hmore => ?_⟩⟩
    · exact becomes_of rfl (flagIntervalEnd_early hgone ht hr hearly)
    · exact becomes_of rfl ((flagIntervalEnd_due hgone ht hr hdue).trans (if_pos hzero))
    · exact becomes_of rfl ((flagIntervalEnd_due hgone ht hr hdue).trans (if_neg hmore.ne'))
  · intro i lost placed hlost hplaced
    refine ⟨fun hnot => ?_, fun u hidle hserving hall hsome hstate hu => ?_,
      fun u hidle hserving hall howes hstate hu => ?_⟩
    · exact becomes_of rfl (restoreEnds_not hlost hplaced hnot)
    · have hrun : ((s.stream i).state == .frogging) = false := beq_eq_false_iff_ne.mpr hstate
      exact becomes_of rfl (restoreEnds_restores hlost hplaced hidle hserving hall (.inl hsome) (hu.trans (by rw [hrun]; rfl)))
    · exact becomes_of rfl (restoreEnds_restores hlost hplaced hidle hserving hall howes (hu.trans (by rw [hstate]; rfl)))

end Sys2Proof.Machine
end

section
/-!
PROOFS. Proofs/Governor.lean: the governor's windows (R563 to R571) and the voltage loop (R560 to R562, R573 to R579).
-/
namespace Sys2Proof.Machine
open Sys2Proof.Safety

/-! ## The operating point -/

section
variable (p : Power) (dt : Nat)

@[simp] theorem sample_divisor (m : Measurement) : (p.sample dt m).divisor = p.divisor := by
  unfold Power.sample
  split <;> rfl

@[simp] theorem sample_pace (m : Measurement) : (p.sample dt m).pace = p.pace := by
  unfold Power.sample
  split <;> rfl

theorem measure_counts (m : Measurement) :
    (p.measure dt m).history.length ≤ 1000 ∧ (p.measure dt m).history.headD 0 = p.p1 m ∧ (p.measure dt m).energy = (p.energy + p.p1 m) % 2 ^ 80 ∧
      (p.measure dt m).divisor = p.divisor ∧ (p.measure dt m).pace = p.pace :=
  ⟨List.length_take_le 1000 _, rfl, rfl, sample_divisor p dt m, sample_pace p dt m⟩

variable {p dt}

theorem point_of_noRaise (hraise : p.avs.raise = none) : p.point = p.divisor := by
  unfold Power.point
  rw [hraise]

/-- A divisor above the one in force takes effect at once. -/
theorem setDivisor_up {d : Nat} (hup : p.divisor ≤ d) : (p.setDivisor dt d).divisor = d ∧ (p.setDivisor dt d).pace = p.pace ∧ (p.setDivisor dt d).avs.raise = none := by
  have hset : p.setDivisor dt d = ({ p.countTo dt with divisor := d, avs := { p.avs with raise := none } } : Power).writeTarget d := if_pos hup
  rw [hset, writeTarget_divisor, writeTarget_pace, writeTarget_raise]
  exact ⟨rfl, rfl, rfl⟩

theorem stepDown_root6 (hpoint : p.point = 6) (hdiv : p.divisor = 6) : (p.stepDown dt).pace = min 7 (p.pace + 1) ∧ (p.stepDown dt).divisor = 6 := by
  have hstep : p.stepDown dt = { p.countTo dt with pace := min 7 (p.pace + 1) } := if_neg (by rw [hpoint]; decide)
  rw [hstep]
  exact ⟨rfl, hdiv⟩

theorem stepDown_divisor (hraise : p.avs.raise = none) (hbelow : p.divisor < 6) : (p.stepDown dt).divisor = p.divisor + 1 ∧ (p.stepDown dt).pace = p.pace := by
  have hstep : p.stepDown dt = p.setDivisor dt (p.point + 1) := if_pos (by rwa [point_of_noRaise hraise])
  rw [hstep, point_of_noRaise hraise]
  exact ⟨(setDivisor_up (Nat.le_succ _)).1, (setDivisor_up (Nat.le_succ _)).2.1⟩

theorem finishRaise_none (hraise : p.avs.raise = none) : p.finishRaise dt = p := by
  unfold Power.finishRaise
  rw [hraise]

theorem finishRaise_some {t d : Nat} (hraise : p.avs.raise = some (t, d)) :
    p.finishRaise dt = { p.countTo dt with divisor := d, avs := { p.avs with raise := none, failures := 0 } } := by
  unfold Power.finishRaise
  rw [hraise]

theorem clampInt_inside {lo hi x : Int} (hlo : lo ≤ x) (hhi : x ≤ hi) : clampInt lo hi x = x := by
  unfold clampInt
  rw [if_neg hlo.not_gt, if_neg hhi.not_gt]

theorem writeTarget_clamps (hgood : p.avs.faulted = false) (d : Nat) :
    600 ≤ (p.writeTarget d).avs.target ∧ (p.writeTarget d).avs.target ≤ 800 ∧
      (600 ≤ vNominal d + p.avs.trim → vNominal d + p.avs.trim ≤ 800 → ((p.writeTarget d).avs.target : Int) = vNominal d + p.avs.trim) := by
  have htarget : (p.writeTarget d).avs.target = p.voltage d := by
    unfold Power.writeTarget
    rw [hgood]
    rfl
  obtain ⟨hlo, hhi⟩ := voltage_bounds p d
  rw [htarget]
  refine ⟨hlo, hhi, fun hmin hmax => ?_⟩
  unfold Power.voltage
  rw [clampInt_inside hmin hmax, Int.toNat_of_nonneg (by omega)]

end

section
variable {s : State}

/-! ## A governor window -/

section
variable {m : Measurement}

theorem governorWindow_off (hoff : s.boot.inReset = true ∨ s.dt % 24576 ≠ 0) : s.governorWindow m = s := if_pos hoff

variable (hrun : s.boot.inReset = false) (hedge : s.dt % 24576 = 0)
include hrun hedge

theorem governorWindow_notReady (hstage : s.boot.stage ≠ .ready) : s.governorWindow m = { s with power := s.power.sample s.dt m } :=
  (if_neg (by simp [hrun, hedge])).trans (if_pos hstage)

variable (hready : s.boot.stage = .ready) {t : State} (ht : t = { s with power := s.power.measure s.dt m })
include hready ht

/-- At READY a window over the limit steps down, one under it counts towards a step up, another restarts the count. -/
theorem governorWindow_ready :
    s.governorWindow m =
      if t.overLimit then
        (t.updPower (fun p => { p.stepDown s.dt with under := 0 })).throttleEvents t.tooHot (decide (t.power.point < 6 ∨ t.power.pace < 7))
      else if t.under then
        if t.power.under + 1 < 10 then t.updPower (fun p => { p with under := p.under + 1 })
        else (t.updPower (fun p => { p.stepUp s.dt with under := 0 })).throttleEvents false false
      else t.updPower (fun p => { p with under := 0 }) := by
  subst ht
  exact (if_neg (by simp [hrun, hedge])).trans (if_neg (not_not.mpr hready))

end

/-! ## The voltage loop -/

theorem updPower_congr {g h : Power → Power} (heq : g s.power = h s.power) : s.updPower g = s.updPower h := by
  unfold State.updPower
  rw [heq]

theorem targetReached_none (hraise : s.power.avs.raise = none) : s.targetReached = s :=
  (updPower_congr (h := id) (finishRaise_none hraise)).trans rfl

theorem voltageTimeout_none (hraise : s.power.avs.raise = none) : s.voltageTimeout = s := by
  unfold State.voltageTimeout
  rw [hraise]

section
variable {t d : Nat} (hraise : s.power.avs.raise = some (t, d))
include hraise

theorem targetReached_some :
    s.targetReached = s.updPower (fun p => { p.countTo s.dt with divisor := d, avs := { p.avs with raise := none, failures := 0 } }) :=
  updPower_congr (finishRaise_some hraise)

theorem voltageTimeout_early (hearly : s.dt < t + 2458) : s.voltageTimeout = s := by
  unfold State.voltageTimeout
  rw [hraise]
  exact if_neg hearly.not_ge

theorem voltageTimeout_due (hdue : t + 2458 ≤ s.dt) : s.voltageTimeout = s.targetReached := by
  unfold State.voltageTimeout
  rw [hraise]
  exact if_pos hdue

end

theorem avsFail_counts (hgood : s.power.avs.faulted = false) :
    s.avsFail = s.updPower (fun p => { p with avsErrors := bump 64 p.avsErrors 1, avs := { p.avs with failures := p.avs.failures + 1 } }) :=
  if_neg (by rw [hgood]; exact Bool.false_ne_true)

theorem regulatorFault_faults (hgood : s.power.avs.faulted = false) (hthree : 3 ≤ s.power.avs.failures) :
    s.regulatorFault =
      (s.updPower (fun p => { p.countTo s.dt with divisor := 6, avs := { p.avs with faulted := true, raise := none } })).degradedFault 1 :=
  if_neg (by rw [hgood]; simp [hthree])

theorem trimUpdate_refused {trim : Int}
    (hnot : s.boot.stage ≠ .ready ∨ trim % 5 ≠ 0 ∨ trim < -25 ∨ 50 < trim ∨ ∃ t, s.power.avs.lastTrim = some t ∧ s.dt < t + 2457600) : s.trimUpdate trim = s := by
  unfold State.trimUpdate
  refine if_pos ?_
  rcases hnot with h | h | h | h | ⟨t, hlast, hearly⟩
  · exact .inl h
  · exact .inr (.inr (.inl h))
  · exact .inr (.inr (.inr (.inl h)))
  · exact .inr (.inr (.inr (.inr h)))
  · exact .inr (.inl (by simp [hlast, hearly]))

/-- A time limit that every last time keeps is not early, and neither is no last time. -/
theorem noEarly {last : Option Nat} {wait dt : Nat} (hlast : ∀ t, last = some t → t + wait ≤ dt) :
    (last.map (fun t => decide (dt < t + wait))).getD false = false := by
  cases last with
  | none => rfl
  | some t => exact decide_eq_false (hlast t rfl).not_gt

theorem trimUpdate_writes {trim : Int} (hready : s.boot.stage = .ready) (hstep : trim % 5 = 0) (hlo : -25 ≤ trim) (hhi : trim ≤ 50)
    (hlast : ∀ t, s.power.avs.lastTrim = some t → t + 2457600 ≤ s.dt) :
    s.trimUpdate trim = s.updPower (fun p => ({ p with avs := { p.avs with trim := trim, lastTrim := some s.dt } } : Power).writeTarget p.point) := by
  have hlate := noEarly hlast
  unfold State.trimUpdate
  dsimp only
  rw [hlate, if_neg (by simp [hready, hstep, hlo, hhi])]

end

/-- Settles O36: a window by the device's state and by what it measures. -/
theorem governorWindowActs : Obligations.GovernorWindowActs := by
  intro s m
  refine ⟨?_, ?_, ?_, ?_, ?_⟩
  · exact fun hoff => becomes_of rfl (governorWindow_off hoff)
  · exact fun hrun hedge hstage => becomes_of rfl (governorWindow_notReady hrun hedge hstage)
  · intro t hrun hedge hready ht
    have hwindow := governorWindow_ready hrun hedge hready ht
    refine ⟨fun hover => ?_, fun hfits hunder => ⟨fun hfew => ?_, fun hten => ?_⟩, fun hfits hnot => ?_⟩
    · exact becomes_of rfl (hwindow.trans (if_pos hover))
    · exact becomes_of rfl (hwindow.trans (by rw [hfits, hunder, if_pos hfew]; rfl))
    · exact becomes_of rfl (hwindow.trans (by rw [hfits, hunder, if_neg hten.not_gt]; rfl))
    · exact becomes_of rfl (hwindow.trans (by rw [hfits, hnot]; rfl))
  · exact fun p _ => measure_counts p s.dt m
  · exact fun p => ⟨stepDown_root6, fun hraise _ hbelow => stepDown_divisor hraise hbelow⟩

/-- Settles O37: the raise, the failures and the trim by the regulator's state and by their times. -/
theorem voltageRowsAct : Obligations.VoltageRowsAct := by
  intro s
  refine ⟨?_, ?_, ?_, ?_, ?_, ?_, ?_, ?_⟩
  · exact fun hraise => ⟨becomes_of rfl (targetReached_none hraise), becomes_of rfl (voltageTimeout_none hraise)⟩
  · intro t d hraise
    exact ⟨becomes_of rfl (targetReached_some hraise), fun hearly => becomes_of rfl (voltageTimeout_early hraise hearly),
      fun hdue => becomes_of rfl ((voltageTimeout_due hraise hdue).trans (targetReached_some hraise))⟩
  · exact fun hgood => becomes_of rfl (avsFail_counts hgood)
  · exact fun hnot => becomes_of rfl (if_pos hnot)
  · exact fun hgood hthree => becomes_of rfl (regulatorFault_faults hgood hthree)
  · exact fun trim hnot => becomes_of rfl (trimUpdate_refused hnot)
  · exact fun trim hready hstep hlo hhi hlast => becomes_of rfl (trimUpdate_writes hready hstep hlo hhi hlast)
  · exact fun p d hgood => writeTarget_clamps hgood d

end Sys2Proof.Machine
end

section
/-!
PROOFS. Proofs/Heat.lean: PROCHOT_N, the thermal sensors and trip, and the loss of lock (R566, R580 to R600).
-/
namespace Sys2Proof.Machine
open Sys2Proof.Safety

section
variable {s : State}

/-! ## PROCHOT_N -/

theorem prochotOn_ready (hoff : s.power.prochot = false) (hready : s.boot.stage = .ready) :
    s.prochotOn =
      (s.updPower (fun p => { (p.setDivisor s.dt 6).countTo s.dt with prochot := true, prochotAssertions := bump 64 p.prochotAssertions 1 })).postThermal 2 :=
  (if_neg (by rw [hoff]; exact Bool.false_ne_true)).trans (if_neg (not_not.mpr hready))

theorem prochotOn_booting (hoff : s.power.prochot = false) (hboot : s.boot.stage ≠ .ready) :
    s.prochotOn = s.updPower (fun p => { p.countTo s.dt with prochot := true }) :=
  (if_neg (by rw [hoff]; exact Bool.false_ne_true)).trans (if_pos hboot)

theorem prochotOff_off (hoff : s.power.prochot = false) : s.prochotOff = s := if_pos (by rw [hoff]; rfl)

theorem prochotOff_on (hon : s.power.prochot = true) :
    s.prochotOff =
      if s.boot.stage = .ready then (s.updPower (fun p => { p.countTo s.dt with prochot := false })).postThermal 3
      else s.updPower (fun p => { p.countTo s.dt with prochot := false }) :=
  if_neg (by rw [hon]; decide)

/-! ## Recalibrations -/

section
variable {k : Nat} (hk : k < 16)
include hk

theorem recalibrate_defers (hhot : 95 ≤ (s.power.sensor k).temp) (hearly : s.dt < (s.power.sensor k).deferredSince.getD s.dt + 1474560000) :
    s.recalibrate k =
      s.updPower (fun p => { p with
        sensors := Table.set {} p.sensors k { s.power.sensor k with deferredSince := some ((s.power.sensor k).deferredSince.getD s.dt) } }) := by
  refine (if_neg hk.not_ge).trans (updPower_congr ?_)
  dsimp only
  rw [if_pos ⟨hhot, hearly⟩]

theorem recalibrate_runs (hruns : (s.power.sensor k).temp < 95 ∨ (s.power.sensor k).deferredSince.getD s.dt + 1474560000 ≤ s.dt) :
    s.recalibrate k =
      s.updPower (fun p => { p with sensors := Table.set {} p.sensors k { s.power.sensor k with deferredSince := none, lastRecal := some s.dt } }) := by
  refine (if_neg hk.not_ge).trans (updPower_congr ?_)
  dsimp only
  rw [if_neg (fun h => hruns.elim h.1.not_gt h.2.not_ge)]

end

/-! ## The trip and the lock -/

theorem thermalTrip_trips (hnot : s.power.tripped = false) (haon : s.boot.aonIn = true) :
    s.thermalTrip =
      { s.enterReset .thermalTrip with
        power := { (s.enterReset .thermalTrip).power with tripped := true, clocksOn := false },
        boot := { (s.enterReset .thermalTrip).boot with flash := { s.boot.flash with
          records := if s.boot.flash.records.length < 4096 then s.boot.flash.records ++ [false] else s.boot.flash.records } } } :=
  if_neg (by rw [hnot, haon]; decide)

theorem lossOfLock_locked (hlocked : s.power.locked = true) :
    s.lossOfLock = { s.enterReset .clockLoss with power := { (s.enterReset .clockLoss).power with locked := false } } :=
  if_neg (by rw [hlocked]; decide)

theorem lossOfLock_lost (hlost : s.power.locked = false) : s.lossOfLock = s := if_pos (by rw [hlost]; rfl)

theorem lockReturns_locked (hlocked : s.power.locked = true) : s.lockReturns = s.portsTrain := congrArg State.portsTrain (if_pos hlocked)

section
variable (hlost : s.power.locked = false)
include hlost

theorem lockReturns_lost : s.lockReturns = (State.resetEnd { s with power := { s.power with locked := true } }).portsTrain :=
  congrArg State.portsTrain (if_neg (by rw [hlost]; exact Bool.false_ne_true))

theorem lockReturns_starts (hreset : s.boot.inReset = true) (hcool : s.power.tripped = false) (haon : s.boot.aonIn = true) (hio : s.boot.ioIn = true) :
    s.lockReturns = State.portsTrain { s with dt := 0, power := { s.power with locked := true }, boot := { s.boot with inReset := false, stage := .rom } } :=
  (lockReturns_lost hlost).trans (congrArg State.portsTrain (if_pos (by
    show (s.boot.inReset && true && !s.power.tripped && s.boot.aonIn && s.boot.ioIn) = true
    rw [hreset, hcool, haon, hio]
    rfl)))

theorem lockReturns_held (hheld : s.boot.inReset = false ∨ s.power.tripped = true ∨ s.boot.aonIn = false ∨ s.boot.ioIn = false) :
    s.lockReturns = State.portsTrain { s with power := { s.power with locked := true } } :=
  (lockReturns_lost hlost).trans (congrArg State.portsTrain (if_neg (by
    show ¬ (s.boot.inReset && true && !s.power.tripped && s.boot.aonIn && s.boot.ioIn) = true
    rcases hheld with h | h | h | h <;> simp [h])))

end
end

/-- Settles O38: PROCHOT_N by the stage, a recalibration by its sensor's heat, the trip and the lock by what they find. -/
theorem heatAndLockRowsAct : Obligations.HeatAndLockRowsAct := by
  intro s
  refine ⟨?_, ?_, ?_, ?_, ?_, ?_, ?_, ?_, ?_, ?_, ?_, ?_, ?_⟩
  · exact fun hon => becomes_of rfl (if_pos hon)
  · rintro t hoff rfl
    refine ⟨fun hready => becomes_of rfl (prochotOn_ready hoff hready), fun hdiv => ?_⟩
    obtain ⟨hsix, -, hraise⟩ := setDivisor_up (dt := s.dt) hdiv
    exact ⟨hsix, hraise⟩
  · exact fun hoff hboot => becomes_of rfl (prochotOn_booting hoff hboot)
  · exact fun hoff => becomes_of rfl (prochotOff_off hoff)
  · rintro t hon rfl
    exact ⟨fun hready => becomes_of rfl ((prochotOff_on hon).trans (if_pos hready)), fun hboot => becomes_of rfl ((prochotOff_on hon).trans (if_neg hboot)), rfl⟩
  · exact fun k hk => becomes_of rfl (if_pos hk)
  · rintro k x hk rfl
    exact ⟨fun hhot hearly => becomes_of rfl (recalibrate_defers hk hhot hearly), fun hruns => becomes_of rfl (recalibrate_runs hk hruns)⟩
  · exact fun htripped => becomes_of rfl (if_pos (by rw [htripped, Bool.true_or]))
  · rintro t recs hnot haon rfl rfl
    exact becomes_of rfl (thermalTrip_trips hnot haon)
  · exact fun hlocked => ⟨becomes_of rfl (lossOfLock_locked hlocked), becomes_of rfl (lockReturns_locked hlocked)⟩
  · exact fun hlost => becomes_of rfl (lossOfLock_lost hlost)
  · exact fun hlost hreset hcool haon hio => becomes_of rfl (lockReturns_starts hlost hreset hcool haon hio)
  · exact fun hlost hheld => becomes_of rfl (lockReturns_held hlost hheld)

end Sys2Proof.Machine
end

section
/-!
PROOFS. Proofs/BootStages.lean: the boot's stages and the end of a flash write (R601 to R640).
-/
namespace Sys2Proof.Machine
open Sys2Proof.Safety

section
variable {s : State}

/-! ## ROM and IMAGE_CHECK -/

theorem romDone_unreadable (hrom : s.boot.stage = .rom) (hrun : s.boot.inReset = false) : s.romDone false = s.bootFails 3 0 :=
  (if_neg (by simp [hrom, hrun])).trans (if_pos rfl)

theorem romDone_preferred {t : State} {d : Directory} (hrom : s.boot.stage = .rom) (hrun : s.boot.inReset = false) (hcopy : s.boot.flash.copy0.valid = true)
    (ht : t = s.noteTimeout.reportTrip) (hd : d = t.boot.flash.dir) (hboot : (d.slot d.preferred).bootable = true) :
    s.romDone true =
      t.updBoot (fun b => { b with
        preferredAtBoot := s.boot.flash.dir.preferred, siteDefault := t.boot.flash.currentSite.isNone, siteSlot := t.boot.flash.currentSite.getD 0,
        stage := .imageCheck, runningSlot := d.preferred }) := by
  subst hd ht
  exact (if_neg (by simp [hrom, hrun])).trans ((if_neg (by simp [hcopy])).trans (if_pos hboot))

theorem imageCheck_passed (hstage : s.boot.stage = .imageCheck) : s.imageCheck true = s.updBoot (fun b => { b with stage := .training }) :=
  (if_neg (not_not.mpr hstage)).trans (if_pos rfl)

section
variable {t : State} {k : Nat} (hstage : s.boot.stage = .imageCheck) (hk : k = s.boot.runningSlot)
  (ht : t = s.updDir (fun d => d.updSlot k (fun x => { x with state := .bad })))
include hstage hk ht

theorem imageCheck_failed :
    s.imageCheck false =
      if (t.boot.flash.dir.slot (1 - k)).bootable && !s.boot.triedOther then
        (t.updDir (fun d => { d with preferred := 1 - k })).updBoot (fun b => { b with runningSlot := 1 - k, triedOther := true })
      else t.bootFails 1 0 := by
  subst ht hk
  exact (if_neg (not_not.mpr hstage)).trans (if_neg Bool.false_ne_true)

end

/-! ## TRAINING to CONFIG -/

theorem training_step (hstage : s.boot.stage = .training) (failing : Option Nat) :
    s.training failing = match failing with
      | some k => s.bootFails 2 (k % 8)
      | none => s.updBoot (fun b => { b with stage := .clear }) := by
  refine (if_neg (not_not.mpr hstage)).trans ?_
  cases failing <;> rfl

theorem configDone_default (hstage : s.boot.stage = .config) (hsite : s.boot.siteDefault = true) (rings : List RingSetup) {t v : State}
    (ht : t = ((s.applySite defaultSite).initRoutes).setRings rings)
    (hv : v = (t.updDir (fun d => d.updSlot t.boot.runningSlot (fun x => { x with state := .good, timeouts := 0 }))).updBoot (fun b => { b with
      stage := .ready, watchdogArmed := true, refreshing := true,
      flash := if 4096 ≤ b.flash.records.length then { b.flash with records := [] } else b.flash })) :
    s.configDone rings =
      ((List.range 3).foldl (fun (y : State) f => y.updFlank f (fun x => { x with cache := y.site.cache f }))
        ((State.allFwState { v with mem := { v.mem with scrubStart := v.dt } } 2).takeCap 28)).postSelfTest := by
  subst hv ht
  unfold State.configDone
  rw [if_neg (not_not.mpr hstage), hsite]
  rfl

/-! ## A flash write -/

theorem flashWriteDone_none (hnone : s.boot.writing = none) (ok : Bool) : s.flashWriteDone ok = s := by
  unfold State.flashWriteDone
  rw [hnone]

section
variable {w : FlashWrite} (hw : s.boot.writing = some w)
include hw

theorem flashWriteDone_failed : s.flashWriteDone false = (s.updBoot (fun b => { b with writing := none })).complete w.port w.cmd { status := 0x0602 } := by
  unfold State.flashWriteDone
  rw [hw]
  rfl

theorem flashWriteDone_image {k version length : Nat} (hjob : w.job = .image k version length) :
    s.flashWriteDone true =
      ((s.updBoot (fun b => { b with writing := none })).updDir (fun d => d.updSlot k (fun _ =>
        { state := .staged, timeouts := 0, length := length, version := version }))).complete w.port w.cmd { result := version } := by
  unfold State.flashWriteDone
  rw [hw]
  dsimp only
  rw [hjob]
  rfl

end
end

/-- Settles O41: every stage by whether it is the stage in force and by what it finds; a flash write by its job. -/
theorem bootStagesAct : Obligations.BootStagesAct := by
  intro s
  refine ⟨?_, ?_, ?_, ?_, ?_, ?_, ?_, ?_, ?_, ?_, ?_, ?_, ?_, ?_, ?_⟩
  · exact fun b hnot => becomes_of rfl (if_pos hnot)
  · exact fun hrom hrun => becomes_of rfl (romDone_unreadable hrom hrun)
  · exact fun t d hrom hrun hcopy ht hd hboot => becomes_of rfl (romDone_preferred hrom hrun hcopy ht hd hboot)
  · exact fun p hnot => becomes_of rfl (if_pos hnot)
  · exact fun hstage => becomes_of rfl (imageCheck_passed hstage)
  · intro t k hstage hk ht
    have hfailed := imageCheck_failed hstage hk ht
    exact ⟨fun htried => becomes_of rfl (hfailed.trans (if_neg (by rw [htried]; simp))),
      fun hfirst hboot => becomes_of rfl (hfailed.trans (if_pos (by rw [hboot, hfirst]; rfl)))⟩
  · exact fun fail hnot => becomes_of rfl (if_pos hnot)
  · exact fun hstage => becomes_of rfl (training_step hstage none)
  · exact fun k hstage => becomes_of rfl (training_step hstage (some k))
  · exact fun hstage => becomes_of rfl (if_neg (not_not.mpr hstage))
  · exact fun fails hstage => becomes_of rfl (if_neg (not_not.mpr hstage))
  · exact fun rings hnot => becomes_of rfl (if_pos hnot)
  · exact fun rings t v hstage hsite ht hv => becomes_of rfl (configDone_default hstage hsite rings ht hv)
  · exact fun ok hnone => becomes_of rfl (flashWriteDone_none hnone ok)
  · exact fun w hw => ⟨becomes_of rfl (flashWriteDone_failed hw), fun k version length hjob => becomes_of rfl (flashWriteDone_image hw hjob)⟩

end Sys2Proof.Machine
end

section
/-!
PROOFS. Proofs/Endpoint.lean: the management endpoint's rows touch the endpoint alone, and answer their own addresses alone (R648, R649, R652, Table 18-7).
-/
namespace Sys2Proof.Machine
open Sys2Proof.Safety

/-! ## What differs in the endpoint alone -/

/-- `t` is `s` with another management endpoint. -/
def OnlyMgmt (s t : State) : Prop := ∃ m, t = { s with mgmt := m }

theorem OnlyMgmt.refl (s : State) : OnlyMgmt s s := ⟨s.mgmt, rfl⟩

theorem OnlyMgmt.trans {s t u : State} (h : OnlyMgmt s t) (k : OnlyMgmt t u) : OnlyMgmt s u := by
  obtain ⟨m, rfl⟩ := h
  obtain ⟨n, rfl⟩ := k
  exact ⟨n, rfl⟩

theorem OnlyMgmt.quiet {s t : State} (h : OnlyMgmt s t) (hq : Quiet s) : Quiet t := by
  obtain ⟨m, rfl⟩ := h
  exact hq

section
variable (s : State)

theorem updMedium_onlyMgmt (m : Medium) (g : MediumState → MediumState) : OnlyMgmt s (s.updMedium m g) := ⟨_, rfl⟩

theorem sendResponse_onlyMgmt (m : Medium) (dst inst code : Nat) (fields : List (Nat × Nat)) : OnlyMgmt s (s.sendResponse m dst inst code fields) := ⟨_, rfl⟩

theorem refuseHeads_onlyMgmt (m : Medium) (fuel : Nat) : OnlyMgmt s (s.refuseHeads m fuel) := by
  induction fuel generalizing s with
  | zero => exact .refl s
  | succ fuel ih =>
    unfold State.refuseHeads
    split
    · exact .refl s
    · split
      · exact .refl s
      · exact ((updMedium_onlyMgmt ..).trans (sendResponse_onlyMgmt ..)).trans (ih _)

/-- A request touches the endpoint alone where its effect does. -/
theorem serveRequest_onlyMgmt (r : MgmtReq) {f : State → State × Nat × List (Nat × Nat)} (hf : ∀ t, OnlyMgmt t (f t).1) : OnlyMgmt s (s.serveRequest r f) := by
  unfold State.serveRequest
  split
  · exact .refl s
  · exact (((updMedium_onlyMgmt ..).trans (hf _)).trans (sendResponse_onlyMgmt ..)).trans (refuseHeads_onlyMgmt ..)

theorem answerRequest_onlyMgmt (r : MgmtReq) (f : State → Nat × List (Nat × Nat)) : OnlyMgmt s (s.answerRequest r f) :=
  serveRequest_onlyMgmt s r fun t => .refl t

theorem setEid_onlyMgmt (m : Medium) (op eid : Nat) : OnlyMgmt s (s.setEid m op eid).1 := by
  unfold State.setEid
  split
  · exact .refl s
  · dsimp only
    split
    · exact (updMedium_onlyMgmt s m _).trans ⟨_, rfl⟩
    · exact updMedium_onlyMgmt ..

theorem setTidTo_onlyMgmt (tid : Nat) : OnlyMgmt s (s.setTidTo tid).1 := by
  unfold State.setTidTo
  split
  · exact .refl s
  · exact ⟨_, rfl⟩

theorem setReceiver_onlyMgmt (m : Medium) (enable eid : Nat) : OnlyMgmt s (s.setReceiver m enable eid).1 := by
  unfold State.setReceiver
  split
  · exact ⟨_, rfl⟩
  split
  · exact .refl s
  split
  · exact .refl s
  · exact ⟨_, rfl⟩

theorem messageDone_onlyMgmt (m : Medium) (x : Message) : OnlyMgmt s (s.messageDone m x) := by
  unfold State.messageDone
  dsimp only
  split
  · exact (updMedium_onlyMgmt ..).trans (refuseHeads_onlyMgmt ..)
  · exact .refl s

theorem packetArrives_onlyMgmt (m : Medium) (p : MctpPacket) : OnlyMgmt s (s.packetArrives m p) := by
  unfold State.packetArrives
  split
  · exact .refl s
  · dsimp only
    split
    · split
      · exact updMedium_onlyMgmt ..
      · exact .refl s
    · split
      · exact updMedium_onlyMgmt ..
      · split
        · exact (updMedium_onlyMgmt ..).trans (messageDone_onlyMgmt ..)
        · exact updMedium_onlyMgmt ..

theorem smbusRetry_onlyMgmt (lost : Bool) : OnlyMgmt s (s.smbusRetry lost) := by
  unfold State.smbusRetry
  split
  · exact .refl s
  split
  · exact updMedium_onlyMgmt ..
  split
  · exact updMedium_onlyMgmt ..
  · exact (updMedium_onlyMgmt s .smbus _).trans ⟨_, rfl⟩

theorem smbusTimeout_onlyMgmt : OnlyMgmt s s.smbusTimeout := by
  unfold State.smbusTimeout
  split
  · exact updMedium_onlyMgmt ..
  · exact .refl s

theorem eventAcked_onlyMgmt (m : Medium) (k : Nat) : OnlyMgmt s (s.eventAcked m k) := by
  unfold State.eventAcked
  split
  · exact .refl s
  · split
    · exact .refl s
    · exact ⟨_, rfl⟩

theorem eventRetry_onlyMgmt (k : Nat) : OnlyMgmt s (s.eventRetry k) := by
  unfold State.eventRetry
  split
  · split
    · exact .refl s
    split
    · exact ⟨_, rfl⟩
    · exact ⟨_, rfl⟩
  · exact .refl s

theorem rateIntervalEnd_onlyMgmt (k : Nat) : OnlyMgmt s (s.rateIntervalEnd k) := by
  unfold State.rateIntervalEnd
  dsimp only
  split
  · exact .refl s
  split
  · exact .refl s
  split
  · exact platformEvent_frame ..
  · exact ⟨_, rfl⟩

end

/-- Every row of chapter 18 settles the block after a change of the endpoint alone. -/
theorem managementRow_onlyMgmt {i : Instr} (hrow : managementRow i = true) (s : State) : ∃ t, exec i s = .next t.settle ∧ OnlyMgmt s t := by
  unfold managementRow at hrow
  split at hrow
  next => exact ⟨_, rfl, packetArrives_onlyMgmt ..⟩
  next => exact ⟨_, rfl, serveRequest_onlyMgmt _ _ fun t => setEid_onlyMgmt ..⟩
  next => exact ⟨_, rfl, answerRequest_onlyMgmt ..⟩
  next => exact ⟨_, rfl, answerRequest_onlyMgmt ..⟩
  next => exact ⟨_, rfl, answerRequest_onlyMgmt ..⟩
  next => exact ⟨_, rfl, answerRequest_onlyMgmt ..⟩
  next => exact ⟨_, rfl, answerRequest_onlyMgmt ..⟩
  next => exact ⟨_, rfl, answerRequest_onlyMgmt ..⟩
  next => exact ⟨_, rfl, answerRequest_onlyMgmt ..⟩
  next => exact ⟨_, rfl, answerRequest_onlyMgmt ..⟩
  next => exact ⟨_, rfl, serveRequest_onlyMgmt _ _ fun t => setTidTo_onlyMgmt ..⟩
  next => exact ⟨_, rfl, answerRequest_onlyMgmt ..⟩
  next => exact ⟨_, rfl, answerRequest_onlyMgmt ..⟩
  next => exact ⟨_, rfl, answerRequest_onlyMgmt ..⟩
  next => exact ⟨_, rfl, answerRequest_onlyMgmt ..⟩
  next => exact ⟨_, rfl, serveRequest_onlyMgmt _ _ fun t => setReceiver_onlyMgmt ..⟩
  next => exact ⟨_, rfl, answerRequest_onlyMgmt ..⟩
  next => exact ⟨_, rfl, answerRequest_onlyMgmt ..⟩
  next => exact ⟨_, rfl, answerRequest_onlyMgmt ..⟩
  next => exact ⟨_, rfl, answerRequest_onlyMgmt ..⟩
  next => exact ⟨_, rfl, answerRequest_onlyMgmt ..⟩
  next => exact ⟨_, rfl, answerRequest_onlyMgmt ..⟩
  next => exact ⟨_, rfl, eventAcked_onlyMgmt ..⟩
  next => exact ⟨_, rfl, eventRetry_onlyMgmt ..⟩
  next => exact ⟨_, rfl, rateIntervalEnd_onlyMgmt ..⟩
  next => exact ⟨_, rfl, smbusRetry_onlyMgmt ..⟩
  next => exact ⟨_, rfl, smbusTimeout_onlyMgmt ..⟩
  next => exact absurd hrow Bool.false_ne_true

/-- Settles O59: the row changes the endpoint alone, and in a quiet state settling does too. -/
theorem managementChangesOnlyItsEndpoint : Obligations.ManagementChangesOnlyItsEndpoint := by
  intro i s hrow hquiet
  obtain ⟨t, hexec, honly⟩ := managementRow_onlyMgmt hrow s
  obtain ⟨m, hm⟩ := honly.trans (settle_quiet_frame t (honly.quiet hquiet))
  exact ⟨m, by rw [hexec, hm]⟩

/-! ## Media and addresses -/

section
variable (s : State)

theorem mediumUp_smbus : s.mediumUp .smbus = true ↔ s.boot.aonIn = true ∧ s.boot.ioIn = true := by
  simp [State.mediumUp, State.endpointRuns]

theorem mediumUp_host (n : Nat) : s.mediumUp (.host n) = true ↔ s.boot.aonIn = true ∧ s.boot.ioIn = true ∧ n < 4 ∧ (s.port n).link = .up := by
  simp [State.mediumUp, State.endpointRuns, and_assoc]

theorem addressed_iff (m : Medium) (eid : Nat) : s.addressed m eid = true ↔ s.mediumUp m = true ∧ (eid = 0 ∨ eid = (s.medium m).eid) := by
  simp [State.addressed]

variable {s}

theorem serveRequest_elsewhere {r : MgmtReq} (hnot : s.addressed r.medium r.dstEid = false) (f : State → State × Nat × List (Nat × Nat)) :
    s.serveRequest r f = s := if_pos (by rw [hnot]; rfl)

end

/-- Settles O42: the media by their supplies and links; a request for another address is not served. -/
theorem endpointAnswersItsOwnAddresses : Obligations.EndpointAnswersItsOwnAddresses := by
  intro s r
  refine ⟨mediumUp_smbus s, mediumUp_host s, addressed_iff s, fun hnot => ?_⟩
  have hserve : ∀ f, s.serveRequest r f = s := serveRequest_elsewhere hnot
  have hanswer : ∀ f, s.answerRequest r f = s := fun f => hserve _
  refine ⟨fun a b => ⟨?_, ?_⟩, fun a => ⟨?_, ?_, ?_, ?_, ?_, ?_, ?_, ?_⟩, ?_, ?_, ?_, ?_, ?_, ?_, ?_, ?_, ?_, ?_, ?_⟩
  · exact becomes_of rfl (hserve _)
  · exact becomes_of rfl (hserve _)
  · exact becomes_of rfl (hanswer _)
  · exact becomes_of rfl (hserve _)
  all_goals exact becomes_of rfl (hanswer _)

end Sys2Proof.Machine
end

section
/-!
PROOFS. Proofs/Requests.lean: what the control, base and sensor requests answer (R649 to R662, R669, Tables 18-3 to 18-6).
-/
namespace Sys2Proof.Machine
open Sys2Proof.Safety

/-! ## A request the endpoint serves -/

section
variable {s v u : State} {r : MgmtReq} {i : Instr} {code : Nat} {fields : List (Nat × Nat)}

@[simp] theorem medium_updMedium_same (hs : Table.sortedFrom 0 s.mgmt.media = true) (m : Medium) (g : MediumState → MediumState) :
    (s.updMedium m g).medium m = g (s.medium m) := Table.get_set_same hs _ _

/-- The request leaves its medium's queue, its effect follows, and then its response; unlisted requests behind it are answered. -/
theorem serveRequest_served (haddr : s.addressed r.medium r.dstEid = true) (f : State → State × Nat × List (Nat × Nat)) :
    s.serveRequest r f =
      ((f (headTaken s r.medium)).1.sendResponse r.medium r.srcEid r.inst (f (headTaken s r.medium)).2.1 (f (headTaken s r.medium)).2.2).refuseHeads r.medium
        ((f (headTaken s r.medium)).1.medium r.medium).messages.length :=
  if_neg (by rw [haddr]; decide)

section
variable (haddr : s.addressed r.medium r.dstEid = true) (hv : v = headTaken s r.medium)
include haddr hv

/-- A served request: its effect and its answer in the state its message has left. -/
theorem manages_of_serve {f : State → State × Nat × List (Nat × Nat)} (hexec : exec i s = .next (s.serveRequest r f).settle)
    (hf : f v = (u, code, fields)) : Manages i s r u code fields := by
  refine becomes_of hexec ?_
  rw [serveRequest_served haddr, ← hv, hf]

/-- A request that only reads. -/
theorem manages_of_answer {f : State → Nat × List (Nat × Nat)} (hexec : exec i s = .next (s.answerRequest r f).settle) (hf : f v = (code, fields)) :
    Manages i s r v code fields :=
  manages_of_serve haddr hv hexec (by rw [hf])

end

/-- The EID of a medium whose message has been taken. -/
theorem headTaken_eid (hs : Table.sortedFrom 0 s.mgmt.media = true) (m : Medium) : ((headTaken s m).medium m).eid = (s.medium m).eid := by
  unfold headTaken
  rw [medium_updMedium_same hs]

/-! ## MCTP control -/

theorem setEid_invalid {m : Medium} {op eid : Nat} (hbad : 1 < op ∨ eid < 8 ∨ 254 < eid) : s.setEid m op eid = (s, mgmtInvalid, []) := if_pos hbad

section
variable {m : Medium} {op eid : Nat} (hop : op ≤ 1) (hlo : 8 ≤ eid) (hhi : eid ≤ 254) (hu : u = s.updMedium m (fun y => { y with eid := eid }))
include hop hlo hhi hu

theorem setEid_moves (hnew : (s.medium m).eid ≠ eid) (hreceiver : s.mgmt.receiver.map (·.1) = some m) :
    s.setEid m op eid = ({ u with mgmt := u.mgmt.clearReceiver }, mgmtOk, [(2, 0), (2, 0), (8, eid), (8, 0)]) := by
  subst hu
  unfold State.setEid
  rw [if_neg (by omega)]
  dsimp only
  rw [if_pos ⟨hnew, hreceiver⟩]

theorem setEid_keeps (hkeeps : (s.medium m).eid = eid ∨ s.mgmt.receiver.map (·.1) ≠ some m) :
    s.setEid m op eid = (u, mgmtOk, [(2, 0), (2, 0), (8, eid), (8, 0)]) := by
  subst hu
  unfold State.setEid
  rw [if_neg (by omega)]
  dsimp only
  rw [if_neg (fun h => hkeeps.elim h.1 (· h.2))]

end
end

/-- Settles O43: each control command by what its request holds and by the medium that carried it. -/
theorem controlRequestsAnswer : Obligations.ControlRequestsAnswer := by
  intro s v u r hs haddr hv
  refine ⟨fun op eid hop hlo hhi hu => ⟨fun hnew hreceiver => ?_, fun hkeeps => ?_⟩, fun op eid hbad => ?_, ?_, ?_, ?_, ?_, fun ty => ⟨?_, ?_, ?_⟩, ?_, ?_, ?_⟩
  · exact manages_of_serve haddr hv rfl (setEid_moves hop hlo hhi hu hnew hreceiver)
  · exact manages_of_serve haddr hv rfl (setEid_keeps hop hlo hhi hu hkeeps)
  · exact manages_of_serve haddr hv rfl (setEid_invalid hbad)
  · refine manages_of_answer haddr hv rfl ?_
    rw [← headTaken_eid hs, ← hv]
    rfl
  · exact manages_of_answer haddr hv rfl rfl
  · exact manages_of_answer haddr hv rfl rfl
  · exact manages_of_answer haddr hv rfl rfl
  · exact fun hbase => manages_of_answer haddr hv rfl (by simp [mctpVersion, hbase])
  · exact fun hpldm => manages_of_answer haddr hv rfl (by simp [mctpVersion, hpldm])
  · exact fun hmore hnot => manages_of_answer haddr hv rfl (by simp [mctpVersion, hnot, hmore.ne', Nat.ne_of_gt (Nat.zero_lt_of_lt hmore)])
  · exact manages_of_answer haddr hv rfl rfl
  · exact fun hm => ⟨manages_of_answer haddr hv rfl (by rw [hm]; rfl), manages_of_answer haddr hv rfl (by rw [hm]; rfl)⟩
  · exact fun n hm => ⟨manages_of_answer haddr hv rfl (by rw [hm]; rfl), manages_of_answer haddr hv rfl (by rw [hm]; rfl)⟩

/-! ## PLDM for Base and the repository -/

section
variable {s : State} {m : Medium}

theorem pldmVersion_other {ty : Nat} (h0 : ty ≠ 0) (h2 : ty ≠ 2) : pldmVersion ty = none := by simp [pldmVersion, h0, h2]

theorem pdr_locator {k : Nat} (hk : k ≤ 1) : s.pdr m k = (mgmtOk, [(32, 2), (8, 1), (8, s.mgmt.tid), (8, (s.medium m).eid)]) := by
  obtain rfl | rfl : k = 0 ∨ k = 1 := by omega
  · rfl
  · rfl

theorem pdr_numeric {k : Nat} (hlo : 1 ≤ k) (hhi : k ≤ 35) :
    s.pdr m (k + 1) = (mgmtOk, [(32, k + 2), (8, 2), (16, k), (8, (sensorUnit k).1), (16, (sensorUnit k).2)] ++ (s.thresholds k).pdr) := by
  have hinside : ¬ pdrCount < k + 1 := by unfold pdrCount; omega
  have hnotLast : k + 1 ≠ pdrCount := by unfold pdrCount; omega
  have hnotFirst : k + 1 ≠ 1 := by omega
  have hnumeric : k + 1 ≤ 36 := by omega
  unfold State.pdr
  simp only [if_neg (Nat.succ_ne_zero k), if_neg hinside, if_neg hnotLast, if_neg hnotFirst, if_pos hnumeric, Nat.add_sub_cancel]

theorem pdr_state {k : Nat} (hlo : 64 ≤ k) (hhi : k ≤ 91) :
    s.pdr m (k - 27) = (mgmtOk, [(32, if k = 91 then 0 else k - 26), (8, 4), (16, k), (16, (stateSet k).1), (8, (stateSet k).2)]) := by
  obtain ⟨h, rfl⟩ : ∃ h, k = h + 27 := ⟨k - 27, by omega⟩
  have hinside : ¬ pdrCount < h := by unfold pdrCount; omega
  have hrecord : h ≠ 0 := by omega
  have hnotFirst : h ≠ 1 := by omega
  have hnotNumeric : ¬ h ≤ 36 := by omega
  have hsensor : h - 37 + 64 = h + 27 := by omega
  have hnext : (if h = pdrCount then 0 else h + 1) = if h + 27 = 91 then 0 else h + 27 - 26 := by unfold pdrCount; split <;> split <;> omega
  unfold State.pdr
  simp only [Nat.add_sub_cancel, if_neg hrecord, if_neg hinside, if_neg hnotFirst, if_neg hnotNumeric, hsensor, hnext]

theorem pdr_beyond {k : Nat} (hk : 64 < k) : s.pdr m k = (130, []) := by
  have hrecord : k ≠ 0 := by omega
  unfold State.pdr
  simp only [if_neg hrecord]
  exact if_pos hk

end

/-- Settles O44: each base command by its operand, the repository by the record asked for. -/
theorem pldmBaseRequestsAnswer : Obligations.PldmBaseRequestsAnswer := by
  intro s v r hs haddr hv
  have heid : (v.medium r.medium).eid = (s.medium r.medium).eid := by rw [hv, headTaken_eid hs]
  have htid : v.mgmt.tid = s.mgmt.tid := by rw [hv]; rfl
  have hthresholds : v.thresholds = s.thresholds := by rw [hv]; rfl
  refine ⟨fun tid hlo hhi => ?_, fun tid hbad => ?_, ?_, ?_, ?_, fun ty h0 h2 => ⟨?_, ?_⟩, ?_, ?_, ?_, ?_, fun k hk => ?_, fun k hlo hhi => ?_, fun k hlo hhi => ?_,
    fun k hk => ?_⟩
  · exact manages_of_serve haddr hv rfl (if_neg (by omega))
  · exact manages_of_serve haddr hv rfl (if_pos hbad)
  · exact manages_of_answer haddr hv rfl (by rw [htid])
  · exact manages_of_answer haddr hv rfl rfl
  · exact manages_of_answer haddr hv rfl rfl
  · exact manages_of_answer haddr hv rfl (by simp [pldmVersion_other h0 h2])
  · exact manages_of_answer haddr hv rfl (by simp [pldmVersion_other h0 h2])
  · exact manages_of_answer haddr hv rfl rfl
  · exact manages_of_answer haddr hv rfl rfl
  · exact manages_of_answer haddr hv rfl rfl
  · exact manages_of_answer haddr hv rfl rfl
  · exact manages_of_answer haddr hv rfl (by rw [pdr_locator hk, heid, htid])
  · exact manages_of_answer haddr hv rfl (by rw [pdr_numeric hlo hhi, hthresholds])
  · exact manages_of_answer haddr hv rfl (pdr_state hlo hhi)
  · exact manages_of_answer haddr hv rfl (pdr_beyond hk)

end Sys2Proof.Machine
end

section
/-!
PROOFS. Proofs/Sensors.lean: sensor requests (R659 to R662, R670, Tables 18-5 to 18-7) and platform events (R664 to R666).
-/
namespace Sys2Proof.Machine
open Sys2Proof.Safety

/-! ## Sensors -/

section
variable {s : State} {k : Nat}

theorem sensorReading_enabled (hlo : 1 ≤ k) (hhi : k ≤ 35) (hon : s.operational k = .enabled) :
    s.sensorReading k = (mgmtOk, [(8, 0), (8, (s.thresholds k).next (s.watch k).current (s.reading k)), (32, unsigned 32 (s.reading k))]) := by
  have hnumeric : isNumeric k = true := decide_eq_true ⟨hlo, hhi⟩
  unfold State.sensorReading
  rw [hnumeric, hon]
  rfl

theorem sensorReading_off (hlo : 1 ≤ k) (hhi : k ≤ 35) (hoff : s.operational k ≠ .enabled) : s.sensorReading k = (mgmtOk, [(8, (s.operational k).code)]) := by
  have hnumeric : isNumeric k = true := decide_eq_true ⟨hlo, hhi⟩
  unfold State.sensorReading
  rw [hnumeric]
  dsimp only
  rw [if_neg hoff]
  rfl

theorem isNumeric_not (hnot : k = 0 ∨ 35 < k) : isNumeric k = false := decide_eq_false (by omega)

theorem sensorThresholds_numeric (hlo : 1 ≤ k) (hhi : k ≤ 35) :
    s.sensorThresholds k =
      (mgmtOk, (1, bit (s.thresholds k).upper) ::
        (thresholdField (s.thresholds k).warning ++ thresholdField (s.thresholds k).critical ++ thresholdField (s.thresholds k).fatal)) := by
  have hnumeric : isNumeric k = true := decide_eq_true ⟨hlo, hhi⟩
  unfold State.sensorThresholds
  rw [hnumeric]
  rfl

theorem stateReadings_enabled (hlo : 64 ≤ k) (hhi : k ≤ 91) (hon : s.operational k = .enabled) :
    s.stateReadings k = (mgmtOk, [(8, 1), (8, 0), (8, s.sensorState k)]) := by
  have hsensor : isStateSensor k = true := decide_eq_true ⟨hlo, hhi⟩
  unfold State.stateReadings
  dsimp only
  rw [hsensor, if_neg (by decide), if_pos (.inl hon), hon]
  rfl

theorem stateReadings_off (hlo : 64 ≤ k) (hhi : k ≤ 91) (hoff : s.operational k ≠ .enabled) (hnot : k ≠ 67) :
    s.stateReadings k = (mgmtOk, [(8, 1), (8, (s.operational k).code)]) := by
  have hsensor : isStateSensor k = true := decide_eq_true ⟨hlo, hhi⟩
  unfold State.stateReadings
  dsimp only
  rw [hsensor, if_neg (by decide), if_neg (fun h => h.elim hoff (fun h => hnot h.1))]
  rfl

theorem isStateSensor_not (hnot : k < 64 ∨ 91 < k) : isStateSensor k = false := decide_eq_false (by omega)

/-! ## Table 18-7 -/

theorem sensorState_tripped (htrip : s.power.tripped = true) : s.sensorState 64 = 6 ∧ s.sensorState 67 = 4 := by
  simp [State.sensorState, State.deviceState, htrip]

theorem sensors_inReset (hcool : s.power.tripped = false) (hreset : s.boot.inReset = true) :
    s.sensorState 64 = 1 ∧ s.sensorState 67 = 4 ∧ s.operational 1 = .unavailable ∧ s.operational 65 = .unavailable := by
  simp [State.sensorState, State.deviceState, State.operational, hcool, hreset]

section
variable (hcool : s.power.tripped = false) (hrun : s.boot.inReset = false)
include hcool hrun

theorem sensorState_fatal (hfatal : s.boot.fatal.isSome = true) : s.sensorState 64 = 5 := by
  simp [State.sensorState, State.deviceState, hcool, hrun, hfatal]

theorem sensorState_ready (hsound : s.boot.fatal = none) (hready : s.boot.stage = .ready) : s.sensorState 64 = 3 := by
  simp [State.sensorState, State.deviceState, hcool, hrun, hsound, hready]

theorem operational_ready (hready : s.boot.stage = .ready) (k : Nat) : s.operational k = .enabled := by
  have hclass : classOperational (sensorClass k) .ready = .enabled := by cases sensorClass k <;> rfl
  simp [State.operational, hcool, hrun, hready, hclass]

end

/-- R661: a severity is kept until the reading has passed its threshold's hysteresis. -/
theorem next_kept {t : Thresholds} {before : Nat} {x : Int} (hless : t.severity x < codeSeverity before) (hkept : t.cleared (codeSeverity before) x = false) :
    t.next before x = before := if_pos (by simp [hless, hkept])

end

/-- Settles O45: each request by its sensor's ID and availability, which do not depend on the endpoint's queue. -/
theorem sensorRequestsAnswer : Obligations.SensorRequestsAnswer := by
  intro s v r haddr hv
  have hoper : v.operational = s.operational := by rw [hv]; rfl
  have hthresholds : v.thresholds = s.thresholds := by rw [hv]; rfl
  have hwatch : v.watch = s.watch := by rw [hv]; rfl
  have hreading : v.reading = s.reading := by rw [hv]; rfl
  have hstate : v.sensorState = s.sensorState := by rw [hv]; rfl
  refine ⟨fun k hlo hhi => ⟨fun hon => ?_, fun hoff => ?_, ?_⟩, fun k hnot => ⟨?_, ?_⟩, fun k hlo hhi => ⟨fun hon => ?_, fun hoff hnot => ?_⟩, fun k hnot => ?_,
    sensorState_tripped, sensors_inReset, sensorState_fatal, fun hcool hrun hsound hready => ⟨?_, fun k _ _ => ?_⟩, rfl, fun t before x => next_kept⟩
  · exact manages_of_answer haddr hv rfl (by rw [sensorReading_enabled hlo hhi (hoper ▸ hon), hthresholds, hwatch, hreading])
  · exact manages_of_answer haddr hv rfl (by rw [sensorReading_off hlo hhi (hoper ▸ hoff), hoper])
  · exact manages_of_answer haddr hv rfl (by rw [sensorThresholds_numeric hlo hhi, hthresholds])
  · exact manages_of_answer haddr hv rfl (if_pos (by rw [isNumeric_not hnot]; rfl))
  · exact manages_of_answer haddr hv rfl (if_pos (by rw [isNumeric_not hnot]; rfl))
  · exact manages_of_answer haddr hv rfl (by rw [stateReadings_enabled hlo hhi (hoper ▸ hon), hstate])
  · exact manages_of_answer haddr hv rfl (by rw [stateReadings_off hlo hhi (hoper ▸ hoff) hnot, hoper])
  · exact manages_of_answer haddr hv rfl (if_pos (by rw [isStateSensor_not hnot]; rfl))
  · exact sensorState_ready hcool hrun hsound hready
  · exact operational_ready hcool hrun hready k

/-! ## The event receiver and its messages -/

/-- What holds of every value a table lists and of its default holds of every value it reads. -/
theorem get_of_forall {α : Type} {P : α → Prop} {d : α} (hd : P d) {t : Table α} (ht : ∀ e ∈ t, P e.2) (k : Nat) : P (Table.get d t k) := by
  induction t with
  | nil => exact hd
  | cons e t ih =>
    obtain ⟨hhead, htail⟩ := List.forall_mem_cons.mp ht
    unfold Table.get
    split
    · exact hhead
    split
    · exact hd
    · exact ih htail

theorem clearReceiver_holds_nothing (g : Mgmt) : g.clearReceiver.unacked = [] ∧ ∀ k, (Table.get {} g.clearReceiver.sensors k).waiting = false := by
  refine ⟨rfl, get_of_forall (P := fun x : SensorState => x.waiting = false) rfl fun e he => ?_⟩
  obtain ⟨y, -, rfl⟩ := List.mem_map.mp (List.mem_of_mem_filter he)
  rfl

section
variable {s : State} {m : Medium} {k eid : Nat}

theorem setReceiver_same (hsame : s.mgmt.receiver = some (m, eid)) : s.setReceiver m 1 eid = (s, mgmtOk, []) := by
  simp [State.setReceiver, hsame]

theorem setReceiver_names (hother : s.mgmt.receiver ≠ some (m, eid)) :
    s.setReceiver m 1 eid = ({ s with mgmt := { s.mgmt.clearReceiver with receiver := some (m, eid) } }, mgmtOk, []) := by
  simp [State.setReceiver, hother]

theorem setReceiver_unsupported {e : Nat} (he : 1 < e) : s.setReceiver m e eid = (s, 129, []) := by
  have h0 : e ≠ 0 := by omega
  have h1 : e ≠ 1 := by omega
  simp [State.setReceiver, h0, h1]

theorem eventAcked_not (hnot : s.mgmt.receiver.map (·.1) ≠ some m ∨ s.mediumUp m = false ∨ s.mgmt.unacked.find? (fun e => e.sensor == k) = none) :
    s.eventAcked m k = s := by
  unfold State.eventAcked
  split
  · rfl
  · next hheard =>
    obtain ⟨hreceiver, hup⟩ := not_or.mp hheard
    rw [hnot.resolve_left hreceiver |>.resolve_left hup]

theorem eventRetry_none (hnone : s.mgmt.receiver = none ∨ s.mgmt.unacked.find? (fun e => e.sensor == k) = none) : s.eventRetry k = s := by
  unfold State.eventRetry
  split
  · next hreceiver hfind =>
    rcases hnone with h | h
    · rw [h] at hreceiver
      cases hreceiver
    · rw [h] at hfind
      cases hfind
  · rfl

section
variable {e : PendingEvent} (hreceiver : s.mgmt.receiver = some (m, eid)) (hup : s.mediumUp m = true)
  (hfind : s.mgmt.unacked.find? (fun e => e.sensor == k) = some e)
include hreceiver hup hfind

theorem eventAcked_drops : s.eventAcked m k = { s with mgmt := { s.mgmt with unacked := s.mgmt.unacked.erase e } } := by
  unfold State.eventAcked
  rw [if_neg (by simp [hreceiver, hup]), hfind]

theorem eventRetry_eq :
    s.eventRetry k =
      if e.tries < 3 then
        { s with mgmt := { s.mgmt with sent := s.mgmt.sent ++ [.platformEvent m eid k e.state e.previous], unacked := triedAgain e s.mgmt.unacked } }
      else { s with mgmt := { s.mgmt with unacked := s.mgmt.unacked.erase e } } := by
  unfold State.eventRetry
  rw [hreceiver, hfind]
  dsimp only
  rw [hup]
  rfl

end

theorem rateIntervalEnd_not
    (hnot : (s.watch k).sentDt = none ∨ s.endpointRuns = false ∨ ∃ t, (s.watch k).sentDt = some t ∧ t ≤ s.dt ∧ s.dt < t + 24576000) : s.rateIntervalEnd k = s := by
  unfold State.rateIntervalEnd
  dsimp only
  cases hsent : (s.watch k).sentDt with
  | none => rfl
  | some t =>
    refine if_pos ?_
    rcases hnot with h | h | ⟨t', h, hlo, hhi⟩
    · rw [hsent] at h
      cases h
    · exact .inl (by rw [h]; rfl)
    · rw [hsent] at h
      cases h
      exact .inr ⟨hlo, hhi⟩

theorem rateIntervalEnd_due {t : Nat} (hsent : (s.watch k).sentDt = some t) (hrun : s.endpointRuns = true) (hdue : t + 24576000 ≤ s.dt) :
    s.rateIntervalEnd k =
      if (s.watch k).waiting then s.platformEvent k (s.watch k).current (s.watch k).sent else s.updWatch k (fun y => { y with sentDt := none }) := by
  unfold State.rateIntervalEnd
  dsimp only
  rw [hsent]
  exact if_neg (by simp [hrun, hdue.not_gt])

end

/-- Settles O46: the receiver by the request, a message by its sendings and a change by the second since the last. -/
theorem eventRowsAct : Obligations.EventRowsAct := by
  intro s v r hv
  refine ⟨fun haddr => ⟨fun eid => ?_, fun eid hsame => ?_, fun eid hother => ?_, fun e eid he => ?_, fun hnone => ?_, fun m eid hsome => ?_⟩,
    clearReceiver_holds_nothing _, fun m k hnot => ?_, fun m k eid e hreceiver hup hfind => ⟨?_, fun hfew => ?_, fun hthree => ?_⟩, fun k hnone => ?_, fun k hnot => ?_,
    fun k t hsent hrun hdue => ⟨fun hwaits => ?_, fun hnot => ?_⟩⟩
  · exact manages_of_serve haddr hv rfl rfl
  · exact manages_of_serve haddr hv rfl (setReceiver_same hsame)
  · exact manages_of_serve haddr hv rfl (setReceiver_names hother)
  · exact manages_of_serve haddr hv rfl (setReceiver_unsupported he)
  · have hv' : v.mgmt.receiver = none := by rw [hv]; exact hnone
    exact manages_of_answer haddr hv rfl (by rw [hv']; rfl)
  · have hv' : v.mgmt.receiver = some (m, eid) := by rw [hv]; exact hsome
    exact manages_of_answer haddr hv rfl (by rw [hv']; rfl)
  · exact becomes_of rfl (eventAcked_not hnot)
  · exact becomes_of rfl (eventAcked_drops hreceiver hup hfind)
  · exact becomes_of rfl ((eventRetry_eq hreceiver hup hfind).trans (if_pos hfew))
  · exact becomes_of rfl ((eventRetry_eq hreceiver hup hfind).trans (if_neg hthree.not_gt))
  · exact becomes_of rfl (eventRetry_none hnone)
  · exact becomes_of rfl (rateIntervalEnd_not hnot)
  · exact becomes_of rfl ((rateIntervalEnd_due hsent hrun hdue).trans (if_pos hwaits))
  · exact becomes_of rfl ((rateIntervalEnd_due hsent hrun hdue).trans (by rw [hnot]; rfl))

end Sys2Proof.Machine
end

section
/-!
PROOFS. Proofs/Packets.lean: packets, their reassembly and the SMBus transfer (R640, R646, R647, R651 to R655, R711).
-/
namespace Sys2Proof.Machine
open Sys2Proof.Safety

section
variable {s : State} {m : Medium} {p : MctpPacket}

/-! ## A packet -/

theorem packetArrives_refused (hnot : s.addressed m p.dstEid = false ∨ 64 < p.payload.length ∨ (m = .smbus ∧ (p.pecOk = false ∨ p.slave ≠ s.smbusAddress))) :
    s.packetArrives m p = s := by
  unfold State.packetArrives
  refine if_pos ?_
  rcases hnot with h | h | ⟨rfl, h | h⟩
  · rw [h]
    rfl
  · rw [decide_eq_true h, Bool.or_true]
  · simp [h]
  · simp [h]

/-- The message a packet goes on with: a first packet's own, where fewer than four others are open, else the one that its source and tag name. -/
def State.reassemblyOf (s : State) (m : Medium) (p : MctpPacket) : Option Reassembly :=
  if p.som then
    (if ((s.medium m).parts.filter (fun x => !x.matches p)).length < 4 then some { srcEid := p.srcEid, msgTag := p.msgTag, nextSeq := p.pktSeq, bytes := [] } else none)
  else (s.medium m).parts.find? (fun x => x.matches p)

theorem reassemblyOf_first (hsom : p.som = true) (hroom : ((s.medium m).parts.filter (fun x => !x.matches p)).length < 4) :
    s.reassemblyOf m p = some { srcEid := p.srcEid, msgTag := p.msgTag, nextSeq := p.pktSeq, bytes := [] } :=
  (if_pos hsom).trans (if_pos hroom)

theorem reassemblyOf_full (hsom : p.som = true) (hfull : 4 ≤ ((s.medium m).parts.filter (fun x => !x.matches p)).length) : s.reassemblyOf m p = none :=
  (if_pos hsom).trans (if_neg hfull.not_gt)

theorem reassemblyOf_later (hlater : p.som = false) : s.reassemblyOf m p = (s.medium m).parts.find? (fun x => x.matches p) :=
  if_neg (by rw [hlater]; exact Bool.false_ne_true)

section
variable (haddr : s.addressed m p.dstEid = true) (hsize : p.payload.length ≤ 64) (hbus : m = .smbus → p.pecOk = true ∧ p.slave = s.smbusAddress)
include haddr hsize hbus

theorem packet_taken : ¬ (!s.addressed m p.dstEid || (m == .smbus && (!p.pecOk || p.slave != s.smbusAddress)) || decide (64 < p.payload.length)) = true := by
  have hsmbus : (m == .smbus && (!p.pecOk || p.slave != s.smbusAddress)) = false := by
    rw [Bool.and_eq_false_imp]
    intro hm
    obtain ⟨hpec, hslave⟩ := hbus (beq_iff_eq.mp hm)
    rw [hpec, hslave]
    simp
  rw [haddr, hsmbus]
  simpa using hsize

theorem packetArrives_noPart (hpart : s.reassemblyOf m p = none) :
    s.packetArrives m p = if p.som then s.updMedium m (fun y => { y with parts := (s.medium m).parts.filter (fun y => !y.matches p) }) else s := by
  unfold State.reassemblyOf at hpart
  unfold State.packetArrives
  rw [if_neg (packet_taken haddr hsize hbus)]
  dsimp only
  rw [hpart]

theorem packetArrives_part {x : Reassembly} (hpart : s.reassemblyOf m p = some x) :
    s.packetArrives m p =
      if x.nextSeq % 4 ≠ p.pktSeq % 4 ∨ 1024 < (x.bytes ++ p.payload.map (· % 256)).length then
        s.updMedium m (fun y => { y with parts := (s.medium m).parts.filter (fun y => !y.matches p) })
      else if p.eom then
        (s.updMedium m (fun y => { y with parts := (s.medium m).parts.filter (fun y => !y.matches p) })).messageDone m
          { srcEid := p.srcEid, bytes := x.bytes ++ p.payload.map (· % 256) }
      else
        s.updMedium m (fun y => { y with parts := (s.medium m).parts.filter (fun y => !y.matches p) ++
          [{ x with nextSeq := (p.pktSeq + 1) % 4, bytes := x.bytes ++ p.payload.map (· % 256) }] }) := by
  unfold State.reassemblyOf at hpart
  unfold State.packetArrives
  rw [if_neg (packet_taken haddr hsize hbus)]
  dsimp only
  rw [hpart]

/-- A first packet of a message with room is in sequence and short enough. -/
theorem packetArrives_first (hsom : p.som = true) (hroom : ((s.medium m).parts.filter (fun x => !x.matches p)).length < 4) :
    s.packetArrives m p =
      if p.eom then
        (s.updMedium m (fun y => { y with parts := (s.medium m).parts.filter (fun y => !y.matches p) })).messageDone m
          { srcEid := p.srcEid, bytes := p.payload.map (· % 256) }
      else
        s.updMedium m (fun y => { y with parts := (s.medium m).parts.filter (fun y => !y.matches p) ++
          [{ srcEid := p.srcEid, msgTag := p.msgTag, nextSeq := (p.pktSeq + 1) % 4, bytes := p.payload.map (· % 256) }] }) := by
  rw [packetArrives_part haddr hsize hbus (reassemblyOf_first hsom hroom)]
  refine if_neg ?_
  rintro (h | h)
  · exact h rfl
  · rw [List.nil_append, List.length_map] at h
    omega

end

/-! ## A complete message -/

theorem messageDone_discarded {x : Message} (hnot : 1 < x.byte 0 % 128 ∨ x.byte 1 < 128) : s.messageDone m x = s := by
  unfold State.messageDone
  refine if_neg ?_
  omega

theorem refuseHeads_listed {x : Message} {rest : List Message} (hhead : (s.medium m).messages = x :: rest) (hlisted : x.error = none) (fuel : Nat) :
    s.refuseHeads m (fuel + 1) = s := by
  unfold State.refuseHeads
  rw [hhead]
  dsimp only
  rw [hlisted]

theorem messageDone_waits {x : Message} (hsome : x.bytes ≠ []) (htype : x.byte 0 % 128 ≤ 1) (hrequest : 128 ≤ x.byte 1) (hlisted : x.error = none)
    (hempty : (s.medium m).messages = []) : (s.messageDone m x).medium m = { s.medium m with messages := [x] } := by
  have htaken : ((x.bytes.length ≠ 0 ∧ x.byte 0 % 128 = 0) ∨ x.byte 0 % 128 = 1) ∧ 128 ≤ x.byte 1 := by
    have hlen : x.bytes.length ≠ 0 := by simpa using hsome
    omega
  have hmedium : (s.updMedium m (fun y => { y with messages := y.messages ++ [x] })).medium m = { s.medium m with messages := [x] } := by
    refine (Table.get_set_ne _ _ fun h => ?_).trans (by dsimp only; rw [hempty]; rfl)
    have hnone : (s.medium m).messages ++ [x] = [] := congrArg MediumState.messages h
    simp at hnone
  unfold State.messageDone
  dsimp only
  rw [if_pos htaken, hmedium]
  exact (congrArg (fun t => State.medium t m) (refuseHeads_listed (by rw [hmedium]) hlisted 0)).trans hmedium

theorem error_pldmType {x : Message} (hpldm : x.byte 0 % 128 = 1) (h0 : x.byte 2 % 64 ≠ 0) (h2 : x.byte 2 % 64 ≠ 2) : x.error = some mgmtPldmType := by
  simp [Message.error, hpldm, h0, h2]

/-! ## The SMBus transfer -/

theorem smbusRetry_idle (hidle : s.endpointRuns = false ∨ s.mgmt.sent.any MgmtSent.onSmbus = false) (lost : Bool) : s.smbusRetry lost = s :=
  if_pos (by rcases hidle with h | h <;> rw [h] <;> simp)

theorem smbusRetry_busy (hrun : s.endpointRuns = true) (hsent : s.mgmt.sent.any MgmtSent.onSmbus = true) (lost : Bool) :
    s.smbusRetry lost =
      if !lost then s.updMedium .smbus (fun y => { y with retries := 0 })
      else if (s.medium .smbus).retries = 0 then s.updMedium .smbus (fun y => { y with retries := 1 })
      else
        let t := s.updMedium .smbus (fun y => { y with retries := 0 })
        { t with mgmt := { t.mgmt with sent := dropNewest t.mgmt.sent } } :=
  if_neg (by rw [hrun, hsent]; decide)

theorem smbusTimeout_off (hoff : s.endpointRuns = false) : s.smbusTimeout = s := if_neg (by rw [hoff]; exact Bool.false_ne_true)

end

/-- Settles O47: a packet by its address, its place in its message and the messages open; the transfer by its failures. -/
theorem packetsReassemble : Obligations.PacketsReassemble := by
  intro s m p
  refine ⟨fun hnot => becomes_of rfl (packetArrives_refused hnot), ?_, fun x => messageDone_discarded, fun x => messageDone_waits, fun x => error_pldmType,
    fun hidle lost => becomes_of rfl (smbusRetry_idle hidle lost), fun hrun hsent => ⟨?_, fun hfirst => ?_, ?_⟩, fun hrun => becomes_of rfl (if_pos hrun),
    fun hoff => becomes_of rfl (smbusTimeout_off hoff)⟩
  · rintro others bs x haddr hsize hbus rfl rfl
    refine ⟨fun hsom hmore hroom => ?_, fun hsom hlast hroom => ?_, fun hsom hfull => ?_, fun hlater hnone => ?_, fun hlater hpart => ⟨fun hbad => ?_,
      fun hseq hlen hlast => ?_, fun hseq hlen hmore => ?_⟩⟩
    · exact becomes_of rfl ((packetArrives_first haddr hsize hbus hsom hroom).trans (by rw [hmore]; rfl))
    · exact becomes_of rfl ((packetArrives_first haddr hsize hbus hsom hroom).trans (if_pos hlast))
    · exact becomes_of rfl ((packetArrives_noPart haddr hsize hbus (reassemblyOf_full hsom hfull)).trans (if_pos hsom))
    · exact becomes_of rfl ((packetArrives_noPart haddr hsize hbus ((reassemblyOf_later hlater).trans hnone)).trans (by rw [hlater]; rfl))
    · exact becomes_of rfl ((packetArrives_part haddr hsize hbus ((reassemblyOf_later hlater).trans hpart)).trans (if_pos hbad))
    · exact becomes_of rfl ((packetArrives_part haddr hsize hbus ((reassemblyOf_later hlater).trans hpart)).trans
        ((if_neg (not_or.mpr ⟨not_not.mpr hseq, hlen.not_gt⟩)).trans (if_pos hlast)))
    · exact becomes_of rfl ((packetArrives_part haddr hsize hbus ((reassemblyOf_later hlater).trans hpart)).trans
        ((if_neg (not_or.mpr ⟨not_not.mpr hseq, hlen.not_gt⟩)).trans (by rw [hmore]; rfl)))
  · exact becomes_of rfl (smbusRetry_busy hrun hsent false)
  · exact becomes_of rfl ((smbusRetry_busy hrun hsent true).trans (if_pos hfirst))
  · rintro t hagain rfl
    exact becomes_of rfl ((smbusRetry_busy hrun hsent true).trans (if_neg hagain))

end Sys2Proof.Machine
end

section
/-!
PROOFS. Proofs/Tap.lean: the test access port and the state of the pins (R699, R713, R715, Table 20-1).
-/
namespace Sys2Proof.Machine
open Sys2Proof.Safety

section
variable {s : State} {x : Pin}

theorem jtagOf_other {c : Nat} (hc : 3 < c) : jtagOf c = .bypass := by
  unfold jtagOf
  rw [if_neg (by omega), if_neg (by omega), if_neg (by omega), if_neg (by omega)]

theorem instructionUpdated_off (hoff : s.endpointRuns = false) (code cells : Nat) : s.instructionUpdated code cells = s :=
  if_neg (by rw [hoff]; exact Bool.false_ne_true)

theorem pin_unpowered (hoff : s.endpointRuns = false) (x : Pin) : s.pin x = .highZ := if_pos (by rw [hoff]; rfl)

section
variable (hrun : s.endpointRuns = true)
include hrun

theorem pin_powered :
    s.pin x = match s.pins.instr with
      | .extest => s.pins.drive x
      | .clamp => s.pins.drive x
      | .highz => if x.outputCell.isSome then .highZ else .input
      | .sample => s.functional x
      | .bypass => s.functional x := by
  refine (if_neg (by rw [hrun]; decide)).trans ?_
  cases s.pins.instr <;> rfl

theorem pin_functional (hinstr : s.pins.instr = .bypass ∨ s.pins.instr = .sample) : s.pin x = s.functional x := by
  rw [pin_powered hrun]
  rcases hinstr with h | h <;> rw [h]

theorem pin_highz (hinstr : s.pins.instr = .highz) (hout : x.outputCell.isSome = true) : s.pin x = .highZ := by
  rw [pin_powered hrun, hinstr]
  exact if_pos hout

theorem pin_driven (hinstr : s.pins.instr = .extest ∨ s.pins.instr = .clamp) : s.pin x = s.pins.drive x := by
  rw [pin_powered hrun]
  rcases hinstr with h | h <;> rw [h]

end

/-! ## What a boundary cell drives -/

section
variable {p : Pins} {k : Nat} (hcell : x.outputCell = some k)
include hcell

theorem drive_cell :
    p.drive x =
      if x.openDrain then (if flag p.cells (x.cell + k + 1) && !flag p.cells (x.cell + k) then .low else .released)
      else if flag p.cells (x.cell + k + 1) then (if flag p.cells (x.cell + k) then .high else .low) else .highZ := by
  unfold Pins.drive
  rw [hcell]

theorem drive_enabled (hpush : x.openDrain = false) (hon : flag p.cells (x.cell + k + 1) = true) :
    p.drive x = if flag p.cells (x.cell + k) = true then .high else .low := by
  rw [drive_cell hcell, hpush, hon]
  rfl

theorem drive_disabled (hpush : x.openDrain = false) (hoff : flag p.cells (x.cell + k + 1) = false) : p.drive x = .highZ := by
  rw [drive_cell hcell, hpush, hoff]
  rfl

/-- An open-drain pin is only pulled low. -/
theorem drive_openDrain (hopen : x.openDrain = true) :
    p.drive x = .low ↔ flag p.cells (x.cell + k + 1) = true ∧ flag p.cells (x.cell + k) = false := by
  rw [drive_cell hcell, hopen]
  cases flag p.cells (x.cell + k + 1) <;> cases flag p.cells (x.cell + k) <;> decide

end

/-! ## The functional state -/

theorem functional_thermTrip (htrip : s.power.tripped = true) : s.functional .thermTrip = .low := if_pos htrip

theorem functional_tdm (hboot : s.boot.stage ≠ .ready) (t : Nat) :
    s.functional (.tdmBclk t) = .low ∧ s.functional (.tdmFs t) = .low ∧ s.functional (.tdmDout t) = .low := by
  simp [State.functional, hboot]

end

/-- Settles O48: the instruction by the supplies, a pin by the instruction, its cells and its function. -/
theorem tapRowsAct : Obligations.TapRowsAct := by
  intro s
  refine ⟨fun code cells hrun => becomes_of rfl (if_pos hrun), fun code cells hoff => becomes_of rfl (instructionUpdated_off hoff code cells), becomes_of rfl rfl,
    ⟨rfl, rfl, rfl, rfl, fun c => jtagOf_other⟩, fun x hoff => pin_unpowered hoff x, fun x => pin_functional, fun x => pin_highz,
    fun x k hrun hinstr hcell => ?_, functional_thermTrip, functional_tdm⟩
  rw [pin_driven hrun hinstr]
  exact ⟨drive_enabled hcell, drive_disabled hcell, drive_openDrain hcell⟩

end Sys2Proof.Machine
end

section
/-!
PROOFS. Proofs/Messages.lean: how a message is taken from its mailbox or its ring, and what a header that fails a check answers (R434, R441 to R450).
-/
namespace Sys2Proof.Machine
open Sys2Proof.Safety

/-! ## The header's checks -/

section
variable {c : Call}

theorem headerCheck_version (hversion : c.version ≠ 1) : headerCheck c = some { status := 0x0101 } := if_pos hversion

section
variable (hversion : c.version = 1)
include hversion

theorem headerCheck_unknown (hop : cmdSpec c.opcode = none) : headerCheck c = some { status := 0x0102 } := by
  unfold headerCheck
  rw [if_neg (not_not.mpr hversion), hop]
  rfl

variable {d : CmdSpec} (hop : cmdSpec c.opcode = some d)
include hop

/-- A known opcode's checks in their order: the length, the reserved flags, a handle where there is none, the channel. -/
theorem headerCheck_known :
    headerCheck c =
      firstFail [plainFail (decide (lengthLimit c < c.length) || decide (c.length ≠ d.length)) 0x0103, (decide (c.resFlags ≠ 0), Answer.fail 0x0201 2),
                 (d.noHandle && decide (c.handle ≠ 0), Answer.fail 0x0201 8), plainFail (d.admin && c.chan != .mailbox) 0x0105] := by
  unfold headerCheck
  rw [if_neg (not_not.mpr hversion), hop]

theorem headerCheck_length (hbad : lengthLimit c < c.length ∨ c.length ≠ d.length) : headerCheck c = some { status := 0x0103 } := by
  have hfails : (decide (lengthLimit c < c.length) || decide (c.length ≠ d.length)) = true := by simpa using hbad
  rw [headerCheck_known hversion hop, hfails]
  rfl

variable (hlimit : c.length ≤ lengthLimit c) (hlength : c.length = d.length)
include hlimit hlength

theorem headerCheck_flags (hflags : c.resFlags ≠ 0) : headerCheck c = some { status := 0x0201, detail := 2 } := by
  have hfits : (decide (lengthLimit c < c.length) || decide (c.length ≠ d.length)) = false := by simpa [hlength] using hlength ▸ hlimit
  rw [headerCheck_known hversion hop, hfits, decide_eq_true hflags]
  rfl

theorem headerCheck_handle (hflags : c.resFlags = 0) (hno : d.noHandle = true) (hhandle : c.handle ≠ 0) :
    headerCheck c = some { status := 0x0201, detail := 8 } := by
  have hfits : (decide (lengthLimit c < c.length) || decide (c.length ≠ d.length)) = false := by simpa [hlength] using hlength ▸ hlimit
  rw [headerCheck_known hversion hop, hfits, hflags, hno, decide_eq_true hhandle]
  rfl

theorem headerCheck_admin (hflags : c.resFlags = 0) (hhandle : d.noHandle = true → c.handle = 0) (hadmin : d.admin = true) (hring : c.chan ≠ .mailbox) :
    headerCheck c = some { status := 0x0105 } := by
  have hfits : (decide (lengthLimit c < c.length) || decide (c.length ≠ d.length)) = false := by simpa [hlength] using hlength ▸ hlimit
  have hnamed : (d.noHandle && decide (c.handle ≠ 0)) = false := by simpa using hhandle
  rw [headerCheck_known hversion hop, hfits, hflags, hnamed, hadmin, bne_iff_ne.mpr hring]
  rfl

end
end

/-! ## A message that ends at its header -/

/-- The record of a message just accepted at a port that holds `p`. -/
def State.entryAt (s : State) (c : Call) (p : HostPort) : Accepted :=
  { id := p.nextId, call := c, dt := s.dt, maxTicks := s.maxTicks c, started := false, discarded := false, key := 0 }

/-- What a message that ends at its header leaves of a port that had none: it is accepted, counted and answered. -/
def State.refusedPort (s : State) (c : Call) (a : Answer) (p : HostPort) : HostPort :=
  ({ p with accepted := [s.entryAt c p], nextId := p.nextId + 1, cnt := { p.cnt with commandsAccepted := bump 64 p.cnt.commandsAccepted 1 } } : HostPort).finish
    s.dt (s.entryAt c p) a

section
variable {s : State} {c : Call} {a : Answer}

theorem accept_refused (hs : Table.sortedFrom 0 s.ports = true) (hhead : headerCheck c = some a) (hfree : (s.port c.port).accepted = []) :
    s.accept c = s.updPort c.port (s.refusedPort c a) := by
  have hfind : [s.entryAt c (s.port c.port)].find? (fun x => x.id == (s.port c.port).nextId) = some (s.entryAt c (s.port c.port)) := by
    simp [State.entryAt]
  unfold State.entryAt at hfind
  unfold State.accept State.screen State.complete State.updPort
  dsimp only
  rw [hhead, hfree, List.nil_append]
  dsimp only
  rw [State.port_setPort s hs]
  dsimp only
  rw [hfind]
  dsimp only
  rw [setPort_setPort s hs]
  rfl

theorem updPort_updPort (hs : Table.sortedFrom 0 s.ports = true) (n : Nat) (g h : HostPort → HostPort) :
    (s.updPort n g).updPort n h = s.updPort n (fun p => h (g p)) := by
  unfold State.updPort
  rw [State.port_setPort s hs, setPort_setPort s hs]

/-- GO of a message whose header fails a check: the one response follows, and nothing else. -/
theorem endsAtOnce_of {n : Nat} {ext : Option Nat} {data : HostData} (hn : n < 4) (hquiet : Quiet s) (hs : Table.sortedFrom 0 s.ports = true)
    (hreach : (s.port n).reachable = true) (hfw : (s.port n).fwState = 2) (hbusy : (s.port n).mbx.busy = false) (hdone : (s.port n).mbx.done = false)
    (hc : c = Call.ofBytes n .mailbox (s.port n).mbx.inbound ext data) (hhead : headerCheck c = some a) : EndsAtOnce s n ext data c a := by
  have hport : c.port = n := by rw [hc]; rfl
  have hchan : c.chan = .mailbox := by rw [hc]; rfl
  have hbusyPort : (s.updPort n (fun p => { p with mbx := { p.mbx with busy := true } })).port n = { s.port n with mbx := { (s.port n).mbx with busy := true } } :=
    State.port_updPort s hs n _
  have hmax : (s.updPort n (fun p => { p with mbx := { p.mbx with busy := true } })).maxTicks c = s.maxTicks c := by
    subst hport
    exact maxTicks_setPort s c hs _ rfl rfl
  have hsorted : Table.sortedFrom 0 (s.updPort n (fun p => { p with mbx := { p.mbx with busy := true } })).ports = true := sorted_setPort s hs n _
  have htaken : s.goMailbox n ext data = s.updPort n (fun p => s.refusedPort c a { p with mbx := { p.mbx with busy := true } }) := by
    rw [goMailbox_free hreach hfw hbusy hdone, ← hc, accept_refused hsorted hhead (by rw [hport, hbusyPort]; exact hquiet.1 n hn), hport,
      updPort_updPort hs]
    unfold State.refusedPort State.entryAt
    rw [hmax]
    rfl
  have hafter : ∀ p, (s.refusedPort c a p).accepted = [] := fun p => by
    rw [State.refusedPort, (finish_mailbox _ _ _ _ rfl hchan).1]
    simp
  have hquietAfter := quiet_updPort hs hquiet n (fun p => s.refusedPort c a { p with mbx := { p.mbx with busy := true } })
    ((hafter _).trans (hquiet.1 n hn).symm)
  unfold EndsAtOnce
  rw [exec_go hreach, htaken, settle_quiet _ hquietAfter]
  rfl

end

/-- Settles O58: the first check of the header that fails gives the answer. -/
theorem headerFailuresAnswerInOrder : Obligations.HeaderFailuresAnswerInOrder := by
  intro s n ext data c hn hquiet hs hreach hfw hbusy hdone hc
  have hends : ∀ {a}, headerCheck c = some a → EndsAtOnce s n ext data c a := endsAtOnce_of hn hquiet hs hreach hfw hbusy hdone hc
  refine ⟨fun hversion => hends (headerCheck_version hversion), fun hversion hop => hends (headerCheck_unknown hversion hop), fun d hversion hop => ⟨?_, ?_, ?_⟩⟩
  · exact fun hbad => hends (headerCheck_length hversion hop hbad)
  · exact fun hlimit hlength hflags => hends (headerCheck_flags hversion hop hlimit hlength hflags)
  · exact fun hlimit hlength hflags hno hhandle => hends (headerCheck_handle hversion hop hlimit hlength hflags hno hhandle)

/-! ## Taking a message -/

/-- Every Lerad row is its message, taken by its channel. -/
theorem exec_leradRow {i : Instr} {c : Call} {op : Nat} (hrow : leradRow i = some (c, op)) (s : State) : exec i s = .next (s.lerad c op) := by
  unfold leradRow at hrow
  split at hrow
  all_goals cases hrow
  all_goals rfl

section
variable {s : State} {c : Call} {op : Nat}

/-! ### From a ring -/

section
variable {k : Nat} (hchan : c.chan = .pair k)
include hchan

theorem lerad_pair : s.lerad c op = (s.takeEntry c.port k { c with opcode := op }).settle := by
  unfold State.lerad
  rw [hchan]

theorem takeEntry_takes (hfw : (s.port c.port).fwState = 2) (hread : (s.port c.port).mayRead k = true) (hidle : ((s.port c.port).pair k).reading = 0) :
    s.takeEntry c.port k { c with opcode := op } =
      (s.updPort c.port (fun p => p.setPair k { p.pair k with sqHead := ((p.pair k).sqHead + 1) % 2 ^ (p.pair k).sqLog })).accept { c with opcode := op } := by
  have hcall : ({ { c with opcode := op } with port := c.port, chan := .pair k } : Call) = { c with opcode := op } := by rw [← hchan]
  exact (if_neg (by simp [hfw, hread, hidle])).trans (congrArg (State.accept _) hcall)

end

theorem takeEntry_waits {n k : Nat} (hnot : (s.port n).fwState ≠ 2 ∨ (s.port n).mayRead k = false ∨ 0 < ((s.port n).pair k).reading) (m : Call) :
    s.takeEntry n k m = s :=
  if_pos (by rcases hnot with h | h | h <;> simp [h])

/-! ### From the mailbox -/

theorem goMailbox_not {n : Nat} (hnot : (s.port n).reachable = false ∨ (s.port n).fwState ≠ 2) (ext : Option Nat) (data : HostData) : s.goMailbox n ext data = s :=
  if_pos (by rcases hnot with h | h <;> simp [h])

section
variable (hchan : c.chan = .mailbox)
include hchan

theorem lerad_held (hheld : (s.port c.port).reachable = false ∨ (s.port c.port).mbx.busy = true ∨ (s.port c.port).mbx.done = true) :
    s.lerad c op = (s.goMailbox c.port c.extBytes c.data).settle := by
  unfold State.lerad
  rw [hchan]
  dsimp only
  rw [if_neg (by rcases hheld with h | h | h <;> simp [h])]

theorem lerad_written (hreach : (s.port c.port).reachable = true) (hbusy : (s.port c.port).mbx.busy = false) (hdone : (s.port c.port).mbx.done = false) :
    s.lerad c op =
      ((s.updPort c.port (fun p => { p with mbx := { p.mbx with inbound := callMessage { c with opcode := op } } })).goMailbox c.port c.extBytes c.data).settle := by
  unfold State.lerad
  rw [hchan]
  dsimp only
  rw [if_pos (by rw [hreach, hbusy, hdone]; rfl)]

end

/-- GO after the inbound area of a free mailbox has been written: it takes what stands there. -/
theorem goMailbox_inbound {n : Nat} (hs : Table.sortedFrom 0 s.ports = true) (hreach : (s.port n).reachable = true) (hbusy : (s.port n).mbx.busy = false)
    (hdone : (s.port n).mbx.done = false) (hfw : (s.port n).fwState = 2) (v : Nat) (ext : Option Nat) (data : HostData) :
    (s.updPort n (fun p => { p with mbx := { p.mbx with inbound := v } })).goMailbox n ext data =
      (s.updPort n (fun p => { p with mbx := { p.mbx with inbound := v, busy := true } })).accept (Call.ofBytes n .mailbox v ext data) := by
  have hport := State.port_updPort s hs n (fun p => { p with mbx := { p.mbx with inbound := v } })
  rw [goMailbox_free (by rw [hport]; exact hreach) (by rw [hport]; exact hfw) (by rw [hport]; exact hbusy) (by rw [hport]; exact hdone), hport,
    updPort_updPort hs]

theorem goMailbox_inbound_not {n : Nat} (hs : Table.sortedFrom 0 s.ports = true) (hfw : (s.port n).fwState ≠ 2) (v : Nat) (ext : Option Nat) (data : HostData) :
    (s.updPort n (fun p => { p with mbx := { p.mbx with inbound := v } })).goMailbox n ext data =
      s.updPort n (fun p => { p with mbx := { p.mbx with inbound := v } }) := by
  refine goMailbox_not (.inr ?_) ext data
  rw [State.port_updPort s hs]
  exact hfw

theorem ofBytes_written (hwf : ({ c with opcode := op } : Call).wellFormed = true) (hchan : c.chan = .mailbox) :
    Call.ofBytes c.port .mailbox (callMessage { c with opcode := op }) c.extBytes c.data = { c with opcode := op } :=
  (ofBytes_callMessage { c with opcode := op } hwf).trans (by rw [← hchan])

end

/-- Settles O60: a row's message by its channel, and then by whether the channel can give it. -/
theorem leradMessagesAreTaken : Obligations.LeradMessagesAreTaken := by
  intro i s c op hrow hs
  have hexec := exec_leradRow hrow s
  have hbecomes : ∀ {t}, s.lerad c op = t.settle → Becomes i s t := fun h => hexec.trans (congrArg _ h)
  refine ⟨fun k hchan => ⟨fun hfw hread hidle => ?_, fun hnot => ?_, fun d hversion hop hlimit hlength hflags hhandle hadmin => ?_⟩, fun hchan hreach => ?_,
    fun hchan hreach hheld => ⟨fun hfw => ?_, fun hfw => ?_⟩, fun hwf hchan hreach hbusy hdone => ⟨fun hfw => ?_, fun hfw => ?_⟩⟩
  · exact hbecomes ((lerad_pair hchan).trans (congrArg State.settle (takeEntry_takes hchan hfw hread hidle)))
  · exact hbecomes ((lerad_pair hchan).trans (congrArg State.settle (takeEntry_waits hnot _)))
  · exact headerCheck_admin (c := { c with opcode := op }) hversion hop hlimit hlength hflags hhandle hadmin (by rw [hchan]; simp)
  · exact hbecomes ((lerad_held hchan (.inl hreach)).trans (congrArg State.settle (goMailbox_not (.inl hreach) ..)))
  · exact hbecomes ((lerad_held hchan (.inr hheld)).trans (congrArg State.settle (goMailbox_busy hreach hfw hheld ..)))
  · exact hbecomes ((lerad_held hchan (.inr hheld)).trans (congrArg State.settle (goMailbox_not (.inr hfw) ..)))
  · have htakes := goMailbox_inbound hs hreach hbusy hdone hfw (callMessage { c with opcode := op }) c.extBytes c.data
    rw [ofBytes_written hwf hchan] at htakes
    exact hbecomes ((lerad_written hchan hreach hbusy hdone).trans (congrArg State.settle htakes))
  · exact hbecomes ((lerad_written hchan hreach hbusy hdone).trans (congrArg State.settle (goMailbox_inbound_not hs hfw ..)))

end Sys2Proof.Machine
end
